-- ==== Sys2Proof/Word.lean ====
section
/-! DEFINITION. Words, bit fields of natural numbers, and sparse maps.

A sparse map is a list of (key, value) pairs with rising keys in which no value equals the default; every key
that is not listed holds the default. The dictionary, the units of a kind, registers and host memory are sparse maps, so
that equal contents are equal lists. -/

namespace Sys2Proof

abbrev Byte := BitVec 8
abbrev W16 := BitVec 16
abbrev W32 := BitVec 32
abbrev W64 := BitVec 64
abbrev W128 := BitVec 128

/-- A sparse map: see the head of this file. -/
abbrev SMap (α : Type) := List (Nat × α)

/-- The value at key `k`, `d` when the key is not listed. -/
def SMap.look {α : Type} (d : α) : SMap α → Nat → α
  | [], _ => d
  | (k, v) :: m, x => if x = k then v else SMap.look d m x

/-- The map without key `k`. -/
def SMap.del {α : Type} (k : Nat) : SMap α → SMap α
  | [] => []
  | p :: m => if p.1 = k then SMap.del k m else p :: SMap.del k m

/-- Inserts a pair before the first larger key. -/
def SMap.ins {α : Type} (k : Nat) (v : α) : SMap α → SMap α
  | [] => [(k, v)]
  | p :: m => if k < p.1 then (k, v) :: p :: m else p :: SMap.ins k v m

/-- The map with key `k` at value `v`, in the canonical form: the default is not listed. -/
def SMap.put {α : Type} [DecidableEq α] (d : α) (k : Nat) (v : α) (m : SMap α) : SMap α :=
  if v = d then SMap.del k m else SMap.ins k v (SMap.del k m)

/-- The canonical form: keys strictly rising and no listed default. -/
def SMap.Wf {α : Type} (d : α) (m : SMap α) : Prop :=
  m.Pairwise (fun p q => p.1 < q.1) ∧ ∀ p ∈ m, p.2 ≠ d

/-- Updates one key by a function. -/
def SMap.upd {α : Type} [DecidableEq α] (d : α) (k : Nat) (f : α → α) (m : SMap α) : SMap α :=
  SMap.put d k (f (SMap.look d m k)) m

end Sys2Proof
end

