-- ==== Sys2Proof/Syntax.lean ====
section
/-! DEFINITION. The commands the block takes: the operand structures and `Instr`, one constructor per row of the spec's
opcode table. A command names what arrives at a port of Table 15.1 (a doorbell word, a Finfa request, a stream tile, a
memory response, a Belfry frame, a pin) or an action that a unit of the block takes on its own (R12). -/

namespace Sys2Proof

/-- The outcome of the checks of Table 11.1 on the item a command stands for (R293, R294): it passes; it fails once and passes
on the second attempt (transient); it fails twice (lasting); or the parity of the cached Tensor Map entry of `tid` that it uses fails, which
is dropped and walked again. `cause` is the code of Table 11.9, `item` the number of the failing beat or ring link, `col` the array column
to which the checks confine the fault (0xFF: none). -/
inductive Chk where
  | ok
  | transient (cause item : Nat)
  | lasting (cause item col : Nat)
  | twig (tid : Nat)
deriving DecidableEq, Repr

/-- The outcomes of the checks on the tiles of a conversion, by tile number; a tile that is not listed passes (R105). -/
abbrev TileChks := List (Nat × Chk)

/-- One beat on a stream port (Table 4.1): 64 lane slots of 32 bits, slot l in bits [32l + 31 : 32l] of `data` (R86). -/
structure Beat where
  data : Nat
  nlane : Nat
  first : Bool
  last : Bool
  poison : Bool
deriving DecidableEq, Repr

/-- The beats that arrive on one segment's input stream port from SI_FIRST on, with the sidebands sampled there (R84, R88). -/
structure Tile where
  seg : Nat
  tag : Nat
  trow : Nat
  tcol : Nat
  beats : List Beat
deriving DecidableEq, Repr

/-- A captured tile on the runner ring (R102, R149): the descriptor that captured it and its tile coordinates. -/
structure CapTile where
  q : Nat
  seq : Nat
  trow : Nat
  tcol : Nat
deriving DecidableEq, Repr

/-- The fields of a Finfa request that every operation carries (Table 13.1); `rsv` holds its reserved bits. `chk` is the outcome of the checks on the
dictionary's own operation as it serves the request (R293, R300). -/
structure FinfaHead where
  fver : Nat
  role : Nat
  tenant : Nat
  tag : Nat
  dst : Nat
  req : Nat
  segOff : Nat
  rsv : Nat
  chk : Chk := .ok
deriving DecidableEq, Repr

/-- A WRITE that starts RESTORE = 2 (R363), with the single-bit errors that the read of the NV copy will meet and ECC corrects (R364). -/
structure NvRead where
  h : FinfaHead
  corrected : Nat
deriving DecidableEq, Repr

/-- A conversion at its dispatch: its queue, and the outcomes of the checks on its tiles. -/
structure ConvDisp where
  q : Nat
  ks : TileChks
deriving DecidableEq, Repr

/-- A REDUCE at its dispatch: its queue, and the outcome of the checks on what a Lantern does of it (R293). -/
structure RedDisp where
  q : Nat
  chk : Chk
deriving DecidableEq, Repr

/-- The checks of a close: whether the central comparator fails its self-test (R303), and the outcomes of the checks on the central scale unit and on the
sequencer (R293, R302). -/
structure CloseChks where
  cmp : Bool
  scale : Chk
  seqr : Chk
deriving DecidableEq, Repr

/-- Words received on a Belfry port, and whether Bn_RX_ERR came with one of them (R326, Table 15.6). -/
structure RxWords where
  words : List Nat
  err : Bool
deriving DecidableEq, Repr

/-- The three objects of R282 whose write acts as an invalidation of 0. -/
inductive TmtObj where
  | dirBase | dirLog2 | attr
deriving DecidableEq, Repr

/-- A unit named by its kind code of Table 11.6 and its physical number (R307). -/
structure UnitRef where
  kind : Nat
  unit : Nat
deriving DecidableEq, Repr

/-- The power domains of R372. -/
inductive Domain where
  | lane | spire | aon | nv
deriving DecidableEq, Repr

/-- A hardened macro of Table 15.7, the carrier of one IEEE 1500 wrapper (R410). -/
inductive Macro where
  | segment (n : Nat) | array (n : Nat) | lantern (n : Nat) | memPort (n : Nat) | core
deriving DecidableEq, Repr

/-- A Belfry frame (Table 12.1), without its CRC; `rsv` holds its reserved bits (R327). -/
structure Frame where
  ftype : Nat
  hops : Nat
  pwords : Nat
  group : Nat
  src : Nat
  dst : Nat
  lseq : Nat
  credit : Nat
  ack : Nat
  arg0 : Nat
  arg1 : Nat
  payload : List Nat
  rsv : Nat
deriving DecidableEq, Repr

/-- The issue of a Lantern instruction: logical Lantern `l` of the routine that runs descriptor `seq` of queue `q`. -/
structure LIss where
  q : Nat
  seq : Nat
  l : Nat
  chk : Chk
deriving DecidableEq, Repr

/-- The fields of the vector format (Table 7.3) beside OPC. -/
structure VF where
  d : Nat
  a : Nat
  b : Nat
  c : Nat
  ms : Nat
  men : Nat
  cnt : Nat
  sa : Nat
  f1 : Nat
  f2 : Nat
  ovf : Nat
  rsv : Nat
deriving DecidableEq, Repr

/-- The fields of the scalar format (Table 7.4) beside OPC. -/
structure SF where
  sd : Nat
  sa : Nat
  sb : Nat
  ms : Nat
  rsv : Nat
  imm : Nat
deriving DecidableEq, Repr

/-- The issue of an array instruction on logical array `la` of the routine that runs descriptor `seq` of queue `q`. -/
structure AIss where
  q : Nat
  seq : Nat
  la : Nat
  chk : Chk
deriving DecidableEq, Repr

/-- FSET (Table 5.2); `rsv` holds the reserved bits. -/
structure FsetF where
  side : Nat
  fmt : Nat
  xmode : Nat
  xfmt : Nat
  xtid : Nat
  rsv : Nat
deriving DecidableEq, Repr

/-- PASS (Table 5.3). -/
structure PassF where
  group : Nat
  slot : Nat
  dtile : Nat
  last : Bool
  ahold : Bool
  kg : Nat
  rsv : Nat
deriving DecidableEq, Repr

/-- GOPEN (Table 5.4). -/
structure GopenF where
  group : Nat
  mode : Nat
  dbase : Nat
  dcountM1 : Nat
  tcolsM1 : Nat
  outNM1 : Nat
  row0 : Nat
  col0 : Nat
  outTid : Nat
  rsv : Nat
deriving DecidableEq, Repr

/-- GDRAIN (Table 5.5). -/
structure GdrainF where
  group : Nat
  form : Nat
  close : Bool
  rsv : Nat
deriving DecidableEq, Repr

/-- The commands: one constructor per row of the opcode table. -/
inductive Instr where
  /-- TAIL (R233). -/
  | tail (q index : Nat)
  /-- IRQ_ACK (R233). -/
  | irqAck (q : Nat)
  /-- DOORBELL_ERRORS (R233). -/
  | doorbellErrors (word : Nat)
  /-- STREAM_TILE (R89). -/
  | streamTile (t : Tile) (chk : Chk)
  /-- ORPHAN_TILE (R90). -/
  | orphanTile (seg : Nat)
  /-- CAPTURE_TILE (R152). -/
  | captureTile (c : CapTile) (chk : Chk)
  /-- READ_DATA (R285). -/
  | readData (port tag data : Nat) (last : Bool) (resp : Nat) (poison : Bool)
  /-- WRITE_RESPONSE (R286). -/
  | writeResponse (port tag resp : Nat)
  /-- MEM_TIMEOUT (R289). -/
  | memTimeout (port tag : Nat) (wr : Bool)
  /-- READ (R349). -/
  | finfaRead (h : FinfaHead) (index sub : Nat)
  /-- WRITE (R359). -/
  | finfaWrite (h : FinfaHead) (index sub v : Nat)
  /-- SEG_READ (R356). -/
  | segRead (h : FinfaHead) (index sub : Nat)
  /-- SEG_WRITE (R357). -/
  | segWrite (h : FinfaHead) (index sub v : Nat)
  /-- ABORT (R358). -/
  | abort (h : FinfaHead) (index sub v : Nat)
  /-- NEXT (R360). -/
  | finfaNext (h : FinfaHead) (index sub v : Nat)
  /-- FINFA_PACKET_DISCARD (R401). -/
  | finfaPacketDiscard
  /-- SEG_TIMEOUT (R358). -/
  | segTimeout (requester : Nat)
  /-- ARCH_LEVEL_REQUEST (R6). -/
  | archLevelRequest (h : FinfaHead) (v : Nat)
  /-- QUEUE_ENABLE (R268). -/
  | queueEnable (h : FinfaHead) (v : Nat)
  /-- QUEUE_RESET (R269). -/
  | queueReset (h : FinfaHead) (v : Nat)
  /-- SLOT_RESET (R67). -/
  | slotReset (h : FinfaHead) (v : Nat)
  /-- OWNER (R67). -/
  | histOwner (h : FinfaHead) (v : Nat)
  /-- SYNC_VALUE (R260). -/
  | syncValue (h : FinfaHead) (v : Nat)
  /-- TMAP_INVALIDATE (R282). -/
  | tmapInvalidate (h : FinfaHead) (v : Nat)
  /-- TMT_DIR_BASE (R282). -/
  | tmtDirBase (h : FinfaHead) (o : TmtObj) (v : Nat)
  /-- TMAP_INV_DONE (R282). -/
  | tmapInvDone
  /-- DEVWIN_BASE (R282). -/
  | devwinBase (h : FinfaHead) (size : Bool) (n v : Nat)
  /-- INSTANCE_ID (R359). -/
  | instanceId (h : FinfaHead) (v : Nat)
  /-- FIRST_FAULT_CLEAR (R315). -/
  | firstFaultClear (h : FinfaHead) (v : Nat)
  /-- EVLOG_ENABLE (R312). -/
  | evlogEnable (h : FinfaHead) (v : Nat)
  /-- EVLOG_HEAD (R311). -/
  | evlogHead (h : FinfaHead) (v : Nat)
  /-- EVLOG_IRQ_ACK (R313). -/
  | evlogIrqAck (h : FinfaHead) (v : Nat)
  /-- NAN_TRAP_MODE (R316). -/
  | nanTrapMode (h : FinfaHead) (v : Nat)
  /-- EPOCH_OPEN (R340). -/
  | epochOpen (h : FinfaHead)
  /-- EPOCH_ARM (R340). -/
  | epochArm (h : FinfaHead)
  /-- EPOCH_ABORT (R340). -/
  | epochAbort (h : FinfaHead)
  /-- STORE (R362). -/
  | nvStore (h : FinfaHead) (v : Nat)
  /-- NV_STORE_DONE (R362). -/
  | nvStoreDone (pass : Bool)
  /-- RESTORE_DEFAULTS (R363). -/
  | restoreDefaults (h : FinfaHead)
  /-- RESTORE_NV (R363). -/
  | restoreNv (r : NvRead)
  /-- RESTORE_DONE (R363). -/
  | restoreDone
  /-- REPAIR_STORE (R388). -/
  | repairStore (h : FinfaHead) (v : Nat)
  /-- TEST (R318). -/
  | test (h : FinfaHead)
  /-- HOLD (R318). -/
  | testHold (h : FinfaHead)
  /-- RETURN (R318). -/
  | testReturn (h : FinfaHead)
  /-- TEST_DRAIN_DONE (R319). -/
  | testDrainDone
  /-- SELF_TEST_DONE (R319). -/
  | selfTestDone (kind unit : Nat) (failed : List Nat) (whole : Bool)
  /-- BELL_RESET (R380). -/
  | bellReset (h : FinfaHead) (v : Nat)
  /-- POWER_REQUEST (R381). -/
  | powerRequest (h : FinfaHead) (v : Nat)
  /-- PORT_CHECK (R415). -/
  | portCheck (h : FinfaHead) (v : Nat)
  /-- PSTATE_REQ (R381). -/
  | pstateReq (v : Nat)
  /-- POWER_ENTRY (R382). -/
  | powerEntry
  /-- POWER_EXIT_DONE (R382). -/
  | powerExitDone
  /-- THR (R384). -/
  | thr (v : Nat)
  /-- COLD_RESET (R373). -/
  | coldReset (powerUp : Bool)
  /-- COLD_RESET_RELEASE (R373). -/
  | coldResetRelease (testMode : Bool)
  /-- WARM_RESET (R379). -/
  | warmReset
  /-- WARM_RESET_RELEASE (R379). -/
  | warmResetRelease
  /-- POWER_GOOD_FALL (R397). -/
  | powerGoodFall (d : Domain)
  /-- NV_LOAD (R364). -/
  | nvLoad (corrected : Nat)
  /-- CORE_TEST (R374). -/
  | coreTest (failed : List UnitRef)
  /-- FORMATION_TIMEOUT (R375). -/
  | formationTimeout
  /-- GROUP_OF_ONE (R375). -/
  | groupOfOne
  /-- TEMP_READ (R385). -/
  | tempRead (readings : List Nat)
  /-- CLOCK_MEASURE (R393). -/
  | clockMeasure (lclkKhz mclkKhz : Nat)
  /-- GOVERNOR_WINDOW (R17). -/
  | governorWindow
  /-- BELL_CLOSE (R227). -/
  | bellClose (cmpFail : List Nat) (central : CloseChks)
  /-- PACE_BREAKS (R223). -/
  | paceBreaks
  /-- TOLL (R333). -/
  | toll
  /-- F_BELL_OVERRUN (R226). -/
  | fBellOverrun
  /-- F_STREAM_TIMEOUT (R91). -/
  | fStreamTimeout (q seq : Nat)
  /-- DEADLINE (R171). -/
  | deadline (q seq : Nat)
  /-- F_WAIT_TIMEOUT (R261). -/
  | fWaitTimeout (q seq : Nat)
  /-- BELL_WAIT_END (R222). -/
  | bellWaitEnd (q seq : Nat)
  /-- NOP (R263). -/
  | nop (q : Nat)
  /-- CONVERT (R54). -/
  | convert (d : ConvDisp)
  /-- QUANT (R50). -/
  | quant (d : ConvDisp)
  /-- DEQUANT (R73). -/
  | dequant (d : ConvDisp)
  /-- STATS (R54). -/
  | stats (d : ConvDisp)
  /-- GRAM (R154). -/
  | gram (q : Nat)
  /-- ROOT (R158). -/
  | rootOp (q : Nat)
  /-- SOLVE (R161). -/
  | solve (q : Nat)
  /-- PRECOND (R166). -/
  | precond (q : Nat)
  /-- REDUCE (R241). -/
  | reduce (d : RedDisp)
  /-- FENCE (R262). -/
  | fence (q : Nat)
  /-- BELL_WAIT (R222). -/
  | bellWait (q : Nat)
  /-- SIGNAL (R260). -/
  | signal (q : Nat)
  /-- WAIT (R261). -/
  | waitOp (q : Nat)
  /-- COMMIT (R246). -/
  | commit (q seq : Nat)
  /-- RELEASED (R245). -/
  | released (q : Nat)
  /-- EVLOG_ENTRY_WRITE (R311). -/
  | evlogEntryWrite
  /-- ITER_BOUND (R172). -/
  | iterBound (q seq : Nat)
  /-- ROUTINE_RESTART (R168). -/
  | routineRestart (q seq : Nat)
  /-- FALLBACK_PROMOTIONS (R205). -/
  | fallbackPromotions (q seq la slot : Nat)
  /-- ARRAY_NOP (R112). -/
  | arrNop (x : AIss) (rsv : Nat)
  /-- FSET (R117). -/
  | fset (x : AIss) (f : FsetF)
  /-- PASS (R110). -/
  | pass (x : AIss) (f : PassF)
  /-- GOPEN (R124). -/
  | gopen (x : AIss) (f : GopenF)
  /-- GDRAIN (R126). -/
  | gdrain (x : AIss) (f : GdrainF)
  /-- VADD (R185). -/
  | vadd (i : LIss) (f : VF)
  /-- VSUB (R185). -/
  | vsub (i : LIss) (f : VF)
  /-- VMUL (R185). -/
  | vmul (i : LIss) (f : VF)
  /-- VFMA (R185). -/
  | vfma (i : LIss) (f : VF)
  /-- VDIV (R185). -/
  | vdiv (i : LIss) (f : VF)
  /-- VSQRT (R185). -/
  | vsqrt (i : LIss) (f : VF)
  /-- VMIN (R185). -/
  | vmin (i : LIss) (f : VF)
  /-- VMAX (R185). -/
  | vmax (i : LIss) (f : VF)
  /-- VABS (R185). -/
  | vabs (i : LIss) (f : VF)
  /-- VNEG (R185). -/
  | vneg (i : LIss) (f : VF)
  /-- VADDS (R185). -/
  | vadds (i : LIss) (f : VF)
  /-- VMULS (R185). -/
  | vmuls (i : LIss) (f : VF)
  /-- VFMAS (R185). -/
  | vfmas (i : LIss) (f : VF)
  /-- VPADD (R195). -/
  | vpadd (i : LIss) (f : VF)
  /-- VIADD (R186). -/
  | viadd (i : LIss) (f : VF)
  /-- VISUB (R186). -/
  | visub (i : LIss) (f : VF)
  /-- VIMUL (R186). -/
  | vimul (i : LIss) (f : VF)
  /-- VIADDSAT (R186). -/
  | viaddsat (i : LIss) (f : VF)
  /-- VAND (R186). -/
  | vand (i : LIss) (f : VF)
  /-- VOR (R186). -/
  | vor (i : LIss) (f : VF)
  /-- VXOR (R186). -/
  | vxor (i : LIss) (f : VF)
  /-- VSHL (R186). -/
  | vshl (i : LIss) (f : VF)
  /-- VSRA (R186). -/
  | vsra (i : LIss) (f : VF)
  /-- VSRL (R186). -/
  | vsrl (i : LIss) (f : VF)
  /-- VIOTA (R184). -/
  | viota (i : LIss) (f : VF)
  /-- VMOV (R184). -/
  | vmov (i : LIss) (f : VF)
  /-- VBCAST (R184). -/
  | vbcast (i : LIss) (f : VF)
  /-- VCMP (R184). -/
  | vcmp (i : LIss) (f : VF)
  /-- VICMP (R184). -/
  | vicmp (i : LIss) (f : VF)
  /-- VSEL (R184). -/
  | vsel (i : LIss) (f : VF)
  /-- MAND (R184). -/
  | mand (i : LIss) (f : VF)
  /-- MOR (R184). -/
  | mor (i : LIss) (f : VF)
  /-- MNOT (R184). -/
  | mnot (i : LIss) (f : VF)
  /-- MANY (R184). -/
  | many (i : LIss) (f : VF)
  /-- VRSUM (R193). -/
  | vrsum (i : LIss) (f : VF)
  /-- VRMAX (R193). -/
  | vrmax (i : LIss) (f : VF)
  /-- VRMIN (R193). -/
  | vrmin (i : LIss) (f : VF)
  /-- VRCSUM (R195). -/
  | vrcsum (i : LIss) (f : VF)
  /-- VRISUM (R186). -/
  | vrisum (i : LIss) (f : VF)
  /-- VCVT (R187). -/
  | vcvt (i : LIss) (f : VF)
  /-- VLD (R188). -/
  | vld (i : LIss) (f : VF)
  /-- VST (R188). -/
  | vst (i : LIss) (f : VF)
  /-- SLI (R184). -/
  | sli (i : LIss) (f : SF)
  /-- SLIH (R184). -/
  | slih (i : LIss) (f : SF)
  /-- SADDI (R186). -/
  | saddi (i : LIss) (f : SF)
  /-- SADD (R186). -/
  | sadd (i : LIss) (f : SF)
  /-- SSUB (R186). -/
  | ssub (i : LIss) (f : SF)
  /-- SMUL (R186). -/
  | smul (i : LIss) (f : SF)
  /-- SSHL (R186). -/
  | sshl (i : LIss) (f : SF)
  /-- SSHR (R186). -/
  | sshr (i : LIss) (f : SF)
  /-- SFADD (R185). -/
  | sfadd (i : LIss) (f : SF)
  /-- SFSUB (R185). -/
  | sfsub (i : LIss) (f : SF)
  /-- SFMUL (R185). -/
  | sfmul (i : LIss) (f : SF)
  /-- SFDIV (R185). -/
  | sfdiv (i : LIss) (f : SF)
  /-- SFSQRT (R185). -/
  | sfsqrt (i : LIss) (f : SF)
  /-- SCMPM (R184). -/
  | scmpm (i : LIss) (f : SF)
  /-- SSEL (R184). -/
  | ssel (i : LIss) (f : SF)
  /-- RDP (R192). -/
  | rdp (i : LIss) (f : SF)
  /-- SETVL (R184). -/
  | setvl (i : LIss) (f : SF)
  /-- SETVLI (R184). -/
  | setvli (i : LIss) (f : SF)
  /-- MODEW (R206). -/
  | modew (i : LIss) (f : SF)
  /-- MODER (R184). -/
  | moder (i : LIss) (f : SF)
  /-- LOOP (R198). -/
  | loop (i : LIss) (f : SF)
  /-- ENDLOOP (R198). -/
  | endloop (i : LIss) (f : SF)
  /-- BRK (R199). -/
  | brk (i : LIss) (f : SF)
  /-- BOUNDARY (R200). -/
  | boundary (i : LIss) (f : SF)
  /-- BAR (R201). -/
  | bar (i : LIss) (f : SF)
  /-- SCHED (R202). -/
  | sched (i : LIss) (f : SF)
  /-- RET (R202). -/
  | lnRet (i : LIss) (f : SF)
  /-- PIVF (R202). -/
  | pivf (i : LIss) (f : SF)
  /-- END (R201). -/
  | lnEnd (i : LIss) (f : SF)
  /-- STOP (R201). -/
  | lnStop (i : LIss) (f : SF)
  /-- ASTR (R203). -/
  | astr (i : LIss) (f : SF)
  /-- AISS (R204). -/
  | aiss (i : LIss) (f : SF)
  /-- AWAIT (R204). -/
  | await (i : LIss) (f : SF)
  /-- AFLG (R204). -/
  | aflg (i : LIss) (f : SF)
  /-- LANTERN_NOP (R184). -/
  | lnNop (i : LIss) (f : SF)
  /-- TRAIN (R327). -/
  | train (port : Nat) (f : Frame)
  /-- CAL_REQ (R330). -/
  | calReq (port : Nat) (f : Frame)
  /-- CAL_RSP (R330). -/
  | calRsp (port : Nat) (f : Frame)
  /-- ARRIVE (R332). -/
  | arrive (port : Nat) (f : Frame)
  /-- RELEASE (R333). -/
  | release (port : Nat) (f : Frame)
  /-- REDUCE_UP (R336). -/
  | reduceUp (port : Nat) (f : Frame)
  /-- REDUCE_DOWN (R336). -/
  | reduceDown (port : Nat) (f : Frame)
  /-- LOST (R335). -/
  | lost (port : Nat) (f : Frame)
  /-- ALIVE (R335). -/
  | alive (port : Nat) (f : Frame)
  /-- FRAME_FORWARD (R329). -/
  | frameForward (port : Nat) (f : Frame)
  /-- BPORT_RETRANSMITS (R328). -/
  | bportRetransmits (port : Nat)
  /-- CAL_PERIOD (R330). -/
  | calPeriod (port : Nat)
  /-- ALIVE_INTERVAL (R335). -/
  | aliveInterval
  /-- TOLL_TIMEOUT (R335). -/
  | tollTimeout (rank : Nat)
  /-- REDUCE_TIMEOUT (R337). -/
  | reduceTimeout (q seq : Nat)
  /-- LOCK (R403). -/
  | lockFall (port : Nat)
  /-- POWER_GOOD_RISE (R382). -/
  | powerGoodRise (d : Domain)
  /-- LOCK_RISE (R403). -/
  | lockRise (port : Nat)
  /-- RETRAIN_TIMEOUT (R328). -/
  | retrainTimeout (port : Nat)
  /-- BELFRY_FRAME_DISCARD (R327). -/
  | belfryFrameDiscard (port : Nat) (rx : RxWords)
  /-- MALFORMED (R352). -/
  | malformed (b0 b1 b2 b3 : Nat) (chk : Chk)
  /-- F_DESC_MALFORMED (R237). -/
  | fDescMalformed (q : Nat)
  /-- F_SPIRE_OP (R113). -/
  | fSpireOp (x : AIss) (op : Nat)
  /-- F_LANTERN_ILLEGAL (R183). -/
  | fLanternIllegal (i : LIss) (word : Nat)
  /-- THROTTLE_FORCE (R384). -/
  | throttleForce (h : FinfaHead) (v : Nat)
  /-- REPAIR_STORE_DONE (R388). -/
  | repairStoreDone (pass : Bool)
  /-- IJTAG_UNIT_SELF_TEST (R413). -/
  | ijtagUnitSelfTest (kind unit : Nat)
  /-- WIR_UPDATE (R410). -/
  | wirUpdate (m : Macro) (code : Nat)
deriving DecidableEq, Repr

end Sys2Proof
end

