-- ==== Sys2Proof/Config.lean ====
section
/-! DEFINITION. Values that the spec leaves open and the machine goes on with: each is an opaque function, so that nothing can be proved of the value
itself (log 3). Those of time are applied to a value of the counter `State.freeCtr`; those that reach memory or a record, which R341 promises equal
in equal runs, to the bell, queue and DESC_SEQ of their descriptor. -/

namespace Sys2Proof.Config

/-- The microseconds that STARTUP_TIME records (R376): the LCLK frequency is the integrator's. -/
opaque startupTime : Nat → BitVec 32

/-- The cycles that the governor freezes in a window whose estimate passes the limit (R17): until the estimate returns within it, a matter of time. -/
opaque governorFrozen : Nat → BitVec 10

/-- Whether a PASS found its array holding no pass and not ramping down, so that a ramp-up starts (R130): a matter of time. -/
opaque rampStart : Nat → BitVec 1

/-- The cycles for which an array was frozen before a PASS for want of operands, or by a full promotion queue (R116): a matter of time. -/
opaque stallCycles : Nat → BitVec 32

/-- The scale s that the front stage takes for a requantised capture (R151): the spec gives the requantised tensor no scale. -/
opaque requantScale : Nat → Nat → Nat → BitVec 32

/-- RESULT_STEP of a routine that has read no result header (a no-op of R143, a refusal before the header's read): R147 names the header's STEP. -/
opaque resultStep : Nat → Nat → Nat → BitVec 32

/-- BELL of the record of a descriptor that a queue reset completes before any bell admitted it (R243, R269). -/
opaque resetBell : Nat → Nat → Nat → BitVec 32

/-- What BPORT_ASYM adds to a measured offset, in units of 2^-16 cycle, for a value of the object that is not 0 (R330: θ is corrected by it;
the spec gives neither the sign nor the share). -/
opaque asymCorrection : Nat → BitVec 32

end Sys2Proof.Config
end

