-- ==== Sys2Proof/Machine/BelfryTypes.lean ====
section
/-! DEFINITION. The records of the Belfry (12_belfry.md): ports, frames kept until acknowledged, the toll's arrivals and the
reduce contexts. -/

namespace Sys2Proof

/-- A frame sent on a link and not yet acknowledged (R328); `again` after its one repetition. -/
structure SentFrame where
  lseq : Nat
  frame : Frame
  again : Bool := false
deriving DecidableEq, Repr

/-- A Belfry port's link state (R328, R330). `calT1` is the stamp of an outstanding CAL_REQ; `stepped` after the first
calibration against a time parent, `lostLock` while a lock that fell has not been cured; `waiting` frames wait for credit or training; `held` are
REDUCE_UP frames received that wait for a reduce context (R337). -/
structure BPort where
  lock : Bool := false
  trained : Bool := false
  nextLseq : Nat := 1
  lastRx : Nat := 0
  credit : Nat := 32
  unacked : List SentFrame := []
  waiting : List Frame := []
  held : List Frame := []
  calT1 : Option Nat := none
  stepped : Bool := false
  lostLock : Bool := false
deriving DecidableEq, Repr

/-- An ARRIVE received for the running bell, or at formation: rank, ready stamp, LOW_RANK and mismatch count. -/
structure Arrival where
  rank : Nat
  ready : Nat
  low : Nat
  count : Nat
deriving DecidableEq, Repr

/-- Elements of a node from one rank: element number, V and E. -/
structure RedNode where
  rank : Nat
  count : Nat
  rop : Nat
  pair : Bool
  err : Bool
  elems : List (Nat × Nat × Nat)
deriving DecidableEq, Repr

/-- A reduce context (R336, R337): matched by (RGROUP, RTAG); `owner` is the local REDUCE once dispatched. `src` is the address of its partials, `own` the member's node at
`level`, `down0` its partials, `down` what has come of the result, and `result` the result once it is whole and waits to be written. -/
structure RedCtx where
  group : Nat
  tag : Nat
  owner : Option (Nat × Nat) := none
  tenant : Nat := 0
  rank : Nat := 0
  size : Nat := 1
  grp : Nat × Nat × Nat := (0, 1, 1)
  count : Nat := 0
  rop : Nat := 0
  pair : Bool := false
  level : Nat := 0
  own : List (Nat × Nat) := []
  nodes : List RedNode := []
  down0 : List (Nat × Nat) := []
  down : List (Nat × Nat × Nat) := []
  err : Nat := 0
  src : Nat := 0
  result : Option (List (Nat × Nat)) := none
  sent : Bool := false
deriving DecidableEq, Repr

/-- The bell group as formed (R324, R332): this instance's number as it formed, base and size in force, ranks lost and those of them whose LOST has gone down the tree, what has arrived for the running bell, the stamp and digest of
its RELEASE, the digest summary, and this member's digest of the running bell. -/
structure Group where
  self : Nat := 0
  base : Nat := 0
  size : Nat := 1
  lost : List Nat := []
  lostNext : List Nat := []
  told : List Nat := []
  arrivals : List Arrival := []
  sentUp : Bool := false
  stamp : Option Nat := none
  nextDigest : Nat := 0
  ownDigest : Nat := 0
  sum : Nat × Nat := (0xFFFF, 0)
  prevMismatch : Bool := false
  heardSent : Bool := false
deriving DecidableEq, Repr

end Sys2Proof
end

