-- ==== Sys2Proof/Machine/Bits.lean ====
section
/-! DEFINITION. Bit fields, sign extension, byte order (00_scope R9: little-endian) and list helpers. -/

namespace Sys2Proof

/-- The `w` bits of `x` from bit `lo` upward. -/
def bits (x lo w : Nat) : Nat := (x >>> lo) % 2 ^ w

/-- Bit `i` of `x` as a Bool. -/
def bitAt (x i : Nat) : Bool := bits x i 1 == 1

/-- A Bool as 0 or 1. -/
def b2n (b : Bool) : Nat := if b then 1 else 0

/-- `x` with the `w` bits from `lo` replaced by the low bits of `v`. -/
def setBits (x lo w v : Nat) : Nat :=
  x - (bits x lo w) * 2 ^ lo + (v % 2 ^ w) * 2 ^ lo

/-- The signed value of the low `w` bits of `x` in two's complement. -/
def sext (w x : Nat) : Int :=
  let y := x % 2 ^ w
  if y < 2 ^ (w - 1) then (y : Int) else (y : Int) - (2 ^ w : Nat)

/-- The low `w` bits of a signed value in two's complement. -/
def trunc2 (w : Nat) (x : Int) : Nat := (x % ((2 ^ w : Nat) : Int)).toNat

/-- Division rounding up; 0 when the divisor is 0. -/
def ceilDiv (a b : Nat) : Nat := (a + b - 1) / b

/-- The number whose little-endian bytes are `bs` (R9). -/
def ofBytes : List Nat → Nat
  | [] => 0
  | b :: bs => b % 256 + 256 * ofBytes bs

/-- The `n` little-endian bytes of `x` (R9). -/
def toBytes : Nat → Nat → List Nat
  | 0, _ => []
  | n + 1, x => x % 256 :: toBytes n (x / 256)

/-- `[lo, lo+1, …]`, `n` numbers. -/
def rangeFrom (lo n : Nat) : List Nat := (List.range n).map (lo + ·)

/-- Element `i` of a list, `d` beyond its end. -/
def nth {α : Type} (d : α) : List α → Nat → α
  | [], _ => d
  | x :: _, 0 => x
  | _ :: xs, n + 1 => nth d xs n

/-- The list with element `i` replaced (unchanged when it has no such element). -/
def setNth {α : Type} : List α → Nat → α → List α
  | [], _, _ => []
  | _ :: xs, 0, v => v :: xs
  | x :: xs, n + 1, v => x :: setNth xs n v

/-- The sum of a list. -/
def sumN : List Nat → Nat
  | [] => 0
  | x :: xs => x + sumN xs

/-- The largest of a list, 0 when it is empty. -/
def maxN : List Nat → Nat
  | [] => 0
  | x :: xs => max x (maxN xs)

/-- The first `some`, in list order. -/
def firstSome {α β : Type} (f : α → Option β) : List α → Option β
  | [] => none
  | x :: xs => match f x with
    | some y => some y
    | none => firstSome f xs

/-- Replaces each element for which `p` holds. -/
def mapIf {α : Type} (p : α → Bool) (f : α → α) (l : List α) : List α :=
  l.map (fun x => if p x then f x else x)

/-- Inserts `x` into a list sorted by `key`, after the elements whose key is not larger. -/
def insertBy {α : Type} (key : α → Nat) (x : α) : List α → List α
  | [] => [x]
  | y :: ys => if key x < key y then x :: y :: ys else y :: insertBy key x ys

/-- The list sorted by `key`, equal keys in their order. -/
def sortBy {α : Type} (key : α → Nat) : List α → List α
  | [] => []
  | x :: xs =>
    let r := sortBy key xs
    match r with
    | [] => [x]
    | y :: ys => if key x ≤ key y then x :: y :: ys else y :: (insertBy key x ys)

end Sys2Proof
end

