-- ==== Sys2Proof/Machine/Num.lean ====
section
/-! DEFINITION. Number formats and arithmetic (02_number_formats.md): format codes, exact values, the one rounding of
R30 to R35, the stochastic-rounding generator of R36, NaN handling under R28 and the flags of Table 2.10. -/

namespace Sys2Proof

/-- The formats of Table 2.1 (R20). -/
inductive Fmt where
  | fp32 | fp16 | bf16 | e4m3 | e5m2 | int8 | uint8 | int4 | int32 | e8m0
deriving DecidableEq, Repr

/-- A format code of Table 2.1; a reserved code is none (R22). -/
def Fmt.ofCode (n : Nat) : Option Fmt :=
  match n with
  | 0 => some .fp32 | 1 => some .fp16 | 2 => some .bf16 | 3 => some .e4m3 | 4 => some .e5m2
  | 5 => some .int8 | 6 => some .uint8 | 7 => some .int4 | 8 => some .int32 | 9 => some .e8m0
  | _ => none

/-- The width in bits (Table 2.1). -/
def Fmt.width : Fmt → Nat
  | .fp32 => 32 | .fp16 => 16 | .bf16 => 16 | .e4m3 => 8 | .e5m2 => 8
  | .int8 => 8 | .uint8 => 8 | .int4 => 4 | .int32 => 32 | .e8m0 => 8

/-- The five floating-point formats of Table 2.3. -/
def Fmt.isFloat : Fmt → Bool
  | .fp32 => true | .fp16 => true | .bf16 => true | .e4m3 => true | .e5m2 => true
  | _ => false

def Fmt.isInt : Fmt → Bool
  | .int8 => true | .uint8 => true | .int4 => true | .int32 => true
  | _ => false

/-- Mantissa bits (Table 2.3). -/
def Fmt.mbits : Fmt → Nat
  | .fp32 => 23 | .fp16 => 10 | .bf16 => 7 | .e4m3 => 3 | .e5m2 => 2 | _ => 0

/-- Exponent bits (Table 2.3). -/
def Fmt.ebits : Fmt → Nat
  | .fp32 => 8 | .fp16 => 5 | .bf16 => 8 | .e4m3 => 4 | .e5m2 => 5 | _ => 0

/-- Exponent bias (Table 2.3). -/
def Fmt.bias : Fmt → Nat
  | .fp32 => 127 | .fp16 => 15 | .bf16 => 127 | .e4m3 => 7 | .e5m2 => 15 | _ => 0

/-- The largest finite code, without its sign (Table 2.4). -/
def Fmt.maxCode : Fmt → Nat
  | .fp32 => 0x7F7FFFFF | .fp16 => 0x7BFF | .bf16 => 0x7F7F | .e4m3 => 0x7E | .e5m2 => 0x7B | _ => 0

/-- The code of +infinity; E4M3 has none (Table 2.4). -/
def Fmt.infCode : Fmt → Nat
  | .fp32 => 0x7F800000 | .fp16 => 0x7C00 | .bf16 => 0x7F80 | .e5m2 => 0x7C | _ => 0

/-- The canonical NaN (Table 2.5). -/
def Fmt.canonNan : Fmt → Nat
  | .fp32 => 0x7FC00000 | .fp16 => 0x7E00 | .bf16 => 0x7FC0 | .e4m3 => 0x7F | .e5m2 => 0x7E | .e8m0 => 0xFF
  | _ => 0

/-- An exact value. The magnitude of a finite value is `num / den`; zeros keep their sign (R27). A NaN keeps its
sign, its payload as a left-aligned 23-bit mantissa, and whether it signals (R28). -/
inductive Val where
  | nan (neg : Bool) (payload : Nat) (snan : Bool)
  | inf (neg : Bool)
  | fin (neg : Bool) (num den : Nat)
deriving DecidableEq, Repr

def Val.zero : Val := .fin false 0 1

/-- The quiet NaN that no NaN operand caused. -/
def Val.qnan : Val := .nan false 0x400000 false

def Val.isNan : Val → Bool
  | .nan .. => true
  | _ => false

def Val.isInf : Val → Bool
  | .inf _ => true
  | _ => false

def Val.isFin : Val → Bool
  | .fin .. => true
  | _ => false

def Val.isZero : Val → Bool
  | .fin _ n _ => n == 0
  | _ => false

def Val.isSnan : Val → Bool
  | .nan _ _ b => b
  | _ => false

def Val.neg? : Val → Bool
  | .nan b _ _ => b
  | .inf b => b
  | .fin b _ _ => b

/-- `sig × 2^e` with a sign. -/
def Val.dyadic (neg : Bool) (sig : Nat) (e : Int) : Val :=
  if 0 ≤ e then .fin neg (sig * 2 ^ e.toNat) 1 else .fin neg sig (2 ^ (-e).toNat)

/-- An integer as a value; 0 is +0. -/
def Val.ofInt (x : Int) : Val := .fin (decide (x < 0)) x.natAbs 1

/-- The value of a floating-point code (R23). -/
def decodeFloat (f : Fmt) (c : Nat) : Val :=
  let mb := f.mbits
  let eb := f.ebits
  let neg := bitAt c (f.width - 1)
  let e := bits c mb eb
  let m := bits c 0 mb
  let top := 2 ^ eb - 1
  if f = .e4m3 then
    if e = top ∧ m = 7 then .nan neg 0x400000 false
    else if e = 0 then Val.dyadic neg m (1 - (f.bias : Int) - mb)
    else Val.dyadic neg (2 ^ mb + m) ((e : Int) - f.bias - mb)
  else if e = top then
    if m = 0 then .inf neg
    else .nan neg (m * 2 ^ (23 - mb)) (!bitAt m (mb - 1))
  else if e = 0 then Val.dyadic neg m (1 - (f.bias : Int) - mb)
  else Val.dyadic neg (2 ^ mb + m) ((e : Int) - f.bias - mb)

/-- The value of a code of any format (R23, R25, R26). -/
def decodeVal (f : Fmt) (c : Nat) : Val :=
  match f with
  | .int8 => Val.ofInt (sext 8 c)
  | .uint8 => Val.ofInt ((c % 256 : Nat) : Int)
  | .int4 => Val.ofInt (sext 4 c)
  | .int32 => Val.ofInt (sext 32 c)
  | .e8m0 => if c % 256 = 255 then .nan false 0x400000 false else Val.dyadic false 1 ((c % 256 : Nat) - 127)
  | f => decodeFloat f c

/-- floor(log2(num / den)) for positive numbers. -/
def flog2 (num den : Nat) : Int :=
  let l : Int := (Nat.log2 num : Int) - (Nat.log2 den : Int)
  let ge := if 0 ≤ l then den * 2 ^ l.toNat ≤ num else den ≤ num * 2 ^ (-l).toNat
  if ge then l else l - 1

/-- Rounding modes (Table 2.7); 0b11 is reserved. -/
inductive Rnd where
  | rne | rtz | sr
deriving DecidableEq, Repr

def Rnd.ofCode (n : Nat) : Option Rnd :=
  match n with
  | 0 => some .rne
  | 1 => some .rtz
  | 2 => some .sr
  | _ => none

/-- One step of the generator (R36). -/
def srMix (z0 : Nat) : Nat :=
  let m := 2 ^ 64
  let z := (z0 + 0x9E3779B97F4A7C15) % m
  let z := ((z ^^^ (z >>> 30)) * 0xBF58476D1CE4E5B9) % m
  let z := ((z ^^^ (z >>> 27)) * 0x94D049BB133111EB) % m
  z ^^^ (z >>> 31)

/-- The 32-bit random value R (R36). -/
def srRandom (seed tid idx step sub : Nat) : Nat :=
  let a := (seed % 2 ^ 32) * 2 ^ 32 + tid % 2 ^ 32
  let c1 := (sub % 2 ^ 16) * 2 ^ 48 + idx % 2 ^ 40
  srMix (srMix (srMix a ^^^ (step % 2 ^ 32)) ^^^ c1) / 2 ^ 32

/-- Whether a magnitude `n + rem/d` of a number with last kept integer `n` rounds up; `away`: ties go away from zero (an
integer destination), else to the even `n` (R34, R35). `r` is the random value R. -/
def roundUp (rnd : Rnd) (r : Nat) (away : Bool) (n rem d : Nat) : Bool :=
  match rnd with
  | .rtz => false
  | .rne => decide (d < 2 * rem) || (decide (2 * rem = d) && (away || n % 2 == 1))
  | .sr => decide (2 ^ 32 ≤ rem * 2 ^ 32 / d + r)

/-- A positive magnitude rounded to a floating-point format as if its exponent range were unbounded above: the code it
would have without its sign, and whether it is inexact. A code above `maxCode` is finite overflow (R31). -/
def roundMag (f : Fmt) (rnd : Rnd) (r num den : Nat) : Nat × Bool :=
  let mb : Int := f.mbits
  let emin : Int := 1 - (f.bias : Int)
  let e := flog2 num den
  let q := (if e < emin then emin else e) - mb
  let n := if 0 ≤ q then num else num * 2 ^ (-q).toNat
  let d := if 0 ≤ q then den * 2 ^ q.toNat else den
  let k := n / d
  let rem := n % d
  let k' := if roundUp rnd r false k rem d then k + 1 else k
  ((q - (emin - mb)).toNat * 2 ^ f.mbits + k', decide (rem ≠ 0))

/-- Bits of IEEE_FLAGS (Table 2.10). -/
def flInvalid : Nat := 16
def flDivzero : Nat := 8
def flOverflow : Nat := 4
def flUnderflow : Nat := 2
def flInexact : Nat := 1

/-- What a conversion of one element gives: its code, the flags it raises in strict mode, whether it is a clip, whether it is
an underflow loss (R77), and whether its output is a NaN or an infinity (R46). -/
structure Cv where
  code : Nat
  flags : Nat := 0
  clip : Bool := false
  uflow : Bool := false
  nanOut : Bool := false
  infOut : Bool := false
deriving DecidableEq, Repr

def signBit (f : Fmt) (neg : Bool) : Nat := if neg then 2 ^ (f.width - 1) else 0

/-- The NaN that a NaN input gives (R24, R28). -/
def nanCode (f : Fmt) (strict : Bool) (neg : Bool) (payload : Nat) : Nat :=
  if !strict then f.canonNan
  else if f = .e4m3 then 0x7F + signBit f neg
  else
    let m := (payload / 2 ^ (23 - f.mbits)) ||| 2 ^ (f.mbits - 1)
    f.infCode + m + signBit f neg

/-- Conversion of an exact value into a floating-point format (R28, R30 to R32, Table 2.6). -/
def cvFloat (f : Fmt) (rnd : Rnd) (r : Nat) (ovf strict : Bool) (v : Val) : Cv :=
  match v with
  | .nan neg p sn => { code := nanCode f strict neg p, flags := if sn then flInvalid else 0, nanOut := true }
  | .inf neg =>
    if f = .e4m3 then
      if ovf then { code := 0x7E + signBit f neg, flags := flInvalid ||| flInexact, clip := true }
      else { code := 0x7F + (if strict then signBit f neg else 0), flags := flInvalid, nanOut := true }
    else { code := f.infCode + signBit f neg, infOut := true }
  | .fin neg num den =>
    if num = 0 then { code := signBit f neg }
    else
      let (c, inex) := roundMag f rnd r num den
      if f.maxCode < c then
        if ovf || rnd == .rtz then
          { code := f.maxCode + signBit f neg, flags := flOverflow ||| flInexact, clip := true }
        else if f = .e4m3 then
          { code := 0x7F + (if strict then signBit f neg else 0), flags := flOverflow ||| flInexact, nanOut := true }
        else { code := f.infCode + signBit f neg, flags := flOverflow ||| flInexact, infOut := true }
      else
        let tiny := decide (c < 2 ^ f.mbits)
        { code := c + signBit f neg
          flags := (if inex then flInexact else 0) ||| (if tiny && inex then flUnderflow else 0)
          uflow := c == 0 }

/-- A magnitude rounded to an integer (R34: nearest with ties away from zero). -/
def roundInt (rnd : Rnd) (r num den : Nat) : Nat × Bool :=
  let k := num / den
  let rem := num % den
  (if roundUp rnd r true k rem den then k + 1 else k, decide (rem ≠ 0))

/-- The clamp of an integer into a range, and whether it changed the value. -/
def clampI (lo hi x : Int) : Int × Bool :=
  if x < lo then (lo, true) else if hi < x then (hi, true) else (x, false)

/-- Conversion of an exact value into an integer code with range `lo..hi` and zero point `z`, escapes disabled (R33, R50).
`w` is the code's width. A value that rounds to 0 from a non-zero value is tiny under R32 (DEDUCED, log 5). -/
def cvInt (w : Nat) (lo hi z : Int) (rnd : Rnd) (r : Nat) (v : Val) : Cv :=
  match v with
  | .nan .. => { code := trunc2 w z, flags := flInvalid }
  | .inf neg => { code := trunc2 w (if neg then lo else hi), flags := flInvalid ||| flInexact, clip := true }
  | .fin neg num den =>
    let (k, inex) := roundInt rnd r num den
    let x : Int := if neg then -(k : Int) else k
    let (q, cl) := clampI lo hi (x + z)
    if cl then { code := trunc2 w q, flags := flInvalid ||| flInexact, clip := true }
    else
      { code := trunc2 w q
        flags := (if inex then flInexact else 0) ||| (if k == 0 && num != 0 then flUnderflow else 0)
        uflow := k == 0 && num != 0 }

/-- The full code range of an integer format (R25, Table 3.1 with ESC_EN = 0). -/
def Fmt.qmin : Fmt → Int
  | .int8 => -128 | .uint8 => 0 | .int4 => -8 | .int32 => -2147483648 | _ => 0

def Fmt.qmax : Fmt → Int
  | .int8 => 127 | .uint8 => 255 | .int4 => 7 | .int32 => 2147483647 | _ => 0

/-- The E8M0 destination of a Lantern VCVT (R187). -/
def cvE8m0 (v : Val) : Cv :=
  match v with
  | .nan .. => { code := 0xFF }
  | .inf _ => { code := 0xFF }
  | .fin _ num den =>
    if num = 0 then { code := 0 }
    else { code := (clampI 0 254 (flog2 num den + 127)).1.toNat }

/-- A conversion with scale 1.0 into any format, escapes disabled (R30 to R33, R187). -/
def cvAny (f : Fmt) (rnd : Rnd) (r : Nat) (ovf strict : Bool) (v : Val) : Cv :=
  match f with
  | .int8 => cvInt 8 f.qmin f.qmax 0 rnd r v
  | .uint8 => cvInt 8 f.qmin f.qmax 0 rnd r v
  | .int4 => cvInt 4 f.qmin f.qmax 0 rnd r v
  | .int32 => cvInt 32 f.qmin f.qmax 0 rnd r v
  | .e8m0 => cvE8m0 v
  | f => cvFloat f rnd r ovf strict v

/-! Exact arithmetic on values (R27, R185, IEEE 754-2019 special values). A NaN result of `add`, `mul` and `div` on
non-NaN operands is `Val.qnan`. NaN operands give the first of them. -/

def Val.flip : Val → Val
  | .nan b p s => .nan b p s
  | .inf b => .inf (!b)
  | .fin b n d => .fin (!b) n d

def Val.abs : Val → Val
  | .nan b p s => .nan b p s
  | .inf _ => .inf false
  | .fin _ n d => .fin false n d

/-- The signed numerator. -/
def sgn (neg : Bool) (n : Nat) : Int := if neg then -(n : Int) else n

/-- The exact sum; an exact sum of non-zero terms that is zero is +0, a sum of zeros is −0 only when both are (R27). -/
def Val.add : Val → Val → Val
  | .nan b p s, _ => .nan b p s
  | _, .nan b p s => .nan b p s
  | .inf a, .inf b => if a = b then .inf a else .qnan
  | .inf a, _ => .inf a
  | _, .inf b => .inf b
  | .fin a n d, .fin b m e =>
    if n = 0 ∧ m = 0 then .fin (a && b) 0 1
    else
      -- over a common denominator: the larger one when it is a multiple of the other
      let (x, y, f) : Int × Int × Nat :=
        if e % d = 0 then (sgn a n * ((e / d : Nat) : Int), sgn b m, e)
        else if d % e = 0 then (sgn a n, sgn b m * ((d / e : Nat) : Int), d)
        else (sgn a n * e, sgn b m * d, d * e)
      .fin (decide (x + y < 0)) (x + y).natAbs f

def Val.sub (x y : Val) : Val :=
  match y with
  | .nan b p s => match x with
    | .nan b' p' s' => .nan b' p' s'
    | _ => .nan b p s
  | _ => Val.add x y.flip

/-- The exact product; an infinity times a zero is a NaN. -/
def Val.mul : Val → Val → Val
  | .nan b p s, _ => .nan b p s
  | _, .nan b p s => .nan b p s
  | .inf a, .inf b => .inf (a != b)
  | .inf a, .fin b m _ => if m = 0 then .qnan else .inf (a != b)
  | .fin a n _, .inf b => if n = 0 then .qnan else .inf (a != b)
  | .fin a n d, .fin b m e => .fin (a != b) (n * m) (d * e)

/-- The exact quotient; 0/0 and infinity/infinity are NaN, a finite non-zero value by zero is an infinity. -/
def Val.div : Val → Val → Val
  | .nan b p s, _ => .nan b p s
  | _, .nan b p s => .nan b p s
  | .inf _, .inf _ => .qnan
  | .inf a, .fin b _ _ => .inf (a != b)
  | .fin a _ _, .inf b => .fin (a != b) 0 1
  | .fin a n d, .fin b m e =>
    if m = 0 then (if n = 0 then .qnan else .inf (a != b))
    else .fin (a != b) (n * e) (d * m)

/-- A square root as a value that rounds as the exact root does in every mode and format of the block: 64 bits below the
point of a mantissa of at least 64 bits, with one further bit set when the root is inexact. −0 keeps its sign; a
negative value gives a NaN (R185). -/
def Val.sqrt : Val → Val
  | .nan b p s => .nan b p s
  | .inf b => if b then .qnan else .inf false
  | .fin b n d =>
    if n = 0 then .fin b 0 1
    else if b then .qnan
    else
      -- sqrt(n/d) = sqrt(n*d)/d; scaled by 2^k so that the root has at least 96 bits
      let k := 96 + Nat.log2 d
      let x := n * d * 2 ^ (2 * k)
      let rt := Nat.sqrt x
      .fin false (2 * rt + (if rt * rt = x then 0 else 1)) (d * 2 ^ (k + 1))

/-- The comparison of two numbers that are not NaN: −1, 0 or 1; −0 equals +0 (R29). -/
def Val.cmp : Val → Val → Int
  | .inf a, .inf b => if a = b then 0 else if a then -1 else 1
  | .inf a, _ => if a then -1 else 1
  | _, .inf b => if b then 1 else -1
  | .fin a n d, .fin b m e =>
    let x := sgn a n * e
    let y := sgn b m * d
    if x < y then -1 else if y < x then 1 else 0
  | _, _ => 0

/-- The order of the statistics and of VMIN and VMAX: as `cmp`, with −0 below +0 (R29, R185). -/
def Val.lt (x y : Val) : Bool :=
  match Val.cmp x y with
  | -1 => true
  | 0 => x.isZero && y.isZero && x.neg? && !y.neg?
  | _ => false

def Val.min2 (x y : Val) : Val := if Val.lt y x then y else x
def Val.max2 (x y : Val) : Val := if Val.lt x y then y else x

/-! FP32 helpers in RNE, fast mode, as the routines, the Dome and the tree use them. -/

/-- RNE32 of an exact value: its FP32 code. -/
def rne32 (v : Val) : Nat := (cvFloat .fp32 .rne 0 false false v).code
def rtz32 (v : Val) : Nat := (cvFloat .fp32 .rtz 0 false false v).code
def sr32 (r : Nat) (v : Val) : Nat := (cvFloat .fp32 .sr r false false v).code
def v32 (c : Nat) : Val := decodeFloat .fp32 c
def add32 (a b : Nat) : Nat := rne32 (Val.add (v32 a) (v32 b))
def sub32 (a b : Nat) : Nat := rne32 (Val.sub (v32 a) (v32 b))
def mul32 (a b : Nat) : Nat := rne32 (Val.mul (v32 a) (v32 b))
def div32 (a b : Nat) : Nat := rne32 (Val.div (v32 a) (v32 b))
def sqrt32 (a : Nat) : Nat := rne32 (Val.sqrt (v32 a))
def isFin32 (c : Nat) : Bool := bits c 23 8 != 255
def isNan32 (c : Nat) : Bool := bits c 23 8 == 255 && bits c 0 23 != 0

/-- TREE(op) over a list, level by level (R193); an absent leaf is none. -/
def treeLevel {α : Type} (op : α → α → α) : List (Option α) → List (Option α)
  | [] => []
  | [x] => [x]
  | x :: y :: l =>
    (match x, y with
     | some a, some b => some (op a b)
     | some a, none => some a
     | none, b => b) :: treeLevel op l

def treeFuel {α : Type} (op : α → α → α) : Nat → List (Option α) → Option α
  | _, [] => none
  | _, [x] => x
  | 0, _ => none
  | n + 1, l => treeFuel op n (treeLevel op l)

/-- The single node that remains; none when every leaf is absent. Each level halves the list, so its length is fuel
enough. -/
def tree {α : Type} (op : α → α → α) (l : List (Option α)) : Option α := treeFuel op l.length l

/-- TREE_SUM of FP32 codes (R193, 06). -/
def treeSum (l : List Nat) : Nat := (tree add32 (l.map some)).getD 0

/-- PAIRADD of two compensated pairs (V, E) of FP32 codes (R195). -/
def pairAdd (x y : Nat × Nat) : Nat × Nat :=
  let (v1, e1) := x
  let (v2, e2) := y
  let s := add32 v1 v2
  let t := Val.sub (Val.add (v32 v1) (v32 v2)) (v32 s)
  let u := rne32 (Val.add (v32 (add32 e1 e2)) (v32 (rne32 t)))
  let v := add32 s u
  if isFin32 s && isFin32 v then (v, rne32 (Val.sub (Val.add (v32 s) (v32 u)) (v32 v)))
  else (add32 (add32 (add32 v1 v2) e1) e2, 0)

end Sys2Proof
end

