-- ==== Sys2Proof/Machine/Flags.lean ====
section
/-! DEFINITION. The flags of Table 2.10 that Lantern arithmetic raises with its results (R185, R191): FP32 results, the nodes of TREE, PAIRADD and the
predicates of comparisons. -/

namespace Sys2Proof

/-! Arithmetic (R185). -/

/-- An FP32 result with the flags it raises: `ops` are the operands in the order A, B, C, S[SA], `v` the exact result when none of them
is a NaN. -/
def fpRes (strict : Bool) (rnd : Rnd) (r : Nat) (ops : List Val) (v : Val) (divz : Bool) : Nat × Nat :=
  match ops.find? (·.isNan) with
  | some x =>
    (match x with
     | .nan neg p _ => nanCode .fp32 strict neg p
     | _ => 0x7FC00000, if ops.any (·.isSnan) then flInvalid else 0)
  | none =>
    if v.isNan then (0x7FC00000, flInvalid)
    else
      let cv := cvFloat .fp32 rnd r false strict v
      (cv.code, if divz then flDivzero else cv.flags)

/-- Whether a quotient raises DIVZERO: a finite non-zero value by zero. -/
def isDivz (x y : Val) : Bool := x.isFin && !x.isZero && y.isZero

/-- RNE addition of FP32 codes with flags, as a node of TREE (R193). -/
def addNode (strict : Bool) (x y : Nat × Nat) : Nat × Nat :=
  let r := fpRes strict .rne 0 [v32 x.1, v32 y.1] (Val.add (v32 x.1) (v32 y.1)) false
  (r.1, r.2 ||| x.2 ||| y.2)

def maxNode (strict : Bool) (x y : Nat × Nat) : Nat × Nat :=
  let r := fpRes strict .rne 0 [v32 x.1, v32 y.1] (Val.max2 (v32 x.1) (v32 y.1)) false
  (r.1, r.2 ||| x.2 ||| y.2)

def minNode (strict : Bool) (x y : Nat × Nat) : Nat × Nat :=
  let r := fpRes strict .rne 0 [v32 x.1, v32 y.1] (Val.min2 (v32 x.1) (v32 y.1)) false
  (r.1, r.2 ||| x.2 ||| y.2)

/-- The flags of the roundings of a PAIRADD (R195). -/
def pairFlags (x y : Nat × Nat) : Nat :=
  let fl := fun (a b : Nat) => (fpRes true .rne 0 [v32 a, v32 b] (Val.add (v32 a) (v32 b)) false).2
  let s := add32 x.1 y.1
  let t := rne32 (Val.sub (Val.add (v32 x.1) (v32 y.1)) (v32 s))
  let e := add32 x.2 y.2
  let u := add32 e t
  if isFin32 s && isFin32 (add32 s u) then fl x.1 y.1 ||| fl x.2 y.2 ||| fl e t ||| fl s u
  else fl x.1 y.1 ||| fl (add32 x.1 y.1) x.2 ||| fl (add32 (add32 x.1 y.1) x.2) y.2

def pairNode (x y : (Nat × Nat) × Nat) : (Nat × Nat) × Nat :=
  (pairAdd x.1 y.1, pairFlags x.1 y.1 ||| x.2 ||| y.2)

/-- A predicate of VCMP on FP32 values (IEEE 754-2019: every predicate but NE and UN is false on a NaN). -/
def fpPred (p : Nat) (x y : Val) : Bool :=
  let un := x.isNan || y.isNan
  let c := Val.cmp x y
  match p with
  | 0 => !un && c == 0
  | 1 => un || c != 0
  | 2 => !un && c == -1
  | 3 => !un && c != 1
  | 4 => !un && c == 1
  | 5 => !un && c != -1
  | 6 => un
  | _ => !un

def intPred (p : Nat) (x y : Int) : Bool :=
  match p with
  | 0 => x == y
  | 1 => x != y
  | 2 => decide (x < y)
  | 3 => decide (x ≤ y)
  | 4 => decide (y < x)
  | _ => decide (y ≤ x)

end Sys2Proof
end

