-- ==== Sys2Proof/Machine/LanternCore.lean ====
section
/-! DEFINITION. A logical Lantern and the meaning of its register instructions (07_lantern.md): masks and element counts, the
field rule of R183, arithmetic, reductions, loops and mode writes. Instructions that reach memory, arrays or the whole routine
are in Machine/RoutineOps.lean. -/

namespace Sys2Proof

/-- A level of LOOP_STATE (Table 7.10). -/
structure LoopLvl where
  creg : Nat
  endw : Nat
  start : Nat
deriving DecidableEq, Repr

/-- What a logical Lantern is doing. `issue j idx n lan`: AISS waits to queue `n` more instructions (R204); `bindw`: ASTR waits; `retd`:
it executed RET in a schedule step (R202). -/
inductive LWait where
  | run | bar | boundary | stopped | retd | sched
  | ended (outcome : Nat)
  | await (j : Option Nat)
  | issue (j idx n : Nat)
  | bindw (j tid side src base kStride xStride runM1 kgroupsM1 kg0 : Nat)
deriving DecidableEq, Repr

/-- The state of Table 7.1. V element e of register r has key r × 4,096 + e; `loops` is innermost first. -/
structure Lan where
  v : SMap W32 := []
  s : SMap W64 := []
  m : SMap (BitVec 4096) := []
  vl : Nat := 0
  mode : W32 := 0
  pc : Nat := 0
  loops : List LoopLvl := []
  dcount : Nat := 0
  wait : LWait := .run
  inHandler : Bool := false
deriving DecidableEq, Repr

/-- What an instruction needs beside its Lantern: the SR inputs of Table 7.7 and the words of the code section. -/
structure LCtx where
  seed : Nat
  step : Nat
  iteration : Nat
  lnum : Nat
  code : List Nat

/-- The outcome of an instruction: it completes, or it raises an exception of Table 7.12 with the lowest faulting element. -/
inductive LRes where
  | ok (l : Lan)
  | exc (cls elem : Nat)

def Lan.vget (l : Lan) (r e : Nat) : Nat := (SMap.look 0 l.v (r * 4096 + e)).toNat
def Lan.sget (l : Lan) (r : Nat) : Nat := (SMap.look 0 l.s r).toNat
def Lan.mget (l : Lan) (r : Nat) : BitVec 4096 := SMap.look 0 l.m r
def Lan.mbit (l : Lan) (r e : Nat) : Bool := (l.mget r).getLsbD e
def Lan.vput (l : Lan) (r e x : Nat) : Lan := { l with v := SMap.put 0 (r * 4096 + e) (BitVec.ofNat 32 x) l.v }
def Lan.sput (l : Lan) (r x : Nat) : Lan := { l with s := SMap.put 0 r (BitVec.ofNat 64 x) l.s }
def Lan.mput (l : Lan) (r : Nat) (x : BitVec 4096) : Lan := { l with m := SMap.put 0 r x l.m }

/-! MODE (Table 7.2). -/
def Lan.rnd (l : Lan) : Rnd := (Rnd.ofCode (bits l.mode.toNat 0 2)).getD .rne
def Lan.strict (l : Lan) : Bool := bitAt l.mode.toNat 2
def Lan.mfmt (l : Lan) : Nat := bits l.mode.toNat 8 5
def Lan.nonfin (l : Lan) : Bool := bitAt l.mode.toNat 13
def Lan.dflag (l : Lan) : Bool := bitAt l.mode.toNat 14
def Lan.flags (l : Lan) : Nat := bits l.mode.toNat 3 5

/-- Sets bit `i` of MODE. -/
def Lan.setMode (l : Lan) (i : Nat) : Lan := { l with mode := l.mode ||| BitVec.ofNat 32 (2 ^ i) }

/-- ORs flags into MODE.FLAGS in strict mode (R191). -/
def Lan.raise (l : Lan) (fl : Nat) : Lan :=
  if l.strict then { l with mode := l.mode ||| BitVec.ofNat 32 (fl * 8) } else l

/-- R of R36 under Table 7.7. -/
def Lan.rand (l : Lan) (c : LCtx) (e : Nat) : Nat :=
  srRandom c.seed c.iteration (l.dcount * 4096 + e) c.step (0x8000 + c.lnum)

/-! Field use (R183). A mask names the fields that an instruction uses. -/
abbrev uD : Nat := 1
abbrev uA : Nat := 2
abbrev uB : Nat := 4
abbrev uC : Nat := 8
abbrev uMS : Nat := 16
abbrev uMEN : Nat := 32
abbrev uCNT : Nat := 64
abbrev uSA : Nat := 128
abbrev uF1 : Nat := 256
abbrev uF2 : Nat := 512
abbrev uOVF : Nat := 1024
/-- The fields of every masked vector instruction. -/
abbrev uVec : Nat := 112

/-- A field of width `w` holds a number of that width, and 0 when it is unused. -/
def fieldOk (used : Nat) (bit w x : Nat) : Bool := decide (x < 2 ^ w) && (used &&& bit != 0 || x == 0)

def VF.ok (u : Nat) (f : VF) : Bool :=
  f.rsv == 0 && fieldOk u uD 5 f.d && fieldOk u uA 5 f.a && fieldOk u uB 5 f.b && fieldOk u uC 5 f.c &&
    fieldOk u uMS 3 f.ms && fieldOk u uMEN 1 f.men && fieldOk u uCNT 13 f.cnt && fieldOk u uSA 4 f.sa &&
    fieldOk u uF1 5 f.f1 && fieldOk u uF2 5 f.f2 && fieldOk u uOVF 1 f.ovf

abbrev vD : Nat := 1
abbrev vA : Nat := 2
abbrev vB : Nat := 4
abbrev vMS : Nat := 8
abbrev vI : Nat := 16

def SF.ok (u : Nat) (f : SF) : Bool :=
  f.rsv == 0 && fieldOk u vD 4 f.sd && fieldOk u vA 4 f.sa && fieldOk u vB 4 f.sb && fieldOk u vMS 3 f.ms &&
    fieldOk u vI 32 f.imm

/-- The element count n (R180), none when CNT is illegal. VL holds at most 4,096: SETVL and SETVLI refuse more. -/
def VF.count (f : VF) (vl : Nat) : Option Nat :=
  if f.cnt ≤ 4096 then some f.cnt else if f.cnt = 0x1FFF then some (min vl 4096) else none

/-- Whether element e below n is active (R181). -/
def Lan.active (l : Lan) (f : VF) (e : Nat) : Bool := f.men == 0 || l.mbit f.ms e

def Lan.actives (l : Lan) (f : VF) (n : Nat) : List Nat := (List.range n).filter (l.active f)

/-! Loops and retirement (R198, R199). -/

def isEndloop (w : Nat) : Bool := w / 2 ^ 56 == 0x55

/-- The last word before word `k` that is not an ENDLOOP; `k` itself counts words, so the answer is below it. -/
def lastBefore (code : List Nat) : Nat → Option Nat
  | 0 => none
  | k + 1 => if isEndloop (nth 0 code k) then lastBefore code k else some k

/-- The loop steps after the instruction at `p` retires: the loops, the counters and the next word. The innermost loop whose last instruction it is steps, and,
while one ends, the next enclosing such loop; a loop that it does not end stays active. -/
def loopSteps (code : List Nat) (p : Nat) : List LoopLvl → SMap W64 → Nat → List LoopLvl × SMap W64 × Nat
  | [], s, next => ([], s, next)
  | lv :: rest, s, next =>
    if lastBefore code lv.endw = some p ∧ lv.start ≤ p then
      let c := SMap.look 0 s lv.creg - 1
      let s := SMap.put 0 lv.creg c s
      if c = 0 then loopSteps code p rest s (lv.endw + 1)
      else (lv :: rest, s, lv.start)
    else
      let r := loopSteps code p rest s next
      (lv :: r.1, r.2)

/-- The instruction at PC retires: DCOUNT rises, and loops whose last instruction it is step (R177, R198). -/
def Lan.retire (l : Lan) (code : List Nat) : Lan :=
  let (ls, s, p) := loopSteps code l.pc l.loops l.s (l.pc + 1)
  { l with loops := ls, s := s, pc := p, dcount := (l.dcount + 1) % 2 ^ 28 }

/-- An instruction retires and goes to word `p`, whatever loops are active (LOOP that skips its body, SCHED). -/
def Lan.retireTo (l : Lan) (p : Nat) : Lan := { l with pc := p, dcount := (l.dcount + 1) % 2 ^ 28 }

/-! The shapes of vector instructions. -/

/-- Checks and counts, then runs `k` on the Lantern and n; n = 0 only retires (R180, R183). -/
def Lan.vec (l : Lan) (c : LCtx) (u : Nat) (f : VF) (legal : Bool) (k : Nat → Lan) : LRes :=
  if !f.ok u || !legal then .exc 1 0
  else match f.count l.vl with
    | none => .exc 1 0
    | some 0 => .ok (l.retire c.code)
    | some n => .ok ((k n).retire c.code)

/-- D ← g e on each active element, with flags. -/
def Lan.mapV (l : Lan) (f : VF) (n : Nat) (g : Nat → Nat × Nat) : Lan :=
  let rs := (l.actives f n).map (fun e => (e, g e))
  let l' := rs.foldl (fun a (e, r) => a.vput f.d e r.1) l
  l'.raise (rs.foldl (fun a (_, r) => a ||| r.2) 0)

/-- An elementwise FP32 instruction: `ops e` are its operands, `v` its exact result. -/
def Lan.fpV (l : Lan) (c : LCtx) (u : Nat) (f : VF) (ops : Nat → List Val) (v : Nat → Val) (divz : Nat → Bool := fun _ => false) : LRes :=
  l.vec c (uD ||| uVec ||| u) f true (fun n =>
    l.mapV f n (fun e => fpRes l.strict l.rnd (l.rand c e) (ops e) (v e) (divz e)))

/-- An elementwise instruction on 32-bit patterns, with no flag. -/
def Lan.intV (l : Lan) (c : LCtx) (u : Nat) (f : VF) (g : Nat → Nat) : LRes :=
  l.vec c (uD ||| uVec ||| u) f true (fun n => l.mapV f n (fun e => (g e, 0)))

/-- M[D] bit e ← p e on each active element. -/
def Lan.setMask (l : Lan) (d : Nat) (es : List Nat) (p : Nat → Bool) : Lan :=
  l.mput d (es.foldl (fun m e =>
    let one : BitVec 4096 := BitVec.ofNat 4096 (2 ^ e)
    if p e then m ||| one else m &&& ~~~one) (l.mget d))

/-- A reduction: S[SA] takes the tree's value, `empty` when no element is active (R193). -/
def Lan.redV {α : Type} (l : Lan) (c : LCtx) (u : Nat) (f : VF) (op : α → α → α) (leaf : Nat → α) (out : α → Nat) (fl : α → Nat)
    (empty : Nat) : LRes :=
  l.vec c (uSA ||| uVec ||| uA ||| u) f true (fun n =>
    let leaves := (List.range n).map (fun e => if l.active f e then some (leaf e) else none)
    match tree op leaves with
    | none => l.sput f.sa empty
    | some x => (l.sput f.sa (out x)).raise (fl x))

/-- Operand values. -/
def Lan.fa (l : Lan) (f : VF) (e : Nat) : Val := v32 (l.vget f.a e)
def Lan.fb (l : Lan) (f : VF) (e : Nat) : Val := v32 (l.vget f.b e)
def Lan.fc (l : Lan) (f : VF) (e : Nat) : Val := v32 (l.vget f.c e)
def Lan.fs (l : Lan) (f : VF) : Val := v32 (l.sget f.sa % 2 ^ 32)
def Lan.ia (l : Lan) (f : VF) (e : Nat) : Int := sext 32 (l.vget f.a e)
def Lan.ib (l : Lan) (f : VF) (e : Nat) : Int := sext 32 (l.vget f.b e)

/-- VCVT (R187). -/
def Lan.vcvt (l : Lan) (c : LCtx) (f : VF) : LRes :=
  match Fmt.ofCode f.f1, Fmt.ofCode f.f2 with
  | some f1, some f2 =>
    l.vec c (uD ||| uA ||| uVec ||| uF1 ||| uF2 ||| uOVF) f true (fun n =>
      l.mapV f n (fun e =>
        let r := cvAny f2 l.rnd (l.rand c e) (f.ovf == 1) l.strict (decodeVal f1 (l.vget f.a e % 2 ^ f1.width))
        (r.code, r.flags)))
  | _, _ => .exc 1 0

/-- VPADD (R195). -/
def Lan.vpadd (l : Lan) (c : LCtx) (f : VF) : LRes :=
  l.vec c (uD ||| uA ||| uB ||| uVec) f (f.d % 2 == 0 && f.a % 2 == 0 && f.b % 2 == 0) (fun n =>
    let rs := (l.actives f n).map (fun e =>
      let x := (l.vget f.a e, l.vget (f.a + 1) e)
      let y := (l.vget f.b e, l.vget (f.b + 1) e)
      (e, pairAdd x y, pairFlags x y))
    let l' := rs.foldl (fun a (e, r, _) => (a.vput f.d e r.1).vput (f.d + 1) e r.2) l
    l'.raise (rs.foldl (fun a (_, _, fl) => a ||| fl) 0))

/-- VCMP and VICMP. -/
def Lan.vcmp (l : Lan) (c : LCtx) (f : VF) : LRes :=
  l.vec c (uD ||| uA ||| uB ||| uVec ||| uF1) f (decide (f.d < 8) && decide (f.f1 < 8)) (fun n =>
    let es := l.actives f n
    let fl := if es.any (fun e => (l.fa f e).isSnan || (l.fb f e).isSnan) then flInvalid else 0
    (l.setMask f.d es (fun e => fpPred f.f1 (l.fa f e) (l.fb f e))).raise fl)

def Lan.vicmp (l : Lan) (c : LCtx) (f : VF) : LRes :=
  l.vec c (uD ||| uA ||| uB ||| uVec ||| uF1) f (decide (f.d < 8) && decide (f.f1 < 6)) (fun n =>
    l.setMask f.d (l.actives f n) (fun e => intPred f.f1 (l.ia f e) (l.ib f e)))

/-- VSEL: MEN must be 0. -/
def Lan.vsel (l : Lan) (c : LCtx) (f : VF) : LRes :=
  l.vec c (uD ||| uA ||| uB ||| uMS ||| uCNT) f true (fun n =>
    (List.range n).foldl (fun a e => a.vput f.d e (if l.mbit f.ms e then l.vget f.a e else l.vget f.b e)) l)

/-- MAND, MOR and MNOT act on bits below n; MS and MEN must be 0. -/
def Lan.mop (l : Lan) (c : LCtx) (u : Nat) (f : VF) (p : Nat → Bool) : LRes :=
  l.vec c (uD ||| uA ||| uCNT ||| u) f (decide (f.d < 8) && decide (f.a < 8) && decide (f.b < 8)) (fun n =>
    l.setMask f.d (List.range n) p)

/-- MANY: every bit of M[D] takes the OR of the active bits of M[A] below n. -/
def Lan.many (l : Lan) (c : LCtx) (f : VF) : LRes :=
  l.vec c (uD ||| uA ||| uVec) f (decide (f.d < 8) && decide (f.a < 8)) (fun n =>
    l.mput f.d (if (l.actives f n).any (l.mbit f.a) then BitVec.allOnes 4096 else 0))

/-! Scalar instructions. -/

def scaOp (c : LCtx) (u : Nat) (f : SF) (legal : Bool) (k : Lan) : LRes :=
  if !f.ok u || !legal then .exc 1 0 else .ok (k.retire c.code)

/-- SD ← x. -/
def Lan.sop (l : Lan) (c : LCtx) (u : Nat) (f : SF) (x : Nat) : LRes := scaOp c (vD ||| u) f true (l.sput f.sd x)

/-- A scalar FP32 instruction: SD[31:0] ← the result, SD[63:32] ← 0. -/
def Lan.sfp (l : Lan) (c : LCtx) (u : Nat) (f : SF) (ops : List Val) (v : Val) (divz : Bool := false) : LRes :=
  let r := fpRes l.strict l.rnd (l.rand c 0) ops v divz
  scaOp c (vD ||| vA ||| u) f true ((l.sput f.sd r.1).raise r.2)

def Lan.sfa (l : Lan) (f : SF) : Val := v32 (l.sget f.sa % 2 ^ 32)
def Lan.sfb (l : Lan) (f : SF) : Val := v32 (l.sget f.sb % 2 ^ 32)

def Lan.scmpm (l : Lan) (c : LCtx) (f : SF) : LRes :=
  let p := fpPred (f.imm % 8) (l.sfa f) (l.sfb f)
  let fl := if (l.sfa f).isSnan || (l.sfb f).isSnan then flInvalid else 0
  scaOp c (vA ||| vB ||| vMS ||| vI) f true ((l.mput f.ms (if p then BitVec.allOnes 4096 else 0)).raise fl)

/-- The immediate, sign-extended to 64 bits. -/
def SF.simm (f : SF) : Nat := trunc2 64 (sext 32 f.imm)

/-- MODEW (R206). -/
def Lan.modew (l : Lan) (c : LCtx) (f : SF) : LRes :=
  let x := l.sget f.sa
  let sel := fun (i : Nat) => bitAt f.imm i
  let bad := decide (16 ≤ f.imm) || (sel 0 && bits x 0 2 == 3) || (sel 3 && decide (10 ≤ bits x 8 5))
  let m0 := l.mode.toNat
  let m1 := if sel 0 then setBits m0 0 2 (bits x 0 2) else m0
  let m2 := if sel 1 then setBits m1 2 1 (bits x 2 1) else m1
  let m3 := if sel 2 then setBits m2 3 5 (bits x 3 5) else m2
  let m4 := if sel 3 then setBits m3 8 5 (bits x 8 5) else m3
  scaOp c (vA ||| vI) f (!bad) { l with mode := BitVec.ofNat 32 m4 }

/-- LOOP (R198). -/
def Lan.loopOp (l : Lan) (c : LCtx) (f : SF) : LRes :=
  let n := f.imm % 2 ^ 24
  let e := l.pc + n
  if !f.ok (vA ||| vI) || decide (n < 2) || !isEndloop (nth 0 c.code e) || decide (3 < l.loops.length) then .exc 1 0
  else if l.sget f.sa = 0 then .ok (l.retireTo (e + 1))
  else .ok { l.retireTo (l.pc + 1) with loops := { creg := f.sa, endw := e, start := l.pc + 1 } :: l.loops }

/-- BRK (R199). -/
def Lan.brkOp (l : Lan) (c : LCtx) (f : SF) : LRes :=
  if !f.ok vMS then .exc 1 0
  else match l.loops with
    | [] => .exc 1 0
    | lv :: rest =>
      if l.mbit f.ms 0 then
        let (ls, s, p) := loopSteps c.code l.pc rest l.s (lv.endw + 1)
        .ok { l with loops := ls, s := s, pc := p, dcount := (l.dcount + 1) % 2 ^ 28 }
      else .ok (l.retire c.code)

/-- SETVL and SETVLI. -/
def Lan.setvlTo (l : Lan) (c : LCtx) (u : Nat) (f : SF) (x : Nat) : LRes := scaOp c u f (decide (x ≤ 4096)) { l with vl := x }

/-- The elements that a VLD or VST touches: element, index (none when it lies outside 0 to 2^40 − 1) (R188). -/
def Lan.accessIdx (l : Lan) (f : VF) (n : Nat) : List (Nat × Option Nat) :=
  (l.actives f n).map (fun (e : Nat) =>
    let i : Int := ((l.sget f.b % 2 ^ 40 : Nat) : Int) + ((e : Nat) : Int) * sext 64 (l.sget f.c)
    (e, if decide (0 ≤ i) && decide (i < 2 ^ 40) then some i.toNat else none))

end Sys2Proof
end

