-- ==== Sys2Proof/Machine/Objects.lean ====
section
/-! DEFINITION. The objects of the parameter dictionary (R367, Table 13.9): the object tables of the chapters as data, with
type, access notation (Table 13.7), default, persistence class (R361) and whether the object is binding (Table 13.11).
An object is named by `oid` = index * 256 + sub-index. -/

namespace Sys2Proof

/-- The two configurations (R3, Table 0.1). -/
inductive Variant where
  | l | m
deriving DecidableEq, Repr

/-- Object types (Table 13.4). -/
inductive Ty where
  | u8 | u16 | u32 | u64 | i8 | i16 | i32 | f32 | octets (n : Nat)
deriving DecidableEq, Repr

/-- TYPE of a response (Table 13.4). -/
def Ty.code : Ty → Nat
  | .u8 => 1 | .u16 => 2 | .u32 => 3 | .u64 => 4 | .i8 => 5 | .i16 => 6 | .i32 => 7 | .f32 => 9 | .octets _ => 10

/-- SIZE in bytes (Table 13.4). -/
def Ty.size : Ty → Nat
  | .u8 => 1 | .u16 => 2 | .u32 => 4 | .u64 => 8 | .i8 => 1 | .i16 => 2 | .i32 => 4 | .f32 => 4 | .octets n => n

/-- Access notations (Table 13.7). -/
inductive Acc where
  | ro | rwOperator | rwService | rwTenant | rwTenantReadOnly | woTenant | woOperator | woService | rwOperatorDisabled
deriving DecidableEq, Repr

/-- Persistence classes (R361). -/
inductive Pers where
  | fixed | nv | none | always
deriving DecidableEq, Repr

/-- One object: `dflL` and `dflM` are its defaults on MQ1-L and MQ1-M. -/
structure Obj where
  oid : Nat
  ty : Ty
  acc : Acc
  dflL : Nat
  dflM : Nat
  pers : Pers
  bind : Bool
deriving DecidableEq, Repr

/-! The object numbers, under the names of the object tables. -/
namespace O
abbrev vendorId : Nat := 0x000000
abbrev configId : Nat := 0x000100
abbrev blockRevision : Nat := 0x000200
abbrev archLevelMax : Nat := 0x000300
abbrev archLevelRequest : Nat := 0x000400
abbrev archLevelGranted : Nat := 0x000500
abbrev features : Nat := 0x000600
abbrev hedgeSegments : Nat := 0x001000
abbrev hedgeLanesPerSegment : Nat := 0x001100
abbrev spireArrays : Nat := 0x001200
abbrev spireArrayShape : Nat := 0x001300
abbrev lanterns : Nat := 0x001400
abbrev memoryPorts : Nat := 0x001500
abbrev domeBytesPerArray : Nat := 0x001600
abbrev belfryPorts : Nat := 0x001700
abbrev powerLimitW : Nat := 0x001800
abbrev configDigest : Nat := 0x002000
abbrev digestBell : Nat := 0x002001
abbrev masterDigest : Nat := 0x002002
abbrev digestMismatches : Nat := 0x002003
abbrev lastMismatchBell : Nat := 0x002004
abbrev epochCurrent : Nat := 0x002100
abbrev epochNext : Nat := 0x002101
abbrev epochBell : Nat := 0x002102
abbrev epochControl : Nat := 0x002103
abbrev epochState : Nat := 0x002104
abbrev epochStaged : Nat := 0x002105
abbrev finfaServed : Nat := 0x003000
abbrev finfaRefused : Nat := 0x003001
abbrev finfaWrongInstance : Nat := 0x003002
abbrev segContexts : Nat := 0x003100
abbrev segTimeout : Nat := 0x003101
abbrev segActive : Nat := 0x003102
abbrev finfaBuffer : Nat := 0x003200
abbrev nvBytes : Nat := 0x004000
abbrev nvState : Nat := 0x004001
abbrev nvStoreCount : Nat := 0x004002
abbrev nvStoreLimit : Nat := 0x004003
abbrev nvLoadStatus : Nat := 0x004004
abbrev nvDirty : Nat := 0x004005
abbrev nvCorrected : Nat := 0x004006
abbrev nvCopyBytes : Nat := 0x004007
abbrev nvStore : Nat := 0x00A000
abbrev nvRestore : Nat := 0x00A100
abbrev bellPeriod : Nat := 0x100000
abbrev bellFillPct : Nat := 0x100100
abbrev bellPaceWait : Nat := 0x100200
abbrev bellMaxItems : Nat := 0x100300
abbrev bellCloseCycles : Nat := 0x100400
abbrev bellNumber : Nat := 0x101000
abbrev lateTolls : Nat := 0x101100
abbrev overruns : Nat := 0x101200
abbrev paceBreaks : Nat := 0x101300
abbrev lastBellCycles : Nat := 0x101400
abbrev maxLateness : Nat := 0x101500
abbrev fillSeg : Nat := 0x102000
abbrev fillArr : Nat := 0x102001
abbrev fillLan : Nat := 0x102002
abbrev fillPort : Nat := 0x102003
abbrev fillRing : Nat := 0x102004
abbrev hedgeInService : Nat := 0x200000
abbrev hedgeRowBufferBytes : Nat := 0x200100
abbrev hedgeGangMax : Nat := 0x200200
abbrev runnerBeatsPerCycle : Nat := 0x200300
abbrev hedgeHistExpLo : Nat := 0x201000
abbrev hedgeTagWait : Nat := 0x201100
abbrev hedgeOrphanTiles : Nat := 0x201200
abbrev hedgeStreamTimeout : Nat := 0x201300
abbrev segSelect : Nat := 0x210000
abbrev segState : Nat := 0x210100
abbrev segPartner : Nat := 0x210101
abbrev segRetries : Nat := 0x210102
abbrev segTiles : Nat := 0x210103
abbrev formatsSupported : Nat := 0x300000
abbrev srGenerator : Nat := 0x300100
abbrev histSlots : Nat := 0x301000
abbrev sideListEntries : Nat := 0x301100
abbrev adjLimit : Nat := 0x301200
abbrev histSelect : Nat := 0x310000
abbrev histOwner : Nat := 0x310100
abbrev histWindow : Nat := 0x310101
abbrev initMax : Nat := 0x310102
abbrev clipThresh : Nat := 0x310103
abbrev uflowThresh : Nat := 0x310104
abbrev adapt : Nat := 0x310105
abbrev hmax : Nat := 0x310106
abbrev adj : Nat := 0x310107
abbrev effMax : Nat := 0x310108
abbrev ringFill : Nat := 0x310109
abbrev slotReset : Nat := 0x31010A
abbrev spireInService : Nat := 0x400000
abbrev spireAccSlots : Nat := 0x400100
abbrev spireGroups : Nat := 0x400200
abbrev spireFeederDepth : Nat := 0x400300
abbrev spireRampCycles : Nat := 0x400400
abbrev arraySelect : Nat := 0x410000
abbrev arrayState : Nat := 0x410100
abbrev arrayColumns : Nat := 0x410101
abbrev bypassedColumn : Nat := 0x410102
abbrev domeState : Nat := 0x410103
abbrev logicalArrays : Nat := 0x410104
abbrev passes : Nat := 0x410105
abbrev freezeCycles : Nat := 0x410106
abbrev replays : Nat := 0x410107
abbrev domeCorrected : Nat := 0x410108
abbrev rampStarts : Nat := 0x410109
abbrev intSatTiles : Nat := 0x41010A
abbrev captureChannels : Nat := 0x420000
abbrev imageStoreBytes : Nat := 0x420100
abbrev frontBufferBytes : Nat := 0x420200
abbrev routineRestartLimit : Nat := 0x420300
abbrev solvePivotMin : Nat := 0x421000
abbrev staleUsesGram : Nat := 0x422000
abbrev staleUsesRoot : Nat := 0x422001
abbrev staleUsesSolve : Nat := 0x422002
abbrev staleUsesPrecond : Nat := 0x422003
abbrev dampRetries : Nat := 0x422100
abbrev preemptions : Nat := 0x422200
abbrev iterDiscards : Nat := 0x422300
abbrev frontSpills : Nat := 0x422400
abbrev frontRounded : Nat := 0x422500
abbrev imageLoads : Nat := 0x422600
abbrev rereadSweeps : Nat := 0x422700
abbrev chSelect : Nat := 0x423000
abbrev chOwner : Nat := 0x423100
abbrev chState : Nat := 0x423101
abbrev chDecay : Nat := 0x423102
abbrev chWeight : Nat := 0x423103
abbrev chTokens : Nat := 0x423104
abbrev lanternsInService : Nat := 0x500000
abbrev lanternLanes : Nat := 0x500100
abbrev lanternLoopDepth : Nat := 0x500200
abbrev lanternCmdQueue : Nat := 0x500300
abbrev lanternSelect : Nat := 0x510000
abbrev lanternState : Nat := 0x510100
abbrev lanternLogical : Nat := 0x510101
abbrev instructions : Nat := 0x510102
abbrev laneRetries : Nat := 0x510103
abbrev exceptions : Nat := 0x510104
abbrev fallbackPromotions : Nat := 0x510105
abbrev queues : Nat := 0x600000
abbrev tenants : Nat := 0x600100
abbrev syncObjects : Nat := 0x600200
abbrev commitWindow : Nat := 0x600300
abbrev doorbellErrors : Nat := 0x600400
abbrev acctFjElement : Nat := 0x601000
abbrev acctFjMac : Nat := 0x601001
abbrev acctFjLaneOp : Nat := 0x601002
abbrev acctFjByte : Nat := 0x601003
abbrev queueSelect : Nat := 0x610000
abbrev queueState : Nat := 0x610100
abbrev queueEnable : Nat := 0x610101
abbrev queueTenant : Nat := 0x610102
abbrev queuePaced : Nat := 0x610103
abbrev ringBase : Nat := 0x610104
abbrev ringLog2 : Nat := 0x610105
abbrev cplBase : Nat := 0x610106
abbrev ringAttr : Nat := 0x610107
abbrev acctBase : Nat := 0x610108
abbrev irqLine : Nat := 0x610109
abbrev errPolicy : Nat := 0x61010A
abbrev nextSeq : Nat := 0x61010B
abbrev tail : Nat := 0x61010C
abbrev released : Nat := 0x61010D
abbrev queueReset : Nat := 0x61010E
abbrev irqPending : Nat := 0x61010F
abbrev acctElements : Nat := 0x610110
abbrev acctMacs : Nat := 0x610111
abbrev acctLaneOps : Nat := 0x610112
abbrev acctBytes : Nat := 0x610113
abbrev acctEnergy : Nat := 0x610114
abbrev acctBells : Nat := 0x610115
abbrev acctLateTolls : Nat := 0x610116
abbrev acctDescriptors : Nat := 0x610117
abbrev acctErrors : Nat := 0x610118
abbrev tenantSelect : Nat := 0x620000
abbrev tmtDirBase : Nat := 0x620100
abbrev tmtDirLog2 : Nat := 0x620101
abbrev tmtAttr : Nat := 0x620102
abbrev tmapInvalidate : Nat := 0x620103
abbrev tmapInvDone : Nat := 0x620104
abbrev tmapWalks : Nat := 0x620105
abbrev tmapWalkFaults : Nat := 0x620106
abbrev twigEntriesSegment : Nat := 0x620200
abbrev twigEntriesArray : Nat := 0x620201
abbrev twigEntriesWalker : Nat := 0x620202
abbrev walksMax : Nat := 0x620203
abbrev syncSelect : Nat := 0x630000
abbrev syncOwner : Nat := 0x630100
abbrev syncValue : Nat := 0x630101
abbrev memportInService : Nat := 0x640000
abbrev memTimeout : Nat := 0x640100
abbrev memportSelect : Nat := 0x640200
abbrev memportState : Nat := 0x640300
abbrev memportReadRetries : Nat := 0x640301
abbrev memportWriteRetries : Nat := 0x640302
abbrev memportPoisonBeats : Nat := 0x640303
abbrev instanceId : Nat := 0x700000
abbrev belfryInService : Nat := 0x700100
abbrev bgBase : Nat := 0x700200
abbrev bgSize : Nat := 0x700201
abbrev bgRank : Nat := 0x700202
abbrev bgMaster : Nat := 0x700203
abbrev bgLive : Nat := 0x700204
abbrev tollMargin : Nat := 0x700300
abbrev tollTimeout : Nat := 0x700301
abbrev lateReleases : Nat := 0x700302
abbrev timeNow : Nat := 0x700400
abbrev timeFrac : Nat := 0x700401
abbrev timeOffset : Nat := 0x700402
abbrev calPeriod : Nat := 0x700403
abbrev reduceTimeout : Nat := 0x700500
abbrev reduceContexts : Nat := 0x700501
abbrev rgSelect : Nat := 0x710000
abbrev rgBase : Nat := 0x710100
abbrev rgSize : Nat := 0x710101
abbrev rgStride : Nat := 0x710102
abbrev rgRank : Nat := 0x710103
abbrev bportSelect : Nat := 0x720000
abbrev bportState : Nat := 0x720100
abbrev bportPeer : Nat := 0x720101
abbrev bportDelay : Nat := 0x720102
abbrev bportRetransmits : Nat := 0x720103
abbrev bportAsym : Nat := 0x720104
abbrev routeSelect : Nat := 0x730000
abbrev routePrimary : Nat := 0x730100
abbrev routeAlternate : Nat := 0x730101
abbrev blockState : Nat := 0x800000
abbrev firstFaultValid : Nat := 0x800100
abbrev firstFault : Nat := 0x800101
abbrev firstFaultClear : Nat := 0x800102
abbrev fatalIrqLine : Nat := 0x800200
abbrev eventsSev0 : Nat := 0x801000
abbrev eventsSev1 : Nat := 0x801001
abbrev eventsSev2 : Nat := 0x801002
abbrev eventsSev3 : Nat := 0x801003
abbrev dropsSev0 : Nat := 0x801100
abbrev dropsSev1 : Nat := 0x801101
abbrev dropsSev2 : Nat := 0x801102
abbrev dropsSev3 : Nat := 0x801103
abbrev coalesced : Nat := 0x801200
abbrev entriesWritten : Nat := 0x801201
abbrev evbufEntries : Nat := 0x801300
abbrev evbufFatalReserve : Nat := 0x801301
abbrev evcodeSelect : Nat := 0x802000
abbrev evcodeCount : Nat := 0x802100
abbrev evcodeSeverity : Nat := 0x802101
abbrev transientLimit : Nat := 0x803000
abbrev transients : Nat := 0x803100
abbrev fences : Nat := 0x803101
abbrev ringState : Nat := 0x803200
abbrev frontState : Nat := 0x803201
abbrev evlogBase : Nat := 0x810000
abbrev evlogLog2 : Nat := 0x810001
abbrev evlogAttr : Nat := 0x810002
abbrev evlogEnable : Nat := 0x810003
abbrev evlogHead : Nat := 0x810004
abbrev evlogTail : Nat := 0x810005
abbrev evlogIrqLine : Nat := 0x810006
abbrev evlogIrqSev : Nat := 0x810007
abbrev evlogPending : Nat := 0x810008
abbrev evlogIrqAck : Nat := 0x810009
abbrev evlogMinSev : Nat := 0x81000A
abbrev trapQueueSelect : Nat := 0x820000
abbrev nanTrapMode : Nat := 0x820100
abbrev nanTrapLast : Nat := 0x820101
abbrev nanTrapExtra : Nat := 0x820102
abbrev comparatorState : Nat := 0x830000
abbrev comparatorFails : Nat := 0x830001
abbrev frozenBells : Nat := 0x830002
abbrev testKind : Nat := 0x840000
abbrev testUnit : Nat := 0x840001
abbrev testCommand : Nat := 0x840002
abbrev testState : Nat := 0x840003
abbrev testResult : Nat := 0x840004
abbrev testRuns : Nat := 0x840005
abbrev powerState : Nat := 0x900000
abbrev powerRequest : Nat := 0x900001
abbrev powerWake : Nat := 0x900002
abbrev powerAtBell : Nat := 0x900003
abbrev dozeEntries : Nat := 0x900100
abbrev napEntries : Nat := 0x900101
abbrev throttleLevel : Nat := 0x901000
abbrev thrInput : Nat := 0x901001
abbrev throttleForce : Nat := 0x901002
abbrev throttleFrozen : Nat := 0x901003
abbrev governorFrozen : Nat := 0x901004
abbrev tempSensors : Nat := 0x902000
abbrev tempMax : Nat := 0x902001
abbrev tempTable : Nat := 0x902002
abbrev thermalLevel : Nat := 0x902003
abbrev tempPeak : Nat := 0x902004
abbrev tempWarn : Nat := 0x902100
abbrev tempHot : Nat := 0x902101
abbrev tempCrit : Nat := 0x902102
abbrev tempHyst : Nat := 0x902103
abbrev startupPhase : Nat := 0x903000
abbrev startupTime : Nat := 0x903001
abbrev resetCause : Nat := 0x903002
abbrev bellReset : Nat := 0x904000
abbrev bellResetState : Nat := 0x904001
abbrev testModeState : Nat := 0xA00000
abbrev wirActive : Nat := 0xA00001
abbrev ijtagAccess : Nat := 0xA00002
abbrev lclkKhz : Nat := 0xA00100
abbrev mclkKhz : Nat := 0xA00101
abbrev clockOutOfRange : Nat := 0xA00102
abbrev portCheckAddr : Nat := 0xA00200
abbrev portCheck : Nat := 0xA00201
abbrev portCheckState : Nat := 0xA00202
abbrev portCheckFailed : Nat := 0xA00203
abbrev repairMap : Nat := 0xF00000
abbrev repairFound : Nat := 0xF00001
abbrev repairStore : Nat := 0xF00002
abbrev repairStoreCount : Nat := 0xF00003
abbrev repairLoadStatus : Nat := 0xF00004
/-- DEVWIN_BASE_n and DEVWIN_SIZE_n (Table 10.8). -/
abbrev devwinBase (n : Nat) : Nat := 0x641000 + n
abbrev devwinSize (n : Nat) : Nat := 0x641100 + n
end O

/-- An object whose default is the same in both configurations. -/
def ob (oid : Nat) (ty : Ty) (acc : Acc) (d : Nat) (pers : Pers) (bind : Bool := false) : Obj :=
  { oid := oid, ty := ty, acc := acc, dflL := d, dflM := d, pers := pers, bind := bind }

/-- An object whose default differs between MQ1-L and MQ1-M. -/
def ob2 (oid : Nat) (ty : Ty) (acc : Acc) (dl dm : Nat) (pers : Pers) (bind : Bool := false) : Obj :=
  { oid := oid, ty := ty, acc := acc, dflL := dl, dflM := dm, pers := pers, bind := bind }

/-- Objects of indices 0x0000 to 0x00A1. -/
def objs0 : List Obj :=
  [ ob 0x000000 .u16 .ro 22087 .fixed,
    ob2 0x000100 .u8 .ro 1 2 .fixed true,
    ob 0x000200 .u16 .ro 258 .fixed,
    ob 0x000300 .u8 .ro 1 .fixed,
    ob 0x000400 .u8 .rwOperator 1 .none,
    ob 0x000500 .u8 .ro 1 .none true,
    ob2 0x000600 .u32 .ro 3 2 .fixed,
    ob2 0x001000 .u16 .ro 5120 2048 .fixed,
    ob 0x001100 .u8 .ro 64 .fixed,
    ob2 0x001200 .u8 .ro 16 8 .fixed,
    ob 0x001300 .u32 .ro 8390672 .fixed,
    ob2 0x001400 .u8 .ro 8 4 .fixed,
    ob2 0x001500 .u8 .ro 64 32 .fixed,
    ob 0x001600 .u32 .ro 4194304 .fixed,
    ob 0x001700 .u8 .ro 48 .fixed,
    ob2 0x001800 .u16 .ro 240 100 .fixed,
    ob 0x002000 .u64 .ro 0 .none,
    ob 0x002001 .u64 .ro 0 .none,
    ob 0x002002 .u64 .ro 0 .none,
    ob 0x002003 .u32 .ro 0 .none,
    ob 0x002004 .u64 .ro 0 .none,
    ob 0x002100 .u32 .ro 0 .none true,
    ob 0x002101 .u32 .rwOperator 0 .none,
    ob 0x002102 .u64 .rwOperator 0 .none,
    ob 0x002103 .u8 .woOperator 0 .none,
    ob 0x002104 .u8 .ro 0 .none,
    ob 0x002105 .u16 .ro 0 .none,
    ob 0x003000 .u32 .ro 0 .none,
    ob 0x003001 .u32 .ro 0 .none,
    ob 0x003002 .u32 .ro 0 .none,
    ob 0x003100 .u8 .ro 16 .fixed,
    ob 0x003101 .u32 .rwOperator 100000000 .nv,
    ob 0x003102 .u8 .ro 0 .none,
    ob 0x003200 .u8 .ro 16 .fixed,
    ob 0x004000 .u32 .ro 524288 .fixed,
    ob 0x004001 .u8 .ro 0 .none,
    ob 0x004002 .u32 .ro 0 .nv,
    ob 0x004003 .u32 .ro 1000000 .fixed,
    ob 0x004004 .u8 .ro 2 .none,
    ob 0x004005 .u8 .ro 1 .none,
    ob 0x004006 .u32 .ro 0 .none,
    ob 0x004007 .u32 .ro 147456 .fixed,
    ob 0x00A000 .u8 .woOperator 0 .none,
    ob 0x00A100 .u8 .woOperator 0 .none ]

/-- Objects of indices 0x1000 to 0x3101. -/
def objs1 : List Obj :=
  [ ob 0x100000 .u32 .rwOperator 1048576 .nv true,
    ob 0x100100 .u8 .rwOperator 70 .nv true,
    ob 0x100200 .u32 .rwOperator 1048576 .nv true,
    ob 0x100300 .u32 .ro 65536 .fixed,
    ob 0x100400 .u16 .ro 1024 .fixed,
    ob 0x101000 .u64 .ro 0 .none,
    ob 0x101100 .u32 .ro 0 .none,
    ob 0x101200 .u32 .ro 0 .none,
    ob 0x101300 .u32 .ro 0 .none,
    ob 0x101400 .u32 .ro 0 .none,
    ob 0x101500 .u32 .ro 0 .none,
    ob 0x102000 .u16 .ro 0 .none,
    ob 0x102001 .u16 .ro 0 .none,
    ob 0x102002 .u16 .ro 0 .none,
    ob 0x102003 .u16 .ro 0 .none,
    ob 0x102004 .u16 .ro 0 .none,
    ob2 0x200000 .u16 .ro 5120 2048 .none,
    ob 0x200100 .u32 .ro 16384 .fixed,
    ob 0x200200 .u8 .ro 16 .fixed,
    ob 0x200300 .u8 .ro 4 .fixed,
    ob 0x201000 .i8 .rwOperator 216 .nv true,
    ob 0x201100 .u32 .rwOperator 65536 .nv true,
    ob 0x201200 .u32 .ro 0 .none,
    ob 0x201300 .u16 .rwOperator 16 .nv true,
    ob 0x210000 .u16 .rwOperator 0 .none,
    ob 0x210100 .u8 .ro 0 .none,
    ob 0x210101 .u16 .ro 0 .fixed,
    ob 0x210102 .u32 .ro 0 .none,
    ob 0x210103 .u32 .ro 0 .none,
    ob 0x300000 .u32 .ro 1023 .fixed,
    ob 0x300100 .u8 .ro 1 .fixed,
    ob 0x301000 .u16 .ro 16384 .fixed,
    ob 0x301100 .u8 .ro 64 .fixed,
    ob 0x301200 .u8 .ro 16 .fixed,
    ob 0x310000 .u16 .rwTenant 0 .none,
    ob 0x310100 .u16 .rwOperator 0 .none true,
    ob 0x310101 .u8 .rwTenant 4 .none true,
    ob 0x310102 .f32 .rwTenant 1065353216 .none true,
    ob 0x310103 .u32 .rwTenant 1024 .none true,
    ob 0x310104 .u32 .rwTenant 16384 .none true,
    ob 0x310105 .u8 .rwTenant 1 .none true,
    ob 0x310106 .f32 .ro 0 .none,
    ob 0x310107 .i8 .ro 0 .none,
    ob 0x310108 .f32 .ro 1065353216 .none,
    ob 0x310109 .u8 .ro 0 .none,
    ob 0x31010A .u8 .woTenant 0 .none ]

/-- Objects of indices 0x4000 to 0x5101. -/
def objs2 : List Obj :=
  [ ob2 0x400000 .u8 .ro 16 8 .none,
    ob 0x400100 .u8 .ro 32 .fixed,
    ob 0x400200 .u8 .ro 64 .fixed,
    ob 0x400300 .u8 .ro 32 .fixed,
    ob 0x400400 .u8 .ro 48 .fixed,
    ob 0x410000 .u8 .rwOperator 0 .none,
    ob 0x410100 .u8 .ro 0 .none,
    ob 0x410101 .u8 .ro 8 .none,
    ob 0x410102 .u8 .ro 255 .none,
    ob 0x410103 .u8 .ro 0 .none,
    ob 0x410104 .u16 .ro 0 .none,
    ob 0x410105 .u32 .ro 0 .none,
    ob 0x410106 .u32 .ro 0 .none,
    ob 0x410107 .u32 .ro 0 .none,
    ob 0x410108 .u32 .ro 0 .none,
    ob 0x410109 .u32 .ro 0 .none,
    ob 0x41010A .u32 .ro 0 .none,
    ob 0x420000 .u8 .ro 64 .fixed,
    ob 0x420100 .u32 .ro 2097152 .fixed,
    ob 0x420200 .u32 .ro 16777216 .fixed,
    ob 0x420300 .u8 .ro 4 .fixed,
    ob 0x421000 .f32 .rwOperator 260046848 .nv true,
    ob 0x422000 .u32 .ro 0 .none,
    ob 0x422001 .u32 .ro 0 .none,
    ob 0x422002 .u32 .ro 0 .none,
    ob 0x422003 .u32 .ro 0 .none,
    ob 0x422100 .u32 .ro 0 .none,
    ob 0x422200 .u32 .ro 0 .none,
    ob 0x422300 .u32 .ro 0 .none,
    ob 0x422400 .u32 .ro 0 .none,
    ob 0x422500 .u32 .ro 0 .none,
    ob 0x422600 .u32 .ro 0 .none,
    ob 0x422700 .u32 .ro 0 .none,
    ob 0x423000 .u8 .rwOperator 0 .none,
    ob 0x423100 .u16 .rwOperator 0 .none true,
    ob 0x423101 .u8 .ro 0 .none,
    ob 0x423102 .f32 .rwTenant 1064514355 .none true,
    ob 0x423103 .f32 .rwTenant 1065353216 .none true,
    ob 0x423104 .u32 .ro 0 .none,
    ob2 0x500000 .u8 .ro 8 4 .none,
    ob 0x500100 .u16 .ro 256 .fixed,
    ob 0x500200 .u8 .ro 4 .fixed,
    ob 0x500300 .u8 .ro 16 .fixed,
    ob 0x510000 .u8 .rwOperator 0 .none,
    ob 0x510100 .u8 .ro 0 .none,
    ob 0x510101 .u8 .ro 0 .none,
    ob 0x510102 .u32 .ro 0 .none,
    ob 0x510103 .u32 .ro 0 .none,
    ob 0x510104 .u32 .ro 0 .none,
    ob 0x510105 .u32 .ro 0 .none ]

/-- Objects of indices 0x6000 to 0x6101. -/
def objs3 : List Obj :=
  [ ob 0x600000 .u32 .ro 262144 .fixed,
    ob 0x600100 .u16 .ro 4096 .fixed,
    ob 0x600200 .u32 .ro 131072 .fixed,
    ob 0x600300 .u8 .ro 16 .fixed,
    ob 0x600400 .u32 .ro 0 .none,
    ob 0x601000 .u32 .ro 300 .fixed,
    ob 0x601001 .u32 .ro 200 .fixed,
    ob 0x601002 .u32 .ro 3900 .fixed,
    ob 0x601003 .u32 .ro 1221 .fixed,
    ob 0x610000 .u32 .rwTenant 0 .none,
    ob 0x610100 .u8 .ro 0 .none,
    ob 0x610101 .u8 .rwOperator 0 .none,
    ob 0x610102 .u16 .rwOperatorDisabled 0 .none true,
    ob 0x610103 .u8 .rwOperator 0 .none true,
    ob 0x610104 .u64 .rwOperatorDisabled 0 .none,
    ob 0x610105 .u8 .rwOperatorDisabled 4 .none,
    ob 0x610106 .u64 .rwOperatorDisabled 0 .none,
    ob 0x610107 .u8 .rwOperatorDisabled 0 .none,
    ob 0x610108 .u64 .rwOperatorDisabled 0 .none,
    ob 0x610109 .u8 .rwOperator 0 .none,
    ob 0x61010A .u8 .rwTenant 0 .none,
    ob 0x61010B .u32 .ro 0 .none,
    ob 0x61010C .u32 .ro 0 .none,
    ob 0x61010D .u32 .ro 0 .none,
    ob 0x61010E .u8 .woTenant 0 .none,
    ob 0x61010F .u8 .ro 0 .none,
    ob 0x610110 .u64 .ro 0 .none,
    ob 0x610111 .u64 .ro 0 .none,
    ob 0x610112 .u64 .ro 0 .none,
    ob 0x610113 .u64 .ro 0 .none,
    ob 0x610114 .u64 .ro 0 .none,
    ob 0x610115 .u32 .ro 0 .none,
    ob 0x610116 .u32 .ro 0 .none,
    ob 0x610117 .u32 .ro 0 .none,
    ob 0x610118 .u32 .ro 0 .none ]

/-- Objects of indices 0x6200 to 0x6403. -/
def objs4 : List Obj :=
  [ ob 0x620000 .u16 .rwTenant 0 .none,
    ob 0x620100 .u64 .rwOperator 0 .none,
    ob 0x620101 .u8 .rwOperator 0 .none,
    ob 0x620102 .u8 .rwOperator 0 .none,
    ob 0x620103 .u32 .woTenant 0 .none,
    ob 0x620104 .u32 .ro 0 .none,
    ob 0x620105 .u32 .ro 0 .none,
    ob 0x620106 .u32 .ro 0 .none,
    ob 0x620200 .u8 .ro 16 .fixed,
    ob 0x620201 .u8 .ro 64 .fixed,
    ob 0x620202 .u16 .ro 256 .fixed,
    ob 0x620203 .u8 .ro 64 .fixed,
    ob 0x630000 .u32 .rwTenant 0 .none,
    ob 0x630100 .u16 .rwOperator 0 .none true,
    ob 0x630101 .u64 .rwTenant 0 .none,
    ob2 0x640000 .u8 .ro 64 32 .none,
    ob 0x640100 .u32 .rwOperator 65536 .nv,
    ob 0x640200 .u8 .rwOperator 0 .none,
    ob 0x640300 .u8 .ro 0 .none,
    ob 0x640301 .u32 .ro 0 .none,
    ob 0x640302 .u32 .ro 0 .none,
    ob 0x640303 .u32 .ro 0 .none ]

/-- Objects of indices 0x6410 to 0x6410. -/
def objs5 : List Obj :=
  [ ob 0x641000 .u64 .rwService 0 .nv true,
    ob 0x641001 .u64 .rwService 0 .nv true,
    ob 0x641002 .u64 .rwService 0 .nv true,
    ob 0x641003 .u64 .rwService 0 .nv true,
    ob 0x641004 .u64 .rwService 0 .nv true,
    ob 0x641005 .u64 .rwService 0 .nv true,
    ob 0x641006 .u64 .rwService 0 .nv true,
    ob 0x641007 .u64 .rwService 0 .nv true,
    ob 0x641008 .u64 .rwService 0 .nv true,
    ob 0x641009 .u64 .rwService 0 .nv true,
    ob 0x64100A .u64 .rwService 0 .nv true,
    ob 0x64100B .u64 .rwService 0 .nv true,
    ob 0x64100C .u64 .rwService 0 .nv true,
    ob 0x64100D .u64 .rwService 0 .nv true,
    ob 0x64100E .u64 .rwService 0 .nv true,
    ob 0x64100F .u64 .rwService 0 .nv true ]

/-- Objects of indices 0x6411 to 0x6411. -/
def objs6 : List Obj :=
  [ ob 0x641100 .u64 .rwService 0 .nv true,
    ob 0x641101 .u64 .rwService 0 .nv true,
    ob 0x641102 .u64 .rwService 0 .nv true,
    ob 0x641103 .u64 .rwService 0 .nv true,
    ob 0x641104 .u64 .rwService 0 .nv true,
    ob 0x641105 .u64 .rwService 0 .nv true,
    ob 0x641106 .u64 .rwService 0 .nv true,
    ob 0x641107 .u64 .rwService 0 .nv true,
    ob 0x641108 .u64 .rwService 0 .nv true,
    ob 0x641109 .u64 .rwService 0 .nv true,
    ob 0x64110A .u64 .rwService 0 .nv true,
    ob 0x64110B .u64 .rwService 0 .nv true,
    ob 0x64110C .u64 .rwService 0 .nv true,
    ob 0x64110D .u64 .rwService 0 .nv true,
    ob 0x64110E .u64 .rwService 0 .nv true,
    ob 0x64110F .u64 .rwService 0 .nv true ]

/-- Objects of indices 0x7000 to 0x7301. -/
def objs7 : List Obj :=
  [ ob 0x700000 .u16 .rwService 0 .nv,
    ob 0x700100 .u8 .ro 48 .none,
    ob 0x700200 .u16 .rwOperator 0 .nv true,
    ob 0x700201 .u16 .rwOperator 1 .nv true,
    ob 0x700202 .u16 .ro 0 .none,
    ob 0x700203 .u16 .ro 0 .none,
    ob 0x700204 .u16 .ro 1 .none,
    ob 0x700300 .u32 .rwOperator 4096 .nv,
    ob 0x700301 .u32 .rwOperator 16777216 .nv,
    ob 0x700302 .u32 .ro 0 .none,
    ob 0x700400 .u64 .ro 0 .none,
    ob 0x700401 .u16 .ro 0 .none,
    ob 0x700402 .i32 .ro 0 .none,
    ob 0x700403 .u32 .rwOperator 1048576 .nv,
    ob 0x700500 .u32 .rwOperator 16777216 .nv,
    ob 0x700501 .u8 .ro 64 .fixed,
    ob 0x710000 .u8 .rwOperator 1 .none,
    ob 0x710100 .u16 .rwOperator 0 .nv true,
    ob 0x710101 .u32 .rwOperator 1 .nv true,
    ob 0x710102 .u16 .rwOperator 1 .nv true,
    ob 0x710103 .u32 .ro 4294967295 .none,
    ob 0x720000 .u8 .rwOperator 0 .none,
    ob 0x720100 .u8 .ro 3 .none,
    ob 0x720101 .u32 .ro 0 .none,
    ob 0x720102 .u32 .ro 0 .none,
    ob 0x720103 .u32 .ro 0 .none,
    ob 0x720104 .i32 .rwService 0 .nv,
    ob 0x730000 .u16 .rwOperator 0 .none,
    ob 0x730100 .u8 .rwOperator 255 .nv,
    ob 0x730101 .u8 .rwOperator 255 .nv ]

/-- Objects of indices 0x8000 to 0x8400. -/
def objs8 : List Obj :=
  [ ob 0x800000 .u8 .ro 0 .none,
    ob 0x800100 .u8 .ro 0 .always,
    ob 0x800101 (.octets 64) .ro 0 .always,
    ob 0x800102 .u8 .woOperator 0 .none,
    ob 0x800200 .u8 .rwOperator 0 .nv,
    ob 0x801000 .u64 .ro 0 .none,
    ob 0x801001 .u64 .ro 0 .none,
    ob 0x801002 .u64 .ro 0 .none,
    ob 0x801003 .u64 .ro 0 .none,
    ob 0x801100 .u64 .ro 0 .none,
    ob 0x801101 .u64 .ro 0 .none,
    ob 0x801102 .u64 .ro 0 .none,
    ob 0x801103 .u64 .ro 0 .none,
    ob 0x801200 .u64 .ro 0 .none,
    ob 0x801201 .u64 .ro 0 .none,
    ob 0x801300 .u8 .ro 64 .fixed,
    ob 0x801301 .u8 .ro 4 .fixed,
    ob 0x802000 .u16 .rwOperator 0 .none,
    ob 0x802100 .u64 .ro 0 .none,
    ob 0x802101 .u8 .ro 0 .fixed,
    ob 0x803000 .u16 .rwOperator 16 .nv,
    ob 0x803100 .u64 .ro 0 .none,
    ob 0x803101 .u32 .ro 0 .none,
    ob 0x803200 .u8 .ro 0 .none,
    ob 0x803201 .u8 .ro 0 .none,
    ob 0x810000 .u64 .rwOperatorDisabled 0 .none,
    ob 0x810001 .u8 .rwOperatorDisabled 10 .none,
    ob 0x810002 .u8 .rwOperatorDisabled 0 .none,
    ob 0x810003 .u8 .rwOperator 0 .none,
    ob 0x810004 .u32 .rwOperator 0 .none,
    ob 0x810005 .u32 .ro 0 .none,
    ob 0x810006 .u8 .rwOperator 0 .none,
    ob 0x810007 .u8 .rwOperator 2 .none,
    ob 0x810008 .u8 .ro 0 .none,
    ob 0x810009 .u8 .woOperator 0 .none,
    ob 0x81000A .u8 .rwOperator 0 .nv,
    ob 0x820000 .u32 .rwTenant 0 .none,
    ob 0x820100 .u8 .rwTenant 0 .none true,
    ob 0x820101 (.octets 32) .rwTenantReadOnly 0 .none,
    ob 0x820102 .u32 .rwTenantReadOnly 0 .none,
    ob 0x830000 .u8 .ro 0 .none,
    ob 0x830001 .u32 .ro 0 .none,
    ob 0x830002 .u32 .ro 0 .none,
    ob 0x840000 .u8 .rwOperator 0 .none,
    ob 0x840001 .u16 .rwOperator 0 .none,
    ob 0x840002 .u8 .woOperator 0 .none,
    ob 0x840003 .u8 .ro 0 .none,
    ob 0x840004 .u32 .ro 0 .none,
    ob 0x840005 .u32 .ro 0 .none ]

/-- Objects of indices 0x9000 to 0xF000. -/
def objs9 : List Obj :=
  [ ob 0x900000 .u8 .ro 0 .none,
    ob 0x900001 .u8 .rwOperator 0 .none,
    ob 0x900002 .u8 .rwOperator 0 .none,
    ob 0x900003 .u64 .rwOperator 0 .none,
    ob 0x900100 .u32 .ro 0 .none,
    ob 0x900101 .u32 .ro 0 .none,
    ob 0x901000 .u8 .ro 0 .none,
    ob 0x901001 .u8 .ro 0 .none,
    ob 0x901002 .u8 .rwOperator 0 .none,
    ob 0x901003 .u32 .ro 0 .none,
    ob 0x901004 .u32 .ro 0 .none,
    ob2 0x902000 .u8 .ro 32 16 .fixed,
    ob 0x902001 .i16 .ro 0 .none,
    ob 0x902002 (.octets 64) .ro 0 .none,
    ob 0x902003 .u8 .ro 0 .none,
    ob 0x902004 .i16 .ro 0 .always,
    ob 0x902100 .i16 .rwService 1520 .nv,
    ob 0x902101 .i16 .rwService 1680 .nv,
    ob 0x902102 .i16 .rwService 1840 .nv,
    ob 0x902103 .i16 .rwService 80 .nv,
    ob 0x903000 .u8 .ro 0 .none,
    ob 0x903001 .u32 .ro 0 .none,
    ob 0x903002 .u8 .ro 1 .always,
    ob 0x904000 .u8 .woOperator 0 .none,
    ob 0x904001 .u8 .ro 0 .none,
    ob 0xA00000 .u8 .ro 0 .none,
    ob 0xA00001 .u8 .ro 0 .none,
    ob 0xA00002 .u8 .rwService 0 .nv,
    ob 0xA00100 .u32 .ro 0 .none,
    ob 0xA00101 .u32 .ro 0 .none,
    ob 0xA00102 .u32 .ro 0 .none,
    ob 0xA00200 .u64 .rwService 0 .none,
    ob 0xA00201 .u8 .woService 0 .none,
    ob 0xA00202 .u8 .ro 0 .none,
    ob 0xA00203 .u64 .ro 0 .none,
    ob 0xF00000 (.octets 1024) .rwService 0 .none,
    ob 0xF00001 (.octets 1024) .ro 0 .always,
    ob 0xF00002 .u8 .woService 0 .none,
    ob 0xF00003 .u32 .ro 0 .nv,
    ob 0xF00004 .u8 .ro 2 .none ]

/-- Every object, in ascending order of index and sub-index. -/
def objTable : List Obj := objs0 ++ objs1 ++ objs2 ++ objs3 ++ objs4 ++ objs5 ++ objs6 ++ objs7 ++ objs8 ++ objs9

/-- The object numbered `oid`. -/
def Obj.find (oid : Nat) : Option Obj := objTable.find? (fun o => o.oid == oid)

/-- The largest select number of each selected block (Table 13.10), and its select object. -/
structure SelBlock where
  index : Nat
  select : Nat
deriving DecidableEq, Repr

def selBlocks : List SelBlock :=
  [ ⟨0x2101, O.segSelect⟩, ⟨0x3101, O.histSelect⟩, ⟨0x4101, O.arraySelect⟩, ⟨0x4231, O.chSelect⟩,
    ⟨0x5101, O.lanternSelect⟩, ⟨0x6101, O.queueSelect⟩, ⟨0x6201, O.tenantSelect⟩, ⟨0x6301, O.syncSelect⟩,
    ⟨0x6403, O.memportSelect⟩, ⟨0x7101, O.rgSelect⟩, ⟨0x7201, O.bportSelect⟩, ⟨0x7301, O.routeSelect⟩,
    ⟨0x8021, O.evcodeSelect⟩, ⟨0x8201, O.trapQueueSelect⟩ ]

/-- The select object that governs an object, if it lies in a selected block (R368). -/
def selectOf (oid : Nat) : Option Nat := (selBlocks.find? (fun b => b.index == oid / 256)).map (·.select)

/-- The key of an object's value for a select number: the select number runs below 2^18 (Table 13.10). -/
def okey (oid sel : Nat) : Nat := oid * 262144 + sel

def Variant.pick (v : Variant) (l m : Nat) : Nat := match v with | .l => l | .m => m

/-- Severities of Table 11.12 by code. -/
def evSeverity (code : Nat) : Nat :=
  if code ∈ [0x0901, 0x0903] then 0
  else if code ∈ [0x010D, 0x0203, 0x0205, 0x0304, 0x0407, 0x0602, 0x0603, 0x0604, 0x0605, 0x0606, 0x0607, 0x0702, 0x0703,
    0x0704, 0x0801, 0x0802, 0x0902, 0x0904, 0x0906, 0x0A01] then 2
  else if code ∈ [0x0907, 0x0908, 0x0909, 0x090A] then 3
  else 1

/-- The codes of Table 11.12. -/
def evCodes : List Nat :=
  [0x0101, 0x0102, 0x0103, 0x0104, 0x0105, 0x0106, 0x0107, 0x0108, 0x0109, 0x010A, 0x010B, 0x010C, 0x010D,
   0x0201, 0x0202, 0x0203, 0x0204, 0x0205, 0x0206, 0x0301, 0x0302, 0x0303, 0x0304,
   0x0401, 0x0402, 0x0403, 0x0404, 0x0405, 0x0406, 0x0407, 0x0501, 0x0502,
   0x0601, 0x0602, 0x0603, 0x0604, 0x0605, 0x0606, 0x0607, 0x0701, 0x0702, 0x0703, 0x0704, 0x0705,
   0x0801, 0x0802, 0x0803, 0x0901, 0x0902, 0x0903, 0x0904, 0x0905, 0x0906, 0x0907, 0x0908, 0x0909, 0x090A, 0x0A01]

/-- The default of an object for a select number. -/
def odfl (v : Variant) (oid sel : Nat) : Nat :=
  if oid = O.segPartner then sel ^^^ 1
  else if oid = O.logicalArrays ∨ oid = O.lanternLogical then 2 ^ sel
  else if oid = O.evcodeSeverity then (if sel = 0 then 0 else evSeverity sel)
  else match Obj.find oid with
    | some o => v.pick o.dflL o.dflM
    | none => 0

end Sys2Proof
end

