-- ==== Sys2Proof/Machine/Desc.lean ====
section
/-! DEFINITION. Descriptors (Tables 9.2 to 9.9): their fields as records, how 64 bytes are read, and which are malformed
under R237. A raw descriptor is the number whose little-endian bytes are its 64 bytes (R9). -/

namespace Sys2Proof

/-- The conversion opcodes (Table 9.3). -/
inductive ConvOp where
  | convert | quant | dequant | stats
deriving DecidableEq, Repr

/-- The routine opcodes (Table 9.3). -/
inductive RKind where
  | gram | root | solve | precond
deriving DecidableEq, Repr

/-- Fields of a conversion descriptor (Table 9.4). -/
structure ConvD where
  op : ConvOp
  srcTid : Nat
  dstTid : Nat
  scaleTid : Nat
  sideTid : Nat
  statsTid : Nat
  scaleValue : Nat
  escThreshold : Nat
  srSeed : Nat
  srStep : Nat
  rows : Nat
  srcFmt : Nat
  dstFmt : Nat
  rowLen : Nat
  rnd : Nat
  ovf : Bool
  strict : Bool
  scaleSrc : Nat
  zeroPoint : Nat
  histSlot : Nat
  blockSize : Nat
  blockDir : Nat
  scaleRule : Nat
  rowPow2 : Bool
  escEn : Bool
  reqPerCol : Bool
  srcStream : Bool
  dstStream : Bool
  statsEn : Bool
  segBase : Nat
  segSpan : Nat
  streamTag : Nat
  capture : Nat
  captureCh : Nat
deriving DecidableEq, Repr

/-- Fields of a routine descriptor (Tables 9.6 and 9.7); a field that the opcode does not use reads 0. -/
structure RoutD where
  kind : RKind
  imageTid : Nat
  stageTid : Nat
  ctxTid : Nat
  srSeed : Nat
  srStep : Nat
  deadline : Nat
  dim : Nat
  outTid : Nat := 0
  inTid : Nat := 0
  decay : Nat := 0
  weight : Nat := 0
  tokens : Nat := 0
  captureCh : Nat := 0
  chParams : Bool := false
  domeMode : Nat := 0
  ipath : Bool := false
  pLog2 : Nat := 0
  niter : Nat := 0
  npow : Nat := 0
  prec : Nat := 0
  damp : Nat := 0
  tol : Nat := 0
  residTol : Nat := 0
  schedTid : Nat := 0
  rhsTid : Nat := 0
  solnTid : Nat := 0
  rhsCols : Nat := 0
  listTid : Nat := 0
  layers : Nat := 0
deriving DecidableEq, Repr

/-- Fields of a REDUCE (Table 9.8). -/
structure RedD where
  srcTid : Nat
  dstTid : Nat
  count : Nat
  rtag : Nat
  rgroup : Nat
  rop : Nat
  inPair : Bool
  outPair : Bool
deriving DecidableEq, Repr

/-- What a descriptor asks for. `bad` is a reserved opcode. -/
inductive Body where
  | nop
  | conv (c : ConvD)
  | rout (r : RoutD)
  | reduce (r : RedD)
  | fence (tenantScope : Bool)
  | bellWait (bells : Nat)
  | signal (value : Nat) (set : Bool) (target : Nat)
  | wait (threshold target waitBells : Nat)
  | bad
deriving DecidableEq, Repr

/-- A descriptor as read (Table 9.2). -/
structure Desc where
  opcode : Nat
  irq : Bool
  sigEn : Bool
  syncId : Nat
  user : Nat
  malformed : Bool
  body : Body
deriving DecidableEq, Repr

/-- The 32-bit word at byte offset `off` of a structure. -/
def dw (raw off : Nat) : Nat := bits raw (8 * off) 32

/-- A field of the word at byte offset `off`: `w` bits from bit `lo`. -/
def fld (raw off lo w : Nat) : Nat := bits raw (8 * off + lo) w

/-- Whether the bytes from `off` to 63 of a descriptor are all 0. -/
def zeroFrom (raw off : Nat) : Bool := bits raw (8 * off) (8 * (64 - off)) == 0

def convOf (op : ConvOp) (raw : Nat) : ConvD :=
  { op := op
    srcTid := dw raw 8, dstTid := dw raw 12, scaleTid := dw raw 16, sideTid := dw raw 20, statsTid := dw raw 24
    scaleValue := dw raw 28, escThreshold := dw raw 32, srSeed := dw raw 36, srStep := dw raw 40
    rows := fld raw 44 10 22, srcFmt := fld raw 44 5 5, dstFmt := fld raw 44 0 5
    rowLen := fld raw 48 15 17, rnd := fld raw 48 13 2, ovf := bitAt raw (8 * 48 + 12), strict := bitAt raw (8 * 48 + 11)
    scaleSrc := fld raw 48 9 2, zeroPoint := fld raw 48 0 9
    histSlot := fld raw 52 18 14, blockSize := fld raw 52 9 9, blockDir := fld raw 52 8 1, scaleRule := fld raw 52 7 1
    rowPow2 := bitAt raw (8 * 52 + 6), escEn := bitAt raw (8 * 52 + 5), reqPerCol := bitAt raw (8 * 52 + 4)
    srcStream := bitAt raw (8 * 52 + 3), dstStream := bitAt raw (8 * 52 + 2), statsEn := bitAt raw (8 * 52 + 1)
    segBase := fld raw 56 16 16, segSpan := fld raw 56 0 16
    streamTag := fld raw 60 16 16, capture := fld raw 60 14 2, captureCh := fld raw 60 8 6 }

/-- A conversion descriptor is malformed: a reserved bit is set, a field its opcode does not use under Table 9.5 is not 0,
or a field lies outside its range (R237, R239, R104, R34). -/
def convBad (c : ConvD) (raw : Nat) : Bool :=
  let t32 := c.scaleTid != 0 || c.sideTid != 0 || c.scaleValue != 0 || c.escThreshold != 0 || c.zeroPoint != 0 ||
    c.blockSize != 0 || c.blockDir != 0 || c.scaleRule != 0 || c.rowPow2 || c.escEn || c.reqPerCol
  let scl := c.scaleSrc != 0 || c.histSlot != 0
  let cap := c.capture != 0 || c.captureCh != 0
  let dst := c.dstTid != 0 || c.dstFmt != 0 || c.dstStream || c.rnd != 0 || c.ovf || c.strict || c.srSeed != 0 || c.srStep != 0
  bitAt raw (8 * 52) || fld raw 60 0 8 != 0 || decide (2097152 < c.rows) || decide (65536 < c.rowLen) ||
    c.rnd == 3 || decide (2 ≤ c.capture) ||
    (!c.srcStream && !c.dstStream && c.streamTag != 0) ||
    (match c.op with
     | .convert => t32 || scl
     | .quant => false
     | .dequant => cap
     | .stats => t32 || cap || dst)

def routOf (k : RKind) (raw : Nat) : RoutD :=
  let r : RoutD :=
    { kind := k, imageTid := dw raw 8, stageTid := dw raw 12, ctxTid := dw raw 16, srSeed := dw raw 20, srStep := dw raw 24
      deadline := fld raw 28 16 16, dim := fld raw 28 0 15 }
  match k with
  | .gram => { r with outTid := dw raw 32, decay := dw raw 36, weight := dw raw 40, tokens := fld raw 44 7 25
                      captureCh := fld raw 44 1 6, chParams := bitAt raw (8 * 44), domeMode := fld raw 48 30 2
                      ipath := bitAt raw (8 * 48 + 29) }
  | .root => { r with outTid := dw raw 32, inTid := dw raw 36, damp := dw raw 40, tol := dw raw 44, residTol := dw raw 48
                      pLog2 := fld raw 52 30 2, niter := fld raw 52 23 7, npow := fld raw 52 16 7, prec := fld raw 52 15 1 }
  | .solve => { r with outTid := dw raw 32, inTid := dw raw 36, damp := dw raw 40, schedTid := dw raw 44, rhsTid := dw raw 48
                       solnTid := dw raw 52, rhsCols := fld raw 56 15 17 }
  | .precond => { r with listTid := dw raw 32, layers := fld raw 36 25 7, prec := fld raw 36 24 1 }

/-- A routine descriptor is malformed (R237, R240, Table 6.2): a reserved bit is set, PRECOND carries a DIM, or GRAM's DOME_MODE
is 3. A value beyond those of Table 6.2 that its width encodes is F_RPARAM at dispatch (R142, `RoutD.badParam`). -/
def routBad (r : RoutD) (raw : Nat) : Bool :=
  bitAt raw (8 * 28 + 15) ||
  (match r.kind with
   | .gram => r.domeMode == 3 || fld raw 48 0 29 != 0 || !zeroFrom raw 52
   | .root => fld raw 52 0 15 != 0 || !zeroFrom raw 56
   | .solve => fld raw 56 0 15 != 0 || !zeroFrom raw 60
   | .precond => r.dim != 0 || fld raw 36 0 24 != 0 || !zeroFrom raw 40)

def redOf (raw : Nat) : RedD :=
  { srcTid := dw raw 8, dstTid := dw raw 12, count := dw raw 16, rtag := dw raw 20, rgroup := fld raw 24 16 16
    rop := fld raw 24 12 4, inPair := bitAt raw (8 * 24 + 11), outPair := bitAt raw (8 * 24 + 10) }

/-- A REDUCE is malformed (R237, R241, R325, Table 7.9). -/
def redBad (r : RedD) (raw : Nat) : Bool :=
  decide (255 < r.rgroup) || decide (4 < r.rop) || ((r.inPair || r.outPair) && r.rop != 1) ||
    fld raw 24 0 10 != 0 || !zeroFrom raw 28

/-- What bytes 8 to 63 say under an opcode, and whether they are malformed (R236 to R242). -/
def bodyOf (op raw : Nat) : Body × Bool :=
  match op with
  | 0x00 => (.nop, !zeroFrom raw 8)
  | 0x01 => (.conv (convOf .convert raw), convBad (convOf .convert raw) raw)
  | 0x02 => (.conv (convOf .quant raw), convBad (convOf .quant raw) raw)
  | 0x03 => (.conv (convOf .dequant raw), convBad (convOf .dequant raw) raw)
  | 0x04 => (.conv (convOf .stats raw), convBad (convOf .stats raw) raw)
  | 0x10 => (.rout (routOf .gram raw), routBad (routOf .gram raw) raw)
  | 0x11 => (.rout (routOf .root raw), routBad (routOf .root raw) raw)
  | 0x12 => (.rout (routOf .solve raw), routBad (routOf .solve raw) raw)
  | 0x13 => (.rout (routOf .precond raw), routBad (routOf .precond raw) raw)
  | 0x20 => (.reduce (redOf raw), redBad (redOf raw) raw)
  | 0x30 => (.fence (bitAt raw 64), fld raw 8 1 31 != 0 || !zeroFrom raw 12)
  | 0x31 => (.bellWait (fld raw 8 0 16), fld raw 8 16 16 != 0 || !zeroFrom raw 12)
  | 0x32 => (.signal (bits raw 64 64) (bitAt raw (8 * 16 + 31)) (fld raw 16 0 17), fld raw 16 17 14 != 0 || !zeroFrom raw 20)
  | 0x33 => (.wait (bits raw 64 64) (fld raw 16 0 17) (fld raw 20 0 16),
             fld raw 16 17 15 != 0 || fld raw 20 16 16 != 0 || !zeroFrom raw 24)
  | _ => (.bad, true)

/-- A descriptor read from its 64 bytes (R236, R237). -/
def Desc.ofRaw (raw : Nat) : Desc :=
  let op := fld raw 0 24 8
  let sig := bitAt raw 22
  let sid := fld raw 0 0 17
  let b := bodyOf op raw
  { opcode := op, irq := bitAt raw 23, sigEn := sig, syncId := sid, user := dw raw 4
    malformed := b.2 || fld raw 0 17 5 != 0 || (!sig && sid != 0), body := b.1 }

/-- A routine that is a no-op under R143. -/
def RoutD.isNoop (r : RoutD) : Bool :=
  match r.kind with
  | .gram => r.dim == 0 || r.tokens == 0
  | .root => r.dim == 0 || r.niter == 0
  | .solve => r.dim == 0
  | .precond => r.layers == 0

/-- The zero-length descriptors of R263 and the no-op routines of R143: they read and write no tensor. -/
def Body.isNoop : Body → Bool
  | .nop => true
  | .conv c => c.rows == 0 || c.rowLen == 0
  | .rout r => r.isNoop
  | .reduce r => r.count == 0
  | .bellWait n => n == 0
  | _ => false

def Desc.isRoutine (d : Desc) : Bool :=
  match d.body with
  | .rout _ => !d.malformed
  | _ => false

/-- Row tiles are used under SCALE_SRC = ROW with rows of more than 64 elements; square tiles otherwise (R87). -/
def ConvD.rowTiles (c : ConvD) : Bool := c.scaleSrc == 1 && decide (64 < c.rowLen)

/-- Tile columns TC (R87). -/
def ConvD.tc (c : ConvD) : Nat := if c.rowTiles then ceilDiv c.rowLen 4096 else ceilDiv c.rowLen 64

/-- The number of tiles of the view (R87). -/
def ConvD.tiles (c : ConvD) : Nat := (if c.rowTiles then c.rows else ceilDiv c.rows 64) * c.tc

/-- TROW and TCOL of tile number `t`. -/
def ConvD.trow (c : ConvD) (t : Nat) : Nat := t / c.tc
def ConvD.tcol (c : ConvD) (t : Nat) : Nat := t % c.tc

/-- The lane count of each beat of tile `t`, in beat order (R87). -/
def ConvD.beatLanes (c : ConvD) (t : Nat) : List Nat :=
  if c.rowTiles then
    let n := min 4096 (c.rowLen - c.tcol t * 4096)
    (List.range (ceilDiv n 64)).map (fun b => min 64 (n - b * 64))
  else
    (List.range (min 64 (c.rows - c.trow t * 64))).map (fun _ => min 64 (c.rowLen - c.tcol t * 64))

/-- View row and column of beat `b`, lane `l` of tile `t` (R87). -/
def ConvD.rc (c : ConvD) (t b l : Nat) : Nat × Nat :=
  if c.rowTiles then (c.trow t, c.tcol t * 4096 + b * 64 + l) else (c.trow t * 64 + b, c.tcol t * 64 + l)

/-- The tile that holds view position (r, col). -/
def ConvD.tileOf (c : ConvD) (r col : Nat) : Nat :=
  if c.rowTiles then r * c.tc + col / 4096 else (r / 64) * c.tc + col / 64

/-- The elements of tile `t`: in-tile position row × 64 + lane, view row, view column. -/
def ConvD.elems (c : ConvD) (t : Nat) : List (Nat × Nat × Nat) :=
  (c.beatLanes t).zipIdx.flatMap (fun (n, b) => (List.range n).map (fun l => (b * 64 + l, c.rc t b l)))

/-- The six valid block sizes (Table 3.2). -/
def blockOk (b : Nat) : Bool := b ∈ [8, 16, 32, 64, 128, 256]

/-- Gang group size G and its power of two Gp (before R93). -/
def ConvD.gang (c : ConvD) : Nat :=
  if c.rowTiles then c.tc
  else if c.scaleSrc == 3 && (c.op == .quant || c.op == .dequant) && (c.blockSize == 128 || c.blockSize == 256) then c.blockSize / 64
  else 1

def pow2Ceil (n : Nat) : Nat := if n ≤ 1 then 1 else 2 ^ (Nat.log2 (n - 1) + 1)

def ConvD.gp (c : ConvD) : Nat := pow2Ceil c.gang

/-- Group and member numbers of tile `t` (R93). -/
def ConvD.group (c : ConvD) (t : Nat) : Nat × Nat :=
  if c.gang = 1 then (t, 0)
  else if c.rowTiles then (c.trow t, c.tcol t)
  else if c.blockDir = 0 then (c.trow t * ceilDiv c.tc c.gang + c.tcol t / c.gang, c.tcol t % c.gang)
  else ((c.trow t / c.gang) * c.tc + c.tcol t, c.trow t % c.gang)

/-- The logical segment that carries tile `t` of a memory-source descriptor (R93). -/
def ConvD.segOf (c : ConvD) (t : Nat) : Nat :=
  let (u, k) := c.group t
  c.segBase + c.gp * (u % (c.segSpan / c.gp)) + k

/-- A requantisation: a QUANT from INT32 to an integer format (R75). -/
def ConvD.isRequant (c : ConvD) : Bool := c.op == .quant && c.srcFmt == 8 && (c.dstFmt == 5 || c.dstFmt == 6 || c.dstFmt == 7)

/-- The format code of the quantised side (R53). -/
def ConvD.qFmt (c : ConvD) : Nat := if c.op == .dequant then c.srcFmt else c.dstFmt

end Sys2Proof
end

