-- ==== Sys2Proof/Machine/Quant.lean ====
section
/-! DEFINITION. What a Hedge conversion does to the elements of a tile (03_scaling_quantisation.md, 04_hedge.md): the
checks of Table 3.9, scales, the mapping of R50, outliers and side lists, requantisation, dequantisation, and the tile
statistics of Table 4.3. Everything here is a pure function of the descriptor and of what it reads. -/

namespace Sys2Proof

/-- What a conversion reads: source codes by view row and column, element indices of the tensor that statistics name (R87),
elements of SCALE_TID, entries of SIDE_TID, the EFF_MAX in force and EXP_LO. -/
structure ConvEnv where
  src : Nat → Nat → Nat
  idx : Nat → Nat → Nat
  scaleRd : Nat → Nat
  sideRd : Nat → Nat
  effMax : Nat
  expLo : Int

/-- The source format; FP32 stands in for a code that the checks of Table 3.9 refuse. -/
def ConvD.sf (c : ConvD) : Fmt := (Fmt.ofCode c.srcFmt).getD .fp32
def ConvD.df (c : ConvD) : Fmt := (Fmt.ofCode c.dstFmt).getD .fp32
def ConvD.rm (c : ConvD) : Rnd := (Rnd.ofCode c.rnd).getD .rne

/-- The zero point, a 9-bit two's complement value (Table 3.2). -/
def ConvD.z (c : ConvD) : Int := sext 9 c.zeroPoint

/-- QMIN and QMAX under ESC_EN (Table 3.1). -/
def qrange (f : Fmt) (esc : Bool) : Int × Int :=
  match f, esc with
  | .int8, true => (-127, 127)
  | .uint8, true => (1, 255)
  | .int4, true => (-7, 7)
  | f, _ => (f.qmin, f.qmax)

/-- The escape code (Table 3.1). -/
def escCode : Fmt → Nat
  | .int8 => 0x80
  | .int4 => 0x8
  | _ => 0

def hasEsc (f : Fmt) : Bool := f == .int8 || f == .uint8 || f == .int4

/-- Whether a format code may be a Hedge source or destination (Table 2.2). -/
def hedgeSrcOk (code : Nat) : Bool := decide (code ≤ 8)
def hedgeDstOk (code : Nat) : Bool := decide (code ≤ 7)

/-- Whether the quantised side may carry a BLOCK scale (Table 3.3). -/
def blockFmtOk (code : Nat) : Bool := code ∈ [3, 4, 5, 7]

/-- The checks of Table 3.9 in their order, 0 when all pass. `owned`: the history slot belongs to the tenant domain;
`frozen`: scales are frozen under R80; `scaleBad`: the scale tensor's format code is invalid in its role (R21). -/
def quantRefusal (c : ConvD) (owned frozen scaleBad : Bool) : Nat :=
  let isQ := c.op == .quant
  let isD := c.op == .dequant
  let qf := (Fmt.ofCode c.qFmt).getD .fp32
  let thr := v32 c.escThreshold
  let blk := c.scaleSrc == 3 && (isQ || isD)
  let (lo, hi) := qrange qf c.escEn
  if !hedgeSrcOk c.srcFmt || (c.op != .stats && !hedgeDstOk c.dstFmt) || scaleBad then 0x0102
  else if blk && (!blockFmtOk c.qFmt || c.z != 0) then 0x0103
  else if blk && !blockOk c.blockSize then 0x0103
  else if (isQ || isD) && (if hasEsc qf then decide (c.z < lo) || decide (hi < c.z) else c.z != 0) then 0x0103
  else if c.escEn && (!hasEsc qf || (isQ && c.srcFmt == 8) || thr.isNan || thr.isZero || thr.neg?) then 0x0103
  else if isQ && c.scaleSrc == 0 && !c.isRequant &&
      (!(v32 c.scaleValue).isFin || Val.lt (v32 c.scaleValue) (v32 0x00800000)) then 0x0103
  else if (c.isRequant && (c.scaleSrc != 0 || c.escThreshold / 64 != 0)) || (c.reqPerCol && !c.isRequant) then 0x0103
  else if (isQ || c.op == .stats) && c.scaleSrc == 2 && !owned then 0x0104
  else if isQ && (c.scaleSrc == 1 || c.scaleSrc == 3) && frozen then 0x0205
  else 0

/-- QSPAN as a positive value (R52). -/
def qspan (c : ConvD) : Val :=
  let f := c.df
  if f.isFloat then decodeFloat f f.maxCode
  else
    let (lo, hi) := qrange f c.escEn
    let p := hi - c.z
    let n := c.z - lo
    Val.ofInt (if 1 ≤ min p n then min p n else max p n)

/-- The smallest integer k with a / 2^k ≤ m, for positive `a` and `m`: ceil(log2(a / m)). -/
def ceilLog2Ratio (a m : Val) : Int :=
  match a, m with
  | .fin _ n d, .fin _ p q =>
    let num := n * q
    let den := d * p
    let l := flog2 num den
    let exact := if 0 ≤ l then num == den * 2 ^ l.toNat else num * 2 ^ (-l).toNat == den
    if exact then l else l + 1
  | _, _ => 0

/-- 2^k as an FP32 code. -/
def pow2Code (k : Int) : Nat := rne32 (Val.dyadic false 1 k)

/-- A ROW or HISTORY scale from a magnitude (R57, R65): an FP32 code. -/
def scaleOf (c : ConvD) (a : Val) : Nat :=
  if c.rowPow2 then pow2Code (clampI (-126) 127 (ceilLog2Ratio a (qspan c))).1
  else
    let s := rne32 (Val.div a (qspan c))
    if Val.lt (v32 s) (v32 0x00800000) then 0x00800000 else s

/-- Whether |x| counts towards the effective maximum A (R57): not NaN, not infinite, and within ESC_THRESHOLD. -/
def countsA (c : ConvD) (x : Val) : Bool :=
  x.isFin && !(c.escEn && Val.lt (v32 c.escThreshold) x.abs)

/-- The largest |x| of a list of values that count (R57), +0 when none does. -/
def effMaxOf (c : ConvD) (xs : List Val) : Val :=
  xs.foldl (fun m x => if countsA c x then Val.max2 m x.abs else m) .zero

/-- The elements (row, column) of the block that holds (r, col), within the view (R59). -/
def blockElems (c : ConvD) (r col : Nat) : List (Nat × Nat) :=
  let b := c.blockSize
  if c.blockDir = 0 then
    let j := col / b
    (List.range (min b (c.rowLen - j * b))).map (fun k => (r, j * b + k))
  else
    let i := r / b
    (List.range (min b (c.rows - i * b))).map (fun k => (i * b + k, col))

/-- The block number of (r, col) (R59). -/
def blockNo (c : ConvD) (r col : Nat) : Nat :=
  if c.blockDir = 0 then r * ceilDiv c.rowLen c.blockSize + col / c.blockSize
  else (r / c.blockSize) * c.rowLen + col

/-- Whether (r, col) is the first element of its block. -/
def blockFirst (c : ConvD) (r col : Nat) : Bool :=
  if c.blockDir = 0 then col % c.blockSize == 0 else r % c.blockSize == 0

/-- EMAX and F of Table 3.4. -/
def blkEmax : Fmt → Int
  | .e4m3 => 8 | .e5m2 => 15 | _ => 0
def blkF : Fmt → Nat
  | .int8 => 6 | .int4 => 2 | _ => 0

/-- MAXV of Table 3.4. -/
def blkMaxv : Fmt → Val
  | .e4m3 => .fin false 448 1 | .e5m2 => .fin false 57344 1 | .int8 => .fin false 127 64 | _ => .fin false 7 4

/-- The E8M0 code of a block from its elements' values (R60, R61). -/
def blockCode (c : ConvD) (f : Fmt) (xs : List Val) : Nat :=
  if !c.escEn && xs.any (fun x => !x.isFin) then 0xFF
  else
    match effMaxOf c xs with
    | .fin b n d =>
      if n = 0 then 0
      else
        let x : Int := if c.scaleRule = 0 then flog2 n d - blkEmax f else ceilLog2Ratio (.fin b n d) (blkMaxv f)
        ((clampI (-127) 127 x).1 + 127).toNat
    | _ => 0

/-- The scale that an element of a BLOCK uses: 2^(X − F) for integers, 2^X for floating point; NaN under 0xFF. -/
def blkScale (f : Fmt) (e : Nat) : Val :=
  if e % 256 = 255 then .nan false 0x400000 false else Val.dyadic false 1 (((e % 256 : Nat) : Int) - 127 - blkF f)

/-- What one element's conversion gives. `x` is the value that the statistics see (R98). `out` marks an outlier of R69,
`side` its side-list VALUE. `nonzero` counts in NONZERO (Table 3.5). `nanIn`, `snan`, `nanNew` feed R46 and R47. -/
structure EltOut where
  pos : Nat
  row : Nat
  col : Nat
  idx : Nat
  x : Val
  cv : Cv
  out : Bool := false
  side : Nat := 0
  nonzero : Bool := false
  nanIn : Bool := false
  infIn : Bool := false
  snan : Bool := false
  counts : Bool := false
deriving DecidableEq, Repr

/-- The side-list VALUE of an outlier: its exact value widened to FP32, a NaN under R28 (R70). -/
def widen32 (strict : Bool) (x : Val) : Nat := (cvFloat .fp32 .rne 0 false strict x).code

/-- R of R36 for an element: SR_SEED, destination tensor, element index, SR_STEP (Table 2.8). -/
def ConvD.rand (c : ConvD) (idx : Nat) : Nat := srRandom c.srSeed c.dstTid idx c.srStep 0

/-- A code of the integer destination clamped by sign, for a clipped outlier (R72). -/
def clipCv (f : Fmt) (z : Int) (esc : Bool) (x : Val) : Cv :=
  let (lo, hi) := qrange f esc
  { code := trunc2 f.width (if x.isNan then z else if x.neg? then lo else hi)
    flags := if x.isNan then flInvalid else flInvalid ||| flInexact
    clip := true }

/-- The conversion of a QUANT or CONVERT element under scale `s` (R50, R54, R61). `z` and the range are those of the
destination; BLOCK saturates and has z = 0. -/
def quantCv (c : ConvD) (s : Val) (r : Nat) (x : Val) : Cv :=
  let f := c.df
  let q := if c.op == .convert then x else Val.div x s
  if f.isFloat then cvFloat f c.rm r (c.ovf || c.scaleSrc == 3) c.strict q
  else
    let (lo, hi) := qrange f c.escEn
    cvInt f.width lo hi c.z c.rm r q

/-- Requantisation of an accumulator `a` (R75): product, rounding shift, zero point and clamp. -/
def requantCv (c : ConvD) (mult : Int) (shift r : Nat) (a : Int) : Cv :=
  let f := c.df
  let (lo, hi) := qrange f false
  let p := a * mult
  let v := cvInt f.width lo hi c.z c.rm r (.fin (decide (p < 0)) p.natAbs (2 ^ shift))
  let (k, _) := roundInt c.rm r p.natAbs (2 ^ shift)
  { v with uflow := !v.clip && k == 0 && a != 0 }

/-- Element of a NaN block (R61): code 0x00, the flags of its own input only. -/
def nanBlockCv (f : Fmt) (x : Val) : Cv :=
  { code := 0
    flags := if x.isSnan then flInvalid
      else if x.isNan then (if f.isInt then flInvalid else 0)
      else if x.isInf && (f.isInt || f == .e4m3) then flInvalid else 0 }

/-- The FP32 scale of view row `r` under ROW (R57), and the E8M0 code of the block that holds (r, col) under BLOCK (R60). -/
def rowCode (c : ConvD) (env : ConvEnv) (r : Nat) : Nat :=
  let a := effMaxOf c ((List.range c.rowLen).map (fun k => decodeVal c.sf (env.src r k)))
  if a.isZero then 0x3F800000 else scaleOf c a
def blkCode (c : ConvD) (env : ConvEnv) (r col : Nat) : Nat :=
  blockCode c c.df ((blockElems c r col).map (fun p => decodeVal c.sf (env.src p.1 p.2)))

/-- The value of the scale in force for an element of a QUANT (R55 to R65). -/
def quantScale (c : ConvD) (env : ConvEnv) (r col : Nat) : Val :=
  match c.scaleSrc with
  | 0 => v32 c.scaleValue
  | 1 => v32 (rowCode c env r)
  | 2 => v32 (scaleOf c (v32 env.effMax))
  | _ => blkScale c.df (blkCode c env r col)

/-- One element of a QUANT or CONVERT, before side-list overflow. -/
def quantElt (c : ConvD) (env : ConvEnv) (pos r col : Nat) : EltOut :=
  let code := env.src r col
  let x := decodeVal c.sf code
  let i := env.idx r col
  let rnd := c.rand i
  let nz := x.isFin && !x.isZero
  let base : EltOut :=
    { pos := pos, row := r, col := col, idx := i, x := x, cv := { code := 0 }, nanIn := x.isNan, infIn := x.isInf, snan := x.isSnan
      counts := countsA c x }
  if c.isRequant then
    let (m, sh) :=
      if c.reqPerCol then let e := env.scaleRd col; (sext 32 e, bits e 32 6)
      else (sext 32 c.scaleValue, bits c.escThreshold 0 6)
    { base with cv := requantCv c m sh rnd (sext 32 code), nonzero := nz }
  else
    let s := quantScale c env r col
    if c.scaleSrc == 3 && c.op == .quant && s.isNan then { base with cv := nanBlockCv c.df x, nonzero := nz }
    else
      let cv := quantCv c s rnd x
      let out := c.escEn && (!x.isFin || Val.lt (v32 c.escThreshold) x.abs || cv.clip)
      if out then { base with cv := { code := escCode c.df }, out := true, side := widen32 c.strict x }
      else { base with cv := cv, nonzero := nz }

/-- The scale a DEQUANT uses for an element (R56, R73). -/
def dequantScale (c : ConvD) (env : ConvEnv) (r col : Nat) : Val :=
  match c.scaleSrc with
  | 0 => v32 c.scaleValue
  | 1 => v32 (env.scaleRd r)
  | 2 => v32 (env.scaleRd 0)
  | _ => blkScale c.sf (env.scaleRd (blockNo c r col))

/-- The entries of tile `t`'s side list up to its terminator (R70, R71). -/
def sideEntries (env : ConvEnv) (t : Nat) : List Nat :=
  ((List.range 64).map (fun i => env.sideRd (t * 64 + i))).takeWhile (fun e => bitAt e 63)

/-- The product of R56. Into E4M3 the NaN of an infinite scale times zero has the sign of its input y (R28); elsewhere it is `Val.qnan`. -/
def dequantProd (f : Fmt) (y s : Val) : Val :=
  let x := Val.mul y s
  if f == .e4m3 && x.isNan && !y.isNan && !s.isNan then .nan y.neg? 0x400000 false else x

/-- One element of a DEQUANT (R56, R73). A listed outlier has no underflow loss (R77). `side` finds the side-list VALUE of a position. -/
def dequantElt (c : ConvD) (env : ConvEnv) (side : Nat → Option Nat) (pos r col : Nat) : EltOut :=
  let code := env.src r col
  let i := env.idx r col
  let rnd := c.rand i
  let f := c.sf
  let base : EltOut := { pos := pos, row := r, col := col, idx := i, x := .zero, cv := { code := 0 } }
  if c.escEn && code % 2 ^ f.width == escCode f then
    let x := v32 ((side pos).getD 0)
    { base with x := x, cv := { cvAny c.df c.rm rnd c.ovf c.strict x with uflow := false }, nanIn := x.isNan, infIn := x.isInf, snan := x.isSnan }
  else
    let s := dequantScale c env r col
    let y := if f.isFloat then decodeFloat f code else
      match decodeVal f code with
      | .fin b n _ => Val.ofInt (sgn b n - c.z)
      | v => v
    let x := dequantProd c.df y s
    let cv := cvAny c.df c.rm rnd c.ovf c.strict x
    let inv := s.isSnan || (x.isNan && !y.isNan && !s.isNan)
    { base with x := x, cv := { cv with flags := cv.flags ||| (if inv then flInvalid else 0) }
                nanIn := y.isNan, infIn := y.isInf, snan := y.isSnan }

/-- One element of a STATS: measured, not converted. -/
def statsElt (c : ConvD) (env : ConvEnv) (pos r col : Nat) : EltOut :=
  let x := decodeVal c.sf (env.src r col)
  { pos := pos, row := r, col := col, idx := env.idx r col, x := x, cv := { code := 0 }, nanIn := x.isNan, infIn := x.isInf
    snan := x.isSnan, counts := countsA c x }

/-- Beyond the 64 outliers of lowest position, the rest are clipped (R72). `n` counts outliers met so far. -/
def clipOverflow (c : ConvD) : Nat → List EltOut → List EltOut
  | _, [] => []
  | n, e :: es =>
    if e.out then
      (if n < 64 then e else { e with cv := clipCv c.df c.z true e.x, side := 0 }) :: clipOverflow c (n + 1) es
    else e :: clipOverflow c n es

/-- The side-list entry of a listed outlier (Table 3.7). -/
def sideEntry (pos val : Nat) : Nat := 2 ^ 63 + pos * 2 ^ 32 + val

/-- Whether the side list of tile `t` agrees with its codes (R74). -/
def sideOk (c : ConvD) (env : ConvEnv) (t : Nat) : Bool :=
  let raw := (List.range 64).map (fun i => env.sideRd (t * 64 + i))
  let ents := sideEntries env t
  let pos := ents.map (fun e => bits e 32 12)
  let esc := (c.elems t).filter (fun (_, r, col) => env.src r col % 2 ^ c.sf.width == escCode c.sf)
  let term := match raw.drop ents.length with
    | e :: _ => bits e 44 19 == 0
    | [] => true
  ents.all (fun e => bits e 44 19 == 0) && term &&
    (pos.zip (pos.drop 1)).all (fun (a, b) => decide (a < b)) &&
    pos == esc.map (·.1)

/-- The tile's statistics, as the values of Table 4.3 (R98 to R100). -/
structure TileStats where
  elements : Nat := 0
  tileNan : Bool := false
  tileInf : Bool := false
  firstNan : Nat := 0
  firstInf : Nat := 0
  absmax : Nat := 0
  mn : Nat := 0
  mx : Nat := 0
  sum : Nat := 0
  sumErr : Nat := 0
  sumsq : Nat := 0
  sumsqErr : Nat := 0
  infCount : Nat := 0
  nanCount : Nat := 0
  uflows : Nat := 0
  clips : Nat := 0
  sideOvf : Nat := 0
  sideEntries : Nat := 0
  hist : List Nat := []
deriving DecidableEq, Repr

/-- The exact sum of values, +0 for none (R27, R99). -/
def sumVal : List Val → Val
  | [] => .zero
  | x :: xs => xs.foldl Val.add x

/-- An exact sum and its error as FP32 (R99). -/
def sumPair (v : Val) : Nat × Nat :=
  let s := rne32 v
  if isFin32 s then (s, rne32 (Val.sub v (v32 s))) else (s, 0)

/-- The histogram bin of a finite value (R100). -/
def histBin (expLo : Int) (x : Val) : Nat :=
  match x with
  | .fin _ n d =>
    if n = 0 then 0
    else
      let e := flog2 n d
      if e < expLo then 1 else if expLo + 60 < e then 63 else (e - expLo).toNat + 2
  | _ => 64

/-- Whether an element has a NaN input or a NaN output, and likewise for infinities (R46). -/
def EltOut.hasNan (e : EltOut) : Bool := e.nanIn || e.x.isNan || e.cv.nanOut
def EltOut.hasInf (e : EltOut) : Bool := e.infIn || e.x.isInf || e.cv.infOut

def tileStatsOf (c : ConvD) (expLo : Int) (es : List EltOut) : TileStats :=
  let xs := es.map (·.x)
  let num := xs.filter (fun x => !x.isNan)
  let fin := xs.filter (·.isFin)
  let (s, se) := sumPair (sumVal fin)
  let (q, qe) := sumPair (sumVal (fin.map (fun x => Val.mul x x)))
  let f32 := fun (v : Val) => rne32 v
  let outs := (es.filter (·.out)).length
  { elements := es.length
    tileNan := es.any (·.hasNan)
    tileInf := es.any (·.hasInf)
    firstNan := ((es.find? (·.hasNan)).map (·.pos)).getD 0
    firstInf := ((es.find? (·.hasInf)).map (·.pos)).getD 0
    absmax := f32 (num.foldl (fun m x => Val.max2 m x.abs) .zero)
    mn := match num with | [] => 0 | x :: l => f32 (l.foldl Val.min2 x)
    mx := match num with | [] => 0 | x :: l => f32 (l.foldl Val.max2 x)
    sum := s, sumErr := se, sumsq := q, sumsqErr := qe
    infCount := (xs.filter (·.isInf)).length
    nanCount := (xs.filter (·.isNan)).length
    uflows := if c.op == .stats then 0 else (es.filter (·.cv.uflow)).length
    clips := if c.op == .stats then 0 else (es.filter (·.cv.clip)).length
    sideOvf := outs - 64
    sideEntries := if c.op == .dequant then 0 else min outs 64
    hist := (List.range 64).map (fun b => (fin.filter (fun x => histBin expLo x == b)).length) }

/-- The record of Table 4.3 as a 256-byte number. -/
def statsRecord (t seg : Nat) (poisoned : Bool) (s : TileStats) : Nat :=
  let head := t + (s.elements + seg * 2 ^ 16) * 2 ^ 32
  if poisoned then head + 8 * 2 ^ 64
  else
    head + (b2n s.tileNan + 2 * b2n s.tileInf + 4 * b2n (decide (0 < s.sideOvf))) * 2 ^ 64 +
    (s.firstNan + s.firstInf * 2 ^ 16) * 2 ^ 96 + s.absmax * 2 ^ 128 + s.mn * 2 ^ 160 + s.mx * 2 ^ 192 +
    s.sum * 2 ^ 256 + s.sumErr * 2 ^ 288 + s.sumsq * 2 ^ 320 + s.sumsqErr * 2 ^ 352 +
    (s.nanCount + s.infCount * 2 ^ 16) * 2 ^ 384 + (s.clips + s.uflows * 2 ^ 16) * 2 ^ 416 +
    (s.sideEntries + s.sideOvf * 2 ^ 16) * 2 ^ 448 +
    (s.hist.zipIdx.foldl (fun a (n, i) => a + n * 2 ^ (16 * i)) 0) * 2 ^ 512

/-- What a converted tile gives. `stop`: the code with which the descriptor stops at this tile, 0 for none. -/
structure TileOut where
  tile : Nat
  elts : List EltOut := []
  scales : List (Nat × Nat) := []
  sides : List (Nat × Nat) := []
  stats : TileStats := {}
  stop : Nat := 0
deriving DecidableEq, Repr

/-- The scale elements that tile `t` of a QUANT writes (R55, R57, R59, R65, R95). -/
def tileScales (c : ConvD) (env : ConvEnv) (t : Nat) : List (Nat × Nat) :=
  if c.op != .quant || c.isRequant then []
  else
    match c.scaleSrc with
    | 1 => ((c.elems t).filter (fun (_, _, col) => col == 0)).map (fun (_, r, _) => (r, rowCode c env r))
    | 2 => if t = 0 then [(0, scaleOf c (v32 env.effMax))] else []
    | 3 => ((c.elems t).filter (fun (_, r, col) => blockFirst c r col)).map (fun (_, r, col) =>
        (blockNo c r col, blkCode c env r col))
    | _ => []

/-- The conversion of tile `t` (R50 to R76, R98 to R101). -/
def convTile (c : ConvD) (env : ConvEnv) (t : Nat) : TileOut :=
  match c.op with
  | .stats =>
    let es := (c.elems t).map (fun (p, r, col) => statsElt c env p r col)
    { tile := t, elts := es, stats := tileStatsOf c env.expLo es }
  | .dequant =>
    let ents := if c.escEn then sideEntries env t else []
    if c.escEn && !sideOk c env t then { tile := t, stop := 0x0204 }
    else
      let side := fun p => firstSome (fun e => if bits e 32 12 = p then some (bits e 0 32) else none) ents
      let es := (c.elems t).map (fun (p, r, col) => dequantElt c env side p r col)
      { tile := t, elts := es, stats := { tileStatsOf c env.expLo es with sideEntries := ents.length } }
  | _ =>
    if c.isRequant && c.reqPerCol && (c.elems t).any (fun (_, _, col) => bits (env.scaleRd col) 38 26 != 0) then
      { tile := t, stop := 0x0103 }
    else
      let es := clipOverflow c 0 ((c.elems t).map (fun (p, r, col) => quantElt c env p r col))
      let listed := (es.filter (·.out)).take 64
      let sides := if c.escEn then
          (listed.zipIdx.map (fun (e, i) => (t * 64 + i, sideEntry e.pos e.side))) ++
            (if listed.length < 64 then [(t * 64 + listed.length, 0)] else [])
        else []
      { tile := t, elts := es, scales := tileScales c env t, sides := sides, stats := tileStatsOf c env.expLo es }

/-- The beats of tile `t` as the segment drives them on its output port (R86, R87): each beat's slots as one number. -/
def tileBeats (c : ConvD) (o : TileOut) : List Nat :=
  (c.beatLanes o.tile).zipIdx.map (fun (_, b) =>
    (o.elts.filter (fun e => e.pos / 64 == b)).foldl (fun a e => a + e.cv.code * 2 ^ (32 * (e.pos % 64))) 0)

/-- The history feed of a whole descriptor: A as an FP32 code rounded toward +infinity, element count, clips, non-zero
inputs and underflow losses (R63, Table 3.5). -/
structure HistFeed where
  a : Nat := 0
  elements : Nat := 0
  clips : Nat := 0
  nonzero : Nat := 0
  uflows : Nat := 0
deriving DecidableEq, Repr

/-- A non-negative finite value rounded toward +infinity to FP32 (R63). -/
def ceil32 (v : Val) : Nat :=
  let c := rtz32 v
  if Val.lt (v32 c) v then c + 1 else c

/-- A NaN of a descriptor for the trap: the lowest element index, its logical segment, whether it signals, WHERE (R47, R48),
and how many elements have a NaN input or output (R317). -/
structure NanInfo where
  idx : Nat := 0
  seg : Nat := 0
  snan : Bool := false
  produced : Bool := false
  count : Nat := 0
deriving DecidableEq, Repr

/-- Folds a tile's NaNs into the descriptor's (R48). -/
def nanFold (strict : Bool) (seg : Nat) (es : List EltOut) (n : NanInfo) : NanInfo :=
  es.foldl (fun n e =>
    if e.hasNan then
      if n.count = 0 ∨ e.idx < n.idx then
        { idx := e.idx, seg := seg, snan := strict && e.snan, produced := !e.nanIn, count := n.count + 1 }
      else { n with count := n.count + 1 }
    else n) n

/-- Folds a tile into the descriptor's history feed. -/
def feedFold (c : ConvD) (es : List EltOut) (h : HistFeed) : HistFeed :=
  es.foldl (fun h e =>
    { a := if e.counts && Val.lt (v32 h.a) e.x.abs then ceil32 e.x.abs else h.a
      elements := if c.op == .quant then h.elements + 1 else h.elements
      clips := if c.op == .quant && e.cv.clip then h.clips + 1 else h.clips
      nonzero := if c.op == .quant && e.nonzero then h.nonzero + 1 else h.nonzero
      uflows := if c.op == .quant && e.cv.uflow then h.uflows + 1 else h.uflows }) h

end Sys2Proof
end

