-- ==== Sys2Proof/Machine/Types.lean ====
section
/-! DEFINITION. The records that State holds beside the dictionary: memory requests, twig-cache entries, queues and the
descriptors in flight, the bell in formation, events, the NV store, the epoch stage, segments' tiles, capture channels,
arrays, Lanterns and routines, Belfry ports and reductions, tests and power. All are plain data. -/

namespace Sys2Proof

/-! Memory ports and the Tensor Map (10_tensor_map_memory.md). -/

/-- A resolved Tensor Map entry, merged with its base (R274, R281). -/
structure TmEntry where
  base : Nat
  fmt : Nat
  attr : Nat
  addr : Nat
  extent : Nat
  offset : Nat
  rows : Nat
  rowLen : Nat
  rowStride : Nat
  colStride : Nat
deriving DecidableEq, Repr

/-- The caches of R281: `kind` 1 segment, 2 array, 8 walker. -/
structure TwigEntry where
  kind : Nat
  unit : Nat
  tenant : Nat
  tid : Nat
  ent : TmEntry
deriving DecidableEq, Repr

/-- An act that reads for itself, and is done once what it reads is there: the dispatch of a descriptor, the tiles of a conversion, an
instruction of a logical array or Lantern, the fall-back service of a logical array, a queue's offer at a formation, the restart of a routine. -/
inductive Act where
  | desc (q seq : Nat)
  | tiles (q seq : Nat)
  | arr (q seq la : Nat)
  | lan (q seq l : Nat)
  | dome (q seq la : Nat)
  | form (q : Nat)
  | restart (q seq : Nat)
deriving DecidableEq, Repr

/-- What an act lacks: a walk, for the twig cache of a unit, or beats of host memory. -/
inductive Want where
  | walk (kind unit tenant tid : Nat)
  | beats (bs : List Nat) (attr tenant : Nat)
deriving DecidableEq, Repr

/-- A walk (R277). `dirBase`, `dirLog2` and `attr` are the tenant domain's objects as it began; `ans` the answers of its reads in order, none for
one that failed twice; `asked` the address and length of the read outstanding; `begun`: it is one of the 64 that run; `stale`: an
invalidation has been served since it began (R282). Its acts wait for it; `fill` names the twig caches that take its result. -/
structure WalkRt where
  id : Nat
  tenant : Nat
  tid : Nat
  dirBase : Nat
  dirLog2 : Nat
  attr : Nat
  ans : List (Option Nat) := []
  asked : Option (Nat × Nat) := none
  begun : Bool := false
  stale : Bool := false
  acts : List Act
  fill : List (Nat × Nat)
deriving DecidableEq, Repr

/-- What a walk gave an act that waited for it: the entry, or the code of the fault. -/
structure WalkRes where
  act : Act
  tenant : Nat
  tid : Nat
  stale : Bool
  ent : Option TmEntry
  code : Nat
deriving DecidableEq, Repr

/-- The reads that acts make: the act that runs and the first thing it lacks, both none between commands; the walks in order of their start, their
results not yet used, and the beats that acts have read. -/
structure Reads where
  cur : Option Act := none
  want : Option Want := none
  walks : List WalkRt := []
  res : List WalkRes := []
  got : List (Act × Nat) := []
deriving DecidableEq, Repr

/-- On whose behalf a request is outstanding: `walk` names a walk, `act` an act. -/
inductive ReqOwner where
  | walk (id : Nat)
  | act (a : Act)
  | conv (q seq : Nat)
  | ring (q seq : Nat)
  | park (q seq : Nat)
  | release (q seq : Nat)
  | acct (q : Nat)
  | evlog (sev : Nat)
  | check (n : Nat)
  | rout (q seq : Nat)
  | red (q seq : Nat)
deriving DecidableEq, Repr

/-- A memory request (R284, R285). `tag` is none while it is not presented: every tag of the port is in use, or an earlier request that
overlaps it is outstanding (R286). `data` holds the bytes of a write, which cover
`addr` to `addr + data.length - 1` by byte enables; a read covers whole beats from `addr`. `got` counts beats received, `err`
the worst response so far (1 ERR, 2 DECERR); `retryOf` names the port whose answer failed when this is the one reissue of R289, with the place
of that failure in the port's run and the cause (5 response, 6 timeout); `late` is a request that has timed out, been given up or moved
from a fenced port, whose response is discarded; `shut` one that was to be reissued into a device window (R279). -/
structure MemReq where
  port : Nat
  wr : Bool
  tag : Option Nat
  addr : Nat
  beats : Nat
  attr : Nat
  tenant : Nat
  data : List Nat
  poison : Bool
  owner : ReqOwner
  got : Nat := 0
  err : Nat := 0
  poisoned : Bool := false
  retryOf : Option (Nat × Option Nat × Nat) := none
  late : Bool := false
  shut : Bool := false
deriving DecidableEq, Repr

/-- The bytes of a request: its address and length. -/
def MemReq.span (r : MemReq) : Nat × Nat := (r.addr, if r.wr then r.data.length else 128 * r.beats)

/-- Two requests that must not be outstanding together: one writes, and they overlap (R286). -/
def MemReq.clash (r x : MemReq) : Bool :=
  (r.wr || x.wr) && !r.late && !x.late && decide (r.span.1 < x.span.1 + x.span.2) && decide (x.span.1 < r.span.1 + r.span.2)

/-- One outcome of a port, in the order in which outcomes become known (R290): a failure whose reissue is outstanding, one whose reissue
succeeded elsewhere, or an end that breaks a run of failures. -/
inductive RunEl where
  | pend (n : Nat)
  | good
  | brk
deriving DecidableEq, Repr

/-- The runs of R290 of one port; `next` numbers its failures. -/
structure PortRun where
  timeouts : Nat := 0
  next : Nat := 0
  seq : List RunEl := []
deriving DecidableEq, Repr

/-- An invalidation being served (R282). -/
structure Inval where
  tenant : Nat
  tid : Nat
deriving DecidableEq, Repr

/-! Events (11_faults_recovery.md). -/

/-- An event entry (Table 11.5); `payload` is its bytes 32 to 63. -/
structure Ev where
  code : Nat
  unitKind : Nat := 0
  unit : Nat := 0
  queue : Option Nat := none
  tenant : Option Nat := none
  payload : Nat := 0
  seq : Nat := 0
  firstBell : Nat := 0
  lastBell : Nat := 0
  count : Nat := 1
deriving DecidableEq, Repr

/-! Queues and descriptors in flight (08_bell.md, 09_queues_ordering.md). -/

/-- Where a descriptor stands between its admission and its release. -/
inductive DPhase where
  | admitted   -- admitted into a bell, not yet dispatched
  | running    -- dispatched; its work is under way
  | done       -- its results are complete; it has not committed
  | parked     -- committed or ended; its record waits for, or has, its parking write
deriving DecidableEq, Repr

/-- One descriptor admitted and not yet released. `owed` holds the carried charges by ledger; `bell` the bell it belongs to (R220);
`offered` the bell at whose formation it was first offered. The auxiliary fields are those of Tables 9.10 and 9.11. -/
structure DRt where
  seq : Nat
  d : Desc
  phase : DPhase := .admitted
  firstBell : Nat
  bell : Nat
  offered : Nat
  owed : SMap Nat := []
  late : Bool := false
  status : Nat := 0
  committed : Bool := false
  flags : Nat := 0
  aux0 : Nat := 0
  aux1 : Nat := 0
  aux2 : Nat := 0
  tenant : Nat := 0
  /- conversions; `sent`: dispatched to its units; `sap`: served by the sapling service without a bell (R378); `capCode`: whether its channel accepts its capture, 0 or the code of its refusal, judged as its
  first bell opens; `chks`: the checks on its tiles not yet met -/
  effMax : Nat := 0
  expLo : Nat := 0
  grp : Nat × Nat × Nat := (0, 1, 1)
  streamT : Nat := 0
  slotOwned : Bool := false
  sent : Bool := false
  sap : Bool := false
  capCode : Option Nat := none
  chks : TileChks := []
  tilesIn : List Tile := []
  tilesOk : List Nat := []
  feed : HistFeed := {}
  nan : NanInfo := {}
  stopTid : Nat := 0
  stopTile : Nat := 0
  /- trap and halt effects at release -/
  trapIrq : Bool := false
  trapHalt : Bool := false
  /- routines and PRECOND lists -/
  list : List Nat := []
  listErr : Nat := 0
  sets : List Nat × List Nat := ([], [])
  /- whether its header signal acts, whether its TARGET is another tenant's, and its event's unit and payload when they are not those of form D -/
  sigOk : Bool := false
  tgtBad : Bool := false
  frozen : Bool := false
  evPay : Option (Nat × Nat × Nat) := none
deriving DecidableEq, Repr

/-- Refused with F_SYNC: its header signal, or its TARGET, names a sync object of another tenant domain (R237, R242). -/
def DRt.noSync (d : DRt) : Bool := !d.d.malformed && ((d.d.sigEn && !d.sigOk) || d.tgtBad)

/-- The descriptor counts as a routine (R250): it is neither malformed nor refused with F_SYNC. -/
def DRt.isRout (d : DRt) : Bool := d.d.isRoutine && !d.noSync

/-- A queue beside its dictionary objects. -/
structure QRt where
  fetched : List (Nat × Nat) := []       -- descriptors read and not yet admitted: sequence number and raw bytes
  ringBad : Option Nat := none           -- a descriptor whose read failed twice: the queue enters ERROR when it is next (R235)
  lost : Bool := false                   -- a record could not be written: records not yet released are lost (R235)
  asked : Nat := 0                       -- the sequence number of the next descriptor to read
  infl : List DRt := []                  -- descriptors admitted and not released, oldest first
  offered : Option Nat := none           -- bell at whose formation the head descriptor was first offered
  headList : Option (List Nat × Nat) := none  -- the layer list of a PRECOND at the head, read at its first offer, and the code it met
  holdUntil : Nat := 0                   -- a BELL_WAIT holds the queue until this bell
  resetFrom : Bool := false              -- RESETTING was entered from the ERROR state: no records are written
  changed : Bool := false                -- accounting totals changed in the bell
  bellSeen : Option Nat := none          -- last bell counted in BELLS
  inBell : Bool := false                 -- an item of the queue belongs to, or carries in, the bell last formed
  bytesDue : List (Nat × Nat × Nat) := []  -- bytes charged and not yet counted: bell, sequence number, bytes
  trapMode : Nat := 0                    -- NAN_TRAP_MODE in force for the bell
  trapBell : Option Nat := none          -- bell whose first-NaN record has been taken
  macsDue : Nat := 0                     -- array passes and lane operations of released routines, counted at the close
  opsDue : Nat := 0
deriving DecidableEq, Repr

/-- A sync update of a released record, applied at a close (R260). -/
structure SyncUpd where
  q : Nat
  seq : Nat
  sub : Nat          -- 0: the SIGNAL's own update; 1: the header signal
  obj : Nat
  set : Bool
  val : Nat
deriving DecidableEq, Repr

/-- One turn of a formation round: a queue offering its next descriptor, or a routine offering its next iteration. -/
structure Turn where
  q : Nat
  seq : Nat
deriving DecidableEq, Repr

/-- The bell being formed (R221 to R223), with what its formation began with: the queues enabled, and whether a bell reset or a power move keeps new
descriptors or work out of it (R264, R380, R382). `since`: the cycle at which it began to wait for a descriptor of queue `waiting`. `phase`: 1 carry paced, 2 routines paced, 3 new paced, 4 carry unpaced, 5 routines
unpaced, 6 new unpaced, 7 formed. -/
structure Form where
  bell : Nat
  budget : Nat
  period : Nat := 0
  pace : Nat := 0
  used : SMap Nat := []
  phase : Nat := 1
  turn : List Turn := []
  next : List Turn := []
  waiting : Option Nat := none
  caps : SMap Nat := []
  enabled : List Nat := []
  noNew : Bool := false
  noWork : Bool := false
  since : Nat := 0
  openAt : List (Nat × Nat × Nat) := []
  routAt : List (Nat × Nat × List Nat × List Nat) := []
deriving DecidableEq, Repr

/-- The running bell and the group's toll (08_bell.md, R332, R333). -/
inductive BellSt where
  | none       -- no bell runs (reset, start-up, sapling service, formation of the group)
  | open       -- bell BELL_NUMBER runs
  | forming    -- its close forms the next bell
  | formed     -- the next bell is formed; the toll is awaited
deriving DecidableEq, Repr

/-! NV store, epoch stage and segmented transfers (13_parameter_dictionary.md). -/

/-- One NV copy: its sequence number, whether its CRC is good, and the values of the persistent objects that differ from
their defaults (R362, R364). -/
structure NvCopy where
  present : Bool := false
  seq : Nat := 0
  good : Bool := false
  vals : SMap Nat := []
deriving DecidableEq, Repr

/-- What the NV store is doing (NV_STATE): a restore reads for a role, and meets errors that ECC corrects (R364). -/
inductive NvOp where
  | store (snap : SMap Nat) (copy : Nat)
  | restore (role corrected : Nat)
  | repair (map : Nat) (copy : Nat)
deriving DecidableEq, Repr

structure Nv where
  copies : List NvCopy := [{}, {}]
  repair : List NvCopy := [{}, {}]
  storeCount : Nat := 0
  repairCount : Nat := 0
  op : Option NvOp := none
deriving DecidableEq, Repr

/-- A segmented context (R356 to R358). `wr`: a write context; `data` the snapshot, or the bytes kept; `done`: the STATUS of
the last segment of a write. -/
structure SegCtx where
  req : Nat
  wr : Bool
  oid : Nat
  sel : Nat
  data : Nat
  last : Nat
  lastData : Nat
  status : Option Nat
deriving DecidableEq, Repr

/-- A Finfa response (Table 13.2). -/
structure FinfaResp where
  op : Nat
  fver : Nat
  status : Nat
  ty : Nat
  tag : Nat
  src : Nat
  req : Nat
  index : Nat
  sub : Nat
  size : Nat
  segOff : Nat
  data : Nat
deriving DecidableEq, Repr

/-! The Hedge's outputs (04_hedge.md). -/

/-- A tile driven on a segment's output port. -/
structure OutTile where
  seg : Nat
  tag : Nat
  trow : Nat
  tcol : Nat
  beats : List Nat
  lanes : List Nat
  poison : List Bool
deriving DecidableEq, Repr

/-- The copy of an output tile on the runner ring (R102): queue, DESC_SEQ, tile number and coordinates, destination format, output codes by
position, the scales they were written under by scale index (one FP32 scale at index 0, one per view row, or one E8M0 per block), and the
side-list entries, position and VALUE. -/
structure Captured where
  ch : Nat
  q : Nat
  seq : Nat
  no : Nat
  trow : Nat
  tcol : Nat
  fmt : Nat
  codes : List (Nat × Nat)
  scales : List (Nat × Nat)
  sides : List (Nat × Nat)
  poison : Bool
deriving DecidableEq, Repr

/-- A tile in the front stage (R151, R152): view row, view column and operand of each element, the FP32 code of R151 or the INT8 code under IPATH
(R156); the bytes it takes, its place in staging when it has spilled, and whether NAP took it from the buffer, so that it is read
as a re-read sweep reads it (R389). -/
structure FrontTile where
  q : Nat
  seq : Nat
  no : Nat
  bytes : Nat
  ops : List (Nat × Nat × Nat)
  spill : Option Nat := none
  lost : Bool := false
deriving DecidableEq, Repr

/-- One capturing descriptor of a channel: K order is bell, queue, DESC_SEQ (R150). Once dispatched, the entries of its destination, scale and side-list
tensors, from which a re-read sweep reads (R152). -/
structure CapDesc where
  bell : Nat
  q : Nat
  seq : Nat
  rows : Nat
  conv : ConvD
  bytes : Nat := 0
  dst : Option TmEntry := none
  scale : Option TmEntry := none
  side : Option TmEntry := none
  failed : Bool := false
  done : Bool := false
deriving DecidableEq, Repr

/-- A capture channel (R148): the GRAM that opened it, the scale of its first capture, its captures in K order, the tiles received, and the bytes of
staging that spilled tiles take. -/
structure Chan where
  owner : Option (Nat × Nat) := none
  scale : Option Nat := none
  caps : List CapDesc := []
  tiles : List FrontTile := []
  spilled : Nat := 0
deriving DecidableEq, Repr

/-- One bell's accumulators of a history slot and its ring (R63). -/
structure HistRt where
  ring : List Nat := []
  curMax : Nat := 0
  elements : Nat := 0
  clips : Nat := 0
  nonzero : Nat := 0
  uflows : Nat := 0
  fed : Bool := false
  reset : Bool := false
deriving DecidableEq, Repr

end Sys2Proof
end

