-- ==== Sys2Proof/Machine/SpireCore.lean ====
section
/-! DEFINITION. The arithmetic of a Spire array (02_number_formats.md R38 to R43, 05_spire_arrays.md): operands and their
expansion, the K-group, accumulators and windows, promotion, the Dome's summation modes and the drain, over the record of
one logical array of a routine. -/

namespace Sys2Proof

/-- One accumulator (R120): ACC, Ew, EMPTY (an unlisted accumulator is empty) and SPECIAL: 0 none, 1 +INF, 2 −INF, 3 NAN. -/
structure AccCell where
  acc : Int := 0
  ew : Int := 0
  empty : Bool := true
  special : Nat := 0
deriving DecidableEq, Repr

/-- A slot's window (R120): the group and tile slot it is bound to, its last KG, and whether it is on the integer path. -/
structure SlotWin where
  group : Nat
  dtile : Nat
  kg : Nat
  int : Bool
deriving DecidableEq, Repr

/-- An open accumulation group (R124) with its sticky flags (R126); `sat` lists the group-relative tile slots whose SAT is set. -/
structure Grp where
  mode : Nat
  dbase : Nat
  dcount : Nat
  tcols : Nat
  outN : Nat
  row0 : Nat
  col0 : Nat
  outTid : Nat
  ovf : Bool := false
  inf : Bool := false
  nan : Bool := false
  sat : List Nat := []
deriving DecidableEq, Repr

/-- A K-group's result (R40 to R42): a value is `g × 2^(eg − 27)`. -/
inductive KRes where
  | nan | inf (neg : Bool) | zero | val (g eg : Int)
deriving DecidableEq, Repr

/-- floor(log2 |x|) of a finite non-zero value. -/
def leadExp : Val → Int
  | .fin _ n d => flog2 n d
  | _ => 0

/-- trunc(x × 2^k) of a finite value, as an integer. -/
def truncScaled (x : Val) (k : Int) : Int :=
  match x with
  | .fin b n d =>
    let q := if 0 ≤ k then n * 2 ^ k.toNat / d else n / (d * 2 ^ (-k).toNat)
    sgn b q
  | _ => 0

/-- The K-group of a list of products, NaN marking a NaN operand or an infinity times a zero (R40 to R42). -/
def kgroup (ps : List Val) : KRes :=
  if ps.any (·.isNan) then .nan
  else if ps.any (fun p => p.isInf && p.neg?) && ps.any (fun p => p.isInf && !p.neg?) then .nan
  else match ps.find? (·.isInf) with
    | some p => .inf p.neg?
    | none =>
      let nz := ps.filter (fun p => !p.isZero)
      match nz with
      | [] => .zero
      | p :: l =>
        let eg := l.foldl (fun e x => max e (leadExp x)) (leadExp p)
        let g := nz.foldl (fun a x => a + truncScaled x (27 - eg)) 0
        if g = 0 then .zero else .val g eg

/-- The update of an accumulator by a K-group (R121). -/
def AccCell.add (a : AccCell) (r : KRes) : AccCell :=
  match r with
  | .nan => { a with special := 3 }
  | .inf neg =>
    let s := if neg then 2 else 1
    { a with special := if a.special = 0 ∨ a.special = s then s else 3 }
  | .zero => a
  | .val g eg =>
    let ew := if a.empty then eg else max a.ew eg
    let acc := if !a.empty && a.ew < eg then a.acc.tdiv (2 ^ (eg - a.ew).toNat) else a.acc
    { a with acc := acc + g.tdiv (2 ^ (ew - eg + 13).toNat), ew := ew, empty := false }

/-- The update on the integer path (R121): ACC += G. -/
def AccCell.addInt (a : AccCell) (g : Int) : AccCell := { a with acc := a.acc + g, empty := false }

/-- hi and lo pieces of a finite FP32 operand (R39). -/
def splitFp32 (code : Nat) : Val × Val :=
  let neg := bitAt code 31
  let e := bits code 23 8
  let m := bits code 0 23 + (if e = 0 then 0 else 2 ^ 23)
  let ee : Int := (if e = 0 then 1 else (e : Int)) - 127
  (Val.dyadic neg (m / 2 ^ 12) (ee - 11), Val.dyadic neg (m % 2 ^ 12) (ee - 23))

/-- The three product lists of 16 pairs of the emulated path, in the order of R39. A pair with a NaN or an infinity is not split: it
enters each K-group as its special product (DEDUCED, log 20). -/
def emulated (ps : List (Val × Val)) : List (List Val) :=
  let prod := fun (hiA hiB : Bool) (p : Val × Val) =>
    if p.1.isFin && p.2.isFin then
      let a := splitFp32 (rne32 p.1)
      let b := splitFp32 (rne32 p.2)
      Val.mul (if hiA then a.1 else a.2) (if hiB then b.1 else b.2)
    else Val.mul p.1 p.2
  [ps.map (prod true false), ps.map (prod false true), ps.map (prod true true)]

/-- An operand's exact value after expansion (R117 to R119): `tab` gives the expansion tensor's entries. `chan` is the operand's
non-K coordinate. -/
def operandVal (f : FsetF) (tab : Nat → Nat) (chan code : Nat) : Val :=
  let fmt := (Fmt.ofCode f.fmt).getD .fp32
  let xf := (Fmt.ofCode f.xfmt).getD .fp16
  match f.xmode with
  | 1 => decodeFloat xf (tab (code % 16))
  | 2 =>
    let e := tab chan
    let q : Int := sext fmt.width code
    let s := v32 (bits e 0 32)
    let w := Val.mul s (Val.ofInt (q - sext 9 (bits e 32 9)))
    decodeFloat xf (cvFloat xf .rne 0 false false w).code
  | _ => decodeVal fmt code

/-- FMT 5 (INT8) without expansion: the integer path of R127. -/
def FsetF.isIntPath (f : FsetF) : Bool := f.fmt == 5 && f.xmode == 0

/-- The value that a promotion delivers (R122, first row that applies), none when the accumulator is empty, and whether it sets OVF. -/
def promoteVal (int : Bool) (a : AccCell) : Option (Val × Bool) :=
  match a.special with
  | 3 => some (.qnan, false)
  | 1 => some (.inf false, false)
  | 2 => some (.inf true, false)
  | _ =>
    if a.empty then none
    else if int then some (Val.ofInt a.acc, false)
    else
      let c := rne32 (Val.dyadic (decide (a.acc < 0)) a.acc.natAbs (a.ew - 14))
      some (v32 c, !isFin32 c)

/-- What a Dome update gives: VAL, ERR, whether it sets OVF and whether it saturated. -/
structure DomeUpd where
  val : Nat
  err : Nat
  ovf : Bool := false
  sat : Bool := false
deriving DecidableEq, Repr

/-- The update of a Dome entry (R125). `r` is R of R36 for the entry. -/
def domeUpdate (mode r val err : Nat) (v : Val) : DomeUpd :=
  if mode = 3 then
    match v with
    | .fin b n _ =>
      let (x, c) := clampI (-2147483648) 2147483647 (sext 32 val + sgn b n)
      { val := trunc2 32 x, err := 0, sat := c }
    | _ => { val := val, err := err }
  else
    let a := v32 val
    let vc := rne32 v
    let ieee := rne32 (Val.add a v)
    let special : DomeUpd := { val := ieee, err := 0, ovf := isFin32 val && isFin32 vc && !isFin32 ieee }
    if !v.isFin || !isFin32 val then special
    else match mode with
      | 0 =>
        let s := rne32 (Val.add a v)
        if !isFin32 s then special
        else
          let t := rne32 (Val.sub (Val.add a v) (v32 s))
          let u := rne32 (Val.add (v32 err) (v32 t))
          let w := rne32 (Val.add (v32 s) (v32 u))
          if !isFin32 u || !isFin32 w then special
          else { val := w, err := rne32 (Val.sub (Val.add (v32 s) (v32 u)) (v32 w)) }
      | 1 =>
        let s := sr32 r (Val.add a v)
        if !isFin32 s then { special with ovf := true } else { val := s, err := 0 }
      | _ =>
        let w := sr32 r (Val.add a v)
        if !isFin32 w then { special with ovf := true }
        else
          let t := Val.sub (Val.add a v) (v32 w)
          let e := rtz32 (Val.add (v32 err) t)
          if !isFin32 e then special else { val := w, err := e }

/-- The output element index of entry (d, i, c) of a group (R124). -/
def Grp.outIdx (g : Grp) (d i c : Nat) : Nat :=
  (g.row0 + 128 * (d / g.tcols) + i) * g.outN + (g.col0 + 8 * (d % g.tcols) + c)

/-- The output column of a tile's column c. -/
def Grp.outCol (g : Grp) (d c : Nat) : Nat := g.col0 + 8 * (d % g.tcols) + c

/-- The key of a Dome entry: its byte offset divided by 8 (R123). -/
def domeKey (d i c : Nat) : Nat := (d * 128 + i) * 8 + c

/-- The value that GDRAIN delivers for an entry (R126). -/
def drainVal (mode form val err : Nat) : Nat :=
  match form with
  | 0 => if mode = 0 then rne32 (Val.add (v32 val) (v32 err)) else val
  | 1 => err * 2 ^ 32 + val
  | _ => val

/-- A stream binding of R203 (Table 7.11); `lan` is the logical Lantern that issued it. -/
structure StreamBind where
  tid : Nat
  side : Nat
  src : Nat
  base : Nat
  kStride : Nat
  xStride : Nat
  runM1 : Nat
  kgroupsM1 : Nat
  kg0 : Nat
  lan : Nat
deriving DecidableEq, Repr

/-- A queued command of a logical array (R204): an array instruction by its index in the array section, or a stream binding. -/
inductive QCmd where
  | ins (lan idx : Nat)
  | bind (b : StreamBind)
deriving DecidableEq, Repr

/-- One K-group that an array has taken since the last promotion of its slot (R115): the slot, its group and tile slot, KG, the part of the emulated path
that it is (0: none; 1 to 3 in the order of R39), whether it is on the integer path, the number of its A entry, and its B entry. -/
structure Kept where
  slot : Nat
  group : Nat
  dtile : Nat
  kg : Nat
  part : Nat
  int : Bool
  ea : Nat
  b : List Val
deriving DecidableEq, Repr

/-- A promotion that has left the bottom of an array (R122, R133): slot, group, tile slot, window number, and the values V by row × 8 + column, each
with whether it sets OVF. -/
structure Promo where
  slot : Nat
  group : Nat
  dtile : Nat
  num : Nat
  vals : List (Nat × Val × Bool)
deriving DecidableEq, Repr

/-- One logical array of a running routine. `feedA`, `feedB` are the entries of the row feeders and of the B queue, with expanded operands: A by row × 16 + k,
B by column × 16 + k (R114); `lastA` the A entry consumed last, with its number, which a run reuses; `nA` counts the A entries consumed; `keptA` and `keptB` are
what R115 retains. `posA`, `posB` count the entries filled under the binding in force, `posD` the elements drained; `aflg` is what AFLG returns (R204);
`fwin`: the last window of the front stage that it has taken (R152); `slow`: the array serves on the fall-back path, and `pend` is its promotion queue (R122, R133). -/
structure LArr where
  fa : Option FsetF := none
  fb : Option FsetF := none
  hold : Option Nat := none
  feedA : List (List Val) := []
  feedB : List (List Val) := []
  lastA : Nat × List Val := (0, [])
  nA : Nat := 0
  keptA : List (Nat × List Val) := []
  keptB : List Kept := []
  wins : SMap (Option SlotWin) := []
  cells : SMap AccCell := []
  groups : SMap (Option Grp) := []
  dome : SMap W64 := []
  bindA : Option StreamBind := none
  bindB : Option StreamBind := none
  bindD : Option StreamBind := none
  posA : Nat := 0
  posB : Nat := 0
  posD : Nat := 0
  fwin : Nat := 0
  queued : List QCmd := []
  aflg : Nat := 0
  slow : Bool := false
  pend : List Promo := []
deriving DecidableEq, Repr

def LArr.win (a : LArr) (slot : Nat) : Option SlotWin := SMap.look none a.wins slot
def LArr.grp (a : LArr) (g : Nat) : Option Grp := SMap.look none a.groups g
def LArr.setGrp (a : LArr) (g : Nat) (x : Option Grp) : LArr := { a with groups := SMap.put none g x a.groups }

/-- The FSET checks of Table 5.6, orders 1 to 3; 0 when they pass (R21, R113). XFMT and XTID, which Table 5.2 asks to be 0 when XMODE is 0, count with the
reserved fields of order 1 then (DESIGN CHOICE, log 65). -/
def fsetFault (v : Variant) (a : LArr) (f : FsetF) : Nat :=
  let other := if f.side = 0 then a.fb else a.fa
  let bothInt := f.isIntPath && (match other with | some o => o.isIntPath | none => false)
  if f.rsv != 0 || (f.xmode == 0 && (f.xfmt != 0 || f.xtid != 0)) then 0x0301
  else if !(f.fmt ∈ [0, 1, 2, 3, 4, 5, 7]) || (f.fmt == 7 && f.xmode == 0) || (v == .m && bothInt) then 0x0102
  else if f.xmode == 3 || (f.xmode != 0 && f.fmt != 7 && f.fmt != 5) || (f.xmode == 1 && f.fmt != 7) ||
    (f.xmode != 0 && f.xfmt != 1 && f.xfmt != 2) then 0x0302
  else 0

/-- The GOPEN checks of Table 5.6. -/
def gopenFault (v : Variant) (a : LArr) (g : GopenF) : Nat :=
  let n := g.dcountM1 + 1
  if g.rsv != 0 then 0x0301
  else if v == .m && g.mode == 3 then 0x0102
  else if (a.grp g.group).isSome || decide (512 < g.dbase + n) ||
    a.groups.any (fun (_, o) => match o with
      | some x => decide (x.dbase < g.dbase + n) && decide (g.dbase < x.dbase + x.dcount)
      | none => false) then 0x0303
  else 0

/-- Whether a pass with K-group index `kg` may follow in the slot's window (R120). -/
def winOk (w : Option SlotWin) (group dtile kg : Nat) : Bool :=
  match w with
  | none => true
  | some x => x.group == group && x.dtile == dtile && kg == x.kg + 1 && kg / 4 == x.kg / 4

/-- The PASS checks of Table 5.6. -/
def passFault (a : LArr) (p : PassF) : Nat :=
  let g := a.grp p.group
  match a.fa, a.fb with
  | some fa, some fb =>
    if p.rsv != 0 then 0x0301
    else if fa.isIntPath != fb.isIntPath then 0x0102
    else if (match a.hold with | some k => k != p.kg | none => false) || !winOk (a.win p.slot) p.group p.dtile p.kg then 0x0301
    else match g with
      | none => 0x0303
      | some x => if x.dcount ≤ p.dtile ∨ (fa.isIntPath != (x.mode == 3)) then 0x0303 else 0
  | _, _ => 0x0301

/-- The GDRAIN checks of Table 5.6. -/
def gdrainFault (a : LArr) (g : GdrainF) : Nat :=
  if g.rsv != 0 then 0x0301
  else match a.grp g.group with
    | none => 0x0303
    | some x =>
      if ((g.form == 0 || g.form == 1) && x.mode == 3) || (g.form == 2 && x.mode != 3) ||
        a.wins.any (fun (_, w) => match w with | some w => w.group == g.group | none => false) then 0x0303
      else 0

/-- Clears the Dome entries of tile slots `lo` to `lo + n − 1` (R124). -/
def domeClear (lo n : Nat) (d : SMap W64) : SMap W64 :=
  d.filter (fun (k, _) => decide (k < lo * 1024) || decide ((lo + n) * 1024 ≤ k))

/-- GOPEN (R124). -/
def LArr.gopen (a : LArr) (g : GopenF) : LArr :=
  { a.setGrp g.group (some { mode := g.mode, dbase := g.dbase, dcount := g.dcountM1 + 1, tcols := g.tcolsM1 + 1
                             outN := g.outNM1 + 1, row0 := g.row0, col0 := g.col0, outTid := g.outTid })
    with dome := domeClear g.dbase (g.dcountM1 + 1) a.dome }

/-- The slot's window closes: its accumulators become empty, and the operands retained for it are released (R115, R120). -/
def LArr.closeWin (a : LArr) (slot : Nat) : LArr :=
  let kb := a.keptB.filter (fun k => k.slot != slot)
  { a with wins := SMap.put none slot none a.wins, cells := a.cells.filter (fun (k, _) => k / 1024 != slot)
           keptB := kb, keptA := a.keptA.filter (fun x => kb.any (fun k => k.ea == x.1)) }

/-- What leaves the array as a slot is promoted (R122): the value of each accumulator that is not empty, and the window's number, `kg / 4` mod 65,536. -/
def LArr.promoOf (a : LArr) (slot : Nat) (w : SlotWin) : Promo :=
  { slot := slot, group := w.group, dtile := w.dtile, num := (w.kg / 4) % 65536
    vals := (a.cells.filter (fun (k, _) => k / 1024 == slot)).filterMap (fun (k, c) => (promoteVal w.int c).map (fun v => (k % 1024, v.1, v.2))) }

/-- The update of one Dome entry by a promotion (R125, R126). -/
def domeStep (seed step : Nat) (p : Promo) (acc : SMap W64 × Grp) (x : Nat × Val × Bool) : SMap W64 × Grp :=
  let (dome, g) := acc
  let i := x.1 / 8
  let c := x.1 % 8
  let key := domeKey (g.dbase + p.dtile) i c
  let e := (SMap.look 0 dome key).toNat
  let rnd := srRandom seed g.outTid (g.outIdx p.dtile i c) step p.num
  let u := domeUpdate g.mode rnd (e % 2 ^ 32) (e / 2 ^ 32) x.2.1
  let fp := g.mode != 3
  (SMap.put 0 key (BitVec.ofNat 64 (u.err * 2 ^ 32 + u.val)) dome,
   { g with ovf := g.ovf || x.2.2 || u.ovf
            inf := g.inf || (fp && (v32 u.val).isInf)
            nan := g.nan || (fp && isNan32 u.val)
            sat := if u.sat && !(p.dtile ∈ g.sat) then p.dtile :: g.sat else g.sat })

/-- A promotion updates the entries of its tile slot (R122, R125). -/
def LArr.applyPromo (a : LArr) (seed step : Nat) (p : Promo) : LArr :=
  match a.grp p.group with
  | none => a
  | some g =>
    let r := p.vals.foldl (domeStep seed step p) (a.dome, g)
    { a.setGrp p.group (some r.2) with dome := r.1 }

/-- A slot is promoted (R122): the Dome takes the promotion, or, on the fall-back path, it waits in the promotion queue for the Lantern (R133). -/
def LArr.promote (a : LArr) (seed step slot : Nat) : LArr :=
  match a.win slot with
  | none => a
  | some w =>
    let p := a.promoOf slot w
    let a := a.closeWin slot
    if a.slow then { a with pend := a.pend ++ [p] } else a.applyPromo seed step p

/-- The products of dot unit (i, c) in a K-group (R39, R110). -/
def Kept.pairs (k : Kept) (a : List Val) (i c : Nat) : List Val :=
  let ps := (List.range 16).map (fun n => (nth .zero a (16 * i + n), nth .zero k.b (16 * c + n)))
  if k.part = 0 then ps.map (fun p => Val.mul p.1 p.2) else nth [] (emulated ps) (k.part - 1)

/-- A K-group updates the accumulators of its slot (R120, R121); `a` is its A entry. -/
def LArr.accum (a : LArr) (k : Kept) (ea : List Val) : LArr :=
  let cells := (List.range 1024).foldl (fun cs n =>
    let ps := k.pairs ea (n / 8) (n % 8)
    let cell := SMap.look {} cs (k.slot * 1024 + n)
    let cell' :=
      if k.int then cell.addInt (ps.foldl (fun t v => match v with | .fin b n _ => t + sgn b n | _ => t) 0)
      else cell.add (kgroup ps)
    SMap.put {} (k.slot * 1024 + n) cell' cs) a.cells
  { a with cells := cells, wins := SMap.put none k.slot (some { group := k.group, dtile := k.dtile, kg := k.kg, int := k.int }) a.wins }

/-- One K-group of a PASS: its operands are retained, the accumulators take it, and the slot is promoted after KG mod 4 = 3 or when `last`
(R115, R120, R121). -/
def LArr.kpass (a : LArr) (seed step : Nat) (k : Kept) (ea : List Val) (last : Bool) : LArr :=
  let a := { a with keptB := a.keptB ++ [k], keptA := if a.keptA.any (fun x => x.1 == k.ea) then a.keptA else a.keptA ++ [(k.ea, ea)] }
  let a := a.accum k ea
  if k.kg % 4 = 3 || last then a.promote seed step k.slot else a

/-- The replay of R134: every slot with an open window is cleared, and the K-groups of those windows run again from the retained operands. -/
def LArr.replay (a : LArr) : LArr :=
  a.keptB.foldl (fun a k => a.accum k (((a.keptA.find? (fun x => x.1 == k.ea)).map (·.2)).getD [])) { a with cells := [], wins := [] }

/-- The K-groups that a PASS issues: FP32 on either side makes three, with KG, KG + 1 and KG + 2 (R117). -/
def passParts (fa fb : FsetF) : List (Nat × Nat) := if fa.fmt = 0 ∨ fb.fmt = 0 then [(0, 1), (1, 2), (2, 3)] else [(0, 0)]

/-- A PASS (R110, R114, R117, R120, R121) on the entries at the front of the feeders and of the B queue; one that follows AHOLD reuses the A entry. -/
def LArr.pass (a : LArr) (seed step : Nat) (p : PassF) : LArr :=
  match a.fa, a.fb with
  | some fa, some fb =>
    let reuse := a.hold.isSome
    let ea := if reuse then a.lastA else (a.nA, a.feedA.headD [])
    let b := a.feedB.headD []
    let a := { a with hold := if p.ahold then some p.kg else none, lastA := ea, nA := if reuse then a.nA else a.nA + 1
                      feedA := if reuse then a.feedA else a.feedA.drop 1, feedB := a.feedB.drop 1 }
    let l := passParts fa fb
    l.foldl (fun a (dk, part) =>
      a.kpass seed step { slot := p.slot, group := p.group, dtile := p.dtile, kg := p.kg + dk, part := part, int := fa.isIntPath, ea := ea.1, b := b } ea.2
        (p.last && dk + 1 == l.length)) a
  | _, _ => a

/-- The promotions that a PASS makes. -/
def LArr.promos (a : LArr) (p : PassF) : Nat :=
  match a.fa, a.fb with
  | some fa, some fb =>
    let l := passParts fa fb
    (l.filter (fun (dk, _) => (p.kg + dk) % 4 == 3 || (p.last && dk + 1 == l.length))).length
  | _, _ => 0

/-- The promotion queue has no room for those of a PASS (R116, R122): it holds two; only the fall-back path lets it fill, the Dome's own completion being
a matter of time. -/
def LArr.full (a : LArr) (p : PassF) : Bool := a.slow && decide (2 < a.pend.length + a.promos p)

/-- The drained values of a group in ascending d, row and column, leaving out columns at or beyond OUT_N (R124, R126): output row,
output column, value. -/
def LArr.drain (a : LArr) (g : Grp) (form : Nat) : List (Nat × Nat × Nat) :=
  if form = 3 then []
  else (List.range g.dcount).flatMap (fun d => (List.range 128).flatMap (fun i => (List.range 8).filterMap (fun c =>
    if g.outN ≤ g.outCol d c then none
    else
      let e := (SMap.look 0 a.dome (domeKey (g.dbase + d) i c)).toNat
      some (g.row0 + 128 * (d / g.tcols) + i, g.outCol d c, drainVal g.mode form (e % 2 ^ 32) (e / 2 ^ 32)))))

/-- The four sticky flags as drained: OVF, INF, NAN and whether any tile slot saturated (R126). -/
def Grp.flagBits (g : Grp) : Nat := b2n g.ovf + 2 * b2n g.inf + 4 * b2n g.nan + 8 * b2n (!g.sat.isEmpty)

/-- A binding takes effect (R203). -/
def LArr.bind (a : LArr) (b : StreamBind) : LArr :=
  match b.side with
  | 0 => { a with bindA := some b, posA := 0 }
  | 1 => { a with bindB := some b, posB := 0 }
  | _ => { a with bindD := some b, posD := 0 }

/-- The bindings at the head of the command queue take effect. -/
def takeBinds : List QCmd → LArr → LArr
  | .bind b :: l, a => takeBinds l (a.bind b)
  | l, a => { a with queued := l }

/-- Open groups, accumulators and queues are discarded (R135): a restart and a PIVF retry find none. Formats, bindings and positions stay. -/
def LArr.drop (a : LArr) : LArr :=
  { a with hold := none, feedA := [], feedB := [], lastA := (0, []), nA := 0, keptA := [], keptB := [], wins := [], cells := [], groups := [], dome := []
           queued := [], pend := [] }

end Sys2Proof
end

