-- ==== Sys2Proof/Machine/Routine.lean ====
section
/-! DEFINITION. The records of running routines (06_spire_routines.md, 07_lantern.md): image headers and schedules as parsed
from host memory, sampled result objects, and the routine itself. -/

namespace Sys2Proof

/-- A routine image (Tables 6.1 and 7.14): header fields, the words of its code section and its array instructions. -/
structure Image where
  kind : Nat
  level : Nat
  shape : Nat
  arrays : Nat
  lanterns : Nat
  dimMax : Nat
  iterBound : Nat
  liveMask : Nat
  imageBytes : Nat
  stageBytes : Nat
  digest : Nat
  codeOff : Nat
  codeWords : Nat
  arrOff : Nat
  arrWords : Nat
  entries : List Nat
  handlers : List Nat
  rsv : Bool
  code : List Nat := []
  arr : List Nat := []
deriving DecidableEq, Repr

/-- The 128-byte header as little-endian number (Table 7.14). -/
def Image.ofHeader (h : Nat) : Image :=
  { kind := fld h 0 0 8, level := fld h 0 8 8, shape := dw h 4, arrays := fld h 8 0 8, lanterns := fld h 8 8 4
    dimMax := fld h 8 16 15, iterBound := dw h 12, liveMask := dw h 16, imageBytes := dw h 20, stageBytes := bits h 192 64
    digest := bits h 256 64, codeOff := dw h 40, codeWords := dw h 44, arrOff := dw h 48, arrWords := dw h 52
    entries := (List.range 8).map (fun l => dw h (64 + 4 * l)), handlers := (List.range 7).map (fun k => dw h (96 + 4 * k))
    rsv := fld h 0 16 16 != 0 || fld h 8 31 1 != 0 || fld h 8 12 4 != 0 || bits h (8 * 56) 64 != 0 || dw h 124 != 0 ||
      ((List.range 8).any (fun l => decide (fld h 8 8 4 ≤ l) && dw h (64 + 4 * l) != 0)) ||
      (fld h 0 0 8 != 3 && (List.range 7).any (fun k => dw h (96 + 4 * k) != 0)) }

/-- The header checks of Table 6.1 and R212 that give F_IMAGE, for a routine kind and a granted level. -/
def Image.badHeader (i : Image) (kind granted store : Nat) : Bool :=
  let cEnd := i.codeOff + 8 * i.codeWords
  let aEnd := i.arrOff + 16 * i.arrWords
  i.kind != kind || i.level == 0 || decide (granted < i.level) || i.iterBound == 0 || decide (store < i.imageBytes) || i.rsv ||
    i.codeOff % 8 != 0 || decide (i.codeOff < 128) || i.codeWords == 0 || decide (i.imageBytes < cEnd) ||
    (if i.arrWords = 0 then i.arrOff != 0
     else i.arrOff % 16 != 0 || decide (i.arrOff < 128) || decide (i.imageBytes < aEnd) ||
       (decide (i.codeOff < aEnd) && decide (i.arrOff < cEnd))) ||
    ((i.entries.take i.lanterns).any (fun e => decide (i.codeWords ≤ e))) ||
    (kind == 3 && i.handlers.any (fun e => decide (i.codeWords ≤ e)))

/-- The checks of Table 6.1 that give F_IMAGE_SHAPE. -/
def Image.badShape (i : Image) (arrays lanterns dim : Nat) : Bool :=
  i.shape != 0x00800810 || i.arrays == 0 || decide (arrays < i.arrays) || i.lanterns == 0 ||
    decide (lanterns < i.lanterns) || decide (8 < i.lanterns) || decide (i.dimMax < dim) || i.dimMax == 0 || decide (16384 < i.dimMax)

/-- A schedule step (Table 6.6). -/
structure SStep where
  kind : Nat
  i : Nat
  j : Nat
  kLo : Nat
  kHi : Nat
  part : Nat
  partsM1 : Nat
  larr : Nat
deriving DecidableEq, Repr

def SStep.ofRaw (x : Nat) : SStep :=
  { kind := bits x 124 4, i := bits x 117 7, j := bits x 110 7, kLo := bits x 103 7, kHi := bits x 96 7, part := bits x 92 4
    partsM1 := bits x 88 4, larr := bits x 84 4 }

/-- A sampled result object (R146): its tensor, bank and bank span, INIT and STEP. -/
structure Sampled where
  tid : Nat
  init : Bool
  bank : Nat
  span : Nat
  step : Nat
  addr : Nat
deriving DecidableEq, Repr

/-- Where a routine stands. `loaded`: its iterations run; `restart`: it waits for ROUTINE_RESTART; `commit`: header writes are
outstanding; `over`: it has ended. -/
inductive RPhase where
  | admitted | loaded | restart | commit | over
deriving DecidableEq, Repr

/-- A routine in flight. -/
structure Rout where
  q : Nat
  seq : Nat
  tenant : Nat
  r : RoutD
  phase : RPhase := .admitted
  img : Option Image := none
  sched : List SStep := []
  lans : List Lan := []
  arrs : List LArr := []
  /- the physical units that carry its logical arrays and Lanterns, in force until its next restart or iteration boundary (R111, R172, R176) -/
  arrMap : List Nat := []
  lanMap : List Nat := []
  iteration : Nat := 0
  lam : Nat := 0
  retry : Nat := 0
  cursor : Nat := 0
  inSched : Bool := false
  schedPcs : List Nat := []
  ckptSeq : Nat := 0
  restarts : Nat := 0
  samples : List Sampled := []
  outCur : Nat := 1
  outSpan : Nat := 0
  solCur : Nat := 1
  solSpan : Nat := 0
  /- the headers of OUT_TID and SOLN_TID as its dispatch read them -/
  outHdr : Option Nat := none
  solHdr : Option Nat := none
  schedDigest : Nat := 0
  /- the tensor whose check or walk failed (R280, R307) -/
  faultTid : Nat := 0
  /- CH_OWNER named its tenant domain at its admission (R148) -/
  chOk : Bool := false
  /- the front stage: the next K to be presented, the number of windows that have been presented, and as it was at the last restart (R150, R152) -/
  frontNext : Nat := 0
  frontWin : Nat := 0
  frontSeen : Nat := 0
  beta : Nat := 0
  alpha : Nat := 0
  pivMin : Nat := 0
  /- admission -/
  bound : Nat := 0
  nArr : Nat := 0
  nLan : Nat := 0
  admBell : Nat := 0
  itersPlaced : Nat := 0
  itersOpen : Nat := 0
  /- the bell in which its first iteration was paid (R146); the iterations that damping retries re-run free of charge (R218), and those that ended in this
  run of the schedule -/
  firstPaid : Option Nat := none
  redo : Nat := 0
  attempt : Nat := 0
  hdrCode : Nat := 0
  lastBell : Nat := 0
  gramRest : Bool := false
  /- requests, endings -/
  preempt : Bool := false
  preemptReset : Bool := false
  preempted : Bool := false
  passes : Nat := 0
  laneOps : Nat := 0
  itPasses : Nat := 0
  itOps : Nat := 0
  outcome : Nat := 0
  code : Nat := 0
  resid : Nat := 0
  iters : Nat := 0
  flagsOr : Nat := 0
  resultStep : Nat := 0
  hdrs : List (Nat × Nat × Nat) := []
  outEnt : Option TmEntry := none
  solEnt : Option TmEntry := none
  ctxEnt : Option TmEntry := none
  stageEnt : Option TmEntry := none
  imgBase : Nat := 0
  /- what the last boundary left beside the checkpoint in memory: arrays, stopped Lanterns and those in a handler, the schedule -/
  ckArrs : List LArr := []
  ckLans : List (Bool × Bool) := []
  ckSched : Bool × List Nat := (false, [])
  ckRedo : Nat × Nat := (0, 0)
  domeErrs : List Nat := []
  frontErr : Bool := false
  ended : Bool := false
deriving DecidableEq, Repr

/-- The routine's logical Lanterns that have not stopped. -/
def Rout.running (r : Rout) : List Lan := r.lans.filter (fun l => l.wait != .stopped)

end Sys2Proof
end

