-- ==== Sys2Proof/Machine/State.lean ====
section
/-! DEFINITION. The state of the block, as plain data: the dictionary, host memory and its ports, queues, the bell, the Hedge,
routines on arrays and Lanterns, the Belfry, faults and events, tests, NV, power and pins, and the queue of waiting commands. -/

namespace Sys2Proof.Machine

/-- Why the block has no step. `noSuchUnit`: raised by a command that arrives at a segment, memory port, Belfry port or macro that the
configuration of the block does not have (Table 1.2, Table 15.1); no such hardware exists, so nothing can arrive there. Safe: the
model stops where the hardware has no behaviour. -/
inductive Fault where
  | noSuchUnit (kind unit : Nat)
deriving DecidableEq, Repr

/-- Why a command has no meaning in the model. `notModelled`: raised by the dispatch arm of a command that has no meaning yet; safe, since
nothing can be proved of a run that meets it. -/
inductive Refusal where
  | notModelled (mnemonic : String)
deriving DecidableEq, Repr

/-- Host memory: (address, byte) pairs in rising order; an unlisted byte reads 0 (DESIGN CHOICE, log 1). -/
abbrev Memory := SMap Byte

/-- The canonical form of host memory: addresses strictly rising, no listed 0. -/
def Memory.wf : Memory → Bool
  | [] => true
  | [p] => p.2 != 0
  | p :: q :: m => p.2 != 0 && decide (p.1 < q.1) && Memory.wf (q :: m)

/-- The in-service test in progress (R318): command, TEST_KIND and TEST_UNIT, and whether it came through the 1687 network. -/
structure TestRt where
  cmd : Nat
  kind : Nat
  unit : Nat
  net : Bool := false
deriving DecidableEq, Repr

/-- A running PORT_CHECK (R415): the ports it tests, and whether it reads back. -/
structure PortCheck where
  addr : Nat
  ports : List Nat
  reading : Bool := false
deriving DecidableEq, Repr

/-- The epoch stage (R340): staged writes in order, as object, select number and value; the sampled EPOCH_NEXT and EPOCH_BELL once armed. -/
structure Stage where
  writes : List (Nat × Nat × Nat) := []
  armed : Option (Nat × Nat) := none
deriving DecidableEq, Repr

/-- The image store (R140): tenant domain, tensor ID, digest and bytes of each entry, least recently dispatched first. -/
structure StoreEnt where
  tenant : Nat
  tid : Nat
  digest : Nat
  bytes : Nat
  img : Option Image
  sched : List SStep
deriving DecidableEq, Repr

/-- The governor (R17): the energy estimate of its window so far, in the femtojoules of Table 9.17, and the next array of its rotation. -/
structure Gov where
  fJ : Nat := 0
  next : Nat := 0
deriving DecidableEq, Repr

structure State where
  /-- The configuration, fixed at delivery (R3). -/
  variant : Variant
  /-- The commands that wait, first in first out. -/
  pending : List Instr
  /-- Values of the dictionary's objects that differ from their defaults, keyed by `okey` (R367). -/
  objs : SMap Nat
  /-- The binding objects as step 6 of the last close left them, from which CONFIG_DIGEST reads; none before the first (R338). -/
  digest : Option (SMap Nat)
  /-- MASTER_DIGEST; none while this instance is the master and the two digests are one (R339). -/
  masterDig : Option Nat
  /-- LCLK cycles since the last reset release (R384), the time base in units of 2^-48 cycle, and its rate correction (R330). -/
  cycle : Nat
  tb : Nat
  rate : Int
  /-- The model's own counter: each free value is drawn at one of its values. -/
  freeCtr : Nat
  /- Host memory and its ports -/
  mem : Memory
  poison : SMap Bool
  memErr : SMap Nat
  reqs : List MemReq
  runs : SMap PortRun
  twigs : List TwigEntry
  invals : List Inval
  /-- The reads that acts wait for: walks, and data of dispatch checks, instructions and restarts. -/
  reads : Reads
  /- Queues and sync objects -/
  queues : SMap QRt
  syncWrites : List (Nat × Nat)
  syncUpds : List SyncUpd
  sapTurn : Nat
  /- The bell -/
  bell : BellSt
  form : Form
  openedAt : Nat
  due : Nat
  closedAt : Nat
  overrun : Bool
  frozen : Bool
  /- History slots, keyed by slot (R63) -/
  hist : SMap HistRt
  /- The Hedge -/
  /-- The orphan that waits on a port, with the outcome of the checks on it (R90). -/
  waitTiles : SMap (Option (Tile × Chk))
  soOut : List OutTile
  ring : List Captured
  chans : SMap Chan
  /-- The links of the runner ring that are bypassed (Table 11.2). -/
  links : List Nat
  /- Routines and the image store -/
  routs : List Rout
  /-- The logical unit that holds an array or Lantern, keyed by kind × 65,536 + number: queue, DESC_SEQ and logical number (R111, R172, R176). -/
  holds : SMap (Option (Nat × Nat × Nat))
  store : List StoreEnt
  /- Faults and events -/
  evbuf : List Ev
  /-- The entry whose ring write is outstanding. -/
  evOut : Option Ev
  evSeq : Nat
  fatalRaised : List Nat
  transBell : SMap Nat
  mapped : List UnitRef
  /- The dictionary's own state -/
  segs : List SegCtx
  stage : Option Stage
  moOut : List FinfaResp
  nv : Nv
  loaded : Bool
  /- The Belfry -/
  bports : SMap BPort
  group : Group
  reds : List RedCtx
  btx : List (Nat × Frame)
  /- Tests -/
  test : Option TestRt
  ijtag : Nat
  check : Option PortCheck
  wirs : List (Macro × Nat)
  testMode : Bool
  /- Power, resets and pins -/
  coldHeld : Bool
  warmHeld : Bool
  warmStart : Bool
  sleepStart : Bool
  pgLane : Bool
  pgSpire : Bool
  pgAon : Bool
  pgNv : Bool
  /-- THR as driven, and whether a reset release waits for supplies or for the NV store (R379, R390). -/
  thrPin : Nat
  riseDue : Bool
  pstateReq : Nat
  pstateAck : Nat
  /-- WARM_RST_N was asserted in NAP or SLEEP, and is acted on once every domain is within tolerance (R390). -/
  warmAsk : Bool
  /-- The governor's estimate of the window so far, and the array whose turn to freeze is next (R17). -/
  gov : Gov
  /-- A power move that waits: its target, and the bell at whose close it may begin (R382). -/
  moving : Option (Nat × Nat)
  draining : Bool
  exiting : Bool
deriving DecidableEq, Repr

/-- The block held in cold reset (R373): COLD_RST_N is low, no object has left its default, memory lists nothing and no command waits. The
power-good inputs are up, as R397 requires before a release. -/
def State.resetOf (v : Variant) : State :=
  { variant := v, pending := [], objs := [], digest := none, masterDig := none, cycle := 0, tb := 0, rate := 0, freeCtr := 0
    mem := [], poison := [], memErr := [], reqs := [], runs := [], twigs := [], invals := [], reads := {}
    queues := [], syncWrites := [], syncUpds := [], sapTurn := 0
    bell := .none, form := { bell := 0, budget := 0 }, openedAt := 0, due := 0, closedAt := 0, overrun := false
    frozen := false, hist := [], waitTiles := [], soOut := [], ring := [], chans := [], links := [], routs := [], holds := [], store := []
    evbuf := [], evOut := none, evSeq := 0, fatalRaised := [], transBell := [], mapped := []
    segs := [], stage := none, moOut := [], nv := {}, loaded := false
    bports := [], group := {}, reds := [], btx := []
    test := none, ijtag := 0, check := none, wirs := [], testMode := false
    coldHeld := true, warmHeld := false, warmStart := false, sleepStart := false
    pgLane := true, pgSpire := true, pgAon := true, pgNv := true, thrPin := 0, riseDue := false, pstateReq := 0, pstateAck := 0
    warmAsk := false, gov := {}
    moving := none, draining := false, exiting := false }

/-- The machine right after reset: the L configuration (DESIGN CHOICE, log 2). -/
def State.reset : State := State.resetOf .l

end Sys2Proof.Machine
end

