-- ==== Sys2Proof/Machine/Setters.lean ====
section
/-! DEFINITION. One setter per field of the state that an operation changes, so that every update of the state has a name. -/

namespace Sys2Proof.Machine

def State.setObjs (s : State) (x : SMap Nat) : State := { s with objs := x }
def State.setDigest (s : State) (x : Option (SMap Nat)) : State := { s with digest := x }
def State.setMasterDig (s : State) (x : Option Nat) : State := { s with masterDig := x }
def State.setCycle (s : State) (x : Nat) : State := { s with cycle := x }
def State.setTb (s : State) (x : Nat) : State := { s with tb := x }
def State.setRate (s : State) (x : Int) : State := { s with rate := x }
def State.setFreeCtr (s : State) (x : Nat) : State := { s with freeCtr := x }
def State.setMem (s : State) (x : Memory) : State := { s with mem := x }
def State.setPoison (s : State) (x : SMap Bool) : State := { s with poison := x }
def State.setMemErr (s : State) (x : SMap Nat) : State := { s with memErr := x }
def State.setReqs (s : State) (x : List MemReq) : State := { s with reqs := x }
def State.setRuns (s : State) (x : SMap PortRun) : State := { s with runs := x }
def State.setTwigs (s : State) (x : List TwigEntry) : State := { s with twigs := x }
def State.setInvals (s : State) (x : List Inval) : State := { s with invals := x }
def State.setReads (s : State) (x : Reads) : State := { s with reads := x }
def State.setQueues (s : State) (x : SMap QRt) : State := { s with queues := x }
def State.setSyncWrites (s : State) (x : List (Nat × Nat)) : State := { s with syncWrites := x }
def State.setSyncUpds (s : State) (x : List SyncUpd) : State := { s with syncUpds := x }
def State.setSapTurn (s : State) (x : Nat) : State := { s with sapTurn := x }
def State.setBell (s : State) (x : BellSt) : State := { s with bell := x }
def State.setForm (s : State) (x : Form) : State := { s with form := x }
def State.setOpenedAt (s : State) (x : Nat) : State := { s with openedAt := x }
def State.setDue (s : State) (x : Nat) : State := { s with due := x }
def State.setClosedAt (s : State) (x : Nat) : State := { s with closedAt := x }
def State.setOverrun (s : State) (x : Bool) : State := { s with overrun := x }
def State.setFrozen (s : State) (x : Bool) : State := { s with frozen := x }
def State.setHist (s : State) (x : SMap HistRt) : State := { s with hist := x }
def State.setWaitTiles (s : State) (x : SMap (Option (Tile × Chk))) : State := { s with waitTiles := x }
def State.setSoOut (s : State) (x : List OutTile) : State := { s with soOut := x }
def State.setRing (s : State) (x : List Captured) : State := { s with ring := x }
def State.setChans (s : State) (x : SMap Chan) : State := { s with chans := x }
def State.setLinks (s : State) (x : List Nat) : State := { s with links := x }
def State.setRouts (s : State) (x : List Rout) : State := { s with routs := x }
def State.setHolds (s : State) (x : SMap (Option (Nat × Nat × Nat))) : State := { s with holds := x }
def State.setStore (s : State) (x : List StoreEnt) : State := { s with store := x }
def State.setEvbuf (s : State) (x : List Ev) : State := { s with evbuf := x }
def State.setEvOut (s : State) (x : Option Ev) : State := { s with evOut := x }
def State.setEvSeq (s : State) (x : Nat) : State := { s with evSeq := x }
def State.setFatalRaised (s : State) (x : List Nat) : State := { s with fatalRaised := x }
def State.setTransBell (s : State) (x : SMap Nat) : State := { s with transBell := x }
def State.setMapped (s : State) (x : List UnitRef) : State := { s with mapped := x }
def State.setSegs (s : State) (x : List SegCtx) : State := { s with segs := x }
def State.setStage (s : State) (x : Option Stage) : State := { s with stage := x }
def State.setMoOut (s : State) (x : List FinfaResp) : State := { s with moOut := x }
def State.setNv (s : State) (x : Nv) : State := { s with nv := x }
def State.setLoaded (s : State) (x : Bool) : State := { s with loaded := x }
def State.setBports (s : State) (x : SMap BPort) : State := { s with bports := x }
def State.setGroup (s : State) (x : Group) : State := { s with group := x }
def State.setReds (s : State) (x : List RedCtx) : State := { s with reds := x }
def State.setBtx (s : State) (x : List (Nat × Frame)) : State := { s with btx := x }
def State.setTest (s : State) (x : Option TestRt) : State := { s with test := x }
def State.setIjtag (s : State) (x : Nat) : State := { s with ijtag := x }
def State.setCheck (s : State) (x : Option PortCheck) : State := { s with check := x }
def State.setWirs (s : State) (x : List (Macro × Nat)) : State := { s with wirs := x }
def State.setTestMode (s : State) (x : Bool) : State := { s with testMode := x }
def State.setColdHeld (s : State) (x : Bool) : State := { s with coldHeld := x }
def State.setWarmHeld (s : State) (x : Bool) : State := { s with warmHeld := x }
def State.setWarmStart (s : State) (x : Bool) : State := { s with warmStart := x }
def State.setSleepStart (s : State) (x : Bool) : State := { s with sleepStart := x }
def State.setPgLane (s : State) (x : Bool) : State := { s with pgLane := x }
def State.setPgSpire (s : State) (x : Bool) : State := { s with pgSpire := x }
def State.setPgAon (s : State) (x : Bool) : State := { s with pgAon := x }
def State.setPgNv (s : State) (x : Bool) : State := { s with pgNv := x }
def State.setThrPin (s : State) (x : Nat) : State := { s with thrPin := x }
def State.setRiseDue (s : State) (x : Bool) : State := { s with riseDue := x }
def State.setPstateReq (s : State) (x : Nat) : State := { s with pstateReq := x }
def State.setPstateAck (s : State) (x : Nat) : State := { s with pstateAck := x }
def State.setWarmAsk (s : State) (x : Bool) : State := { s with warmAsk := x }
def State.setGov (s : State) (x : Gov) : State := { s with gov := x }
def State.setMoving (s : State) (x : Option (Nat × Nat)) : State := { s with moving := x }
def State.setDraining (s : State) (x : Bool) : State := { s with draining := x }
def State.setExiting (s : State) (x : Bool) : State := { s with exiting := x }

end Sys2Proof.Machine
end

