-- ==== Sys2Proof/Machine/Ops.lean ====
section
/-! DEFINITION. The named operations over the state that every family shares: dictionary objects, host memory, events and the
first-fault record, and the serving units with their mapping. -/

namespace Sys2Proof.Machine

/-! Objects. -/

/-- The value in force of an object for a select number (R359). BG_MASTER is kept one higher once a group has formed; before that it reads
INSTANCE_ID (Table 12.6). -/
def State.get (s : State) (oid sel : Nat) : Nat :=
  let v := SMap.look (odfl s.variant oid sel) s.objs (okey oid sel)
  if oid ≠ O.bgMaster then v else if v = 0 then SMap.look 0 s.objs (okey O.instanceId 0) else v - 1

/-- The value of an object outside the selected blocks. -/
def State.obj (s : State) (oid : Nat) : Nat := s.get oid 0

/-- Sets an object's value in force; the map stays canonical. -/
def State.put (s : State) (oid sel v : Nat) : State :=
  s.setObjs (SMap.put (odfl s.variant oid sel) (okey oid sel) v s.objs)

def State.setObj (s : State) (oid v : Nat) : State := s.put oid 0 v

/-- The value of a binding object that is in force for the bell that runs or is being formed: the one that step 6 of the last close took
(R227, R264); before any close, the value served. -/
def State.bget (s : State) (oid sel : Nat) : Nat :=
  match s.digest with
  | none => s.get oid sel
  | some m => SMap.look (odfl s.variant oid sel) m (okey oid sel)

/-- Adds to a counter of `w` bits, wrapping. -/
def State.bump (s : State) (oid sel w n : Nat) : State := s.put oid sel ((s.get oid sel + n) % 2 ^ w)

/-- The objects of one index and sub-index with their select numbers, among those that differ from the default. -/
def State.listed (s : State) (oid : Nat) : List (Nat × Nat) :=
  s.objs.filterMap (fun (k, v) => if k / 262144 = oid then some (k % 262144, v) else none)

/-- Every object for which `p` holds takes its default. -/
def State.dropObjs (s : State) (p : Nat → Nat → Bool) : State :=
  s.setObjs (s.objs.filter (fun (k, _) => !p (k / 262144) (k % 262144)))

/-! Counts of units, fixed by the configuration (Table 1.2). -/
def State.nSeg (s : State) : Nat := odfl s.variant O.hedgeSegments 0
def State.nArr (s : State) : Nat := odfl s.variant O.spireArrays 0
def State.nLan (s : State) : Nat := odfl s.variant O.lanterns 0
def State.nPort (s : State) : Nat := odfl s.variant O.memoryPorts 0

/-- The bell that runs, or 0 when none does (R225). -/
def State.bellNo (s : State) : Nat := s.obj O.bellNumber

def State.phase (s : State) : Nat := s.obj O.startupPhase
def State.stopped (s : State) : Bool := s.obj O.blockState == 1

/-- The sapling service runs (R373, R377). -/
def State.sapling (s : State) : Bool := s.phase == 3

/-- The block takes work: it is out of reset, has not stopped and is not in SLEEP. -/
def State.live (s : State) : Bool := !s.coldHeld && !s.warmHeld && !s.stopped && decide (2 ≤ s.phase) && s.obj O.powerState != 3

/-- Either reset is held (R373, R379). -/
def State.inReset (s : State) : Bool := s.coldHeld || s.warmHeld

/-- What arrives on the management port and the memory ports is discarded (R396): a reset is held, or WARM_RST_N is low in NAP or SLEEP. -/
def State.deaf (s : State) : Bool := s.inReset || (s.warmAsk && !s.riseDue)

/-- The governor's estimate of its window grows by an amount in the femtojoules of Table 9.17 (R17). -/
def State.spend (s : State) (fJ : Nat) : State := s.setGov { s.gov with fJ := s.gov.fJ + fJ }

/-- Draws the next value of the free counter. -/
def State.tickFree (s : State) : State := s.setFreeCtr (s.freeCtr + 1)

/-! Queues. -/
def State.queue (s : State) (q : Nat) : QRt := SMap.look {} s.queues q
def State.setQueue (s : State) (q : Nat) (x : QRt) : State := s.setQueues (SMap.put {} q x s.queues)
def State.updQueue (s : State) (q : Nat) (f : QRt → QRt) : State := s.setQueue q (f (s.queue q))
def State.tenantOf (s : State) (q : Nat) : Nat := s.get O.queueTenant q
def State.nQueues : Nat := 262144

/-- The descriptor in flight with a sequence number. -/
def qfind (x : QRt) (seq : Nat) : Option DRt := x.infl.find? (fun d => d.seq == seq)

def State.dfind (s : State) (q seq : Nat) : Option DRt := qfind (s.queue q) seq

def State.dupd (s : State) (q seq : Nat) (f : DRt → DRt) : State :=
  s.updQueue q (fun x => { x with infl := mapIf (fun d => d.seq == seq) f x.infl })

/-! Host memory. Errors and poison are kept for beats of 128 bytes (log 1). -/

def State.byte (s : State) (a : Nat) : Nat := (SMap.look 0 s.mem a).toNat

/-- `n` bytes from address `a` as a little-endian number; bytes that memory does not list are 0. -/
def State.rdN (s : State) (a n : Nat) : Nat :=
  s.mem.foldl (fun acc (k, b) => if decide (a ≤ k) && decide (k < a + n) then acc + b.toNat * 256 ^ (k - a) else acc) 0

/-- The cells that bytes from address `a` on make: those that are not 0. -/
def cellsAt : Nat → List Nat → Memory
  | _, [] => []
  | a, b :: bs => if BitVec.ofNat 8 b = 0 then cellsAt (a + 1) bs else (a, BitVec.ofNat 8 b) :: cellsAt (a + 1) bs

/-- Writes bytes from address `a` on, in place of the cells that were there. -/
def putBytes (a : Nat) (bs : List Nat) (m : Memory) : Memory :=
  m.filter (fun c => decide (c.1 < a)) ++ cellsAt a bs ++ m.filter (fun c => decide (a + bs.length ≤ c.1))

/-- The beats that `n` bytes from `a` touch. -/
def beatsOf (a n : Nat) : List Nat := if n = 0 then [] else rangeFrom (a / 128) ((a + n - 1) / 128 - a / 128 + 1)

/-- Writes bytes; the beats' poison becomes `p`, and an earlier error of theirs is forgotten. -/
def State.wrBytes (s : State) (a : Nat) (bs : List Nat) (p : Bool) : State :=
  let bt := beatsOf a bs.length
  ((s.setMem (putBytes a bs s.mem)).setPoison (bt.foldl (fun m b => SMap.put false b p m) s.poison)).setMemErr (bt.foldl (fun m b => SMap.put 0 b 0 m) s.memErr)

/-- The worst state of the beats of a range: 0 good, 1 ERR, 2 DECERR, 3 poison. -/
def State.rangeBad (s : State) (a n : Nat) : Nat :=
  let bt := beatsOf a n
  let e := maxN (bt.map (fun b => SMap.look 0 s.memErr b))
  if e != 0 then e else if bt.any (fun b => SMap.look false s.poison b) then 3 else 0

/-- The fault code of such a state for a data access (Table 10.6). -/
def badCode (b : Nat) : Nat := if b = 1 then 0x0604 else if b = 2 then 0x0606 else if b = 3 then 0x0203 else 0

/-- Whether bytes `a` to `a + n − 1` overlap a device window (R279). -/
def State.inWindow (s : State) (a n : Nat) : Bool :=
  (List.range 16).any (fun i =>
    let b := s.obj (O.devwinBase i)
    let z := s.obj (O.devwinSize i)
    z != 0 && decide (a < b + z) && decide (b < a + n))

/-! Events (R306 to R315). -/

/-- An event entry of 64 bytes (Table 11.5). -/
def evEntry (e : Ev) (phase : Nat) : Nat :=
  e.code * 2 ^ 16 + evSeverity e.code * 2 ^ 14 + e.unitKind * 2 ^ 10 + b2n e.queue.isSome * 2 ^ 9 + b2n e.tenant.isSome * 2 ^ 8 + phase +
    e.seq * 2 ^ 32 + (e.firstBell % 2 ^ 64) * 2 ^ 64 + (e.lastBell % 2 ^ 32) * 2 ^ 128 + e.count * 2 ^ 160 +
    (e.queue.getD 0) * 2 ^ 192 + (e.tenant.getD 0) * 2 ^ 224 + e.unit * 2 ^ 240 + e.payload * 2 ^ 256

/-- GENERIC payload (Table 11.8). -/
def genPay (seq d0 d1 : Nat) : Nat := seq + (d0 % 2 ^ 32) * 2 ^ 32 + (d1 % 2 ^ 64) * 2 ^ 64

/-- Whether a buffered entry takes an occurrence of `e` (R309): it names the same things and no later entry is of its queue. -/
def canCoalesce (e : Ev) : List Ev → Bool
  | [] => false
  | x :: later =>
    (x.code == e.code && x.unitKind == e.unitKind && x.unit == e.unit && x.queue == e.queue && x.tenant == e.tenant &&
      (e.queue.isNone || later.all (fun y => y.queue != e.queue))) || canCoalesce e later

def coalesce (e : Ev) : List Ev → List Ev
  | [] => []
  | x :: later =>
    if x.code == e.code && x.unitKind == e.unitKind && x.unit == e.unit && x.queue == e.queue && x.tenant == e.tenant &&
      (e.queue.isNone || later.all (fun y => y.queue != e.queue))
    then { x with count := min (x.count + 1) (2 ^ 32 - 1), lastBell := e.lastBell } :: later
    else x :: coalesce e later

def evFatal (e : Ev) : Bool := evSeverity e.code == 3

/-- Removes the first entry of severity `v`. -/
def dropSev (v : Nat) : List Ev → List Ev
  | [] => []
  | x :: xs => if evSeverity x.code = v then xs else x :: dropSev v xs

/-- Buffers an event with the next SEQ, or drops one (R310, R313, R314). -/
def State.buffer (s : State) (e : Ev) : State :=
  let sev := evSeverity e.code
  let e := { e with seq := s.evSeq }
  let put := fun (s : State) =>
    let s := (s.setEvbuf (s.evbuf ++ [e])).setEvSeq ((s.evSeq + 1) % 2 ^ 32)
    if s.obj O.evlogEnable = 0 ∧ s.obj O.evlogIrqSev ≤ sev then s.setObj O.evlogPending 1 else s
  let others := s.evbuf.filter (fun x => !evFatal x)
  let out := match s.evOut with | some x => b2n (!evFatal x) | none => 0
  if sev = 3 ∨ others.length + out < 60 then put s
  else
    let lo := others.foldl (fun m x => min m (evSeverity x.code)) 3
    if lo < sev then
      let n := ((others.find? (fun x => evSeverity x.code == lo)).map (·.count)).getD 1
      put ((s.setEvbuf (dropSev lo s.evbuf)).bump (O.dropsSev0 + lo) 0 64 n)
    else s.bump (O.dropsSev0 + sev) 0 64 1

/-- A unit reports an event (R306 to R315). -/
def State.report (s : State) (e : Ev) : State :=
  let sev := evSeverity e.code
  let e := { e with firstBell := s.bellNo, lastBell := s.bellNo, seq := s.evSeq }
  let s := (s.bump (O.eventsSev0 + sev) 0 64 1).bump O.evcodeCount e.code 64 1
  let s := if 2 ≤ sev ∧ s.obj O.firstFaultValid = 0 then (s.setObj O.firstFault (evEntry e 0)).setObj O.firstFaultValid 1 else s
  if sev = 3 then
    if e.code ∈ s.fatalRaised then s else (s.setFatalRaised (e.code :: s.fatalRaised)).buffer e
  else if sev < s.obj O.evlogMinSev then s
  else if sev ≤ 1 ∧ e.code ≠ 0x0905 ∧ canCoalesce e s.evbuf then
    (s.setEvbuf (coalesce e s.evbuf)).bump O.coalesced 0 64 1
  else s.buffer e

/-! Units: states, counts and mapping (R111, R176, R288, Table 11.4). Kinds are those of Table 11.6. -/

def unitCount (s : State) (kind : Nat) : Nat :=
  match kind with
  | 1 => s.nSeg | 2 => s.nArr | 3 => s.nArr * 8 | 4 => s.nArr | 5 => s.nLan | 6 => s.nPort | 7 => 48 | _ => 1

/-- The per-unit state object of a kind. -/
def stateOid (kind : Nat) : Nat :=
  match kind with
  | 1 => O.segState | 2 => O.arrayState | 4 => O.domeState | 5 => O.lanternState | 6 => O.memportState | _ => O.bportState

/-- The in-service count of a kind, none for Dome banks. -/
def serviceOid (kind : Nat) : Option Nat :=
  match kind with
  | 1 => some O.hedgeInService | 2 => some O.spireInService | 5 => some O.lanternsInService | 6 => some O.memportInService
  | 7 => some O.belfryInService | _ => none

/-- The unit takes work. An array on the fall-back path (3) serves; a Belfry port that is down (3) does not. -/
def State.serves (s : State) (kind u : Nat) : Bool :=
  let x := s.get (stateOid kind) u
  x == 0 || (kind == 2 && x == 3)

/-- The unit is neither fenced nor offline. -/
def State.inService (s : State) (kind u : Nat) : Bool :=
  let x := s.get (stateOid kind) u
  x != 1 && x != 2

/-- The physical unit that carries logical unit `l` of `n`: itself, or the next serving one, wrapping (R111, R176). -/
def State.carrier (s : State) (kind n l : Nat) : Option Nat :=
  ((List.range n).map (fun i => (l + i) % n)).find? (s.serves kind)

def State.arrOf (s : State) (la : Nat) : Option Nat := s.carrier 2 s.nArr la
def State.lanOf (s : State) (l : Nat) : Option Nat := s.carrier 5 s.nLan l

/-- The hardware segment that carries a logical segment (R106): itself or its partner. -/
def State.segOf (s : State) (n : Nat) : Option Nat :=
  if s.serves 1 n then some n else if s.serves 1 (n ^^^ 1) then some (n ^^^ 1) else none

/-- The serving memory ports, ascending (R288). -/
def State.ports (s : State) : List Nat := (List.range s.nPort).filter (s.serves 6)

/-- The port of an address (R288). -/
def State.portOf (s : State) (a : Nat) : Option Nat :=
  let l := s.ports
  if l.isEmpty then none else some (nth 0 l ((a / 4096) % l.length))

/-- The next serving port after `p` in the list, wrapping. -/
def State.nextPort (s : State) (p : Nat) : Option Nat :=
  let l := s.ports
  match l.find? (fun x => decide (p < x)) with
  | some x => some x
  | none => l.head?

/-- Puts a unit into a state and keeps the in-service count (R297, R319). -/
def State.setUnit (s : State) (kind u st : Nat) : State :=
  let was := s.inService kind u
  let s := s.put (stateOid kind) u st
  match serviceOid kind with
  | none => s
  | some o =>
    let now := s.inService kind u
    if was && !now then s.setObj o (s.obj o - 1) else if !was && now then s.setObj o (s.obj o + 1) else s

/-- Appends a unit to REPAIR_FOUND (R388), once. -/
def State.found (s : State) (kind u : Nat) : State :=
  let l := s.obj O.repairFound
  match (List.range 256).find? (fun i => bits l (32 * i) 32 == 0 || bits l (32 * i) 32 == 2 ^ 31 + kind * 2 ^ 16 + u) with
  | none => s
  | some i => if bits l (32 * i) 32 = 0 then s.setObj O.repairFound (l + (2 ^ 31 + kind * 2 ^ 16 + u) * 2 ^ (32 * i)) else s

/-- Where a fault arose: queue, tenant domain and DESC_SEQ, when a descriptor is concerned. -/
structure Ctx where
  queue : Option Nat := none
  tenant : Option Nat := none
  seq : Nat := 0
  pay : Option Nat := none

/-- Updates every routine that `p` names. -/
def State.updRouts (s : State) (p : Rout → Bool) (f : Rout → Rout) : State := s.setRouts (mapIf p f s.routs)

def State.rfind (s : State) (q seq : Nat) : Option Rout := s.routs.find? (fun r => r.q == q && r.seq == seq)
def State.rupd (s : State) (q seq : Nat) (f : Rout → Rout) : State := s.updRouts (fun r => r.q == q && r.seq == seq) f

/-- The routine holds an array or Lantern carried by physical unit `u`. -/
def State.uses (_ : State) (kind u : Nat) (r : Rout) : Bool := r.phase == .loaded && (if kind = 5 then r.lanMap else r.arrMap).contains u

/-- The physical units that carry the first `k` logical units of a kind; a number beyond the last stands for none. -/
def State.mapUnits (s : State) (kind n k : Nat) : List Nat := (List.range k).map (fun l => (s.carrier kind n l).getD n)

/-- A routine on the mapping in force (R111, R176): at its start and restarts, and at its boundaries. An array takes or leaves the fall-back path as
its routine starts or restarts, or as it moves (R136, Table 11.10). -/
def State.place (s : State) (r : Rout) (fresh : Bool) : Rout :=
  let am := s.mapUnits 2 s.nArr r.arrs.length
  { r with arrMap := am, lanMap := s.mapUnits 5 s.nLan r.lans.length
           arrs := r.arrs.zipIdx.map (fun (a, j) =>
             if fresh || r.arrMap[j]? != am[j]? then { a with slow := s.get O.domeState (nth s.nArr am j) != 0 } else a) }

/-- Arrays whose Dome bank serves again leave the fall-back path once no routine uses it there (Table 11.10). -/
def State.domeBack (s : State) : State :=
  (s.listed O.arrayState).foldl (fun s (u, v) =>
    if v = 3 ∧ s.get O.domeState u = 0 ∧
        !s.routs.any (fun r => r.phase == .loaded && (r.arrs.zip r.arrMap).any (fun (a, p) => a.slow && p == u))
    then s.put O.arrayState u 0 else s) s

/-- A routine holds units no longer. -/
def State.letGo (s : State) (q seq : Nat) : State :=
  s.setHolds (s.holds.filter (fun (_, o) => match o with | some (p, n, _) => !(p == q && n == seq) | none => true))

/-! Memory requests (R284, R285, R288). -/

/-- The lowest tag free on a port and direction (DESIGN CHOICE, log 9). -/
def State.freeTag (s : State) (port : Nat) (wr : Bool) : Option Nat :=
  let used := s.reqs.filterMap (fun r => if r.port == port && r.wr == wr then r.tag else none)
  (List.range 1024).find? (fun t => !(t ∈ used))

def isEvlog (o : ReqOwner) : Bool := match o with | .evlog _ => true | _ => false

/-- The tag of a request behind those of `l`: none while one of them clashes with it or all tags are in use. -/
def State.tagFor (s : State) (l : List MemReq) (r : MemReq) : Option Nat := if l.any r.clash then none else s.freeTag r.port r.wr

/-- Issues one request on a port; it waits without a tag while all 1,024 are in use, and while an outstanding one overlaps it (R286). A stopped block issues
nothing but the writes of the event log (R301). -/
def State.request (s : State) (r : MemReq) : State :=
  if s.stopped && !isEvlog r.owner then s else (s.setReqs (s.reqs ++ [{ r with tag := s.tagFor s.reqs r }])).spend (1221 * r.span.2)

/-- Reissues a request, ahead of those that wait behind it. -/
def State.reissue (s : State) (r : MemReq) : State :=
  if s.stopped && !isEvlog r.owner then s else s.setReqs ({ r with tag := s.freeTag r.port r.wr } :: s.reqs)

/-- Requests of an owner that have not been answered. -/
def State.waits (s : State) (o : ReqOwner) : Bool := s.reqs.any (fun r => r.owner == o && !r.late)

/-- Writes of an owner are outstanding. -/
def State.waitsWrite (s : State) (o : ReqOwner) : Bool := s.reqs.any (fun r => r.owner == o && !r.late && r.wr)

/-- Arrays, Lanterns and segments frozen by the throttle in every cycle (Table 14.3). -/
def State.arrFrozen (s : State) : Bool := decide (5 ≤ s.obj O.throttleLevel)
def State.lanFrozen (s : State) : Bool := decide (6 ≤ s.obj O.throttleLevel)
def State.segFrozen (s : State) : Bool := decide (7 ≤ s.obj O.throttleLevel)

/-- Reads of an owner are outstanding. -/
def State.waitsRead (s : State) (o : ReqOwner) : Bool := s.reqs.any (fun r => r.owner == o && !r.late && !r.wr)

/-- Replaces the first request equal to `r`. -/
def swapReq (r : MemReq) (f : MemReq → MemReq) : List MemReq → List MemReq
  | [] => []
  | x :: xs => if x == r then f x :: xs else x :: swapReq r f xs

/-- The requests `l`, of which `seen` go before, with a tag for each that waits for one and may now be presented. -/
def tagged (free : List MemReq → MemReq → Option Nat) : List MemReq → List MemReq → List MemReq
  | seen, [] => seen
  | seen, r :: l =>
    if r.tag.isSome || r.late || r.shut || seen.any r.clash then tagged free (seen ++ [r]) l
    else tagged free (seen ++ [{ r with tag := free (seen ++ l) r }]) l

/-- Presents the requests that wait, in order, as far as tags and the requests before them allow. -/
def State.retag (s : State) : State := s.setReqs (tagged (fun l r => (s.setReqs l).freeTag r.port r.wr) [] s.reqs)

/-- The requests of an owner are given up: their responses are discarded. -/
def State.giveUp (s : State) (o : ReqOwner → Bool) : State :=
  (s.setReqs (mapIf (fun r => o r.owner) (fun r => { r with late := true }) (s.reqs.filter (fun r => !(o r.owner && r.tag.isNone))))).retag

/-! PORT_CHECK (R415). -/

/-- Byte `k` of the pattern of port `n`. -/
def checkBytes (n : Nat) : List Nat := (List.range 128).map (fun k => (n * 37 + k) % 256)

def isCheck (o : ReqOwner) : Bool := match o with | .check _ => true | _ => false

/-- Port `n` has failed the check. -/
def State.checkFail (s : State) (n : Nat) : State := s.setObj O.portCheckFailed (s.obj O.portCheckFailed ||| 2 ^ n)

/-- One request of the check, on the port that its steps name. -/
def State.checkReq (s : State) (a port n : Nat) (wr : Bool) : State :=
  s.request { port := port, wr := wr, tag := none, addr := a + 128 * n, beats := 1, attr := 1, tenant := 0, data := if wr then checkBytes n else []
              poison := false, owner := .check n }

/-- Once every request of a step has been answered, the check reads the blocks back, and then ends. -/
def State.checkNext (s : State) : State :=
  match s.check with
  | none => s
  | some c =>
    if s.stopped then s
    else if s.reqs.any (fun r => isCheck r.owner && !r.late) then s
    else if !c.reading && !s.ports.isEmpty then
      c.ports.foldl (fun s n => s.checkReq c.addr ((s.nextPort n).getD n) n false) (s.setCheck (some { c with reading := true }))
    else (s.setCheck none).setObj O.portCheckState (if s.obj O.portCheckFailed = 0 then 2 else 3)

/-- A request of the check failed: its block's port is marked, and the reading port with it. -/
def State.checkLost (s : State) (r : MemReq) : State :=
  match r.owner with
  | .check n => let s := s.checkFail n; if r.wr then s else s.checkFail r.port
  | _ => s

/-- The requests outstanding on a port that is fenced are reissued on the others (R290); those of PORT_CHECK fail, and the port is marked. One whose
bytes a device window now covers is not reissued (R279): it is marked, and fails. The port's own tags stay in use until their responses (R285). -/
def State.movePort (s : State) (p : Nat) : State :=
  let mine := s.reqs.filter (fun r => r.port == p && !r.late)
  let s := s.setReqs ((s.reqs.filter (fun r => !(r.port == p && r.tag.isNone))).map (fun r => if r.port == p then { r with late := true } else r))
  let s := mine.reverse.foldl (fun s r =>
    let r := { r with tag := none, got := 0, err := 0, poisoned := false }
    if isCheck r.owner then s.checkLost r
    else match s.portOf r.addr with
      | none => s
      | some q =>
        if s.inWindow r.span.1 r.span.2 then s.setReqs ({ r with port := q, shut := true } :: s.reqs) else s.reissue { r with port := q }) s
  match s.check with
  | some c => (if p ∈ c.ports then s.checkFail p else s).checkNext
  | none => s

/-! Belfry links (R326 to R330, R343). A frame sent is numbered, kept until acknowledged and put out on its port. -/

/-- The BELFRY payload (Table 12.4). -/
def belPay (word0 cause port group bell v0 v1 : Nat) : Nat :=
  word0 % 2 ^ 32 + (cause * 2 ^ 24 + port * 2 ^ 16 + group) * 2 ^ 32 + (bell % 2 ^ 64) * 2 ^ 64 + (v0 % 2 ^ 64) * 2 ^ 128 + (v1 % 2 ^ 64) * 2 ^ 192

/-- F_BELFRY_LINK; `port` is 0xFF when none is concerned. -/
def State.linkEvent (s : State) (cause port peer : Nat) : State :=
  s.report { code := 0x0801, unitKind := if port = 0xFF then 0 else 7, unit := if port = 0xFF then 0 else port
             payload := belPay peer cause port 0 s.bellNo 0 0 }

def State.bport (s : State) (p : Nat) : BPort := SMap.look {} s.bports p
def State.updBport (s : State) (p : Nat) (f : BPort → BPort) : State := s.setBports (SMap.put {} p (f (s.bport p)) s.bports)

/-- The free receive frames that a sent frame reports: none while every reduce context is in use (R337). -/
def State.rxCredit (s : State) : Nat := if 64 ≤ (s.reds.filter (fun r => r.owner.isNone)).length then 0 else 32

/-- Puts a frame out on a port. -/
def State.emit (s : State) (p : Nat) (f : Frame) : State :=
  let b := s.bport p
  let f := { f with lseq := b.nextLseq, ack := b.lastRx, credit := s.rxCredit }
  (s.updBport p (fun b => { b with nextLseq := (b.nextLseq + 1) % 2 ^ 24, credit := b.credit - 1, unacked := b.unacked ++ [{ lseq := f.lseq, frame := f }] })).setBtx (s.btx ++ [(p, f)])

def isReduceFrame (f : Frame) : Bool := f.ftype == 6 || f.ftype == 7

/-- A frame may go (R328): a REDUCE frame while CREDIT is above 0, any other while one of the peer's 32 receive frames is free but for those that it
withholds from REDUCE (DEDUCED, log 71). -/
def portTakes (b : BPort) (f : Frame) : Bool := b.trained && (if isReduceFrame f then b.credit != 0 else decide (b.unacked.length < 32))

/-- The frames that wait ahead of `f`: REDUCE frames let every other go ahead (R328). -/
def portAhead (b : BPort) (f : Frame) : List Frame := b.waiting.filter (fun x => isReduceFrame f || !isReduceFrame x)

/-- Sends a frame on a port, or keeps it until it may go (R328). -/
def State.sendOn (s : State) (p : Nat) (f : Frame) : State :=
  let b := s.bport p
  if portTakes b f && (portAhead b f).isEmpty then s.emit p f else s.updBport p (fun b => { b with waiting := b.waiting ++ [f] })

/-- The port on which frames for an instance leave: its primary route, else its alternate, when that serves (R329). -/
def State.route (s : State) (dst : Nat) : Option Nat :=
  let a := s.get O.routePrimary dst
  let b := s.get O.routeAlternate dst
  if a < 48 ∧ s.serves 7 a then some a else if b < 48 ∧ s.serves 7 b then some b else none

/-- A frame of this instance. -/
def State.frame (s : State) (ftype dst arg0 arg1 : Nat) (payload : List Nat) : Frame :=
  { ftype := ftype, hops := 0, pwords := payload.length, group := 0, src := s.group.self, dst := dst, lseq := 0, credit := 0, ack := 0
    arg0 := arg0 % 2 ^ 64, arg1 := arg1 % 2 ^ 64, payload := payload, rsv := 0 }

/-- Sends a routed frame; it is lost when no route serves. -/
def State.sendTo (s : State) (f : Frame) : State :=
  match s.route f.dst with
  | some p => s.sendOn p f
  | none => s

/-- The frames that a port leaving service holds go out again on the routes that serve (R342). -/
def State.reroute (s : State) (p : Nat) : State :=
  let b := s.bport p
  let l := (b.unacked.map (·.frame) ++ b.waiting).filter (fun f => decide (4 ≤ f.ftype))
  l.foldl (fun s f => s.sendTo f) (s.updBport p (fun b => { b with unacked := [], waiting := [], calT1 := none }))

/-- The time base as frames carry it: 48 bits of the count and the fraction (R327). -/
def State.stamp (s : State) : Nat := s.tb / 2 ^ 32 % 2 ^ 64

/-- The time parent is the neighbour on the route to the time master (R330); the master has none. -/
def State.timePort (s : State) : Option Nat :=
  if s.get O.bgMaster 0 = s.group.self then none else s.route (s.get O.bgMaster 0)

/-- Starts a calibration exchange on a port (R330). -/
def State.calibrate (s : State) (p : Nat) : State :=
  (s.updBport p (fun b => { b with calT1 := some s.stamp })).sendOn p (s.frame 2 0 s.stamp 0 [])

/-- Runs an operation that may change the routes; a member whose time parent changes calibrates against the new one at once (R342). -/
def State.keepParent (s : State) (f : State → State) : State :=
  let s' := f s
  match s'.timePort with
  | some p => if s.timePort = some p then s' else s'.calibrate p
  | none => s'

/-- The member tells its group that it is lost (R335): cause 1 stopped, 3 SLEEP. -/
def State.tellLost (s : State) (cause : Nat) : State :=
  let g := s.group
  if g.size ≤ 1 then s
  else
    let own := g.self - g.base
    let live := (List.range g.size).filter (fun r => r != own && !(r ∈ g.lost) && !(r ∈ g.lostNext))
    match live.head? with
    | none => s
    | some m =>
      if own < m then
        live.foldl (fun s r => s.sendTo (s.frame 8 (g.base + r) own cause [])) s
      else s.sendTo (s.frame 8 (g.base + m) own cause [])

/-- The block stops (R300): BLOCK_STATE reads 1. The event of the cause is reported first, and the group is told (R301, R335). -/
def State.stop (s : State) (code kind cause : Nat) : State :=
  ((s.report { code := code, unitKind := kind, payload := genPay 0 cause 0 }).setObj O.blockState 1).tellLost 1

/-- Logs F_FENCED and counts the fence (R297). -/
def State.logFence (s : State) (kind u cause item : Nat) (c : Ctx) : State :=
  (s.report { code := 0x0902, unitKind := kind, unit := u, queue := c.queue, tenant := c.tenant, payload := c.pay.getD (genPay c.seq cause item) }).bump
    O.fences 0 32 1

/-- Fences a unit for a lasting fault (R294, R297, Table 11.2): routines that use an array, Dome bank or Lantern restart; an array whose
Dome bank is fenced serves on the fall-back path; the loss of the last memory port stops the block; a test of the unit ends aborted. -/
def State.fence (s : State) (kind u cause item : Nat) (c : Ctx) : State :=
  let users := fun (r : Rout) => s.uses (if kind = 5 then 5 else 2) u r
  let s := if kind = 2 ∨ kind = 4 ∨ kind = 5 then s.updRouts users (fun r => { r with phase := .restart }) else s
  let s := if kind = 7 then s.keepParent (fun s => (s.setUnit 7 u 1).reroute u) else s.setUnit kind u 1
  let s := if kind = 4 ∧ s.get O.arrayState u = 0 then s.put O.arrayState u 3 else s
  let s := (s.logFence kind u cause item c).found kind u
  let s := match s.test with
    | some t =>
      if t.kind = kind ∧ t.unit = u then
        (((s.setTest none).setIjtag (if t.net then 4 else s.ijtag)).setObj O.testState 4).setObj O.testResult 0x0200FFFF
      else s
    | none => s
  if kind != 6 then s
  else
    let s := s.movePort u
    if s.ports.isEmpty then s.stop 0x090A 6 cause else s

/-- A lasting fault of column `col` of array `u` (R132): the column is bypassed when none is, else the array is fenced. -/
def State.fenceColumn (s : State) (u col cause item : Nat) (c : Ctx) : State :=
  if col < 8 ∧ s.get O.bypassedColumn u = 0xFF then
    let s := (s.put O.bypassedColumn u col).put O.arrayColumns u 7
    ((s.updRouts (s.uses 2 u) (fun r => { r with phase := .restart })).logFence 3 (u * 8 + col) cause item c).found 3 (u * 8 + col)
  else s.fence 2 u cause item c

/-- A test drains a unit that routines use: no routine starts or resumes (log 40). -/
def State.testDrains (s : State) : Bool :=
  match s.test with
  | some t => s.obj O.testState == 1 && (t.kind == 2 || t.kind == 4 || t.kind == 5)
  | none => false

/-- A link of the runner ring is bypassed (Table 11.2); RING_STATE counts the links out, and the ring carries nothing with two out (R298). -/
def State.bypassLink (s : State) (link cause : Nat) : State :=
  if link ∈ s.links then s
  else
    let s := (s.logFence 13 link cause 0 {}).setLinks (link :: s.links)
    s.setObj O.ringState (min 2 s.links.length)

/-- Another unit of the kind serves; for a segment, its partner. -/
def State.othersServe (s : State) (kind u : Nat) : Bool :=
  if kind = 1 then s.serves 1 (u ^^^ 1) else (List.range (unitCount s kind)).any (fun v => v != u && s.serves kind v)

/-- A transient fault (R294): counted, logged, and lasting at TRANSIENT_LIMIT within the bell (R295). `retryOid`: the unit's own counter. -/
def State.transient (s : State) (kind u cause item : Nat) (retryOid : Option Nat) (c : Ctx) : State :=
  let s := s.bump O.transients 0 64 1
  let s := match retryOid with
    | some o => s.bump o u 32 1
    | none => s
  let s := s.report { code := 0x0901, unitKind := kind, unit := u, queue := c.queue, tenant := c.tenant, payload := c.pay.getD (genPay c.seq cause item) }
  let k := kind * 65536 + u
  let n := SMap.look 0 s.transBell k + 1
  let s := s.setTransBell (SMap.put 0 k n s.transBell)
  let lim := s.obj O.transientLimit
  if lim = 0 ∨ n < lim then s
  else if kind = 13 then s.bypassLink u 9
  else if s.inService kind u && (kind == 1 || kind == 2 || kind == 4 || kind == 5 || kind == 6 || kind == 7) && s.othersServe kind u then
    s.fence kind u 9 item { c with pay := none }
  else s

/-- An internal operation of a singular unit fails its checks (R293, R294): it is repeated, or the block stops with `code` (R300). -/
def State.singular (s : State) (kind code : Nat) (chk : Chk) : State :=
  match chk with
  | .transient cause _ => s.transient kind 0 cause 0 none {}
  | .lasting cause _ _ => s.stop code kind cause
  | _ => s

/-- The parity of a cached entry fails (Table 11.2): the entry is dropped from its cache and walked again; a cache is never fenced. -/
def State.twigFault (s : State) (kind unit tenant tid : Nat) (c : Ctx) : State :=
  let hit := fun (t : TwigEntry) => t.kind == kind && t.unit == unit && t.tenant == tenant && t.tid == tid
  if s.twigs.any hit then (s.setTwigs (s.twigs.filter (fun t => !hit t))).transient 8 0 1 0 none c else s

end Sys2Proof.Machine
end

