-- ==== Sys2Proof/Machine/Operands.lean ====
section
/-! DEFINITION. The operand forms of the commands: a doorbell word (Table 9.1), an object of the dictionary named by an index and a sub-index
(R349), and a unit or port named by its number, which the configuration has or has not (Table 1.2, Table 15.1). -/

namespace Sys2Proof

/-- Fields of a doorbell word (Table 9.1). -/
def dbKind (w : Nat) : Nat := bits w 62 2
def dbRsv (w : Nat) : Nat := bits w 50 12
def dbQueue (w : Nat) : Nat := bits w 32 18
def dbIndex (w : Nat) : Nat := bits w 0 32

/-- A doorbell word with its reserved field 0. -/
def dbWord (kind q index : Nat) : Nat := index + q * 2 ^ 32 + kind * 2 ^ 62

/-- The doorbell word is a TAIL, or an IRQ_ACK, of legal form (R233). -/
def dbTail (w : Nat) : Bool := dbKind w == 0 && dbRsv w == 0
def dbAck (w : Nat) : Bool := dbKind w == 1 && dbRsv w == 0 && dbIndex w == 0

/-- Opcodes that Tables 7.5 and 7.6 name (R182). -/
def lanOpcode (o : Nat) : Bool :=
  decide (o ≤ 0x0D) || (decide (0x10 ≤ o) && decide (o ≤ 0x1C)) || (decide (0x20 ≤ o) && decide (o ≤ 0x22)) || (decide (0x24 ≤ o) && decide (o ≤ 0x27)) ||
    (decide (0x30 ≤ o) && decide (o ≤ 0x34)) || o == 0x38 || o == 0x3C || o == 0x3D || (decide (0x40 ≤ o) && decide (o ≤ 0x62))

/-- The object ID of an index and a sub-index. -/
def oidOf (index sub : Nat) : Nat := index * 256 + sub

end Sys2Proof

namespace Sys2Proof.Machine

/-- What a command on unit `u` of a kind of Table 11.6 does: the configuration has `n` of them, and nothing can arrive at one that it has not. -/
def onUnit (kind n u : Nat) (s : State) : Host.Outcome State Fault Refusal := if u < n then .next s else .fault (.noSuchUnit kind u)

/-- A command on a segment, on a memory port and on a Belfry port. -/
def onSeg (s : State) (u : Nat) (t : State) : Host.Outcome State Fault Refusal := onUnit 1 s.nSeg u t
def onPort (s : State) (u : Nat) (t : State) : Host.Outcome State Fault Refusal := onUnit 6 s.nPort u t
def onBport (u : Nat) (t : State) : Host.Outcome State Fault Refusal := onUnit 7 48 u t

end Sys2Proof.Machine
end

