-- ==== Sys2Proof/Machine/Program.lean ====
section
/-! DEFINITION. The words of a routine's program: a Lantern instruction is a 64-bit word (R182, Tables 7.3 to 7.6), an array instruction a 128-bit word
(R112, Tables 5.1 to 5.5). `lanInstr` and `arrInstr` read a word, `lanWord` and `arrWord` write it. -/

namespace Sys2Proof

/-! Reading. -/

/-- The fields of the vector format (Table 7.3). -/
def VF.ofWord (w : Nat) : VF :=
  { d := bits w 51 5, a := bits w 46 5, b := bits w 41 5, c := bits w 36 5, ms := bits w 33 3, men := bits w 32 1, cnt := bits w 19 13
    sa := bits w 15 4, f1 := bits w 10 5, f2 := bits w 5 5, ovf := bits w 4 1, rsv := bits w 0 4 }

/-- The fields of the scalar format (Table 7.4). -/
def SF.ofWord (w : Nat) : SF :=
  { sd := bits w 52 4, sa := bits w 48 4, sb := bits w 44 4, ms := bits w 41 3, rsv := bits w 32 9, imm := bits w 0 32 }

/-- FSET (Table 5.2). -/
def FsetF.ofWord (w : Nat) : FsetF :=
  { side := bits w 123 1, fmt := bits w 118 5, xmode := bits w 116 2, xfmt := bits w 111 5, rsv := bits w 32 79, xtid := bits w 0 32 }

/-- PASS (Table 5.3); the two reserved fields stand one above the other. -/
def PassF.ofWord (w : Nat) : PassF :=
  { group := bits w 118 6, slot := bits w 113 5, dtile := bits w 104 9, last := bits w 103 1 == 1, ahold := bits w 102 1 == 1, kg := bits w 64 20
    rsv := bits w 84 18 * 2 ^ 64 + bits w 0 64 }

/-- GOPEN (Table 5.4). -/
def GopenF.ofWord (w : Nat) : GopenF :=
  { group := bits w 118 6, mode := bits w 116 2, dbase := bits w 107 9, dcountM1 := bits w 98 9, tcolsM1 := bits w 89 9, outNM1 := bits w 73 16
    row0 := bits w 52 21, col0 := bits w 36 16, rsv := bits w 32 4, outTid := bits w 0 32 }

/-- GDRAIN (Table 5.5). -/
def GdrainF.ofWord (w : Nat) : GdrainF := { group := bits w 118 6, form := bits w 116 2, close := bits w 115 1 == 1, rsv := bits w 0 115 }

/-- The vector instruction of an opcode (Table 7.5). -/
def vecInstr (i : LIss) (f : VF) : Nat → Option Instr
  | 0x00 => some (.vadd i f)
  | 0x01 => some (.vsub i f)
  | 0x02 => some (.vmul i f)
  | 0x03 => some (.vfma i f)
  | 0x04 => some (.vdiv i f)
  | 0x05 => some (.vsqrt i f)
  | 0x06 => some (.vmin i f)
  | 0x07 => some (.vmax i f)
  | 0x08 => some (.vabs i f)
  | 0x09 => some (.vneg i f)
  | 0x0A => some (.vadds i f)
  | 0x0B => some (.vmuls i f)
  | 0x0C => some (.vfmas i f)
  | 0x0D => some (.vpadd i f)
  | 0x10 => some (.viadd i f)
  | 0x11 => some (.visub i f)
  | 0x12 => some (.vimul i f)
  | 0x13 => some (.viaddsat i f)
  | 0x14 => some (.vand i f)
  | 0x15 => some (.vor i f)
  | 0x16 => some (.vxor i f)
  | 0x17 => some (.vshl i f)
  | 0x18 => some (.vsra i f)
  | 0x19 => some (.vsrl i f)
  | 0x1A => some (.viota i f)
  | 0x1B => some (.vmov i f)
  | 0x1C => some (.vbcast i f)
  | 0x20 => some (.vcmp i f)
  | 0x21 => some (.vicmp i f)
  | 0x22 => some (.vsel i f)
  | 0x24 => some (.mand i f)
  | 0x25 => some (.mor i f)
  | 0x26 => some (.mnot i f)
  | 0x27 => some (.many i f)
  | 0x30 => some (.vrsum i f)
  | 0x31 => some (.vrmax i f)
  | 0x32 => some (.vrmin i f)
  | 0x33 => some (.vrcsum i f)
  | 0x34 => some (.vrisum i f)
  | 0x38 => some (.vcvt i f)
  | 0x3C => some (.vld i f)
  | 0x3D => some (.vst i f)
  | _ => none

/-- The scalar or control instruction of an opcode (Table 7.6). -/
def scaInstr (i : LIss) (f : SF) : Nat → Option Instr
  | 0x40 => some (.sli i f)
  | 0x41 => some (.slih i f)
  | 0x42 => some (.saddi i f)
  | 0x43 => some (.sadd i f)
  | 0x44 => some (.ssub i f)
  | 0x45 => some (.smul i f)
  | 0x46 => some (.sshl i f)
  | 0x47 => some (.sshr i f)
  | 0x48 => some (.sfadd i f)
  | 0x49 => some (.sfsub i f)
  | 0x4A => some (.sfmul i f)
  | 0x4B => some (.sfdiv i f)
  | 0x4C => some (.sfsqrt i f)
  | 0x4D => some (.scmpm i f)
  | 0x4E => some (.ssel i f)
  | 0x4F => some (.rdp i f)
  | 0x50 => some (.setvl i f)
  | 0x51 => some (.setvli i f)
  | 0x52 => some (.modew i f)
  | 0x53 => some (.moder i f)
  | 0x54 => some (.loop i f)
  | 0x55 => some (.endloop i f)
  | 0x56 => some (.brk i f)
  | 0x57 => some (.boundary i f)
  | 0x58 => some (.bar i f)
  | 0x59 => some (.sched i f)
  | 0x5A => some (.lnRet i f)
  | 0x5B => some (.pivf i f)
  | 0x5C => some (.lnEnd i f)
  | 0x5D => some (.lnStop i f)
  | 0x5E => some (.astr i f)
  | 0x5F => some (.aiss i f)
  | 0x60 => some (.await i f)
  | 0x61 => some (.aflg i f)
  | 0x62 => some (.lnNop i f)
  | _ => none

/-- What a Lantern's word says for the issue `i`: the opcode's instruction with the word's fields, else no instruction of the tables (R182, R183). -/
def lanInstr (i : LIss) (w : Nat) : Instr :=
  match vecInstr i (VF.ofWord w) (bits w 56 8), scaInstr i (SF.ofWord w) (bits w 56 8) with
  | some c, _ => c
  | none, some c => c
  | none, none => .fLanternIllegal i w

/-- What an array's word says for the issue `x` (Table 5.1). -/
def arrInstr (x : AIss) (w : Nat) : Instr :=
  match bits w 124 4 with
  | 0 => .arrNop x (bits w 0 124)
  | 1 => .fset x (FsetF.ofWord w)
  | 2 => .pass x (PassF.ofWord w)
  | 3 => .gopen x (GopenF.ofWord w)
  | 4 => .gdrain x (GdrainF.ofWord w)
  | op => .fSpireOp x op

/-- The instruction that Lantern `l` of an image issues next: the word at PC. Beyond the code section there is none (DESIGN CHOICE, log 59). -/
def Image.lanNext (g : Image) (i : LIss) (l : Lan) : Option Instr := (g.code[l.pc]?).map (lanInstr i)

/-- The instruction at the head of an array's queue (R204). -/
def Image.arrNext (g : Image) (x : AIss) (a : LArr) : Option Instr :=
  match a.queued with
  | .ins _ n :: _ => (g.arr[n]?).map (arrInstr x)
  | _ => none

/-! Writing. -/

def VF.word (opc : Nat) (f : VF) : Nat :=
  opc * 2 ^ 56 + f.d * 2 ^ 51 + f.a * 2 ^ 46 + f.b * 2 ^ 41 + f.c * 2 ^ 36 + f.ms * 2 ^ 33 + f.men * 2 ^ 32 + f.cnt * 2 ^ 19 + f.sa * 2 ^ 15 +
    f.f1 * 2 ^ 10 + f.f2 * 2 ^ 5 + f.ovf * 2 ^ 4 + f.rsv

def SF.word (opc : Nat) (f : SF) : Nat :=
  opc * 2 ^ 56 + f.sd * 2 ^ 52 + f.sa * 2 ^ 48 + f.sb * 2 ^ 44 + f.ms * 2 ^ 41 + f.rsv * 2 ^ 32 + f.imm

def FsetF.word (f : FsetF) : Nat :=
  2 ^ 124 + f.side * 2 ^ 123 + f.fmt * 2 ^ 118 + f.xmode * 2 ^ 116 + f.xfmt * 2 ^ 111 + f.rsv * 2 ^ 32 + f.xtid

def PassF.word (f : PassF) : Nat :=
  2 * 2 ^ 124 + f.group * 2 ^ 118 + f.slot * 2 ^ 113 + f.dtile * 2 ^ 104 + f.last.toNat * 2 ^ 103 + f.ahold.toNat * 2 ^ 102 + f.rsv / 2 ^ 64 * 2 ^ 84 +
    f.kg * 2 ^ 64 + f.rsv % 2 ^ 64

def GopenF.word (f : GopenF) : Nat :=
  3 * 2 ^ 124 + f.group * 2 ^ 118 + f.mode * 2 ^ 116 + f.dbase * 2 ^ 107 + f.dcountM1 * 2 ^ 98 + f.tcolsM1 * 2 ^ 89 + f.outNM1 * 2 ^ 73 + f.row0 * 2 ^ 52 +
    f.col0 * 2 ^ 36 + f.rsv * 2 ^ 32 + f.outTid

def GdrainF.word (f : GdrainF) : Nat := 4 * 2 ^ 124 + f.group * 2 ^ 118 + f.form * 2 ^ 116 + f.close.toNat * 2 ^ 115 + f.rsv

/-- The word of a Lantern instruction, with its issue; none for another command. -/
def lanWord : Instr → Option (LIss × Nat)
  | .vadd i f => some (i, f.word 0x00)
  | .vsub i f => some (i, f.word 0x01)
  | .vmul i f => some (i, f.word 0x02)
  | .vfma i f => some (i, f.word 0x03)
  | .vdiv i f => some (i, f.word 0x04)
  | .vsqrt i f => some (i, f.word 0x05)
  | .vmin i f => some (i, f.word 0x06)
  | .vmax i f => some (i, f.word 0x07)
  | .vabs i f => some (i, f.word 0x08)
  | .vneg i f => some (i, f.word 0x09)
  | .vadds i f => some (i, f.word 0x0A)
  | .vmuls i f => some (i, f.word 0x0B)
  | .vfmas i f => some (i, f.word 0x0C)
  | .vpadd i f => some (i, f.word 0x0D)
  | .viadd i f => some (i, f.word 0x10)
  | .visub i f => some (i, f.word 0x11)
  | .vimul i f => some (i, f.word 0x12)
  | .viaddsat i f => some (i, f.word 0x13)
  | .vand i f => some (i, f.word 0x14)
  | .vor i f => some (i, f.word 0x15)
  | .vxor i f => some (i, f.word 0x16)
  | .vshl i f => some (i, f.word 0x17)
  | .vsra i f => some (i, f.word 0x18)
  | .vsrl i f => some (i, f.word 0x19)
  | .viota i f => some (i, f.word 0x1A)
  | .vmov i f => some (i, f.word 0x1B)
  | .vbcast i f => some (i, f.word 0x1C)
  | .vcmp i f => some (i, f.word 0x20)
  | .vicmp i f => some (i, f.word 0x21)
  | .vsel i f => some (i, f.word 0x22)
  | .mand i f => some (i, f.word 0x24)
  | .mor i f => some (i, f.word 0x25)
  | .mnot i f => some (i, f.word 0x26)
  | .many i f => some (i, f.word 0x27)
  | .vrsum i f => some (i, f.word 0x30)
  | .vrmax i f => some (i, f.word 0x31)
  | .vrmin i f => some (i, f.word 0x32)
  | .vrcsum i f => some (i, f.word 0x33)
  | .vrisum i f => some (i, f.word 0x34)
  | .vcvt i f => some (i, f.word 0x38)
  | .vld i f => some (i, f.word 0x3C)
  | .vst i f => some (i, f.word 0x3D)
  | .sli i f => some (i, f.word 0x40)
  | .slih i f => some (i, f.word 0x41)
  | .saddi i f => some (i, f.word 0x42)
  | .sadd i f => some (i, f.word 0x43)
  | .ssub i f => some (i, f.word 0x44)
  | .smul i f => some (i, f.word 0x45)
  | .sshl i f => some (i, f.word 0x46)
  | .sshr i f => some (i, f.word 0x47)
  | .sfadd i f => some (i, f.word 0x48)
  | .sfsub i f => some (i, f.word 0x49)
  | .sfmul i f => some (i, f.word 0x4A)
  | .sfdiv i f => some (i, f.word 0x4B)
  | .sfsqrt i f => some (i, f.word 0x4C)
  | .scmpm i f => some (i, f.word 0x4D)
  | .ssel i f => some (i, f.word 0x4E)
  | .rdp i f => some (i, f.word 0x4F)
  | .setvl i f => some (i, f.word 0x50)
  | .setvli i f => some (i, f.word 0x51)
  | .modew i f => some (i, f.word 0x52)
  | .moder i f => some (i, f.word 0x53)
  | .loop i f => some (i, f.word 0x54)
  | .endloop i f => some (i, f.word 0x55)
  | .brk i f => some (i, f.word 0x56)
  | .boundary i f => some (i, f.word 0x57)
  | .bar i f => some (i, f.word 0x58)
  | .sched i f => some (i, f.word 0x59)
  | .lnRet i f => some (i, f.word 0x5A)
  | .pivf i f => some (i, f.word 0x5B)
  | .lnEnd i f => some (i, f.word 0x5C)
  | .lnStop i f => some (i, f.word 0x5D)
  | .astr i f => some (i, f.word 0x5E)
  | .aiss i f => some (i, f.word 0x5F)
  | .await i f => some (i, f.word 0x60)
  | .aflg i f => some (i, f.word 0x61)
  | .lnNop i f => some (i, f.word 0x62)
  | .fLanternIllegal i w => some (i, w)
  | _ => none

/-- The word of an array instruction, with its issue; none for another command. A reserved OP is written with its other bits 0. -/
def arrWord : Instr → Option (AIss × Nat)
  | .arrNop x rsv => some (x, rsv)
  | .fset x f => some (x, f.word)
  | .pass x f => some (x, f.word)
  | .gopen x f => some (x, f.word)
  | .gdrain x f => some (x, f.word)
  | .fSpireOp x op => some (x, op * 2 ^ 124)
  | _ => none

end Sys2Proof
end

