-- ==== Sys2Proof/Machine/Charge.lean ====
section
/-! DEFINITION. Ledgers and charges of admission (R217 to R219, Tables 8.1 and 8.2): what each item charges, whether it fits, and what it
pays. -/

namespace Sys2Proof

/-! Ledger numbers: SEG(s) is s. -/
def ledArr (j : Nat) : Nat := 10000 + j
def ledLan (l : Nat) : Nat := 11000 + l
def ledPrd : Nat := 12000
def ledPwr : Nat := 12001
def ledRing : Nat := 12002
def ledItems : Nat := 12003

/-- BELL_MAX_ITEMS (Table 8.1). -/
def maxItems : Nat := 65536

def ledBudget (f l : Nat) : Nat := if l = ledItems then maxItems else f

abbrev Charge := List (Nat × Nat)

/-- An item fits a bell (R219). -/
def fits (f : Nat) (used : SMap Nat) (ch : Charge) : Bool :=
  if ch.any (fun (l, c) => decide (ledBudget f l < c)) then ch.all (fun (l, _) => SMap.look 0 used l == 0)
  else ch.all (fun (l, c) => decide (SMap.look 0 used l + c ≤ ledBudget f l))

/-- Pays as much of the charges as the ledgers have left: the use after it, and what remains. -/
def payAll (f : Nat) : Charge → SMap Nat → SMap Nat × SMap Nat
  | [], used => (used, [])
  | (l, c) :: ch, used =>
    let u := SMap.look 0 used l
    let p := min c (ledBudget f l - u)
    let (used, rest) := payAll f ch (SMap.put 0 l (u + p) used)
    (used, SMap.put 0 l (SMap.look 0 rest l + (c - p)) rest)

/-- Bytes of an element of SCALE_TID (Table 3.3, Table 10.4). -/
def ConvD.scaleU (c : ConvD) : Nat := if c.isRequant then 8 else if c.scaleSrc == 3 then 1 else 4

/-- Elements of SCALE_TID that the descriptor covers. -/
def ConvD.scaleN (c : ConvD) : Nat :=
  if c.isRequant then c.rowLen
  else match c.scaleSrc with
    | 1 => c.rows
    | 2 => 1
    | 3 => if c.blockDir = 0 then c.rows * ceilDiv c.rowLen c.blockSize else ceilDiv c.rows c.blockSize * c.rowLen
    | _ => 0

/-- Bytes of `n` elements of a format; a reserved code names no width. -/
def fmtBytes (code n : Nat) : Nat :=
  match Fmt.ofCode code with
  | some f => ceilDiv (n * f.width) 8
  | none => 0

/-- The beats of a conversion's view (R87). -/
def ConvD.beats (c : ConvD) : Nat := if c.rowTiles then c.rows * ceilDiv c.rowLen 64 else c.tc * c.rows

/-- The extra cycles per tile of the buffered modes (Table 4.2); a refused BLOCK_SIZE is priced as 64 or less (R218). -/
def ConvD.tileExtra (c : ConvD) : Nat :=
  if c.op != .quant then 0
  else if c.rowTiles then (if c.tc = 1 then 4 else 16)
  else if c.scaleSrc == 3 && c.blockDir == 1 then (if c.blockSize = 128 ∨ c.blockSize = 256 then 16 else 4)
  else 0

/-- H: the cycles of the descriptor's tiles. -/
def ConvD.cycles (c : ConvD) : Nat := (if c.strict then 8 else 1) * c.beats + c.tileExtra * c.tiles

/-- Bytes of the scales that a QUANT writes or a DEQUANT reads (Table 3.3). -/
def ConvD.scaleBytes (c : ConvD) : Nat :=
  if c.op != .quant && c.op != .dequant then 0
  else match c.scaleSrc with
    | 1 => 4 * c.rows
    | 2 => 4
    | 3 => if blockOk c.blockSize then c.scaleN else 0
    | _ => 0

/-- Bytes read and written by a conversion, its completion record among them (R218). -/
def ConvD.bytesRW (c : ConvD) : Nat × Nat :=
  let n := c.rows * c.rowLen
  let side := if c.escEn then 512 * c.tiles else 0
  let rd := (if c.srcStream then 0 else fmtBytes c.srcFmt n) + (if c.op = .dequant then c.scaleBytes + side else 0) +
    (if c.op = .quant ∧ c.reqPerCol then 8 * c.rowLen else 0)
  let wr := (if c.op = .stats ∨ c.dstStream then 0 else fmtBytes c.dstFmt n) + (if c.op = .quant then c.scaleBytes + side else 0) +
    (if c.statsEn then 256 * c.tiles else 0) + 32
  (rd, wr)

/-- What a capture's re-read sweep reads: the destination, its scales and its side list (R152). -/
def ConvD.capBytes (c : ConvD) : Nat :=
  fmtBytes c.dstFmt (c.rows * c.rowLen) + (if c.op = .quant then c.scaleBytes + (if c.escEn then 512 * c.tiles else 0) else 0)

/-- T: the kept tile slots of a GRAM, one for each 128 by 8 output tile with an entry on or below the diagonal (R154). -/
def gramSlots (dim : Nat) : Nat := sumN ((List.range (ceilDiv dim 128)).map (fun rt => ceilDiv (min (128 * (rt + 1)) dim) 8))

/-- The counts of the units that ledgers are kept for. -/
structure Units where
  seg : Nat
  arr : Nat
  lan : Nat
  port : Nat

def byteCharge (u : Units) (rd wr : Nat) : Charge :=
  (if rd = 0 then [] else [(ledPrd, ceilDiv rd (u.port * 128))]) ++ (if wr = 0 then [] else [(ledPwr, ceilDiv wr (u.port * 128))])

/-- The charge of a conversion; `chDim` is the DIM of the GRAM that holds the channel open for the bell (R148). -/
def ConvD.charge (c : ConvD) (u : Units) (chDim : Option Nat) : Charge :=
  let per := ceilDiv c.cycles c.segSpan
  let segs := if c.segSpan = 0 then [] else
    (List.range (min c.segSpan (u.seg - c.segBase))).map (fun i => (c.segBase + i, per))
  let cap := if c.capture = 0 then []
    else (ledRing, ceilDiv c.beats 4) :: (match chDim with
      | none => []
      | some d =>
        let share := ceilDiv (min (gramSlots d) (512 * u.arr) * c.rows) (16 * u.arr) + 21
        (List.range u.arr).map (fun j => (ledArr j, share)))
  let (rd, wr) := c.bytesRW
  (ledItems, 1) :: segs ++ cap ++ byteCharge u rd wr

/-- The smallest level that covers `g` ranks: ceil(log2 g). -/
def clog2 (g : Nat) : Nat := if g ≤ 1 then 0 else Nat.log2 (g - 1) + 1

def RedD.bytesRW (r : RedD) : Nat × Nat :=
  (4 * r.count * (if r.inPair then 2 else 1), 4 * r.count * (if r.outPair then 2 else 1) + 32)

def RedD.charge (r : RedD) (u : Units) (g : Nat) : Charge :=
  let per := ceilDiv r.count (256 * u.lan) * (clog2 g + 1)
  let (rd, wr) := r.bytesRW
  (ledItems, 1) :: (List.range u.lan).map (fun l => (ledLan l, per)) ++ byteCharge u rd wr

/-- One iteration of a routine whose image header gives ITER_BOUND, ARRAYS and LANTERNS_USED. -/
def iterCharge (u : Units) (bound arrs lans : Nat) : Charge :=
  (ledItems, 1) :: (List.range (min arrs u.arr)).map (fun j => (ledArr j, bound + 21)) ++
    (if bound = 0 then [] else (List.range (min lans u.lan)).map (fun l => (ledLan l, bound)))

/-- The sweep item of a GRAM's rest; none when its tile slots fit the Dome. -/
def sweepCharge (u : Units) (dim tokens bytes : Nat) : Option Charge :=
  let t := gramSlots dim
  if t ≤ 512 * u.arr then none
  else some ((ledItems, 1) :: (List.range u.arr).map (fun j => (ledArr j, ceilDiv ((t - 512 * u.arr) * (4 * ceilDiv tokens 64)) u.arr + 21)) ++
    byteCharge u bytes 0)

end Sys2Proof
end

