-- ==== Sys2Proof/Machine/Mem.lean ====
section
/-! DEFINITION. The Tensor Map walk and twig caches (R273 to R283), element addresses (R275, R276) and the issue of memory
requests (R284, R285, R288). -/

namespace Sys2Proof.Machine

/-! The walk. -/

def mtypeDevice (attr : Nat) : Bool := attr % 4 == 2

/-- A directory entry that stops a walk under R278. -/
def dirBad (e : Nat) : Bool := !bitAt e 63 || bits e 56 7 != 0 || bits e 0 12 != 0

/-- A leaf entry that stops a walk under R278, seen alone; `needBase` when a VIEW named it. -/
def leafBad (e : Nat) (needBase : Bool) : Bool :=
  let w0 := dw e 0
  let kind := bits w0 29 2
  let fmt := bits w0 24 5
  let attr := bits w0 16 8
  let rows := dw e 32
  let rl := dw e 36
  !bitAt w0 31 || decide (2 ≤ kind) || (needBase && kind != 0) || bits w0 0 16 != 0 || bits e (64 + 56) 8 != 0 || bits e (128 + 48) 16 != 0 ||
    bits e (192 + 40) 24 != 0 || bits e (256 + 22) 10 != 0 || bits e (288 + 17) 15 != 0 || bits e (320 + 40) 24 != 0 ||
    bits e (384 + 40) 24 != 0 || bits e 448 64 != 0 ||
    decide (2097152 < bits rows 0 22) || decide (65536 < bits rl 0 17) || ((bits rows 0 22 == 0) != (bits rl 0 17 == 0)) ||
    (if kind = 1 then fmt != 0 || attr != 0 || bits e 64 56 != 0 || bits e 128 48 != 0 || dw e 4 == 0
     else decide (9 < fmt) || bitAt attr 7 || attr % 4 == 3 || bits e 64 56 % 128 != 0 || bits e 128 48 == 0 ||
       decide (2 ^ 56 < bits e 64 56 + bits e 128 48) || dw e 4 != 0)

/-- Where a walk stops: at a fault, or for want of its next read. -/
inductive WStop where
  | fail (code : Nat)
  | need (a n : Nat)

/-- The next read of a walk, from the answers not yet used; one that would fall in a device window is not issued (R279), and one that failed twice
is F_WALK (R277). -/
def State.walkRead (s : State) (a n : Nat) : List (Option Nat) → Except WStop (Nat × List (Option Nat))
  | some v :: l => .ok (v, l)
  | none :: _ => .error (.fail 0x0602)
  | [] => .error (if s.inWindow a n then .fail 0x0603 else .need a n)

/-- Steps 2 to 5 of R277: the leaf entry of a tensor ID, and the answers that are left. -/
def State.walkLeaf (s : State) (w : WalkRt) (tid : Nat) (needBase : Bool) (ans : List (Option Nat)) : Except WStop (Nat × List (Option Nat)) :=
  let dirI := tid / 4096
  let a := w.dirBase + 8 * dirI
  if 2 ^ w.dirLog2 ≤ dirI ∨ 2 ^ 56 < a + 8 then .error (.fail 0x0601)
  else do
    let (d, ans) ← s.walkRead a 8 ans
    if dirBad d then throw (.fail 0x0601)
    let b := (d / 4096 % 2 ^ 44) * 4096 + 64 * (tid % 4096)
    if 2 ^ 56 < b + 64 then throw (.fail 0x0601)
    let (e, ans) ← s.walkRead b 64 ans
    if leafBad e needBase then throw (.fail 0x0601)
    return (e, ans)

/-- A walk as far as its answers go (R277): the merged entry, its fault, or the read it needs. -/
def State.walk (s : State) (w : WalkRt) : Except WStop TmEntry :=
  if mtypeDevice w.attr then .error (.fail 0x0603)
  else do
    let (e, ans) ← s.walkLeaf w w.tid false w.ans
    let view := bits (dw e 0) 29 2 == 1
    let bt := if view then dw e 4 else w.tid
    let (b, _) ← if view then s.walkLeaf w bt true ans else pure (e, ans)
    let r : TmEntry :=
      { base := bt, fmt := bits (dw b 0) 24 5, attr := bits (dw b 0) 16 8, addr := bits b 64 56, extent := bits b 128 48
        offset := bits e 192 40, rows := bits (dw e 32) 0 22, rowLen := bits (dw e 36) 0 17, rowStride := bits e 320 40
        colStride := bits e 384 40 }
    if mtypeDevice r.attr || s.inWindow r.addr r.extent then throw (.fail 0x0603)
    return r

/-- Entries of a twig cache of a kind (Table 10.8). -/
def twigCap (kind : Nat) : Nat := if kind = 1 then 16 else if kind = 2 then 64 else 256

/-- Adds an entry to a twig cache, evicting its oldest when full (DESIGN CHOICE, log 8). -/
def addTwig (t : TwigEntry) (l : List TwigEntry) : List TwigEntry :=
  let mine := l.filter (fun x => x.kind == t.kind && x.unit == t.unit)
  let l := if mine.length < twigCap t.kind then l else
    match mine.head? with
    | some x => l.erase x
    | none => l
  l ++ [t]

/-- Adds an entry to a cache that does not hold its key. -/
def putTwig (l : List TwigEntry) (t : TwigEntry) : List TwigEntry :=
  if l.any (fun x => x.kind == t.kind && x.unit == t.unit && x.tenant == t.tenant && x.tid == t.tid) then l else addTwig t l

/-- The act that runs lacks `w`; only the first thing it lacks counts. -/
def State.wants (s : State) (w : Want) : State :=
  if s.reads.want.isSome then s else s.setReads { s.reads with want := some w }

/-- What a walk has given the act that runs. -/
def State.walked (s : State) (tenant tid : Nat) : Option WalkRes :=
  s.reads.res.find? (fun r => some r.act == s.reads.cur && r.tenant == tenant && r.tid == tid)

/-- Resolves a tensor ID for a unit (R273, R280, R281): from its own twig cache, from the walker's, or from the walk that the act has waited for.
An error is the code under which the access ends; 0 stands for a walk that the act lacks. -/
def State.resolve (s : State) (kind unit tenant tid : Nat) : State × Except Nat TmEntry :=
  if tid = 0 then (s, .error 0x0601)
  else
    let hit := fun (k u : Nat) => s.twigs.find? (fun t => t.kind == k && t.unit == u && t.tenant == tenant && t.tid == tid)
    match hit kind unit with
    | some t => (s, .ok t.ent)
    | none =>
      match hit 8 0 with
      | some t => ((s.setTwigs (addTwig { kind := kind, unit := unit, tenant := tenant, tid := tid, ent := t.ent } s.twigs)), .ok t.ent)
      | none =>
        match s.walked tenant tid with
        | some { ent := some e, .. } => (s, .ok e)
        | some r => (s, .error r.code)
        | none => (s.wants (.walk kind unit tenant tid), .error 0)

/-- As `resolve`, by the walker's cache. -/
def State.wres (s : State) (tenant tid : Nat) : State × Except Nat TmEntry := s.resolve 8 0 tenant tid

/-- Resolves a list of tensors in order; the first that fails gives the code and its tensor ID. -/
def State.resolveAll (s : State) (tenant : Nat) : List Nat → State × Except (Nat × Nat) (List TmEntry)
  | [] => (s, .ok [])
  | t :: ts =>
    match s.wres tenant t with
    | (s, .error c) => (s, .error (c, t))
    | (s, .ok e) =>
      match State.resolveAll s tenant ts with
      | (s, .error c) => (s, .error c)
      | (s, .ok es) => (s, .ok (e :: es))

/-! Elements. Unit sizes are in nibbles, so that INT4 is one. -/

/-- Nibbles of an element of a format. -/
def fmtNib (code : Nat) : Nat := match Fmt.ofCode code with | some f => f.width / 4 | none => 8

end Sys2Proof.Machine

namespace Sys2Proof

/-- The element index of a view position (R275). -/
def TmEntry.index (e : TmEntry) (r c : Nat) : Nat := e.offset + r * e.rowStride + c * e.colStride

/-- Element `i` of `nib` nibbles lies within the extent and below index 2^40 (R275, R276). -/
def TmEntry.holds (e : TmEntry) (i nib : Nat) : Bool := decide (i < 2 ^ 40) && decide ((i + 1) * nib ≤ 2 * e.extent)

/-- The byte address and byte count of element `i`. -/
def TmEntry.at (e : TmEntry) (i nib : Nat) : Nat × Nat := (e.addr + i * nib / 2, if nib = 1 then 1 else nib / 2)

/-- Reads element `i` from memory given by `rd`. -/
def TmEntry.read (e : TmEntry) (rd : Nat → Nat → Nat) (i nib : Nat) : Nat :=
  let (a, n) := e.at i nib
  if nib = 1 then bits (rd a 1) (4 * (i % 2)) 4 else rd a n

/-- The bytes that elements write. INT4 elements share a byte: an even element for which `whole` holds writes bits [7:4] as 0 first
(R25, R276), any other leaves its neighbour the value `rd` gives. -/
def TmEntry.writes (e : TmEntry) (rd : Nat → Nat → Nat) (nib : Nat) (whole : Nat → Bool) (l : List (Nat × Nat)) : List (Nat × Nat) :=
  l.foldl (fun m (i, x) =>
    let (a, n) := e.at i nib
    if nib = 1 then
      let old := if whole i && i % 2 == 0 then 0 else SMap.look (rd a 1) m a
      SMap.ins a (setBits old (4 * (i % 2)) 4 x) (SMap.del a m)
    else (toBytes n x).zipIdx.foldl (fun m (b, k) => SMap.ins (a + k) b (SMap.del (a + k) m)) m) []

end Sys2Proof

namespace Sys2Proof.Machine

/-! Requests. -/

/-- The parts of a byte range that lie in one block of 4,096 bytes each. -/
def parts (a n : Nat) : List (Nat × Nat) :=
  if n = 0 then []
  else (rangeFrom (a / 4096) ((a + n - 1) / 4096 - a / 4096 + 1)).map (fun b =>
    let lo := max a (b * 4096)
    (lo, min (a + n) (b * 4096 + 4096) - lo))

/-- Issues the requests of one access (R285, R288), a write when `data` is given. An access that would fall in a device window is not issued (R279). -/
def State.access (s : State) (o : ReqOwner) (a n attr tenant : Nat) (data : Option (List Nat)) (p : Bool) : State :=
  if s.inWindow a n then s else (parts a n).foldl (fun s (lo, len) =>
    match s.portOf lo with
    | none => s
    | some port =>
      s.request { port := port, wr := data.isSome, tag := none
                  addr := if data.isSome then lo else lo / 128 * 128
                  beats := (beatsOf lo len).length, attr := attr, tenant := tenant
                  data := ((data.getD []).drop (lo - a)).take len, poison := p, owner := o }) s

/-- Reads the beats listed, runs of neighbours in one request. -/
def runsOf : List Nat → List (Nat × Nat)
  | [] => []
  | b :: bs =>
    match runsOf bs with
    | (c, n) :: l => if c = b + 1 then (b, n + 1) :: l else (b, 1) :: (c, n) :: l
    | [] => [(b, 1)]

def insSorted (x : Nat) : List Nat → List Nat
  | [] => [x]
  | y :: ys => if x < y then x :: y :: ys else if x = y then y :: ys else y :: insSorted x ys

def State.readBeats (s : State) (o : ReqOwner) (bs : List Nat) (attr tenant : Nat) : State :=
  (runsOf (bs.foldl (fun l b => insSorted b l) [])).foldl (fun s (b, n) => s.access o (b * 128) (n * 128) attr tenant none false) s

/-- Runs of neighbouring bytes of a sparse write. -/
def byteRuns : List (Nat × Nat) → List (Nat × List Nat)
  | [] => []
  | (a, b) :: l =>
    match byteRuns l with
    | (c, bs) :: r => if c = a + 1 then (a, b :: bs) :: r else (a, [b]) :: (c, bs) :: r
    | [] => [(a, [b])]

/-- Issues the writes of a sparse set of bytes. -/
def State.writeSet (s : State) (o : ReqOwner) (m : List (Nat × Nat)) (attr tenant : Nat) (p : Bool) : State :=
  (byteRuns m).foldl (fun s (a, bs) => s.access o a bs.length attr tenant (some bs) p) s

/-! Reads for acts (R277, R281, R282, R289). -/

/-- A result with the code of the first check that fails, carrying the state. -/
abbrev Chked (α : Type) := State × Except Nat α

def andThen {α β : Type} (p : Chked α) (k : State → α → Chked β) : Chked β :=
  match p with
  | (s, .error c) => (s, .error c)
  | (s, .ok x) => k s x

def guardC (s : State) (bad : Bool) (code : Nat) : Chked Unit := if bad then (s, .error code) else (s, .ok ())

/-- The act that runs has read the beat. -/
def State.hasBeat (s : State) (b : Nat) : Bool := s.reads.got.any (fun (a, x) => some a == s.reads.cur && x == b)

/-- The act that runs has read every byte of the ranges; else it lacks their beats (code 0). An access that would fall in a device window is not
issued (R279). -/
def State.readAll (s : State) (l : List (Nat × Nat)) (attr tenant : Nat) : Chked Unit :=
  if l.any (fun (a, n) => s.inWindow a n) then (s, .error 0x0603)
  else
    let lack := (l.flatMap (fun (a, n) => beatsOf a n)).filter (fun b => !s.hasBeat b)
    if lack.isEmpty then (s, .ok ()) else (s.wants (.beats lack attr tenant), .error 0)

/-- The bytes that the act reads; a read that failed gives its code of Table 10.6. -/
def State.readC (s : State) (a n attr tenant : Nat) : Chked Nat :=
  andThen (s.readAll [(a, n)] attr tenant) (fun s _ =>
    match s.rangeBad a n with
    | 0 => (s, .ok (s.rdN a n))
    | b => (s, .error (badCode b)))

def State.updWalk (s : State) (id : Nat) (f : WalkRt → WalkRt) : State :=
  s.setReads { s.reads with walks := mapIf (fun w => w.id == id) f s.reads.walks }

/-- A walk ends: each act that waits for it has its result, and the caches that missed take the entry, unless an invalidation has been served since
the walk began (R280 to R282). -/
def State.walkEnd (s : State) (w : WalkRt) (ent : Option TmEntry) (code : Nat) : State :=
  let r := s.reads
  let s := s.setReads { r with
    walks := r.walks.filter (fun x => x.id != w.id)
    res := r.res ++ w.acts.map (fun a => { act := a, tenant := w.tenant, tid := w.tid, stale := w.stale, ent := ent, code := code }) }
  match ent with
  | none => s.bump O.tmapWalkFaults w.tenant 32 1
  | some e =>
    if w.stale then s
    else s.setTwigs (((8, 0) :: w.fill).foldl (fun l (k, u) => putTwig l { kind := k, unit := u, tenant := w.tenant, tid := w.tid, ent := e }) s.twigs)

/-- Carries a walk on: it ends, or issues its next read. -/
def State.walkStep (s : State) (id : Nat) : State :=
  match s.reads.walks.find? (fun w => w.id == id) with
  | none => s
  | some w =>
    match s.walk w with
    | .ok e => s.walkEnd w (some e) 0
    | .error (.fail c) => s.walkEnd w none c
    | .error (.need a n) => (s.updWalk id (fun w => { w with asked := some (a, n) })).access (.walk id) a n w.attr w.tenant none false

/-- Walks that have begun, of the tenant domains for which `p` holds, and results not yet used become stale (R282): they serve the accesses that wait for
them, and no cache takes them. -/
def State.staleWalks (s : State) (p : Nat → Bool) : State :=
  let r := s.reads
  s.setReads { r with
    walks := mapIf (fun w => w.begun && p w.tenant) (fun w => { w with stale := true }) r.walks
    res := mapIf (fun x => p x.tenant) (fun x => { x with stale := true }) r.res }

/-- An access of the tenant domain still waits for a stale walk, or has not used its result (R282). -/
def State.staleLeft (s : State) (tenant : Nat) : Bool :=
  s.reads.walks.any (fun w => w.stale && w.tenant == tenant) || s.reads.res.any (fun x => x.stale && x.tenant == tenant)

/-- Begins the walks that wait, as far as 64 at once allow (R277). -/
def State.walkPump (s : State) : State :=
  (s.reads.walks.filter (fun w => !w.begun)).foldl (fun s w =>
    if 64 ≤ (s.reads.walks.filter (·.begun)).length then s
    else
      (s.updWalk w.id (fun w => { w with begun := true, dirBase := s.get O.tmtDirBase w.tenant, dirLog2 := s.get O.tmtDirLog2 w.tenant
                                         attr := s.get O.tmtAttr w.tenant })).walkStep w.id) s

/-- The least number that no walk has. -/
def freshWalk (l : List WalkRt) : Nat := ((List.range (l.length + 1)).find? (fun i => !l.any (fun w => w.id == i))).getD 0

/-- Issues what an act lacks: it joins the walk of the same tensor that is in flight, or starts one (R277); or the beats are read that no request
of the act covers. -/
def State.ask (s : State) (a : Act) (w : Want) : State :=
  match w with
  | .walk kind unit tenant tid =>
    (match s.reads.walks.find? (fun x => x.tenant == tenant && x.tid == tid && !x.stale) with
     | some x => s.updWalk x.id (fun x => { x with acts := if a ∈ x.acts then x.acts else x.acts ++ [a]
                                                   fill := if (kind, unit) ∈ x.fill then x.fill else x.fill ++ [(kind, unit)] })
     | none =>
       let r := s.reads
       let x : WalkRt := { id := freshWalk r.walks, tenant := tenant, tid := tid, dirBase := 0, dirLog2 := 0, attr := 0, acts := [a]
                           fill := if kind = 8 then [] else [(kind, unit)] }
       ((s.setReads { r with walks := r.walks ++ [x] }).bump O.tmapWalks tenant 32 1).walkPump)
  | .beats bs attr tenant =>
    let out := fun (b : Nat) => s.reqs.any (fun r => r.owner == .act a && !r.late && decide (r.addr / 128 ≤ b) && decide (b < r.addr / 128 + r.beats))
    s.readBeats (.act a) (bs.filter (fun b => !out b)) attr tenant

/-- What an act has read is dropped: it has been done, or will not be. -/
def State.forget (s : State) (p : Act → Bool) : State :=
  let r := s.reads
  let s := s.setReads { r with
    walks := r.walks.map (fun w => { w with acts := w.acts.filter (fun a => !p a) })
    res := r.res.filter (fun x => !p x.act), got := r.got.filter (fun x => !p x.1) }
  let mine := fun (o : ReqOwner) => match o with | .act a => p a | _ => false
  if s.reqs.any (fun r => mine r.owner && !r.late) then s.giveUp mine else s

/-- The state in which act `a` runs. -/
def State.acting (s : State) (a : Act) : State := s.setReads { s.reads with cur := some a, want := none }

/-- Act `a`, begun in `s`, has been done, and what it had read is dropped. -/
def State.did (t s : State) (a : Act) : State :=
  let t := t.forget (· == a)
  t.setReads { t.reads with cur := s.reads.cur, want := s.reads.want }

/-- Runs an act: it is done when it lacks nothing. Else nothing of it happens, and what it lacks is issued; where that is there at once, a walk
that stops without a read, it runs again. -/
def State.readN {ε : Type} (a : Act) (f : State → State × ε) : Nat → State → State × Option ε
  | 0, s => (s, none)
  | n + 1, s =>
    let p := f (s.acting a)
    match p.1.reads.want with
    | none => (p.1.did s a, some p.2)
    | some w =>
      let u := s.ask a w
      if s.reads.res.length < u.reads.res.length then State.readN a f n u else (u, none)

/-- Runs act `a`, whose outcome goes to `k` once it has been done. -/
def State.readThen {ε : Type} (s : State) (a : Act) (f : State → State × ε) (k : State → ε → State) : State :=
  match State.readN a f 512 s with
  | (t, some x) => k t x
  | (t, none) => t

def State.reading (s : State) (a : Act) (f : State → State) : State := s.readThen a (fun s => (f s, ())) (fun s _ => s)

/-- CRC-64 of R338 over bytes, most significant bit first. -/
def crcByte (c b : Nat) : Nat :=
  (List.range 8).foldl (fun c i =>
    let top := (c / 2 ^ 63) % 2 ^^^ (b / 2 ^ (7 - i)) % 2
    let c := (c * 2) % 2 ^ 64
    if top = 1 then c ^^^ 0x42F0E1EBA9EA3693 else c) c

def crc64 (bs : List Nat) : Nat := bs.foldl crcByte 0

end Sys2Proof.Machine
end

