-- ==== Sys2Proof/Machine/EndOps.lean ====
section
/-! DEFINITION. How a routine ends: result headers (Table 6.3), the header writes of R145, and the completion fields of R147. -/

namespace Sys2Proof.Machine

/-- A header after a routine that ended without commit (R145): STALE_USES + 1, saturating. -/
def hdrStale (h : Nat) : Nat := setBits h 32 32 (min (dw h 4 + 1) (2 ^ 32 - 1))

/-- What a commit writes into a header (Table 6.3, R145). -/
structure HdrNew where
  step : Nat
  bell : Nat
  cur : Nat
  form : Nat
  kind : Nat
  dim : Nat
  cols : Nat
  damp : Nat
  resid : Nat
  plog : Nat
  retries : Nat
  iters : Nat

def hdrCommit (x : HdrNew) : Nat :=
  x.step + (x.bell % 2 ^ 64) * 2 ^ 64 +
    (2 ^ 31 + x.cur * 2 ^ 30 + x.form * 2 ^ 28 + x.kind * 2 ^ 25 + x.dim) * 2 ^ 128 + x.cols * 2 ^ 160 + x.damp * 2 ^ 192 +
    x.resid * 2 ^ 224 + (x.plog * 2 ^ 11 + x.retries * 2 ^ 8 + x.iters) * 2 ^ 256

/-- Routine kinds are numbered as the counters of 0x4220. -/
def routNo (k : RKind) : Nat := match k with | .gram => 0 | .root => 1 | .solve => 2 | .precond => 3

/-- RESULT_STEP (R147): the STEP of OUT_TID's header after the routine, which a commit has written and nothing else changes; for a PRECOND the
smallest among the roots it used. -/
def stepOut (r : Rout) : Nat :=
  let free := (Config.resultStep r.admBell r.q r.seq).toNat
  if r.r.kind = .precond then
    (match r.samples.filter (·.init) with
     | [] => free
     | x :: l => l.foldl (fun m y => min m y.step) x.step)
  else if r.outcome = 0 then r.r.srStep
  else match r.outHdr with
    | some h => dw h 0
    | none => free

/-- The routine's results are complete: its descriptor waits for COMMIT, with the fields of Tables 9.10 and 9.11 (R147). -/
def State.routDone (s : State) (r : Rout) : State :=
  let fl := r.lans.foldl (fun a l => a ||| l.flags) r.flagsOr
  (s.rupd r.q r.seq (fun r => { r with phase := .over, resultStep := stepOut r })).dupd r.q r.seq (fun d =>
    { d with phase := .done, status := if r.outcome = 8 then r.code else 0
             committed := r.outcome == 0 || r.outcome == 1 || r.outcome == 9
             flags := fl, aux0 := r.outcome * 2 ^ 28 + r.retry * 2 ^ 25 + r.iters, aux1 := stepOut r, aux2 := 0 })

/-- Issues the next header write of an ended routine once its earlier writes are answered; after the last, its results are complete. -/
def State.nextHdr (s : State) (q seq : Nat) : State :=
  match s.rfind q seq with
  | none => s
  | some r =>
    if r.phase != .commit || s.waits (.rout q seq) then s
    else match r.hdrs with
      | [] => s.routDone r
      | (a, attr, h) :: l =>
        (s.rupd q seq (fun r => { r with hdrs := l })).access (.rout q seq) a 64 attr r.tenant (some (toBytes 64 h)) false

/-- The channel of a GRAM closes when the GRAM ends (R148). Its CH_TOKENS keeps the last count until another GRAM opens it (DESIGN CHOICE, log 62). -/
def State.closeChan (s : State) (r : Rout) : State :=
  if r.r.kind = .gram ∧ (SMap.look {} s.chans r.r.captureCh).owner = some (r.q, r.seq) then
    (s.setChans (SMap.put {} r.r.captureCh {} s.chans)).put O.chState r.r.captureCh 0
  else s

/-- The headers that an end without commit rewrites (R145): those that its dispatch read, with nothing but STALE_USES changed. -/
def staleHdrs (r : Rout) : List (Nat × Nat × Nat) :=
  let one := fun (o : Option TmEntry) (h : Option Nat) => match o, h with
    | some e, some h => [(e.addr, e.attr, hdrStale h)]
    | _, _ => []
  match r.r.kind with
  | .precond => []
  | .solve => (if 0 < r.r.rhsCols then one r.solEnt r.solHdr else []) ++ one r.outEnt r.outHdr
  | _ => one r.outEnt r.outHdr

/-- Acts of a routine: its restart, and the instructions of its arrays and Lanterns. -/
def ofRout (q seq : Nat) (a : Act) : Bool :=
  match a with
  | .restart p n | .arr p n _ | .lan p n _ | .dome p n _ => p == q && n == seq
  | _ => false

/-- A routine ends with an outcome other than a commit (R147). One that has not passed its dispatch checks writes no header and counts
nowhere. -/
def State.endRout (s : State) (q seq outcome code : Nat) : State :=
  match s.rfind q seq with
  | none => s
  | some r =>
    if r.ended then s
    else
      let passed := r.phase != .admitted && decide (2 ≤ outcome) && decide (outcome ≤ 8)
      let s := s.closeChan r
      let s := if passed then s.bump (O.staleUsesGram + routNo r.r.kind) 0 32 1 else s
      let its := if r.r.kind = .root then ((r.lans.headD {}).sget 15) % 256 else 0
      let hs := if passed then staleHdrs r else []
      let s := s.rupd q seq (fun r => { r with
        phase := .commit, ended := true, outcome := outcome, code := code, hdrs := hs, iters := its
        passes := r.passes + r.itPasses, laneOps := r.laneOps + r.itOps, itPasses := 0, itOps := 0 })
      ((((s.forget (ofRout q seq)).letGo q seq).domeBack).dupd q seq (fun d => { d with bell := s.bellNo, stopTid := r.faultTid })).nextHdr q seq

/-- A routine ends with outcome FAULT and a code (R168). -/
def State.faultRout (s : State) (q seq code : Nat) : State := s.endRout q seq 8 code

end Sys2Proof.Machine
end

