-- ==== Sys2Proof/Machine/QueueOps.lean ====
section
/-! DEFINITION. Completion records, parking and release (R243 to R245), what a release does (R259, R260, R267), halts and queue resets, and
the ring reads and doorbell words (R231 to R235). -/

namespace Sys2Proof

/-- Marks a descriptor that a halt or a reset ends uncommitted. -/
def DRt.stopWith (d : DRt) (code : Nat) : DRt := { d with phase := .done, status := code, committed := false }

/-- The opcode is a routine's (Table 9.3). -/
def Desc.routOp (d : Desc) : Bool := decide (0x10 ≤ d.opcode) && decide (d.opcode ≤ 0x13)

/-- Completes a descriptor that performed none of its action; one with the opcode of a routine carries ROUTINE_OUTCOME FAULT (R147, R321), and a
RESULT_STEP that no header gives. -/
def DRt.refused (d : DRt) (q code tid : Nat) : DRt :=
  { d with phase := .done, status := code, committed := false, stopTid := tid
           aux0 := if d.d.routOp then 8 * 2 ^ 28 else d.aux0
           aux1 := if d.d.routOp then (Config.resultStep d.firstBell q d.seq).toNat else d.aux1 }

/-- The sync updates that a released record brings: a SIGNAL's own, then the header's (R260). -/
def DRt.updates (d : DRt) (q : Nat) : List SyncUpd :=
  (match d.d.body with
   | .signal v set t => if d.committed then [{ q := q, seq := d.seq, sub := 0, obj := t, set := set, val := v }] else []
   | _ => []) ++
  (if d.d.sigEn && d.sigOk && !d.d.malformed then [{ q := q, seq := d.seq, sub := 1, obj := d.d.syncId, set := false, val := 1 }] else [])

end Sys2Proof

namespace Sys2Proof.Machine

def State.ringSize (s : State) (q : Nat) : Nat := 2 ^ s.get O.ringLog2 q

/-- The completion record as a 32-byte number (Table 9.10); PHASE is that of R244 when released, the opposite when parked. -/
def State.record (s : State) (q : Nat) (d : DRt) (released : Bool) : Nat :=
  let lap := bits d.seq (s.get O.ringLog2 q) 1
  let ph := if released then 1 - lap else lap
  d.seq + d.d.user * 2 ^ 32 + (d.status + b2n d.committed * 2 ^ 18 + d.flags * 2 ^ 19 + d.d.opcode * 2 ^ 24) * 2 ^ 64 +
    d.aux0 * 2 ^ 96 + d.aux1 * 2 ^ 128 + d.aux2 * 2 ^ 160 + (d.bell % 2 ^ 32) * 2 ^ 192 + (q + ph * 2 ^ 31) * 2 ^ 224

/-- A write to a ring or to an accounting record failed for good (R235): the queue enters ERROR, and records not yet released are lost. -/
def State.ringWriteFail (s : State) (q seq addr : Nat) : State :=
  let s := (s.put O.queueState q 3).updQueue q (fun x => { x with lost := true })
  s.report { code := 0x0703, queue := some q, tenant := some (s.tenantOf q), payload := genPay seq 0 addr }

/-- A write to a ring or to an accounting record of a queue; one that a device window covers counts as failed for good (R279). -/
def State.ringWrite (s : State) (o : ReqOwner) (q seq addr : Nat) (data : List Nat) : State :=
  if s.inWindow addr data.length then s.ringWriteFail q seq addr
  else s.access o addr data.length (s.get O.ringAttr q) (s.tenantOf q) (some data) false

/-- A descriptor whose read failed twice is the next of its queue: the queue enters ERROR (R235). It is DEDUCED that earlier descriptors are
admitted first, since they complete normally (log 30). -/
def State.ringCheck (s : State) (q : Nat) : State :=
  match (s.queue q).ringBad with
  | some n =>
    let st := s.get O.queueState q
    if n = s.get O.nextSeq q ∧ (st = 1 ∨ st = 2 ∨ st = 4) then
      (((s.put O.queueState q 3).updQueue q (fun x => { x with ringBad := none }))).report
        { code := 0x0702, queue := some q, tenant := some (s.tenantOf q), payload := genPay n 0 (s.get O.ringBase q + 64 * (n % s.ringSize q)) }
    else s
  | none => s

/-- Notes a descriptor that cannot be read. -/
def State.ringReadFail (s : State) (q seq : Nat) : State :=
  let d := fun (n : Nat) => (n + 2 ^ 32 - s.get O.nextSeq q) % 2 ^ 32
  (s.updQueue q (fun x => { x with ringBad := match x.ringBad with
    | some n => if d seq < d n then some seq else some n
    | none => some seq })).ringCheck q

/-- The block writes the record into its slot of the completion ring (R231). -/
def State.writeRec (s : State) (o : ReqOwner) (q : Nat) (d : DRt) (released : Bool) : State :=
  s.ringWrite o q d.seq (s.get O.cplBase q + 32 * (d.seq % s.ringSize q)) (toBytes 32 (s.record q d released))

/-- Adds to a 64-bit accounting total of a queue. -/
def State.acct (s : State) (oid q n : Nat) : State :=
  if n = 0 then s else (s.bump oid q (if oid < O.acctBells then 64 else 32) n).updQueue q (fun x => { x with changed := true })

/-- A descriptor is refused at dispatch: it performs none of its action, and its charge counts in no total (R259, R265). -/
def State.refuseD (s : State) (q seq code tid : Nat) : State :=
  (s.dupd q seq (fun d => d.refused q code tid)).updQueue q (fun x => { x with bytesDue := x.bytesDue.filter (fun e => e.2.1 != seq) })

/-- A queue in RESETTING with every descriptor released becomes DISABLED (R269). -/
def State.endReset (s : State) (q : Nat) : State :=
  let x := s.queue q
  if s.get O.queueState q = 2 ∧ x.infl.isEmpty ∧ !s.routs.any (fun r => r.q == q && !r.ended) ∧
    (x.resetFrom ∨ s.get O.nextSeq q = s.get O.tail q) then
    ((s.put O.queueState q 0).setQueue q { x with fetched := [], ringBad := none, lost := false, changed := true, resetFrom := false }).giveUp
      (fun o => match o with | .ring p _ | .conv p _ | .red p _ => p == q | _ => false)
  else s

/-- Ends the uncommitted work of a queue after sequence position `from`: non-routine descriptors in flight take the code, routines end
without commit with it. -/
def State.sweepQ (s : State) (q code : Nat) (rout : Rout → State → State) : State :=
  let s := s.updQueue q (fun x => { x with infl := x.infl.map (fun d =>
    if d.isRout || d.phase == .parked then d else d.stopWith code) })
  (s.routs.filter (fun r => r.q == q && !r.ended)).foldl (fun s r => rout r s) s

/-- Descriptors that can be read from the head of a queue: the fetched one with the next sequence number. -/
def State.head (s : State) (q : Nat) : Option Desc :=
  ((s.queue q).fetched.find? (fun p => p.1 == s.get O.nextSeq q)).map (fun p => Desc.ofRaw p.2)

/-- Takes the descriptor at the head of a queue into flight. -/
def State.take (s : State) (q : Nat) (f : DRt → DRt) : State :=
  let n := s.get O.nextSeq q
  match s.head q with
  | none => s
  | some d =>
    let sig := decide (s.bget O.syncOwner d.syncId = s.tenantOf q)
    let bad := match d.body with
      | .signal _ _ t => s.bget O.syncOwner t != s.tenantOf q
      | .wait _ t _ => s.bget O.syncOwner t != s.tenantOf q
      | _ => false
    let r : DRt := f { seq := n, d := d, firstBell := 0, bell := 0, offered := 0, sigOk := sig, tgtBad := bad, tenant := s.tenantOf q }
    ((s.updQueue q (fun x => { x with fetched := x.fetched.filter (fun p => p.1 != n), infl := x.infl ++ [r], offered := none, headList := none })).put O.nextSeq q
      ((n + 1) % 2 ^ 32)).ringCheck q

/-- A FENCE that waits at the head of a queue completes with the code (Table 9.16). -/
def State.skipFence (s : State) (q : Nat) : State :=
  match s.head q with
  | none => s
  | some d => match d.body with
    | .fence _ =>
      if d.malformed || (s.queue q).offered.isNone then s
      else s.take q (fun d => { d with phase := .done, status := 0x010A, bell := (Config.resetBell s.bellNo q d.seq).toNat })
    | _ => s

/-- The queue enters HALTED (R259). -/
def State.haltQ (s : State) (q : Nat) : State :=
  let s := (s.put O.queueState q 4).updQueue q (fun x => { x with infl := x.infl.map (fun d =>
    if d.isRout || d.phase != .parked then d else { d with status := 0x010A }) })
  (s.sweepQ q 0x010A (fun r s => s.faultRout r.q r.seq 0x010A)).skipFence q

/-- The record at the head of a queue can be released: it is parked and its parking write is acknowledged (R245, R301). -/
def State.releasable (s : State) (q : Nat) : Option DRt :=
  if s.stopped || ((s.queue q).lost && !(s.queue q).resetFrom) then none
  else match (s.queue q).infl with
    | d :: _ => if d.phase == .parked && !s.waits (.park q d.seq) then some d else none
    | [] => none

/-- Adds to a sync object, or sets it (R260). -/
def State.syncApply (s : State) (u : SyncUpd) : State :=
  s.put O.syncValue u.obj (if u.set then u.val else (s.get O.syncValue u.obj + u.val) % 2 ^ 64)

/-- The event of a record released with a fault code (R306): form D, for F_COMPARATOR form U (Table 11.12), unless the descriptor's end named a unit
and a payload. -/
def State.recEvent (s : State) (q : Nat) (d : DRt) : State :=
  if d.status = 0 then s
  else
    let pay := if d.status = 0x0205 then genPay d.seq 4 0 else genPay d.seq (d.d.opcode * 2 ^ 24 + d.stopTile % 2 ^ 24) d.stopTid
    let (k, u, p) := d.evPay.getD (0, 0, pay)
    s.report { code := d.status, unitKind := k, unit := u, queue := some q, tenant := some (s.tenantOf q), payload := p }

/-- Releases the record at the head of a queue (R245): the write, the interrupt, the event, the sync updates, the totals, and what the
error policy or the NaN trap makes of it. -/
def State.releaseHead (s : State) (q : Nat) (d : DRt) : State :=
  let s := s.updQueue q (fun x => { x with infl := x.infl.drop 1 })
  let s := match s.rfind q d.seq with
    | some r => s.updQueue q (fun x => { x with macsDue := x.macsDue + r.passes, opsDue := x.opsDue + r.laneOps })
    | none => s
  let s := s.setRouts (s.routs.filter (fun r => !(r.q == q && r.seq == d.seq)))
  let s := s.forget (fun a => match a with | .desc p n | .tiles p n => p == q && n == d.seq | _ => false)
  if (s.queue q).resetFrom then s.endReset q
  else
    let s := s.writeRec (.release q d.seq) q d true
    let s := s.put O.released q ((d.seq + 1) % 2 ^ 32)
    let s := if d.d.irq || d.status != 0 || d.trapIrq then s.put O.irqPending q 1 else s
    let s := s.recEvent q d
    let s := (s.acct O.acctDescriptors q 1).acct O.acctErrors q (b2n (d.status != 0))
    let s := if s.sapling then (d.updates q).foldl State.syncApply s else s.setSyncUpds (s.syncUpds ++ d.updates q)
    let halt := (d.trapHalt || (d.status != 0 && s.get O.errPolicy q == 1)) && s.get O.queueState q == 1
    let s := if halt then s.haltQ q else s
    s.endReset q

/-- A descriptor commits, or ends with its error (R246): its record is parked unless it is the queue's oldest. `bell`: the bell it counts
from. -/
def State.park (s : State) (q : Nat) (d : DRt) : State :=
  let x := s.queue q
  let head := (x.infl.head?.map (·.seq)) == some d.seq
  let s := s.dupd q d.seq (fun e => { e with phase := .parked })
  if head || x.resetFrom then s
  else match s.dfind q d.seq with
    | some d => s.writeRec (.park q d.seq) q d false
    | none => s

/-- The item belongs to the bell that runs or to an earlier one (R220); one that a halt or a reset ends, or one of the sapling service,
waits for no bell. -/
def State.ripe (s : State) (d : DRt) : Bool :=
  d.status == 0x010B || d.status == 0x010A || s.bell == .none || d.isRout || d.sap || (d.owed.isEmpty && decide (d.bell ≤ s.bellNo))

/-- The descriptor's work is done, its requests are answered, the front stage has accepted every ring copy of it (R103), and every earlier
non-routine descriptor of the queue has committed or ended (R246). Copies that a ring out of service holds do not count (DEDUCED, log 62). -/
def State.workDone (s : State) (q : Nat) (d : DRt) : Bool :=
  d.phase == .done && !(d.status == 0 && s.obj O.ringState != 2 && s.ring.any (fun t => t.q == q && t.seq == d.seq)) &&
    !(if d.status = 0 then s.waits (.conv q d.seq) else s.waitsWrite (.conv q d.seq)) && !s.waits (.rout q d.seq) &&
    !(if d.status = 0 then s.waits (.red q d.seq) else s.waitsWrite (.red q d.seq)) && !s.stopped && s.ripe d &&
    (d.isRout || ((s.queue q).infl.takeWhile (fun e => e.seq != d.seq)).all (fun e => e.isRout || e.phase == .parked))

/-- The descriptor may commit now; one that R419 defers commits at a close. -/
def State.commitReady (s : State) (q : Nat) (d : DRt) : Bool := s.workDone q d && !d.late

/-- Releases the record at the head of a queue when it can be (R245). -/
def State.releaseNext (s : State) (q : Nat) : State :=
  match s.releasable q with
  | some d => s.releaseHead q d
  | none => s

/-- Releases the records at the head of a queue as far as they can be. -/
def State.releaseMany (s : State) (q : Nat) : Nat → State
  | 0 => s
  | n + 1 => match s.releasable q with
    | some d => State.releaseMany (s.releaseHead q d) q n
    | none => s

/-- Releases every record that can be released. -/
def State.releaseAll (s : State) : State := s.queues.foldl (fun s (q, x) => s.releaseMany q x.infl.length) s

/-! Rings and doorbells. -/

/-- In RESETTING every descriptor read up to TAIL completes with F_QUEUE_RESET (R269). -/
def State.drainFetched (s : State) (q : Nat) : Nat → State
  | 0 => s
  | n + 1 =>
    if (s.head q).isNone then s
    else State.drainFetched (s.take q (fun d => { d.refused q 0x010B 0 with bell := (Config.resetBell s.bellNo q d.seq).toNat })) q n

/-- Reads of descriptors from the one after the last asked for up to TAIL (R235). -/
def State.askRing (s : State) (q : Nat) : Nat → State
  | 0 => s
  | n + 1 =>
    let x := s.queue q
    if x.asked = s.get O.tail q then s
    else
      let a := s.get O.ringBase q + 64 * (x.asked % s.ringSize q)
      let s := s.setQueue q { x with asked := (x.asked + 1) % 2 ^ 32 }
      let s := if s.inWindow a 64 then s.ringReadFail q x.asked
        else s.access (.ring q x.asked) a 64 (s.get O.ringAttr q) (s.tenantOf q) none false
      State.askRing s q n

/-- A TAIL doorbell that passes the checks of R233. -/
def State.tailOk (s : State) (q index : Nat) : Bool :=
  let st := s.get O.queueState q
  let n := s.ringSize q
  (st == 1 || st == 4) && decide ((index + 2 ^ 32 - s.get O.nextSeq q) % 2 ^ 32 ≤ n) && decide ((index + 2 ^ 32 - s.get O.tail q) % 2 ^ 32 ≤ n)

/-- An ignored doorbell word (R233). -/
def State.badDoorbell (s : State) (word : Nat) : State :=
  (s.bump O.doorbellErrors 0 32 1).report
    { code := 0x0701, queue := some (bits word 32 18), tenant := some (s.tenantOf (bits word 32 18)), payload := genPay 0 0 word }

end Sys2Proof.Machine
end

