-- ==== Sys2Proof/Machine/ConvOps.lean ====
section
/-! DEFINITION. Dispatch (R247 to R249), and a conversion descriptor from its dispatch checks to its commit: the data it reads, its tiles, its
writes, its captures, and what its commit applies (04_hedge.md, R63, R104, R149, R239, R246, R317). -/

namespace Sys2Proof

/-- A scale tensor is written by the QUANT or read by the DEQUANT, or a requantisation reads its table (R55, R76). -/
def ConvD.needsScale (c : ConvD) : Bool :=
  if c.isRequant then c.reqPerCol else (c.op == .quant || c.op == .dequant) && c.scaleSrc != 0

/-- The scale tensor is read. -/
def ConvD.readsScale (c : ConvD) : Bool := c.needsScale && (c.op == .dequant || c.isRequant)

/-- A STATS that feeds no slot and writes no record (R101). -/
def ConvD.inert (c : ConvD) : Bool := c.op == .stats && !c.statsEn && c.scaleSrc != 2

/-- The tensor an event or a trap record names. -/
def ConvD.mainTid (c : ConvD) : Nat := if c.op == .stats then c.srcTid else c.dstTid

/-- Read and write sets of Table 9.12 as tensor IDs, before resolution to base tensors; the list of a PRECOND is added at first offer. -/
def Desc.rawSets (d : Desc) : List Nat × List Nat :=
  if d.malformed || d.body.isNoop then ([], [])
  else match d.body with
    | .conv c =>
      ((if c.srcStream then [] else [c.srcTid]) ++ (if c.readsScale then [c.scaleTid] else []) ++
         (if c.op == .dequant && c.escEn then [c.sideTid] else []),
       (if c.dstStream || c.op == .stats then [] else [c.dstTid]) ++ (if c.needsScale && !c.readsScale then [c.scaleTid] else []) ++
         (if c.op == .quant && c.escEn then [c.sideTid] else []) ++ (if c.statsEn then [c.statsTid] else []))
    | .rout r =>
      (match r.kind with
       | .gram => ([r.imageTid, r.outTid], [r.outTid, r.stageTid, r.ctxTid])
       | .root => ([r.imageTid, r.inTid], [r.outTid, r.stageTid, r.ctxTid])
       | .solve => ([r.imageTid, r.inTid, r.schedTid, r.rhsTid], [r.outTid, r.solnTid, r.stageTid, r.ctxTid])
       | .precond => ([r.imageTid, r.listTid], [r.stageTid, r.ctxTid]))
    | .reduce r => ([r.srcTid], [r.dstTid])
    | _ => ([], [])

/-- Two descriptors' sets conflict (R249): `e` is the earlier. -/
def setsConflict (e d : List Nat × List Nat) : Bool :=
  e.2.any (fun t => t ∈ d.1 || t ∈ d.2) || d.2.any (fun t => t ∈ e.1)

/-- The entries a conversion uses. -/
structure ConvEnts where
  src : Option TmEntry := none
  dst : Option TmEntry := none
  scale : Option TmEntry := none
  side : Option TmEntry := none
  stats : Option TmEntry := none

/-- Element `i` of `u` bytes lies within the extent. -/
def TmEntry.covers (e : TmEntry) (n u : Nat) : Bool := decide (n * u ≤ e.extent) && decide (n ≤ 2 ^ 40)

/-- The codes that a tile received on a stream port presents (R86, R87). -/
def Tile.code (t : Tile) (c : ConvD) (row col : Nat) : Nat :=
  let pos := if c.rowTiles then col - t.tcol * 4096 else (row - t.trow * 64) * 64 + (col - t.tcol * 64)
  match t.beats[pos / 64]? with
  | some b => bits b.data (32 * (pos % 64)) c.sf.width
  | none => 0

/-- Whether a tile's framing is that of R87 for its coordinates (R88). -/
def Tile.framed (t : Tile) (c : ConvD) : Bool :=
  let rows := if c.rowTiles then c.rows else ceilDiv c.rows 64
  decide (t.trow < rows) && decide (t.tcol < c.tc) && t.beats.map (·.nlane) == c.beatLanes (t.trow * c.tc + t.tcol) &&
    t.beats.zipIdx.all (fun (b, i) => b.first == (i == 0) && b.last == (i + 1 == t.beats.length))

/-- A tile's number. -/
def Tile.no (t : Tile) (c : ConvD) : Nat := t.trow * c.tc + t.tcol

/-- Tiles of the group of tile `t`. -/
def ConvD.mates (c : ConvD) (t : Nat) : List Nat :=
  if c.gang = 1 then [t] else (List.range c.tiles).filter (fun x => (c.group x).1 == (c.group t).1)

end Sys2Proof

namespace Sys2Proof.Machine

/-- The base tensor of a tensor ID, itself when it does not resolve (R248, R274). -/
def State.baseOf (s : State) (tenant tid : Nat) : State × Nat :=
  match s.wres tenant tid with
  | (s, .ok e) => (s, e.base)
  | (s, .error _) => (s, tid)

/-- The base tensors of the IDs listed that name a tensor. -/
def State.baseList (s : State) (tenant : Nat) : List Nat → State × List Nat
  | [] => (s, [])
  | t :: ts =>
    if t = 0 then State.baseList s tenant ts
    else
      let (s, b) := s.baseOf tenant t
      let (s, l) := State.baseList s tenant ts
      (s, b :: l)

def State.baseSets (s : State) (tenant : Nat) (x : List Nat × List Nat) : State × (List Nat × List Nat) :=
  let (s, a) := s.baseList tenant x.1
  let (s, b) := s.baseList tenant x.2
  (s, (a, b))

/-- The next descriptor of a queue to be dispatched, when nothing holds it: its bell runs, the commit window has a place, and no earlier
uncommitted non-routine descriptor conflicts with it (R220, R247, R249). -/
def State.nextDisp (s : State) (q : Nat) : Option DRt :=
  let l := (s.queue q).infl
  let early := l.takeWhile (fun d => d.phase != .admitted)
  match l.drop early.length with
  | [] => none
  | d :: _ =>
    let opened := s.sapling || (s.bell != .none && decide (d.firstBell ≤ s.bellNo))
    let window := (early.filter (fun e => e.phase != .parked)).length
    if s.live && opened && decide (window < 16) &&
      early.all (fun e => e.isRout || e.phase == .parked || !setsConflict e.sets d.sets) then some d else none

/-- Completes a descriptor's work with no error: it waits for COMMIT. -/
def State.doneD (s : State) (q seq : Nat) : State := s.dupd q seq (fun d => { d with phase := .done })

/-- Resolves one more of a descriptor's tensors, when it is needed and none before it failed. -/
def addEnt (kind unit tenant : Nat) (need : Bool) (tid : Nat) (k : ConvEnts → TmEntry → ConvEnts) (p : State × Except (Nat × Nat) ConvEnts) :
    State × Except (Nat × Nat) ConvEnts :=
  if !need then p
  else match p.2 with
    | .error e => (p.1, .error e)
    | .ok x =>
      let r := p.1.resolve kind unit tenant tid
      match r.2 with
      | .error c => (r.1, .error (c, tid))
      | .ok e => (r.1, .ok (k x e))

/-- Resolves what a conversion uses, for a unit's twig cache; the first that fails gives its code and tensor ID. -/
def State.convEnts (s : State) (kind unit tenant : Nat) (c : ConvD) : State × Except (Nat × Nat) ConvEnts :=
  let p : State × Except (Nat × Nat) ConvEnts := (s, .ok {})
  let p := addEnt kind unit tenant true c.srcTid (fun x e => { x with src := some e }) p
  let p := addEnt kind unit tenant (c.op != .stats) c.dstTid (fun x e => { x with dst := some e }) p
  let p := addEnt kind unit tenant c.needsScale c.scaleTid (fun x e => { x with scale := some e }) p
  let p := addEnt kind unit tenant c.escEn c.sideTid (fun x e => { x with side := some e }) p
  addEnt kind unit tenant c.statsEn c.statsTid (fun x e => { x with stats := some e }) p

/-- The scale tensor's Tensor Map entry names a code that Table 2.2 does not allow for a scale value (R21): FP32 under ROW and HISTORY, E8M0
under BLOCK. The FMT of a requantisation table's entry (R76) is neither used nor checked: its entries are words of Table 3.8 and no
scale values (DESIGN CHOICE, log 60). -/
def scaleRoleBad (c : ConvD) (x : ConvEnts) : Bool :=
  match x.scale with
  | some e => c.needsScale && !c.isRequant && e.fmt != (if c.scaleSrc = 3 then 9 else 0)
  | none => false

/-- The checks of R239 and R276 on resolved views; 0 when they pass. -/
def viewRefusal (c : ConvD) (x : ConvEnts) : Nat :=
  let one := fun (o : Option TmEntry) (fmt : Nat) (stream dst : Bool) => match o with
    | none => 0
    | some e =>
      if stream then 0
      else if e.rowLen != c.rowLen || decide (e.rows < c.rows) then 0x0105
      else if e.fmt != fmt then 0x0102
      else if !e.holds (e.index (c.rows - 1) (c.rowLen - 1)) (fmtNib fmt) then 0x0105
      else if dst && fmt == 7 && (e.colStride != 1 || e.offset % 2 != 0 || e.rowStride % 2 != 0) then 0x0105
      else 0
  let aux := fun (o : Option TmEntry) (n u : Nat) => match o with
    | none => 0
    | some e => if e.covers n u then 0 else 0x0105
  ([one x.src c.srcFmt c.srcStream false, one x.dst c.dstFmt c.dstStream true, aux x.scale c.scaleN c.scaleU,
    aux x.side (64 * c.tiles) 8, aux x.stats c.tiles 256].find? (· != 0)).getD 0

/-- A channel does not accept a capture (R104, R148, R149): judged with the captures before it in K order (R150). -/
def State.captureBad (s : State) (q : Nat) (c : ConvD) : Bool :=
  let ch := SMap.look {} s.chans c.captureCh
  match ch.owner with
  | none => true
  | some (gq, gs) =>
    match s.rfind gq gs with
    | none => true
    | some g =>
      s.tenantOf gq != s.tenantOf q || !(c.dstFmt ∈ [0, 1, 2, 3, 4, 5, 7]) || c.rowLen != g.r.dim ||
        decide (g.r.tokens < sumN (ch.caps.map (·.rows)) + c.rows) || decide (256 ≤ ch.caps.length) ||
        (g.r.ipath && (c.dstFmt != 5 || c.op != .quant || c.scaleSrc != 0 || c.z != 0 || c.escEn || c.isRequant ||
          (match ch.scale with | some v => v != c.scaleValue | none => false)))

/-- Judges the capture of a descriptor as its first bell opens: one that its channel accepts takes its place in K order. -/
def State.judgeCapture (s : State) (q : Nat) (d : DRt) : State :=
  match d.d.body with
  | .conv c =>
    if c.capture = 0 || d.d.malformed || d.d.body.isNoop || d.noSync then s
    else if s.captureBad q c then s.dupd q d.seq (fun d => { d with capCode := some 0x0108 })
    else (s.setChans (SMap.upd {} c.captureCh (fun ch => { ch with
        scale := if ch.caps.isEmpty then some c.scaleValue else ch.scale
        caps := ch.caps ++ [{ bell := d.firstBell, q := q, seq := d.seq, rows := c.rows, conv := c, bytes := c.capBytes }] }) s.chans)).dupd q d.seq
      (fun d => { d with capCode := some 0 })
  | _ => s

/-- The captures admitted into bell `b`, in K order (R149, R150): every channel judges them as the bell opens, whatever the order of their
dispatch (log 63). -/
def State.judgeCaptures (s : State) (b : Nat) : State :=
  s.queues.foldl (fun s (q, x) => (x.infl.filter (fun d => d.firstBell == b && d.capCode.isNone)).foldl (fun s d => s.judgeCapture q d) s) s

/-- A descriptor refused for another reason captures nothing: it leaves the K order of its channel. -/
def State.dropCapture (s : State) (q seq : Nat) (c : ConvD) : State :=
  if c.capture = 0 then s
  else s.setChans (SMap.upd {} c.captureCh (fun ch => { ch with caps := ch.caps.filter (fun p => !(p.q == q && p.seq == seq)) }) s.chans)

/-- The refusal of a capturing descriptor (R104, R149, R298); 0 when it is accepted. -/
def State.captureRefusal (s : State) (d : DRt) (c : ConvD) : Nat :=
  if c.capture = 0 then 0
  else
    let a := d.capCode.getD 0x0108
    if a != 0 then a else if s.obj O.ringState = 2 then 0x010D else 0

/-- The segment range is refused under R93. -/
def State.segRefusal (s : State) (c : ConvD) : Nat :=
  if c.segBase % c.gp != 0 || c.segSpan % c.gp != 0 || c.segSpan == 0 || decide (s.nSeg < c.segBase + c.segSpan) then 0x0107 else 0

/-- The first dispatch check that a conversion fails, as code and tensor ID: Table 3.9, capture, segments, Tensor Map, views, units (the
order across chapters is a DESIGN CHOICE, log 12). -/
def State.convRefusal (s : State) (q : Nat) (d : DRt) (c : ConvD) : State × Except (Nat × Nat) ConvEnts :=
  let early := quantRefusal c d.slotOwned d.frozen false
  if early = 0x0102 then (s, .error (early, c.mainTid))
  else
    let (s, r) := s.convEnts 8 0 (s.tenantOf q) c
    let scaleBad := match r with | .ok x => scaleRoleBad c x | .error _ => false
    let a := quantRefusal c d.slotOwned d.frozen scaleBad
    let a := if a != 0 then a else s.captureRefusal d c
    let a := if a != 0 then a else s.segRefusal c
    if a != 0 then (s, .error (a, c.mainTid))
    else match r with
    | .error e => (s, .error e)
    | .ok x =>
      let v := viewRefusal c x
      let v := if v != 0 then v
        else if !c.srcStream && (s.ports.isEmpty || !(List.range s.nSeg).any (s.serves 1)) then 0x010D else 0
      (s, if v != 0 then .error (v, c.mainTid) else .ok x)

/-- The beats that a memory-source conversion reads. -/
def convBeats (c : ConvD) (x : ConvEnts) : List Nat × List Nat × List Nat :=
  let src := match x.src with
    | some e => if c.srcStream then [] else
        (List.range c.rows).flatMap (fun r => (List.range c.rowLen).flatMap (fun k =>
          let (a, n) := e.at (e.index r k) (fmtNib c.srcFmt); beatsOf a n))
    | none => []
  let scale := match x.scale with
    | some e => if c.readsScale then beatsOf e.addr (c.scaleN * c.scaleU) else []
    | none => []
  let side := match x.side with
    | some e => if c.op == .dequant then beatsOf e.addr (64 * c.tiles * 8) else []
    | none => []
  (src, scale, side)

def attrOf (o : Option TmEntry) : Nat := match o with | some e => e.attr | none => 0

/-- What a conversion reads, as Quant.lean takes it; a tile received on a stream port supplies its own codes. -/
def State.convEnv (s : State) (d : DRt) (c : ConvD) (x : ConvEnts) : ConvEnv :=
  let view := if c.op == .stats then x.src else x.dst
  { src := fun r k =>
      if c.srcStream then
        let t := c.tileOf r k
        match d.tilesIn.find? (fun y => y.no c == t) with
        | some y => y.code c r k
        | none => 0
      else match x.src with
        | some e => e.read s.rdN (e.index r k) (fmtNib c.srcFmt)
        | none => 0
    idx := fun r k => match view with | some e => e.index r k | none => 0
    scaleRd := fun i => match x.scale with | some e => s.rdN (e.addr + i * c.scaleU) c.scaleU | none => 0
    sideRd := fun i => match x.side with | some e => s.rdN (e.addr + i * 8) 8 | none => 0
    effMax := d.effMax
    expLo := sext 8 d.expLo }

/-- The worst state of the memory that tile `t` reads: 0, or as `rangeBad`. -/
def State.tileBad (s : State) (c : ConvD) (x : ConvEnts) (t : Nat) : Nat :=
  let el := (c.elems t).map (fun (_, r, k) => match x.src with
    | some e => if c.srcStream then 0 else let (a, n) := e.at (e.index r k) (fmtNib c.srcFmt); s.rangeBad a n
    | none => 0)
  let sc := match x.scale with
    | some e =>
      if c.readsScale then
        maxN ((c.elems t).map (fun (_, r, k) =>
          let i := if c.isRequant then k else match c.scaleSrc with | 1 => r | 2 => 0 | _ => blockNo c r k
          s.rangeBad (e.addr + i * c.scaleU) c.scaleU))
      else 0
    | none => 0
  let sd := match x.side with
    | some e => if c.op == .dequant then s.rangeBad (e.addr + t * 512) 512 else 0
    | none => 0
  let l := sc :: sd :: el
  if l.any (· == 2) then 2 else if l.any (· == 1) then 1 else if l.any (· == 3) then 3 else 0

/-- The operand of a captured element (R151): its exact decoded value rounded to 12 significand bits, and whether that was inexact. A value beyond
the largest operand that rounds to it under RNE takes it, and infinity from the half-way point on (DESIGN CHOICE, log 62). -/
def frontRound (v : Val) : Nat × Bool :=
  match v with
  | .nan .. => (0x7FC00000, false)
  | .inf neg => (if neg then 0xFF800000 else 0x7F800000, false)
  | .fin neg n d =>
    if n = 0 then (if neg then 0x80000000 else 0, false)
    else
      let e := max (flog2 n d) (-126)
      let k := 11 - e
      let num := if 0 ≤ k then n * 2 ^ k.toNat else n
      let den := if 0 ≤ k then d else d * 2 ^ (-k).toNat
      let q := num / den
      let r := num % den
      let up := decide (den < 2 * r) || (2 * r == den && q % 2 == 1)
      let q := if up then q + 1 else q
      let c := rne32 (Val.dyadic neg q (-k))
      (c, r != 0 || !isFin32 c)

/-- The scales under which a captured tile's codes were written (R102): none of its own for a CONVERT. A requantisation states no scale: `req` is a
free value (log 3). -/
def capScales (c : ConvD) (env : ConvEnv) (req t : Nat) : List (Nat × Nat) :=
  if c.op == .convert then []
  else if c.isRequant then [(0, req)]
  else match c.scaleSrc with
    | 0 => [(0, c.scaleValue)]
    | 1 => ((c.elems t).map (fun (_, r, _) => r)).eraseDups.map (fun r => (r, rowCode c env r))
    | 2 => [(0, scaleOf c (v32 env.effMax))]
    | _ => (c.elems t).foldl (fun l (_, r, k) =>
        if l.any (fun e => e.1 == blockNo c r k) then l else l ++ [(blockNo c r k, blkCode c env r k)]) []

/-- The ring copy of an output tile (R102). -/
def captured (c : ConvD) (env : ConvEnv) (q seq req : Nat) (o : TileOut) (poison : Bool) : Captured :=
  { ch := c.captureCh, q := q, seq := seq, no := o.tile, trow := c.trow o.tile, tcol := c.tcol o.tile, fmt := c.dstFmt
    codes := o.elts.map (fun e => (e.pos, e.cv.code)), scales := capScales c env req o.tile
    sides := if c.escEn then (o.elts.filter (fun e => e.cv.code == escCode c.df)).map (fun e => (e.pos, e.side)) else []
    poison := poison }

/-- The scale of the element at (row, col) of a ring copy. -/
def capScaleAt (t : Captured) (c : ConvD) (row col : Nat) : Val :=
  let at' := fun (i : Nat) => firstSome (fun (p : Nat × Nat) => if p.1 = i then some p.2 else none) t.scales
  if c.op == .convert then v32 0x3F800000
  else if c.isRequant then v32 ((at' 0).getD 0)
  else match c.scaleSrc with
    | 1 => v32 ((at' row).getD 0)
    | 3 => blkScale c.df ((at' (blockNo c row col)).getD 0)
    | _ => v32 ((at' 0).getD 0)

/-- The exact value that a reader of the destination decodes (R73, R151). -/
def capValue (t : Captured) (c : ConvD) (pos row col code : Nat) : Val :=
  let f := c.df
  match firstSome (fun (p : Nat × Nat) => if p.1 = pos then some p.2 else none) t.sides with
  | some v => v32 v
  | none =>
    let y := if f.isFloat then decodeFloat f code else
      match decodeVal f code with
      | .fin b n _ => Val.ofInt (sgn b n - c.z)
      | v => v
    Val.mul y (capScaleAt t c row col)

/-- The operands of a ring copy (R151, R156), by view row and column, and the number of those that are inexact. -/
def capOperands (t : Captured) (c : ConvD) (ipath : Bool) : List (Nat × Nat × Nat) × Nat :=
  let l := (c.elems t.no).map (fun (pos, row, col) =>
    let code := (firstSome (fun (p : Nat × Nat) => if p.1 = pos then some p.2 else none) t.codes).getD 0
    if ipath then ((row, col, code), false)
    else
      let (x, inexact) := frontRound (capValue t c pos row col code)
      ((row, col, x), inexact))
  (l.map (·.1), (l.filter (·.2)).length)

/-- The bytes that a ring copy takes in the front buffer: its codes at their width, its scales and its side-list entries (DESIGN CHOICE, log 62). -/
def capSize (t : Captured) (c : ConvD) : Nat :=
  ceilDiv (t.codes.length * fmtNib t.fmt) 2 + t.scales.length * (if c.scaleSrc = 3 then 1 else 4) + 8 * t.sides.length

/-- A conversion stops at a tile (R74, R88, R92, R280): what it has written stays, and its statistics are never applied. -/
def State.stopConv (s : State) (q seq code tid tile : Nat) : State :=
  s.dupd q seq (fun d => { d with phase := .done, status := code, committed := false, stopTid := tid, stopTile := tile })

/-- Writes records of `u` bytes, each at its index, into a tensor that the descriptor names. -/
def State.putParts (s : State) (own : ReqOwner) (en : Option TmEntry) (u tenant : Nat) (l : List (Nat × Nat)) (p : Bool) : State :=
  match en with
  | none => s
  | some e => l.foldl (fun s (i, v) => s.access own (e.addr + i * u) u e.attr tenant (some (toBytes u v)) p) s

/-- Converts tile `t` on logical segment `seg`, in the hardware of segment `phys`: its output beats or writes, scales, side list, statistics record and
ring copy. `pois` names the beats that carry poison. -/
def State.convOne (s : State) (q seq : Nat) (c : ConvD) (x : ConvEnts) (t seg phys : Nat) (pois : List Nat) : State :=
  match s.dfind q seq with
  | none => s
  | some d =>
    let env := s.convEnv d c x
    let o := convTile c env t
    if o.stop != 0 then s.stopConv q seq o.stop c.mainTid t
    else
      let own := ReqOwner.conv q seq
      let bad := !pois.isEmpty
      let first := pois.foldl min 64
      let s := if c.op == .stats then s
        else if c.dstStream then
          s.setSoOut (s.soOut ++ [{ seg := seg, tag := c.streamTag, trow := c.trow t, tcol := c.tcol t
                                    beats := tileBeats c o, lanes := c.beatLanes t
                                    poison := (List.range (c.beatLanes t).length).map (fun b => decide (first ≤ b)) }])
        else match x.dst with
          | none => s
          | some e =>
            let w := fun (p : Bool) => e.writes s.rdN (fmtNib c.dstFmt) (fun _ => true)
              ((o.elts.filter (fun y => decide (first ≤ y.pos / 64) == p)).map (fun y => (y.idx, y.cv.code)))
            (s.writeSet own (w false) e.attr d.tenant false).writeSet own (w true) e.attr d.tenant true
      let s := s.putParts own x.scale c.scaleU d.tenant o.scales bad
      let s := s.putParts own x.side 8 d.tenant o.sides bad
      let s := s.putParts own x.stats 256 d.tenant [(t, statsRecord t seg bad o.stats)] false
      let s := (s.bump O.segTiles phys 32 1).spend (300 * o.elts.length)
      let rq := (Config.requantScale d.firstBell q seq).toNat
      let s := if c.capture = 0 then s else s.setRing (s.ring ++ [captured c env q seq rq o bad])
      let fl := if c.strict then o.elts.foldl (fun a e => a ||| e.cv.flags) d.flags else 0
      let sat := fun a b => min (a + b) (2 ^ 32 - 1)
      let s := s.dupd q seq (fun d => { d with
        tilesOk := t :: d.tilesOk, flags := fl, aux0 := d.aux0 + 1
        aux1 := if bad then d.aux1 else sat d.aux1 o.stats.clips, aux2 := if bad then d.aux2 else sat d.aux2 o.stats.uflows
        feed := if bad then d.feed else feedFold c o.elts d.feed
        nan := if bad then d.nan else nanFold c.strict seg o.elts d.nan })
      if bad then s.stopConv q seq 0x0203 c.mainTid t else s

/-- The hardware segment that runs memory-source tile `t` (R93, R106, R107): the carrier of its member of the gang, or of the same member of the nearest
gang above, wrapping, every segment of which is carried; none while no gang is. -/
def State.memSeg (s : State) (c : ConvD) (t : Nat) : Option Nat :=
  let g := c.segOf t
  let base := g / c.gp * c.gp
  let gangs := (List.range (s.nSeg / c.gp)).map (fun i => (base + i * c.gp) % s.nSeg)
  match gangs.find? (fun b => (List.range c.gp).all (fun k => (s.segOf (b + k)).isSome)) with
  | some b => s.segOf (b + g % c.gp)
  | none => none

/-- The item of an event about an output beat of tile `t` (form U). -/
def tileItem (t beat : Nat) : Nat := t * 2 ^ 32 + beat % 256

/-- The checks of R293 on the output beats of tile `t` that hardware segment `u` carries for queue `q` (R105, R294, R302, R305): a beat that fails once is
recomputed; a lasting fault leaves the tile to the partner, when it serves; a bad cached entry is dropped. -/
def State.segChecks (s : State) (u q : Nat) (d : DRt) (t : Nat) (chk : Chk) : State :=
  let c : Ctx := { queue := some q, tenant := some d.tenant, seq := d.seq }
  match chk with
  | .ok => s
  | .transient cause item => s.transient 1 u cause (tileItem t item) (some O.segRetries) c
  | .lasting cause item _ => s.fence 1 u cause (tileItem t item) c
  | .twig tid => s.twigFault 1 u d.tenant tid c

/-- The outcome of the checks on tile `t`, met once. -/
def chkOf (d : DRt) (t : Nat) : Chk := ((d.chks.find? (fun p => p.1 == t)).map (·.2)).getD .ok

/-- Beats of tile `t` whose source memory is poisoned. -/
def State.poisBeats (s : State) (c : ConvD) (x : ConvEnts) (t : Nat) : List Nat :=
  let l := (List.range 64).filter (fun i => (c.elems t).any (fun (p, r, k) => decide (p / 64 = i) &&
    (match x.src with
     | some e => let (a, n) := e.at (e.index r k) (fmtNib c.srcFmt); s.rangeBad a n == 3
     | none => false)))
  if l.isEmpty then [0] else l

/-- One tile of a memory-source conversion: the checks on it, then its conversion, on the segment that carries it then. It waits while none does, and a
tile for a stream port waits while the port's pair is out (R107). -/
def State.runTile (s : State) (q : Nat) (d : DRt) (c : ConvD) (t : Nat) : State :=
  match s.memSeg c t with
  | none => s
  | some u =>
    let s := (s.dupd q d.seq (fun d => { d with chks := d.chks.filter (fun p => p.1 != t) })).segChecks u q d t (chkOf d t)
    match s.memSeg c t with
    | none => s
    | some u =>
      if c.dstStream && (s.segOf (c.segOf t)).isNone then s
      else match s.convEnts 1 u d.tenant c with
        | (s, .error (code, tid)) => s.stopConv q d.seq code tid t
        | (s, .ok x) =>
          let b := s.tileBad c x t
          if b = 1 || b = 2 then s.stopConv q d.seq (badCode b) c.mainTid t
          else s.convOne q d.seq c x t (c.segOf t) u (if b = 3 then s.poisBeats c x t else [])

/-- Runs the tiles listed of a memory-source conversion in order, until one stops it; once every tile is converted its work is done. -/
def State.convTiles (s : State) (q seq : Nat) (c : ConvD) : List Nat → State
  | [] =>
    (match s.dfind q seq with
     | some d => if d.phase == .running && d.tilesOk.length == c.tiles then s.doneD q seq else s
     | none => s)
  | t :: ts =>
    match s.dfind q seq with
    | none => s
    | some d =>
      if d.phase != .running then s
      else State.convTiles (if t ∈ d.tilesOk then s else s.runTile q d c t) q seq c ts

/-- Converts every group of a stream-source conversion whose tiles have all arrived (R93, R95), as far as their segments are carried. -/
def State.convGroups (s : State) (q seq : Nat) (c : ConvD) : List Nat → State
  | [] =>
    (match s.dfind q seq with
     | some d => if d.phase == .running && d.tilesOk.length == c.tiles then s.doneD q seq else s
     | none => s)
  | t :: ts =>
    match s.dfind q seq with
    | none => s
    | some d =>
      let have' := fun t => d.tilesIn.any (fun y => y.no c == t)
      if d.phase != .running || t ∈ d.tilesOk || !(c.mates t).all have' then State.convGroups s q seq c ts
      else match d.tilesIn.find? (fun y => y.no c == t) with
        | none => State.convGroups s q seq c ts
        | some y =>
          match s.segOf y.seg with
          | none => State.convGroups s q seq c ts
          | some u =>
            match s.convEnts 1 u d.tenant c with
            | (s, .error (code, tid)) => State.convGroups (s.stopConv q seq code tid t) q seq c ts
            | (s, .ok x) =>
              let pois := (y.beats.zipIdx.filter (fun (b, _) => b.poison)).map (·.2)
              let b := s.tileBad c x t
              if b = 1 || b = 2 then State.convGroups (s.stopConv q seq (badCode b) c.mainTid t) q seq c ts
              else State.convGroups (s.convOne q seq c x t y.seg u (if b = 3 then 0 :: pois else pois)) q seq c ts

/-- The reads of a conversion are answered: its tiles run (memory source), or those that have arrived (stream source), once no segment
is frozen (Table 14.3). -/
def State.convReady (s : State) (q seq : Nat) : State :=
  match s.dfind q seq with
  | some d =>
    (match d.d.body with
     | .conv c =>
       if d.phase != .running || s.segFrozen || s.waitsRead (.conv q seq) then s
       else s.reading (.tiles q seq) (fun s =>
         if c.srcStream then s.convGroups q seq c (List.range c.tiles) else s.convTiles q seq c (List.range c.tiles))
     | _ => s)
  | none => s

/-- The conversions under way go on, as a segment returns or a throttle ends. -/
def State.convResume (s : State) : State := s.queues.foldl (fun s (q, x) => x.infl.foldl (fun s d => s.convReady q d.seq) s) s

/-- The channel of a capturing descriptor learns where a re-read sweep finds its destination (R152). -/
def State.addCapture (s : State) (q seq : Nat) (c : ConvD) (x : ConvEnts) : State :=
  if c.capture = 0 then s
  else s.setChans (SMap.upd {} c.captureCh (fun ch => { ch with
    caps := mapIf (fun p => p.q == q && p.seq == seq) (fun p => { p with dst := x.dst, scale := x.scale, side := x.side }) ch.caps }) s.chans)

/-- A stream-side descriptor is not complete in the Hedge (R88, R89): it is dispatched, its work is not done, and no halt or reset ended it. -/
def takesTiles (d : DRt) : Bool :=
  d.sent && !((d.phase == .done || d.phase == .parked) && d.status == 0) && d.status != 0x010B &&
    d.status != 0x010A && !d.d.malformed && !d.d.body.isNoop

/-- The incomplete stream-side descriptor that holds a tag on a segment (R89), with its queue. -/
def State.tagHolder (s : State) (tag seg : Nat) : Option (Nat × DRt × ConvD) :=
  s.queues.findSome? (fun (q, x) => x.infl.findSome? (fun d => match d.d.body with
    | .conv c =>
      if (c.srcStream || c.dstStream) && c.streamTag == tag && decide (c.segBase ≤ seg) && decide (seg < c.segBase + c.segSpan) &&
        takesTiles d
      then some (q, d, c) else none
    | _ => none))

/-- The descriptor to which a tile with a tag on a segment belongs (R89). -/
def State.tagged (s : State) (tag seg : Nat) : Option (Nat × DRt × ConvD) := (s.tagHolder tag seg).filter (fun x => x.2.2.srcStream)

/-- A stream-side descriptor whose tag an incomplete descriptor holds on some segment of its range waits at dispatch (R89), as does a capture that its
channel has not yet judged. -/
def State.dispHeld (s : State) (d : DRt) (c : ConvD) : Bool :=
  ((c.srcStream || c.dstStream) && (List.range c.segSpan).any (fun i => (s.tagHolder c.streamTag (c.segBase + i)).isSome)) ||
    (c.capture != 0 && d.capCode.isNone && !d.d.body.isNoop)

/-- A framed tile arrives for its descriptor (R88, R89, R93). -/
def State.tileIn (s : State) (q : Nat) (d : DRt) (c : ConvD) (t : Tile) : State :=
  if d.phase == .parked || d.phase == .done then s
  else
    let no := t.no c
    let (u, k) := c.group no
    let okSeg := c.gang == 1 ||
      (t.seg % c.gp == k && d.tilesIn.all (fun y => (c.group (y.no c)).1 != u || y.seg / c.gp == t.seg / c.gp))
    if !t.framed c || d.tilesIn.any (fun y => y.no c == no) || !okSeg then s.stopConv q d.seq 0x0201 c.mainTid no
    else (s.dupd q d.seq (fun d => { d with tilesIn := d.tilesIn ++ [t] })).convReady q d.seq

/-- A tile meets the checks of R293 on the segment that carries its port, and enters its descriptor. -/
def State.takeTile (s : State) (q : Nat) (d : DRt) (c : ConvD) (t : Tile) (chk : Chk) : State :=
  match s.segOf t.seg with
  | none => s
  | some u =>
    let s := s.segChecks u q d (t.no c) chk
    if (s.segOf t.seg).isNone then s else s.tileIn q d c t

/-- The orphans that wait on the ports of a range join a descriptor that has just been dispatched (R90), where the port takes a beat: while the Hedge is
frozen (R108), or the pair is out, they go on waiting. -/
def State.joinOrphans (s : State) (q seq : Nat) (c : ConvD) : State :=
  if s.segFrozen then s
  else (List.range c.segSpan).foldl (fun s i =>
    let seg := c.segBase + i
    match SMap.look none s.waitTiles seg, s.dfind q seq, s.segOf seg with
    | some (t, k), some d, some _ =>
      if t.tag = c.streamTag then (s.setWaitTiles (SMap.put none seg none s.waitTiles)).takeTile q d c t k else s
    | _, _, _ => s) s

/-- The orphans that waited through a freeze or for their pair join the descriptors that name them. -/
def State.joinAll (s : State) : State :=
  s.waitTiles.foldl (fun s (seg, o) => match o with
    | some (t, _) => (match s.tagged t.tag seg with | some (q, d, c) => s.joinOrphans q d.seq c | none => s)
    | none => s) s

/-- A conversion descriptor is refused: it captures nothing. -/
def State.refuseConv (s : State) (q seq : Nat) (c : ConvD) (code tid : Nat) : State := (s.dropCapture q seq c).refuseD q seq code tid

/-- A conversion that its dispatch accepts starts, with the entries of its tensors: its reads are issued, and every tile that is there is converted. -/
def State.runConv (s : State) (q : Nat) (d : DRt) (c : ConvD) (ks : TileChks) (x : ConvEnts) : State :=
  let (a, b, e) := convBeats c x
  let o := ReqOwner.conv q d.seq
  let s := (s.dupd q d.seq (fun d => { d with phase := .running, sent := true, chks := ks })).addCapture q d.seq c x
  let s := s.readBeats o a (attrOf x.src) d.tenant
  let s := s.readBeats o b (attrOf x.scale) d.tenant
  let s := (s.readBeats o e (attrOf x.side) d.tenant).convReady q d.seq
  if c.srcStream then s.joinOrphans q d.seq c else s

/-- A conversion descriptor is dispatched (R79, R104, R239): refused, done at once when it has nothing to do, or started. -/
def State.dispConv (s : State) (q : Nat) (d : DRt) (c : ConvD) (ks : TileChks) : State :=
  if d.noSync then s.refuseD q d.seq 0x0106 c.mainTid
  else if d.d.body.isNoop then s.doneD q d.seq
  else if s.dispHeld d c then s
  else s.readThen (.desc q d.seq) (fun s => s.convRefusal q d c) (fun s r => match r with
    | .error (code, tid) => s.refuseConv q d.seq c code tid
    | .ok x => if c.inert && !c.srcStream then s.doneD q d.seq else s.runConv q d c ks x)

/-! Commit. -/

/-- The NaN-trap record of Table 2.11. -/
def trapRecord (opcode q seq tid seg idx bell : Nat) (snan produced : Bool) : Nat :=
  (q + b2n produced * 2 ^ 18 + b2n snan * 2 ^ 19 + opcode * 2 ^ 24) + seq * 2 ^ 32 + tid * 2 ^ 64 + seg * 2 ^ 96 + (idx % 2 ^ 40) * 2 ^ 128 +
    (bell % 2 ^ 64) * 2 ^ 192

/-- The NaN trap at a commit (R48, R316, R317). -/
def State.trap (s : State) (q : Nat) (d : DRt) (tid : Nat) : State :=
  let x := s.queue q
  if x.trapMode = 0 ∨ d.nan.count = 0 then s
  else if x.trapBell = some d.bell then s.bump O.nanTrapExtra q 32 d.nan.count
  else
    let r := trapRecord d.d.opcode q d.seq tid d.nan.seg d.nan.idx d.bell d.nan.snan d.nan.produced
    let s := (s.put O.nanTrapLast q r).bump O.nanTrapExtra q 32 (d.nan.count - 1)
    let s := (s.updQueue q (fun x => { x with trapBell := some d.bell })).dupd q d.seq (fun d =>
      { d with trapIrq := x.trapMode == 2, trapHalt := x.trapMode == 3 })
    s.report { code := 0x0905, queue := some q, tenant := some d.tenant, payload := r }

/-- A descriptor feeds its history slot (R63, Table 3.5). -/
def State.feedSlot (s : State) (c : ConvD) (f : HistFeed) : State :=
  if (c.op == .quant || c.op == .stats) && c.scaleSrc == 2 && !c.isRequant then
    s.setHist (SMap.upd {} c.histSlot (fun h => { h with
        fed := true, curMax := if Val.lt (v32 h.curMax) (v32 f.a) then f.a else h.curMax
        elements := h.elements + f.elements, clips := h.clips + f.clips, nonzero := h.nonzero + f.nonzero
        uflows := h.uflows + f.uflows }) s.hist)
  else s

/-- What a commit applies (R246, R255): history feed, NaN trap, element count, and the progress of its capture channel. -/
def State.applyCommit (s : State) (q : Nat) (d : DRt) : State :=
  match d.d.body with
  | .conv c =>
    let s := if d.status = 0 ∧ !d.d.body.isNoop ∧ !d.d.malformed ∧ !c.inert then
        (s.feedSlot c d.feed).trap q d c.mainTid
      else s
    let s := if d.status = 0 ∧ !d.d.malformed then s.acct O.acctElements q (c.rows * c.rowLen) else s
    if c.capture = 0 then s
    else s.setChans (SMap.upd {} c.captureCh (fun ch => { ch with
      caps := mapIf (fun p => p.q == q && p.seq == d.seq) (fun p => { p with done := true, failed := d.status != 0 }) ch.caps }) s.chans)
  | .reduce r =>
    if d.status = 0 ∧ !d.d.malformed then (s.trap q d r.dstTid).acct O.acctElements q r.count else s
  | _ => s

/-- The descriptor commits, or ends with its error; its record is released when it is the queue's oldest, and parked otherwise (R245, R246). -/
def State.commitD (s : State) (q : Nat) (d : DRt) : State :=
  let s := if d.isRout then s
    else (s.dupd q d.seq (fun e => { e with committed := e.status == 0 })).applyCommit q { d with committed := d.status == 0 }
  match s.dfind q d.seq with
  | some d =>
    let s := s.park q d
    (match s.releasable q with
     | some h => if h.seq = d.seq then s.releaseHead q h else s
     | none => s)
  | none => s

end Sys2Proof.Machine
end

