-- ==== Sys2Proof/Machine/Schedule.lean ====
section
/-! DEFINITION. Schedule images of SOLVE (R164, R165): the header, the pattern, the steps, and when a schedule is valid. `raw` is the
image as a little-endian number. -/

namespace Sys2Proof

structure SchedH where
  sb : Nat
  nb : Nat
  dim : Nat
  steps : Nat
  bytes : Nat
  patOff : Nat
  stepOff : Nat
  digest : Nat
  ok : Bool
deriving DecidableEq, Repr

/-- The header of Table 6.5; `ok` is false when a reserved field is not 0 or a field lies outside its range. -/
def SchedH.ofRaw (h : Nat) : SchedH :=
  let lg := fld h 4 24 4
  let dim := fld h 4 0 15
  let nb := fld h 4 16 8
  { sb := 2 ^ lg, nb := nb, dim := dim, steps := dw h 8, bytes := dw h 12, patOff := dw h 16, stepOff := dw h 20
    digest := bits h 256 64
    ok := dw h 0 == 1 && fld h 4 28 4 == 0 && !bitAt h (32 + 15) && (lg == 7 || lg == 8 || lg == 9) && bits h 192 64 == 0 &&
      bits h 320 192 == 0 && decide (1 ≤ dw h 8) && decide (dw h 8 ≤ 1048576) && dw h 12 % 16 == 0 && dw h 16 % 8 == 0 &&
      dw h 20 % 16 == 0 && decide (1 ≤ nb) && decide (nb ≤ 128) && nb == ceilDiv dim (2 ^ lg) }

def SchedH.patBytes (h : SchedH) : Nat := ceilDiv (h.nb * (h.nb + 1)) 16

/-- The sections lie within bytes 64 to SCHED_BYTES − 1 and do not overlap. -/
def SchedH.fits (h : SchedH) : Bool :=
  let pe := h.patOff + h.patBytes
  let se := h.stepOff + 16 * h.steps
  decide (64 ≤ h.patOff) && decide (64 ≤ h.stepOff) && decide (pe ≤ h.bytes) && decide (se ≤ h.bytes) &&
    (decide (pe ≤ h.stepOff) || decide (se ≤ h.patOff))

/-- Pattern bit of block (i, j), i ≥ j. -/
def SchedH.pat (h : SchedH) (raw i j : Nat) : Bool := bitAt raw (8 * h.patOff + i * (i + 1) / 2 + j)

/-- Padding of R164 is 0. -/
def SchedH.padZero (h : SchedH) (raw : Nat) : Bool :=
  (List.range (8 * h.patBytes - h.nb * (h.nb + 1) / 2)).all (fun b => !bitAt raw (8 * h.patOff + h.nb * (h.nb + 1) / 2 + b)) &&
    (rangeFrom 64 (h.bytes - 64)).all (fun a =>
      (decide (h.patOff ≤ a) && decide (a < h.patOff + h.patBytes)) ||
      (decide (h.stepOff ≤ a) && decide (a < h.stepOff + 16 * h.steps)) || bits raw (8 * a) 8 == 0)

def SchedH.stepList (h : SchedH) (raw : Nat) : List SStep :=
  (List.range h.steps).map (fun n => SStep.ofRaw (bits raw (8 * (h.stepOff + 16 * n)) 128))

/-- Positions of the steps of a kind on a block. -/
def stepsAt (l : List SStep) (kind i j : Nat) : List Nat :=
  (l.zipIdx.filter (fun (x, _) => x.kind == kind && x.i == i && x.j == j)).map (·.2)

/-- The position at which block (i, j) is final: its FACTOR or PANEL. -/
def finalAt (l : List SStep) (i j : Nat) : Nat := (stepsAt l (if i = j then 1 else 2) i j).headD l.length

/-- UPDATE parts cover k = 0 to j − 1 in contiguous ascending ranges, in part order. -/
def partsCover : Nat → List SStep → Nat → Bool
  | lo, [], j => lo == j
  | lo, x :: xs, j => x.kLo == lo && decide (x.kLo ≤ x.kHi) && partsCover (x.kHi + 1) xs j

/-- The steps of R163 in order: forward rows ascending, backward rows descending. -/
def SchedH.sweeps (h : SchedH) (raw : Nat) : List (Nat × Nat × Nat) :=
  (List.range h.nb).flatMap (fun i =>
    ((List.range i).filter (h.pat raw i)).map (fun j => (3, i, j)) ++ [(4, i, i)]) ++
  (List.range h.nb).reverse.flatMap (fun j =>
    ((rangeFrom (j + 1) (h.nb - 1 - j)).reverse.filter (fun i => h.pat raw i j)).map (fun i => (5, i, j)) ++ [(6, j, j)])

/-- Rules 2 to 5 of R165 on the steps. -/
def SchedH.stepsOk (h : SchedH) (raw arrays : Nat) : Bool :=
  let l := h.stepList raw
  let blocks := (List.range h.nb).flatMap (fun i => ((List.range (i + 1)).filter (h.pat raw i)).map (fun j => (i, j)))
  (List.range h.nb).all (fun i => h.pat raw i i) &&
  l.zipIdx.all (fun (x, p) =>
    decide (x.kind < 8) && bits raw (8 * (h.stepOff + 16 * p)) 84 == 0 &&
    (x.kind == 7 || (decide (x.larr < arrays) && decide (x.i < h.nb) && decide (x.j ≤ x.i) && h.pat raw x.i x.j)) &&
    (x.kind != 1 && x.kind != 4 && x.kind != 6 || x.i == x.j) && (x.kind != 2 || decide (x.j < x.i))) &&
  blocks.all (fun (i, j) =>
    let us := (l.zipIdx.filter (fun (x, _) => x.kind == 0 && x.i == i && x.j == j))
    let sorted := (sortBy (fun (x : SStep) => x.part) (us.map (·.1)))
    let fin := finalAt l i j
    (stepsAt l (if i = j then 1 else 2) i j).length == 1 &&
    (if j = 0 then us.isEmpty
     else partsCover 0 sorted j && sorted.zipIdx.all (fun (x, n) => x.part == n && x.partsM1 + 1 == sorted.length)) &&
    us.all (fun (x, p) => decide (p < fin) && (rangeFrom x.kLo (x.kHi + 1 - x.kLo)).all (fun k =>
      (!h.pat raw i k || decide (finalAt l i k < p)) && (!h.pat raw j k || decide (finalAt l j k < p)))) &&
    (i == j || decide (finalAt l j j < fin))) &&
  (let sw := l.zipIdx.filter (fun (x, _) => decide (3 ≤ x.kind) && decide (x.kind ≤ 6))
   sw.map (fun (x, _) => (x.kind, x.i, x.j)) == h.sweeps raw &&
   sw.all (fun (_, p) => blocks.all (fun (i, j) => decide (finalAt l i j < p))))

/-- A schedule is valid under R165 for a SOLVE of dimension `dim` on `arrays` logical arrays. -/
def SchedH.valid (h : SchedH) (raw dim arrays store extent : Nat) : Bool :=
  h.ok && h.dim == dim && decide (h.bytes ≤ store) && decide (h.bytes ≤ extent) && h.fits && h.padZero raw && h.stepsOk raw arrays

end Sys2Proof
end

