-- ==== Sys2Proof/Machine/RoutStart.lean ====
section
/-! DEFINITION. The dispatch of a routine: the image store, the refusals of Table 6.9 in their order, result objects, and the state in which
the first iteration starts (R139, R140, R142 to R146, R173, R179). -/

namespace Sys2Proof

/-- BANK_SPAN (R144). -/
def bankSpan (dim cols entry : Nat) : Nat := ceilDiv (dim * cols * entry) 4096 * 4096

/-- A result object as its header reads (Table 6.3); `raw` is the header. -/
structure ResObj where
  ent : TmEntry
  raw : Nat
  step : Nat
  init : Bool
  cur : Nat
  form : Nat
  kind : Nat
  dim : Nat
  cols : Nat
  rsv : Bool

def ResObj.ofHeader (e : TmEntry) (h : Nat) : ResObj :=
  { ent := e, raw := h, step := dw h 0, init := bitAt h (128 + 31), cur := fld h 16 30 1, form := fld h 16 28 2, kind := fld h 16 25 3
    dim := fld h 16 0 15, cols := fld h 20 0 17
    rsv := fld h 16 15 10 != 0 || fld h 20 17 15 != 0 || fld h 32 13 19 != 0 || bits h 288 224 != 0 }

/-- The conditions of R144 under which a routine is refused with F_RESULT. -/
def ResObj.bad (o : ResObj) (kind form dim cols : Nat) : Bool :=
  decide (o.ent.extent < 4096 + 2 * bankSpan dim cols (if form = 1 then 8 else 4)) || o.rsv ||
    (o.init && (o.kind != kind || o.form != form || o.dim != dim || o.cols != cols))

def ResObj.sample (o : ResObj) (tid dim cols form : Nat) : Sampled :=
  { tid := tid, init := o.init, bank := o.cur, span := bankSpan dim cols (if form = 1 then 8 else 4), step := o.step, addr := o.ent.addr }

/-! Fields of a PRECOND layer entry (Table 6.7). -/
def leRows (e : Nat) : Nat := fld e 16 0 15
def leCols (e : Nat) : Nat := fld e 16 16 15
def leLeftId (e : Nat) : Bool := bitAt e (128 + 15)
def leRightId (e : Nat) : Bool := bitAt e (128 + 31)
def leSkip (e : Nat) : Bool := leRows e == 0 || leCols e == 0

/-- Values of Table 6.2 that are encodable and invalid (F_RPARAM). -/
def RoutD.badParam (r : RoutD) (list : List Nat) : Bool :=
  let nonneg := fun (c : Nat) => isFin32 c && !(Val.lt (v32 c) .zero)
  match r.kind with
  | .gram => decide (16384 < r.dim) || decide (16777216 < r.tokens) ||
      (!r.chParams && (!(nonneg r.decay) || Val.lt (v32 0x3F800000) (v32 r.decay) || !(isFin32 r.weight)))
  | .root => decide (16384 < r.dim) || decide (64 < r.niter) || decide (64 < r.npow) || !(nonneg r.damp) || !(nonneg r.tol) || isNan32 r.residTol || !(Val.lt .zero (v32 r.residTol))
  | .solve => decide (16384 < r.dim) || decide (65536 < r.rhsCols) || !(nonneg r.damp)
  | .precond => decide (64 < r.layers) || list.any (fun e => decide (16384 < leRows e) || decide (16384 < leCols e) || bits e 160 96 != 0 ||
      (leLeftId e && dw e 4 != 0) || (leRightId e && dw e 8 != 0))

/-- −0 is taken as +0 (Table 6.2). -/
def plusZero (c : Nat) : Nat := if c = 0x80000000 then 0 else c

/-- LREC and the span of a checkpoint slot (R167). -/
def Image.lrec (i : Image) : Nat := 4352 + 16384 * ((List.range 32).filter (bitAt i.liveMask)).length
def Image.slotSpan (i : Image) : Nat := ceilDiv (64 + i.lanterns * i.lrec) 4096 * 4096

/-- The form and kind of the object that a routine writes to OUT_TID (R144, Table 6.3). -/
def RKind.outForm (k : RKind) : Nat := if k = .gram then 1 else 0
def RKind.outKind (k : RKind) : Nat := match k with | .gram => 1 | .root => 2 | _ => 3

/-- Evicts entries that `keep` does not hold, least recently dispatched first, until `need` bytes fit (R140). -/
def evict {StoreEnt' : Type} (keep : StoreEnt' → Bool) (size : StoreEnt' → Nat) (need cap : Nat) : Nat → List StoreEnt' → Option (List StoreEnt')
  | 0, l => if sumN (l.map size) + need ≤ cap then some l else none
  | n + 1, l =>
    if sumN (l.map size) + need ≤ cap then some l
    else match l.findIdx? (fun e => !keep e) with
      | none => none
      | some i => evict keep size need cap n (l.eraseIdx i)

end Sys2Proof

namespace Sys2Proof.Machine

/-- The code that stands for a wait at dispatch. -/
def waitCode : Nat := 0x10000

/-- The tensor that a routine's event names when a check or walk of it fails (R280, R307). -/
def State.blame (s : State) (r : Rout) (tid : Nat) : State := s.rupd r.q r.seq (fun r => { r with faultTid := tid })

/-- A failed check names its tensor. -/
def blaming {α : Type} (r : Rout) (tid : Nat) (p : Chked α) : Chked α :=
  match p with
  | (s, .error c) => (s.blame r tid, .error c)
  | p => p

/-- Resolves a tensor of a routine. -/
def State.rres (s : State) (r : Rout) (tid : Nat) : Chked TmEntry := blaming r tid (s.wres r.tenant tid)

/-- Reads a result object's header. -/
def State.readObj (s : State) (r : Rout) (tid : Nat) : Chked ResObj :=
  andThen (s.rres r tid) (fun s e =>
    if e.extent < 64 then (s, .ok (ResObj.ofHeader e 0))
    else blaming r tid (andThen (s.readC e.addr 64 e.attr r.tenant) (fun s h => (s, .ok (ResObj.ofHeader e h)))))

/-! Checks 1 to 8 of Table 6.9. -/

/-- Format of a tensor is among those allowed, else F_FORMAT. -/
def State.fmtIn (s : State) (r : Rout) (tid : Nat) (fs : List Nat) : Chked Unit :=
  andThen (s.rres r tid) (fun s e => blaming r tid (guardC s (!(e.fmt ∈ fs)) 0x0102))

def State.listFmts (s : State) (r : Rout) : List Nat → Chked Unit
  | [] => (s, .ok ())
  | e :: es =>
    if leSkip e then State.listFmts s r es
    else andThen (s.fmtIn r (dw e 0) [0, 1, 2, 3, 4]) (fun s _ => andThen (s.fmtIn r (dw e 12) [0, 2]) (fun s _ =>
      State.listFmts s r es))

def State.checkFormat (s : State) (r : Rout) (list : List Nat) : Chked Unit :=
  match r.r.kind with
  | .gram => guardC s (r.r.ipath && s.variant == .m) 0x0102
  | .root => (s, .ok ())
  | .solve => if r.r.rhsCols = 0 then (s, .ok ()) else s.fmtIn r r.r.rhsTid [0]
  | .precond => s.listFmts r list

/-- Every element of a matrix of `rows` × `cols` lies within the tensor, else F_VIEW (R276); a tensor without rows holds it row by row. -/
def State.rangeIn (s : State) (r : Rout) (tid rows cols : Nat) : Chked Unit :=
  andThen (s.rres r tid) (fun s e =>
    let i := if e.rows = 0 then e.offset + rows * cols - 1 else e.index (rows - 1) (cols - 1)
    blaming r tid (guardC s (rows != 0 && cols != 0 && !e.holds i (fmtNib e.fmt)) 0x0105))

def State.listRanges (s : State) (r : Rout) : List Nat → Chked Unit
  | [] => (s, .ok ())
  | e :: es =>
    if leSkip e then State.listRanges s r es
    else andThen (s.rangeIn r (dw e 0) (leRows e) (leCols e)) (fun s _ => andThen (s.rangeIn r (dw e 12) (leRows e) (leCols e)) (fun s _ =>
      State.listRanges s r es))

/-- The ranges of RHS, G and OUTG (R276). Table 6.9 does not list the check: it comes after those that it lists (DESIGN CHOICE, log 67). -/
def State.checkRanges (s : State) (r : Rout) (list : List Nat) : Chked Unit :=
  match r.r.kind with
  | .solve => if r.r.rhsCols = 0 then (s, .ok ()) else s.rangeIn r r.r.rhsTid r.r.dim r.r.rhsCols
  | .precond => s.listRanges r list
  | _ => (s, .ok ())

/-- A store entry is in use by an incomplete routine (R140), or is one that the routine being dispatched has just taken. -/
def State.storeUsed (s : State) (mine : List Nat) (tenant : Nat) (e : StoreEnt) : Bool :=
  (e.tenant == tenant && e.tid ∈ mine) ||
  s.routs.any (fun r => r.phase != .admitted && r.phase != .over && r.tenant == e.tenant &&
    ((r.r.imageTid == e.tid && (r.img.map (·.digest)) == some e.digest) || (r.r.kind == .solve && r.r.schedTid == e.tid && r.schedDigest == e.digest)))

/-- Puts an entry into the image store as the most recently dispatched, evicting others (R140). -/
def State.placeEnt (s : State) (mine : List Nat) (e : StoreEnt) : Chked StoreEnt :=
  match evict (s.storeUsed mine e.tenant) (·.bytes) e.bytes (s.obj O.imageStoreBytes) s.store.length s.store with
  | none => (s, .error waitCode)
  | some l => (((s.setStore (l ++ [e]))).bump O.imageLoads 0 32 1, .ok e)

/-- The stored copy of a key, made the most recently dispatched. -/
def State.stored (s : State) (tenant tid digest : Nat) : Option (State × StoreEnt) :=
  match s.store.find? (fun e => e.tenant == tenant && e.tid == tid && e.digest == digest) with
  | none => none
  | some e => some ((s.setStore (s.store.erase e ++ [e])), e)

/-- Steps 1 to 4 of R140 for the image: its header, then the stored copy or a load. -/
def State.checkImage (s : State) (r : Rout) : Chked (Image × TmEntry) :=
  blaming r r.r.imageTid (andThen (s.wres r.tenant r.r.imageTid) (fun s e =>
    if e.extent < 128 then (s, .error 0x0401)
    else andThen (s.readC e.addr 128 e.attr r.tenant) (fun s h =>
      let i := Image.ofHeader h
      if i.badHeader (routNo r.r.kind + 1) (s.obj O.archLevelGranted) (s.obj O.imageStoreBytes) || decide (e.extent < i.imageBytes) then
        (s, .error 0x0401)
      else match s.stored r.tenant r.r.imageTid i.digest with
        | some (s, c) => (s, .ok ({ i with code := (c.img.map (·.code)).getD [], arr := (c.img.map (·.arr)).getD [] }, e))
        | none =>
          andThen (s.readC e.addr i.imageBytes e.attr r.tenant) (fun s raw =>
            if crc64 ((toBytes i.imageBytes raw).drop 128) != i.digest then (s.bump O.imageLoads 0 32 1, .error 0x0401)
            else
              let i := { i with code := (List.range i.codeWords).map (fun k => bits raw (8 * (i.codeOff + 8 * k)) 64)
                                arr := (List.range i.arrWords).map (fun k => bits raw (8 * (i.arrOff + 16 * k)) 128) }
              andThen (s.placeEnt [] { tenant := r.tenant, tid := r.r.imageTid, digest := i.digest, bytes := i.imageBytes, img := some i, sched := [] })
                (fun s _ => (s, .ok (i, e)))))))

/-- The schedule of a SOLVE (R164, R165), from the store or loaded, with its digest; a digest that its body does not have is R140's F_IMAGE. -/
def State.checkSched (s : State) (r : Rout) (i : Image) : Chked (Nat × List SStep) :=
  if r.r.kind != .solve then (s, .ok (0, []))
  else blaming r r.r.schedTid (andThen (s.wres r.tenant r.r.schedTid) (fun s e =>
    if e.extent < 64 then (s, .error 0x0405)
    else andThen (s.readC e.addr 64 e.attr r.tenant) (fun s hraw =>
      let h := SchedH.ofRaw hraw
      let cap := s.obj O.imageStoreBytes
      if !h.ok || h.dim != r.r.dim || decide (cap < h.bytes) || decide (e.extent < h.bytes) || !h.fits then (s, .error 0x0405)
      else match s.stored r.tenant r.r.schedTid h.digest with
        | some (s, c) =>
          if c.sched.all (fun x => x.kind == 7 || decide (x.larr < i.arrays)) then (s, .ok (h.digest, c.sched)) else (s, .error 0x0405)
        | none =>
          andThen (s.readC e.addr h.bytes e.attr r.tenant) (fun s raw =>
            if crc64 ((toBytes h.bytes raw).drop 64) != h.digest then (s.bump O.imageLoads 0 32 1, .error 0x0401)
            else if !h.valid raw r.r.dim i.arrays cap e.extent then (s.bump O.imageLoads 0 32 1, .error 0x0405)
            else
              andThen (s.placeEnt [r.r.imageTid] { tenant := r.tenant, tid := r.r.schedTid, digest := h.digest, bytes := h.bytes
                                                   img := none, sched := h.stepList raw })
                (fun s c => (s, .ok (h.digest, c.sched)))))))

/-- One side of a PRECOND layer entry: the root it names, checked; nothing for an identity side. -/
def State.layerSide (s : State) (r : Rout) (none' : Bool) (tid dim : Nat) : Chked Sampled :=
  if none' then (s, .ok { tid := 0, init := false, bank := 0, span := 0, step := 0, addr := 0 })
  else andThen (s.readObj r tid) (fun s o => if o.bad 2 0 dim dim then (s.blame r tid, .error 0x0404) else (s, .ok (o.sample tid dim dim 0)))

/-- The roots that a PRECOND layer entry names, checked under R166; an identity side samples nothing. -/
def State.layerObjs (s : State) (r : Rout) : List Nat → Chked (List Sampled)
  | [] => (s, .ok [])
  | e :: es =>
    andThen (s.layerSide r (leSkip e || leLeftId e) (dw e 4) (leRows e)) (fun s a =>
      andThen (s.layerSide r (leSkip e || leRightId e) (dw e 8) (leCols e)) (fun s b =>
        andThen (State.layerObjs s r es) (fun s l => (s, .ok (a :: b :: l)))))

/-- What the result-object checks leave: the objects written and the samples (R144, R146). -/
structure ResCheck where
  out : Option ResObj := none
  sol : Option ResObj := none
  samples : List Sampled := []

/-- A result object of a kind, form and size (R144); `keep` notes its header for RESULT_STEP and STALE_USES (R145, R147). -/
def State.needObj (s : State) (r : Rout) (tid kind form cols : Nat) (keep : Nat → Rout → Rout) : Chked ResObj :=
  andThen (s.readObj r tid) (fun s o =>
    let s := s.rupd r.q r.seq (keep o.raw)
    if o.bad kind form r.r.dim cols then (s.blame r tid, .error 0x0404) else (s, .ok o))

/-- The header of OUT_TID, and of SOLN_TID, as read. -/
def keepOut (h : Nat) (r : Rout) : Rout := { r with outHdr := some h }
def keepSol (h : Nat) (r : Rout) : Rout := { r with solHdr := some h }

def State.checkResults (s : State) (r : Rout) (list : List Nat) : Chked ResCheck :=
  let d := r.r
  match d.kind with
  | .precond => andThen (s.layerObjs r list) (fun s l => (s, .ok { samples := l }))
  | .gram => andThen (s.needObj r d.outTid 1 1 d.dim keepOut) (fun s o => (s, .ok { out := some o, samples := [o.sample d.outTid d.dim d.dim 1] }))
  | .root =>
    andThen (s.needObj r d.outTid 2 0 d.dim keepOut) (fun s o => andThen (s.needObj r d.inTid 1 1 d.dim (fun _ r => r)) (fun s i =>
      (s, .ok { out := some o, samples := [i.sample d.inTid d.dim d.dim 1] })))
  | .solve =>
    andThen (s.needObj r d.outTid 3 0 d.dim keepOut) (fun s o => andThen (s.needObj r d.inTid 1 1 d.dim (fun _ r => r)) (fun s i =>
      if d.rhsCols = 0 then (s, .ok { out := some o, samples := [i.sample d.inTid d.dim d.dim 1] })
      else andThen (s.needObj r d.solnTid 4 0 d.rhsCols keepSol) (fun s x =>
        (s, .ok { out := some o, sol := some x, samples := [i.sample d.inTid d.dim d.dim 1] }))))

/-- The staging and context areas (R139, R167). -/
def State.checkAreas (s : State) (r : Rout) (i : Image) : Chked (TmEntry × TmEntry) :=
  andThen (s.rres r r.r.stageTid) (fun s st => andThen (s.rres r r.r.ctxTid) (fun s cx =>
    if st.extent < i.stageBytes then (s.blame r r.r.stageTid, .error 0x0403)
    else if cx.extent < 2 * i.slotSpan then (s.blame r r.r.ctxTid, .error 0x0403)
    else (s, .ok (st, cx))))

/-- A routine on which every dispatch check has passed, as its first iteration starts (R146, R179). -/
def routStart (r : Rout) (i : Image) (imgBase : Nat) (sched : Nat × List SStep) (c : ResCheck) (st cx : TmEntry) : Rout :=
  { r with phase := .loaded, img := some i, imgBase := imgBase, schedDigest := sched.1, sched := sched.2, samples := c.samples, faultTid := 0
           outHdr := c.out.map (·.raw), solHdr := c.sol.map (·.raw)
           lans := (List.range i.lanterns).map (fun l => { pc := nth 0 i.entries l })
           arrs := (List.range i.arrays).map (fun _ => {})
           outEnt := c.out.map (·.ent), outCur := (c.out.map (·.cur)).getD 0
           outSpan := bankSpan r.r.dim r.r.dim (if r.r.kind = .gram then 8 else 4)
           solEnt := c.sol.map (·.ent), solCur := (c.sol.map (·.cur)).getD 0, solSpan := bankSpan r.r.dim r.r.rhsCols 4
           stageEnt := some st, ctxEnt := some cx
           lam := plusZero r.r.damp, iteration := 0, retry := 0, cursor := 0, inSched := false, schedPcs := [] }

/-- All the checks of a routine's dispatch, in the order of Table 6.9, then the units (R298). -/
def State.checkRout (s : State) (r : Rout) (d : DRt) : Chked Rout :=
  if d.listErr != 0 then (s.blame r r.r.listTid, .error d.listErr)
  else andThen (s.checkFormat r d.list) (fun s _ => andThen (s.checkImage r) (fun s (i, e) =>
    andThen (guardC s (i.badShape s.nArr s.nLan r.r.dim) 0x0402) (fun s _ =>
    andThen (guardC s (r.r.badParam d.list) 0x0109) (fun s _ =>
    andThen (s.checkSched r i) (fun s sc =>
    andThen (s.checkResults r d.list) (fun s c =>
    andThen (s.checkAreas r i) (fun s (st, cx) =>
    andThen (guardC s (r.r.kind == .gram && !r.chOk) 0x0108) (fun s _ =>
    andThen (s.checkRanges r d.list) (fun s _ =>
    andThen (guardC s ((s.arrOf 0).isNone || (s.lanOf 0).isNone) 0x010D) (fun s _ =>
      (s, .ok (routStart r i e.base sc c st cx))))))))))))

/-- The descriptor runs. -/
def State.nowRuns (s : State) (q seq : Nat) : State := s.dupd q seq (fun d => { d with phase := .running })

/-- A routine descriptor is dispatched (R139, R143, R147, R173): it is refused, completes as a no-op, ends for want of an input, waits for
the image store, or starts. -/
def State.dispRout (s : State) (q : Nat) (d : DRt) : State :=
  match s.rfind q d.seq with
  | none => s
  | some r =>
    if r.r.isNoop then (s.nowRuns q d.seq).endRout q d.seq 1 0
    else if s.testDrains then s
    else if r.hdrCode != 0 then ((s.nowRuns q d.seq).blame r r.r.imageTid).faultRout q d.seq r.hdrCode
    else s.readThen (.desc q d.seq) (fun s => s.checkRout r d) (fun t x => match x with
      | .error c => if c = waitCode then s else (t.nowRuns q d.seq).faultRout q d.seq c
      | .ok r' =>
        let t := (t.nowRuns q d.seq).rupd q d.seq (fun _ => t.place r' true)
        if (r'.r.kind = .root ∨ r'.r.kind = .solve) ∧ !(r'.samples.any (·.init)) then t.endRout q d.seq 6 0 else t)

end Sys2Proof.Machine
end

