-- ==== Sys2Proof/Machine/RoutRun.lean ====
section
/-! DEFINITION. A routine while it runs: the waits of its Lanterns, iteration boundaries and checkpoints, the SOLVE schedule, END, pre-emption and
restart (R162, R167, R168, R172, R200 to R204, R210). -/

namespace Sys2Proof

/-- A level of LOOP_STATE (Table 7.10). -/
def LoopLvl.word (l : LoopLvl) : Nat := 2 ^ 63 + l.creg * 2 ^ 59 + l.endw * 2 ^ 28 + l.start

/-- A Lantern record (Table 6.8). -/
def Lan.recBytes (l : Lan) (live : Nat) : List Nat :=
  let lp := l.loops.reverse.map LoopLvl.word
  toBytes 4 l.pc ++ toBytes 4 l.vl ++ toBytes 4 l.mode.toNat ++ toBytes 4 0 ++
    (List.range 4).flatMap (fun i => toBytes 8 (nth 0 lp i)) ++ toBytes 16 0 ++
    (List.range 16).flatMap (fun i => toBytes 8 (l.sget i)) ++ toBytes 64 0 ++
    (List.range 8).flatMap (fun i => toBytes 512 (l.mget i).toNat) ++
    ((List.range 32).filter (bitAt live)).flatMap (fun r => (List.range 4096).flatMap (fun e => toBytes 4 (l.vget r e)))

/-- A Lantern as its record restores it: `rd off n` are the record's bytes. V registers outside the live mask read 0 and DCOUNT is 0 (R179). -/
def Lan.ofRec (rd : Nat → Nat → Nat) (live : Nat) : Lan :=
  let lp := (List.range 4).filterMap (fun i =>
    let w := rd (16 + 8 * i) 8
    if bitAt w 63 then some { creg := bits w 59 4, endw := bits w 28 28, start := bits w 0 28 : LoopLvl } else none)
  let l : Lan := { pc := rd 0 4, vl := min (rd 4 2 % 8192) 4096, mode := BitVec.ofNat 32 (rd 8 4), loops := lp.reverse }
  let l := (List.range 16).foldl (fun l i => l.sput i (rd (64 + 8 * i) 8)) l
  let l := (List.range 8).foldl (fun l i => l.mput i (BitVec.ofNat 4096 (rd (256 + 512 * i) 512))) l
  (((List.range 32).filter (bitAt live)).zipIdx).foldl (fun l (r, k) =>
    (List.range 4096).foldl (fun l e => l.vput r e (rd (4352 + 16384 * k + 4 * e) 4)) l) l

/-- Registers outside LIVE_MASK become 0 (R200). -/
def Lan.keepLive (l : Lan) (live : Nat) : Lan := { l with v := l.v.filter (fun (k, _) => bitAt live (k / 4096)) }

/-- BANKS (Table 6.8). -/
def banksOf : List Sampled → Nat → Nat
  | [], _ => 0
  | x :: l, i => x.bank * 2 ^ i + banksOf l (i + 1)

/-- The first 64 bytes of a checkpoint slot, with CKPT_CRC as given. -/
def Rout.ckHeader (r : Rout) (n cursor crc : Nat) : Nat :=
  n % 2 ^ 64 + r.seq * 2 ^ 64 + r.q * 2 ^ 96 + ((r.iteration + 1) % 2 ^ 32) * 2 ^ 128 + r.lam * 2 ^ 160 + r.retry * 2 ^ 192 + cursor * 2 ^ 224 +
    crc * 2 ^ 256 + (banksOf r.samples 0 % 2 ^ 128) * 2 ^ 384

/-- The bytes of a checkpoint slot (Table 6.8); the header's ITERATION counts the iteration that the boundary ends. -/
def Rout.ckBytes (r : Rout) (i : Image) (cursor : Nat) : List Nat :=
  let recs := r.lans.flatMap (fun l => l.recBytes i.liveMask)
  let body := recs ++ List.replicate (i.slotSpan - 64 - recs.length) 0
  let crc := Machine.crc64 (toBytes 64 (r.ckHeader (r.ckptSeq + 1) cursor 0) ++ body)
  toBytes 64 (r.ckHeader (r.ckptSeq + 1) cursor crc) ++ body

/-- Every command of a logical array has completed. -/
def LArr.idle (a : LArr) : Bool := a.queued.isEmpty && a.pend.isEmpty

def Rout.arrsIdle (r : Rout) : Bool := r.arrs.all (·.idle)

/-- A Lantern whose wait is `w` runs again. -/
def Rout.wake (r : Rout) (p : LWait → Bool) : Rout := { r with lans := r.lans.map (fun l => if p l.wait then { l with wait := .run } else l) }

def Rout.updLan (r : Rout) (i : Nat) (f : Lan → Lan) : Rout :=
  match r.lans[i]? with
  | some l => { r with lans := setNth r.lans i (f l) }
  | none => r

def Rout.updArr (r : Rout) (j : Nat) (f : LArr → LArr) : Rout :=
  match r.arrs[j]? with
  | some a => { r with arrs := setNth r.arrs j (f a) }
  | none => r

/-- Queues a command on a logical array; bindings at the head of the queue take effect. -/
def LArr.push (a : LArr) (c : List QCmd) : LArr := takeBinds (a.queued ++ c) a

/-- AISS and ASTR commands that waited for room go into the queues (R204). -/
def Rout.fill (r : Rout) : Nat → Rout
  | 0 => r
  | k + 1 =>
    let r : Rout := Rout.fill r k
    match (r.lans[k]?).map (fun (l : Lan) => l.wait) with
    | some (LWait.issue j idx n) =>
      let room := 16 - ((r.arrs[j]?).map (·.queued.length)).getD 16
      let m := min room n
      let r := r.updArr j (fun a => a.push ((List.range m).map (fun i => .ins k (idx + i))))
      r.updLan k (fun l => { l with wait := if m = n then .run else .issue j (idx + m) (n - m) })
    | some (LWait.bindw j tid side src base ks xs runM1 kgm1 kg0) =>
      if 16 ≤ ((r.arrs[j]?).map (·.queued.length)).getD 16 then r
      else
        let b : StreamBind := { tid := tid, side := side, src := src, base := base, kStride := ks, xStride := xs, runM1 := runM1, kgroupsM1 := kgm1,
                                kg0 := kg0, lan := k }
        (r.updArr j (fun a => a.push [.bind b])).updLan k (fun l => { l with wait := .run })
    | _ => r

/-- A GRAM gathers the tokens of its captures: its re-read sweeps, its combination and its commit have not been admitted (R154). -/
def Rout.gathers (r : Rout) : Bool := r.r.kind == .gram && !r.gramRest

/-- The Lanterns whose AWAIT has been met run again (R204). -/
def Rout.awaits (r : Rout) (drained : Bool) : Rout :=
  r.wake (fun w => match w with
    | .await (some j) => drained && (match r.arrs[j]? with | some a => a.idle | none => true)
    | .await none => drained && r.arrsIdle
    | _ => false)

/-- The S registers of a schedule step (R202). -/
def Lan.stepRegs (l : Lan) (x : SStep) : Lan :=
  (((l.sput 8 x.i).sput 9 x.j).sput 10 (x.kLo + x.kHi * 256)).sput 11 (x.part + x.partsM1 * 16 + x.larr * 256 + x.kind * 4096)

/-- The registers of a schedule step and the handler's start (R202). -/
def Lan.handle (l : Lan) (x : SStep) (pc : Nat) : Lan := { l.stepRegs x with pc := pc, wait := .run, inHandler := true }

/-- A logical Lantern that waits where the engine that carries it may run another of its routine (R176); waiting for the schedule's next step counts
with BAR (DEDUCED, log 66). -/
def LWait.yields (w : LWait) : Bool :=
  match w with
  | .run | .issue .. | .bindw .. => false
  | _ => true

end Sys2Proof

namespace Sys2Proof.Machine


/-- The block is in power state RUN and not in transition. -/
def State.awake (s : State) : Bool := s.obj O.powerState == 0 && !s.exiting

/-- The routine's Lanterns and arrays may issue: an iteration that its bell holds is open, or a GRAM gathers its tokens (R154, R220). -/
def State.routRuns (s : State) (r : Rout) : Bool :=
  s.live && s.awake && r.phase == .loaded && (decide (r.iteration < r.itersOpen + r.redo) || r.gathers)

/-- Logical unit `l` of a routine may run on a unit of a kind (R111, R172, R176): no other logical unit holds it. One of the same routine lets go where R176
says, an array when it has no command; another routine at its iteration boundary, or while it gathers tokens as a GRAM (log 66). -/
def State.turnOf (s : State) (kind u : Nat) (r : Rout) (l : Nat) : Bool :=
  match SMap.look none s.holds (kind * 65536 + u) with
  | none => true
  | some (q, seq, m) =>
    match s.rfind q seq with
    | none => true
    | some h =>
      if h.q = r.q ∧ h.seq = r.seq then
        m == l || (if kind = 5 then (match h.lans[m]? with | some x => x.wait.yields | none => true)
                   else (match h.arrs[m]? with | some x => x.idle | none => true))
      else h.phase != .loaded || decide (h.itersOpen + h.redo ≤ h.iteration) || h.gathers

/-- The logical unit takes the unit. -/
def State.hold (s : State) (kind u : Nat) (r : Rout) (l : Nat) : State := s.setHolds (SMap.put none (kind * 65536 + u) (some (r.q, r.seq, l)) s.holds)

/-- The CURSOR of a checkpoint (Table 6.8): of a GRAM, the next K that the front stage presents to the arrays. -/
def cursorOf (r : Rout) : Nat :=
  match r.r.kind with
  | .solve => r.cursor
  | .gram => r.frontNext
  | _ => 0

/-- A pre-emption request is served (R172): the routine waits for its restart, or ends with its queue's reset (R269). -/
def State.preemptNow (s : State) (q seq : Nat) (reset : Bool) : State :=
  let s := s.bump O.preemptions 0 32 1
  if reset then s.faultRout q seq 0x010B
  else ((s.rupd q seq (fun r => { r with phase := .restart, preempted := true, preempt := false })).forget (ofRout q seq)).letGo q seq

/-- Double-bit errors that no second followed are transient after all, at the next checkpoint or END (R294, Table 11.2). -/
def State.eccCured (s : State) (r : Rout) : State :=
  let c : Ctx := { queue := some r.q, tenant := some r.tenant, seq := r.seq }
  let s := r.domeErrs.foldl (fun s u => s.transient 4 u 3 0 none c) s
  if r.frontErr then s.transient 14 0 3 0 none c else s

/-- An iteration boundary on which every running Lantern has arrived (R167, R200): open groups, dead registers, the checkpoint, ITERATION, DCOUNT
and a pending pre-emption. The routine then lets go of its units, and goes on on the mapping in force (R111, R176). `r` is the routine as the checkpoint
saves it. -/
def State.boundaryOf (s : State) (r : Rout) (i : Image) : State :=
  if r.arrs.any (fun a => a.groups.any (fun (_, g) => g.isSome)) then s.faultRout r.q r.seq 0x0301
  else
    let r := { r with lans := r.lans.map (fun (l : Lan) => { l.keepLive i.liveMask with dcount := 0 }) }
    let s := match r.ctxEnt with
      | some e => s.access (.rout r.q r.seq) (e.addr + (r.ckptSeq % 2) * i.slotSpan) i.slotSpan e.attr r.tenant
          (some (r.ckBytes i (cursorOf r))) false
      | none => s
    let s := s.eccCured r
    let r := { s.place r false with
      ckptSeq := r.ckptSeq + 1, iteration := r.iteration + 1, restarts := 0, domeErrs := [], frontErr := false
      passes := r.passes + r.itPasses, laneOps := r.laneOps + r.itOps, itPasses := 0, itOps := 0
      ckArrs := r.arrs, ckLans := r.lans.map (fun l => (l.wait == .stopped, l.inHandler)), ckSched := (r.inSched, r.schedPcs), ckRedo := (r.redo, r.attempt) }
    let s := (s.rupd r.q r.seq (fun _ => r)).letGo r.q r.seq
    if r.preempt then s.preemptNow r.q r.seq r.preemptReset else s

/-- A BOUNDARY step `x` of the schedule: its registers are set, its checkpoint takes PC at the SCHED word and CURSOR at the next step, and the schedule
goes on from there (R202). -/
def State.schedBoundary (s : State) (r : Rout) (i : Image) (x : SStep) : State :=
  let pcs := r.schedPcs
  let r := { r with lans := r.lans.map (fun l => if l.wait == .sched then l.stepRegs x else l), cursor := r.cursor + 1, attempt := r.attempt + 1, inSched := false, schedPcs := [] }
  (s.boundaryOf r i).rupd r.q r.seq (fun r => if r.phase = .loaded then { r with inSched := true, schedPcs := pcs } else r)

/-- The end of a routine by END (R145, R169, R201). RESIDUAL and ITERS of a header are those of S14 and S15 for a ROOT alone: for the other kinds Table 6.3 says
0 (DESIGN CHOICE, log 67). -/
def State.finishEnd (s : State) (r : Rout) (outcome : Nat) : State :=
  let s := s.eccCured r
  let l0 := r.lans.headD {}
  let bad := r.lans.any (fun l => l.dflag || (r.r.kind != .precond && l.nonfin))
  let o := if (outcome = 0 ∨ outcome = 9) ∧ bad then 5 else outcome
  if o = 0 ∧ r.r.kind ≠ .precond then
    let resid := if r.r.kind = .root then l0.sget 14 % 2 ^ 32 else 0
    let iters := if r.r.kind = .root then l0.sget 15 % 256 else 0
    let hdr := fun (cur kind form cols : Nat) => hdrCommit
      { step := r.r.srStep, bell := s.bellNo, cur := 1 - cur, form := form, kind := kind, dim := r.r.dim, cols := cols
        damp := r.lam, resid := resid, plog := r.r.pLog2, retries := r.retry, iters := iters }
    let one := fun (e : Option TmEntry) (h : Nat) => match e with
      | some e => [(e.addr, e.attr, h)]
      | none => []
    let hs := (if r.r.kind = .solve ∧ 0 < r.r.rhsCols then one r.solEnt (hdr r.solCur 4 0 r.r.rhsCols) else []) ++
      one r.outEnt (hdr r.outCur r.r.kind.outKind r.r.kind.outForm r.r.dim)
    let s := (((s.closeChan r).forget (ofRout r.q r.seq)).letGo r.q r.seq)
    (((s.rupd r.q r.seq (fun r => { r with
        phase := .commit, ended := true, outcome := 0, hdrs := hs, resid := resid, iters := iters
        passes := r.passes + r.itPasses, laneOps := r.laneOps + r.itOps, itPasses := 0, itOps := 0 })).domeBack).dupd r.q r.seq
      (fun d => { d with bell := s.bellNo })).nextHdr r.q r.seq
  else s.endRout r.q r.seq o 0

/-- The iteration that runs belongs to a bell that has opened (R220); a GRAM's commit to the rest that R154 admits. -/
def State.endOk (s : State) (r : Rout) : Bool :=
  !r.gathers && (s.sapling || decide (r.iteration + 1 < r.itersPlaced + r.redo) ||
    (decide (r.iteration < r.itersPlaced + r.redo) && decide (r.lastBell ≤ s.bellNo) && (match s.dfind r.q r.seq with | some d => d.owed.isEmpty | none => true)))

/-- One transition of a routine whose Lanterns wait: barriers, boundaries, schedule steps and END; none when nothing can go on. -/
def State.settleOne (s : State) (q seq : Nat) : Option State :=
  match s.rfind q seq with
  | none => none
  | some r0 =>
    match r0.img with
    | none => none
    | some i =>
      if r0.phase != .loaded then none
      else
        let r := (r0.fill r0.lans.length).awaits (!s.waits (.rout q seq))
        let run := r.running
        let all := fun (p : LWait → Bool) => !run.isEmpty && run.all (fun l => p l.wait)
        let isEnd := fun (w : LWait) => match w with | .ended _ => true | _ => false
        let s1 := s.rupd q seq (fun _ => r)
        if all (· == .bar) then some (s.rupd q seq (fun _ => r.wake (· == .bar)))
        else if all (· == .boundary) && r.arrsIdle then some (s1.boundaryOf (r.wake (· == .boundary)) i)
        else if all (· == .retd) then
          some (s.rupd q seq (fun _ => { r with cursor := r.cursor + 1, lans := r.lans.zipIdx.map (fun (l, k) =>
            if l.wait == .retd then { l with wait := .sched, pc := nth 0 r.schedPcs k } else l) }))
        else if all (· == .sched) then
          if !r.inSched then some (s.rupd q seq (fun _ => { r with inSched := true, attempt := 0, schedPcs := r.lans.map (·.pc) }))
          else match r.sched[r.cursor]? with
            | none =>
              some (s.rupd q seq (fun _ => { r with inSched := false, cursor := 0, schedPcs := [], lans := r.lans.map (fun l =>
                if l.wait == .sched then { l.retireTo (l.pc + 1) with wait := .run } else l) }))
            | some x =>
              if x.kind = 7 then (if r.arrsIdle then some (s1.schedBoundary r i x) else if r == r0 then none else some s1)
              else some (s.rupd q seq (fun _ => { r with lans := r.lans.map (fun l =>
                if l.wait == .sched then l.handle x (nth 0 i.handlers x.kind) else l) }))
        else if all isEnd && r.arrsIdle && !s.waits (.rout q seq) && s.endOk r then
          (match (r.lans.headD {}).wait with
           | .ended o => some (if r.preempt && r.preemptReset then s1.preemptNow q seq true else s1.finishEnd r o)
           | _ => none)
        else if r == r0 then none else some s1

/-- Carries a routine as far as its waits allow. -/
def State.settleN (s : State) (q seq : Nat) : Nat → State
  | 0 => s
  | n + 1 => match s.settleOne q seq with
    | none => s
    | some s' => State.settleN s' q seq n

def State.settle (s : State) (q seq : Nat) : State :=
  s.settleN q seq (64 + 2 * ((s.rfind q seq).map (·.sched.length)).getD 0)

/-! Pivot failures (R162, R202). -/

/-- PIVF with its mask bit set: another attempt with ten times the damping, or the end. `r` is the routine with the instruction retired. A retry starts with no
loop active, no array command, window or group, and no Dome entry (DESIGN CHOICE, log 67); it charges nothing further (R218): its iterations are those paid. -/
def State.pivot (s : State) (r : Rout) : State :=
  let s := s.rupd r.q r.seq (fun _ => r)
  if r.lam = 0 ∨ 4 ≤ r.retry then s.endRout r.q r.seq 3 0
  else
    let s := (s.bump O.dampRetries 0 32 1).rupd r.q r.seq (fun r => { r with
      lam := mul32 r.lam 0x41200000, retry := r.retry + 1, cursor := 0
      redo := r.redo + r.attempt, attempt := 0, arrs := r.arrs.map LArr.drop
      lans := r.lans.zipIdx.map (fun (l, k) =>
        if l.wait == .stopped then l else { l with wait := .sched, inHandler := false, loops := [], pc := nth 0 r.schedPcs k }) })
    s.settle r.q r.seq

/-! Restart and pre-emption. -/

/-- The header of slot `n` of the context area, read as `raw`, when the slot is valid for the routine (R167). -/
def ckValid (r : Rout) (i : Image) (raw n : Nat) : Option Nat :=
  let slot := raw / 256 ^ (n * i.slotSpan)
  let h := slot % 256 ^ 64
  let body := (toBytes i.slotSpan slot).drop 64
  if dw h 8 = r.seq ∧ fld h 12 0 18 = r.q ∧ bits h 0 64 ≠ 0 ∧
      bits h 256 64 = crc64 (toBytes 64 (setBits h 256 64 0) ++ body) then some h else none

/-- The newest valid slot and its header. -/
def ckLast (r : Rout) (i : Image) (raw : Nat) : Option (Nat × Nat) :=
  match ckValid r i raw 0, ckValid r i raw 1 with
  | some a, some b => if bits a 0 64 < bits b 0 64 then some (1, b) else some (0, a)
  | some a, none => some (0, a)
  | none, some b => some (1, b)
  | none, none => none

/-- The routine as its last checkpoint restores it from the context area, read as `raw`, or as at its start before the first (R167, R179). What waits of a
pre-emption request is a queue reset alone: the routine has left its units. -/
def restored (r : Rout) (i : Image) (raw : Nat) : Rout :=
  let r := { r with phase := .loaded, preempted := false, preempt := r.preemptReset, itPasses := 0, itOps := 0 }
  match (if r.ckptSeq = 0 then none else ckLast r i raw) with
  | none =>
    { r with lans := (List.range i.lanterns).map (fun l => { pc := nth 0 i.entries l }), arrs := (List.range i.arrays).map (fun _ => {})
             iteration := 0, lam := plusZero r.r.damp, retry := 0, cursor := 0, inSched := false, schedPcs := [], redo := 0, attempt := 0
             frontNext := 0, frontSeen := r.frontWin }
  | some (n, h) =>
    let base := n * i.slotSpan + 64
    let next := if r.r.kind = .gram then dw h 28 else 0
    { r with
      lans := (List.range i.lanterns).map (fun l =>
        let x := Lan.ofRec (fun off k => bits raw (8 * (base + l * i.lrec + off)) (8 * k)) i.liveMask
        let (st, hd) := nth (false, false) r.ckLans l
        { x with wait := if st then .stopped else .run, inHandler := hd })
      arrs := r.ckArrs, iteration := dw h 16, lam := dw h 20, retry := fld h 24 0 3
      cursor := if r.r.kind = .solve then dw h 28 else 0, inSched := r.ckSched.1, schedPcs := r.ckSched.2, redo := r.ckRedo.1, attempt := r.ckRedo.2
      frontNext := next, frontSeen := r.frontWin }

/-- The context area, as a restart reads it; nothing before the first checkpoint (R167). -/
def State.ckptRead (s : State) (r : Rout) (i : Image) (e : TmEntry) : Chked Nat :=
  if r.ckptSeq = 0 then (s, .ok 0) else s.readC e.addr (2 * i.slotSpan) e.attr r.tenant

/-- The restart of a routine once what it reads is there (R168, R298). ROUTINE_RESTART_LIMIT restarts are made from one checkpoint, and the fault after them
ends the routine (DESIGN CHOICE, log 67). -/
def State.restartNow (s : State) (r : Rout) (i : Image) (raw : Except Nat Nat) : State :=
  match raw with
  | .error c => s.faultRout r.q r.seq c
  | .ok raw =>
    let n := if r.preempted then r.restarts else r.restarts + 1
    (((s.rupd r.q r.seq (fun r => { s.place (restored r i raw) true with restarts := n })).letGo r.q r.seq).domeBack).settle r.q r.seq

/-- ROUTINE_RESTART (R168, R298): from the last checkpoint on the mapping in force, or the end. -/
def State.restart (s : State) (q seq : Nat) : State :=
  match s.rfind q seq with
  | none => s
  | some r =>
    if r.phase != .restart || !s.live || !s.awake || s.draining || s.testDrains || s.waits (.rout q seq) then s
    else if r.preempt && r.preemptReset then s.preemptNow q seq true
    else if (s.arrOf 0).isNone || (s.lanOf 0).isNone then s.faultRout q seq 0x010D
    else if !r.preempted && decide (s.obj O.routineRestartLimit ≤ r.restarts) then s.faultRout q seq 0x0407
    else match r.img, r.ctxEnt with
      | some i, some e => s.readThen (.restart q seq) (fun s => s.ckptRead r i e) (fun s x => s.restartNow r i x)
      | _, _ => s

/-- ITER_BOUND cycles pass with a pre-emption pending (R172): the iteration is discarded. -/
def State.iterBound (s : State) (q seq : Nat) : State :=
  match s.rfind q seq with
  | none => s
  | some r =>
    if !r.preempt || r.phase != .loaded || !s.live then s
    else
      ((s.bump O.iterDiscards 0 32 1).rupd q seq (fun r => { r with itPasses := 0, itOps := 0 })).preemptNow q seq r.preemptReset

/-- A pre-emption request is raised for a routine (R172); `reset` when its queue resets. One that rests at a boundary with no
iteration placed serves it at once; one that has not been dispatched keeps it, unless its queue resets. -/
def State.askPreempt (s : State) (q seq : Nat) (reset : Bool) : State :=
  match s.rfind q seq with
  | none => s
  | some r =>
    if r.ended then s
    else
      let rests := decide (r.itersPlaced + r.redo ≤ r.iteration) && (r.r.kind != .gram || r.gramRest)
      if r.phase == .loaded && rests then s.preemptNow q seq reset
      else if reset && r.phase != .loaded then s.faultRout q seq 0x010B
      else if r.phase == .restart then s
      else s.rupd q seq (fun r => { r with preempt := true, preemptReset := r.preemptReset || reset })

end Sys2Proof.Machine
end

