-- ==== Sys2Proof/Machine/LanternOps.lean ====
section
/-! DEFINITION. Lantern instructions in their routine: the issue of one instruction (R184, R207 to R209, R294), and those that reach memory, arrays
or the whole routine (R188, R189, R192, R200 to R204). -/

namespace Sys2Proof

/-- The exception report of Table 7.13 on the state in force when the instruction issued (R208). -/
def lanReport (r : Rout) (l : Lan) (n cls elem : Nat) : Nat :=
  let cnt := match l.loops with
    | [] => 0
    | lv :: _ => l.sget lv.creg
  (cls * 2 ^ 24 + (n % 8) * 2 ^ 21 + r.q) + r.seq * 2 ^ 32 + l.pc * 2 ^ 64 + l.mode.toNat * 2 ^ 96 + cnt * 2 ^ 128 + r.iteration * 2 ^ 192 +
    (l.loops.length * 2 ^ 29 + l.vl * 2 ^ 13 + elem) * 2 ^ 224

/-- The fault code of an exception class (Table 7.12); a walk's own code is given with it. -/
def classCode (cls : Nat) : Nat :=
  match cls with
  | 1 => 0x0501 | 2 => 0x0502 | 3 => 0x0602 | 4 => 0x0603 | _ => 0x0203

/-- Byte ranges that a VST must not touch: headers and current banks of the routine's result objects (R188). -/
def Rout.guarded (r : Rout) : List (Nat × Nat) :=
  let obj := fun (a cur span : Nat) => [(a, 64), (a + 4096 + cur * span, span)]
  (match r.outEnt with | some e => obj e.addr r.outCur r.outSpan | none => []) ++
  (match r.solEnt with | some e => obj e.addr r.solCur r.solSpan | none => []) ++
  r.samples.flatMap (fun x => if x.tid = 0 then [] else obj x.addr x.bank x.span)

/-- The shadow banks of OUT_TID and SOLN_TID. -/
def Rout.shadows (r : Rout) : List (Nat × Nat) :=
  (match r.outEnt with | some e => [(e.addr + 4096 + (1 - r.outCur) * r.outSpan, r.outSpan)] | none => []) ++
  (match r.solEnt with | some e => [(e.addr + 4096 + (1 - r.solCur) * r.solSpan, r.solSpan)] | none => [])

def meets (a n : Nat) (l : List (Nat × Nat)) : Bool := l.any (fun (b, m) => decide (a < b + m) && decide (b < a + n))

/-- Routine parameters (Table 7.8); none for a code that is illegal. Code 28 is not among them. -/
def Rout.param (r : Rout) (i : Image) (lnum code : Nat) : Option Nat :=
  match code with
  | 0 => some lnum
  | 1 => some i.lanterns
  | 2 => some r.iteration
  | 3 => some r.r.dim
  | 4 => some r.r.inTid
  | 5 => some r.r.outTid
  | 6 => some r.r.stageTid
  | 7 => some (if r.outEnt.isSome then (4096 + (1 - r.outCur) * r.outSpan) / 4 else 0)
  | 8 => some (match r.r.kind with
      | .root | .solve => (match r.samples with | x :: _ => (4096 + x.bank * x.span) / 4 | [] => 0)
      | _ => 0)
  | 9 => some r.beta
  | 10 => some r.alpha
  | 11 => some r.lam
  | 12 => some (plusZero r.r.tol)
  | 13 => some r.r.residTol
  | 14 => some r.r.pLog2
  | 15 => some r.r.niter
  | 16 => some r.r.npow
  | 17 => some r.r.prec
  | 18 => some r.r.rhsTid
  | 19 => some r.r.solnTid
  | 20 => some (if r.solEnt.isSome then (4096 + (1 - r.solCur) * r.solSpan) / 4 else 0)
  | 21 => some r.r.rhsCols
  | 22 => some r.r.listTid
  | 23 => some r.r.layers
  | 24 => some r.r.tokens
  | 25 => some r.r.captureCh
  | 26 => some r.r.domeMode
  | 27 => some r.retry
  | 29 => some r.r.srSeed
  | 30 => some r.r.srStep
  | 31 => some (b2n r.r.ipath)
  | _ => none

end Sys2Proof

namespace Sys2Proof.Machine

/-- What an instruction does: it waits and nothing changes; it raises an exception of a class at an element, with a code; its routine ends with a
memory fault; or it completes. -/
inductive LEff where
  | wait
  | exc (s : State) (cls elem code : Nat)
  | fail (s : State) (code : Nat)
  | go (s : State)

/-- The Lantern exception ends the routine (R168, R207, R209). -/
def State.lanExc (s : State) (r : Rout) (l : Lan) (n u cls elem code : Nat) : State :=
  ((s.bump O.exceptions u 32 1).faultRout r.q r.seq code).dupd r.q r.seq (fun d => { d with evPay := some (5, u, lanReport r l n cls elem) })

/-- The state that an effect carries; `s` while it waits. -/
def LEff.state (s : State) : LEff → State
  | .wait => s
  | .exc t _ _ _ => t
  | .fail t _ => t
  | .go t => t

/-- What comes of an effect of an instruction of logical Lantern `n` on physical Lantern `u`, in state `t`: the instruction is counted, its routine ends,
or, while it waits, the state stays `s`. -/
def State.lanRun (r : Rout) (l : Lan) (n u : Nat) (ops : Lan → Nat) (s t : State) : LEff → State
  | .wait => s
  | .exc _ cls elem code => t.lanExc r l n u cls elem code
  | .fail _ code => t.faultRout r.q r.seq code
  | .go _ => ((((t.hold 5 u r n).bump O.instructions u 32 1).spend (3900 * ops l)).rupd r.q r.seq (fun r => { r with itOps := r.itOps + ops l })).settle r.q r.seq

/-- What the Lantern of an issue is handed with an instruction. -/
def ctxFor (i : LIss) (r : Rout) (img : Image) : LCtx :=
  { seed := r.r.srSeed, step := r.r.srStep, iteration := r.iteration, lnum := i.l, code := img.code }

/-- Issues one instruction of a logical Lantern (R184): the checks of R293 on it (CLASS 6 and 7), then its effect, the counters, and what the routine's
waits allow. Nothing happens while the Lantern waits, is frozen, has no open iteration, or lacks what it reads; or while its engine is another's (R176). -/
def State.lanDo (s : State) (i : LIss) (ops : Lan → Nat) (f : State → Rout → Image → LCtx → Lan → LEff) : State :=
  match s.rfind i.q i.seq with
  | none => s
  | some r =>
    match r.lans[i.l]?, r.img, r.lanMap[i.l]? with
    | some l, some img, some u =>
      if !s.routRuns r || s.lanFrozen || l.wait != .run || !s.serves 5 u || !s.turnOf 5 u r i.l then s
      else
        let at' : Ctx := { queue := some r.q, tenant := some r.tenant, seq := r.seq }
        let pay := fun (cls : Nat) => ({ at' with pay := some (lanReport r l i.l cls 0) } : Ctx)
        let eff := fun (s : State) => f s r img (ctxFor i r img) l
        let run := fun (g : State → LEff) => s.readThen (.lan i.q i.seq i.l) (fun s => let e := g s; (e.state s, e)) (State.lanRun r l i.l u ops s)
        let after := fun (p : State → State) (s : State) => match eff s with | .wait => .wait | _ => eff (p s)
        match i.chk with
        | .ok => run eff
        | .twig tid => run (after (fun s => s.twigFault 8 0 r.tenant tid at'))
        | .transient cause _ =>
          let p := fun (s : State) => s.transient 5 u cause l.pc (some O.laneRetries) (pay 6)
          if (((p s).rfind i.q i.seq).map (·.phase)) != some .loaded then p s else run (after p)
        | .lasting cause _ _ => s.fence 5 u cause l.pc (pay 7)
    | _, _, _ => s

/-- The instruction that the Lantern of an issue has next in its program (R182, R184). -/
def State.lanNext (s : State) (i : LIss) : Option Instr :=
  (s.rfind i.q i.seq).bind (fun r => match r.lans[i.l]?, r.img with
    | some l, some g => g.lanNext i l
    | _, _ => none)

/-- What comes of command `c`, that its Lantern issues: `t` where its program holds it at PC; another is not due, and changes nothing (log 7). -/
def State.onLan (s : State) (c : Instr) (i : LIss) (t : State) : State := if s.lanNext i = some c then t else s

/-- An instruction that touches its Lantern alone. -/
def State.lanPure (s : State) (i : LIss) (ops : Lan → Nat) (g : LCtx → Lan → LRes) : State :=
  s.lanDo i ops (fun s r _ c l => match g c l with
    | .ok l' => .go (s.rupd r.q r.seq (fun r => r.updLan i.l (fun _ => l')))
    | .exc cls elem => .exc s cls elem (classCode cls))

/-- The routine runs a FACTOR step on this Lantern (R161). -/
def factors (r : Rout) (l : Lan) : Bool :=
  r.r.kind == .solve && r.inSched && l.inHandler && (match r.sched[r.cursor]? with | some x => x.kind == 1 | none => false)

/-- A pivot fails (R161): it is not at least PIVOT_MIN, or it is 0. -/
def pivotFails (min d : Nat) : Bool := isNan32 d || Val.lt (v32 d) (v32 min) || (v32 d).isZero

/-- A square root. In a FACTOR step its operands `ds` are the pivots d of R161: SOLVE_PIVOT_MIN, which no RDP code carries, is compared there, and a failure is
that of R162 (DESIGN CHOICE, log 68). -/
def State.lanSqrt (s : State) (i : LIss) (ops : Lan → Nat) (ds : Lan → List Nat) (g : LCtx → Lan → LRes) : State :=
  s.lanDo i ops (fun s r _ c l => match g c l with
    | .ok l' =>
      if factors r l && (ds l).any (pivotFails r.pivMin) then .go (s.pivot (r.updLan i.l (fun _ => l.retire c.code)))
      else .go (s.rupd r.q r.seq (fun r => r.updLan i.l (fun _ => l')))
    | .exc cls elem => .exc s cls elem (classCode cls))

/-- Lane operations of a vector instruction: its element count. -/
def vecOps (f : VF) (l : Lan) : Nat := (f.count l.vl).getD 0

def State.lanV (s : State) (i : LIss) (f : VF) (g : LCtx → Lan → LRes) : State := s.lanPure i (vecOps f) g
def State.lanS (s : State) (i : LIss) (g : LCtx → Lan → LRes) : State := s.lanPure i (fun _ => 1) g

/-- An outstanding write of the routine touches these bytes; a later access to them waits (R189, R286). -/
def State.overlaps (s : State) (r : Rout) (l : List (Nat × Nat)) : Bool :=
  s.reqs.any (fun q => q.wr && q.owner == .rout r.q r.seq && meets q.addr q.data.length l)

/-! VLD and VST. -/

/-- The index of a tensor's last element, in elements of `nib` nibbles (R188). -/
def lastElem (e : TmEntry) (nib : Nat) : Nat := if e.rows = 0 then 2 * e.extent / nib - 1 else e.index (e.rows - 1) (e.rowLen - 1)

/-- What VLD and VST share: the fields, the count, the walk and the index checks (R188). -/
def State.lanAccess (s : State) (r : Rout) (l : Lan) (_c : LCtx) (f : VF) (k : State → Nat → TmEntry → List (Nat × Nat) → LEff) (nop : LEff) : LEff :=
  if !f.ok (uD ||| uA ||| uB ||| uC ||| uVec) || decide (16 ≤ f.a) || decide (16 ≤ f.b) || decide (16 ≤ f.c) then .exc s 1 0 (classCode 1)
  else match f.count l.vl with
    | none => .exc s 1 0 (classCode 1)
    | some 0 => nop
    | some n =>
      match s.wres r.tenant (l.sget f.a % 2 ^ 32) with
      | (s, .error code) => .exc s (if code = 0x0603 then 4 else 3) 0 code
      | (s, .ok e) =>
        let nib := fmtNib l.mfmt
        let es := l.accessIdx f n
        let first := l.sget f.b % 2 ^ 40
        let int4 := l.mfmt == 7 && (l.sget f.c != 1 || first % 2 != 0 ||
          (n % 2 != 0 && first + n - 1 != lastElem e nib))
        if int4 then .exc s 2 0 (classCode 2)
        else match es.find? (fun (_, o) => match o with | none => true | some x => !e.holds x nib) with
          | some (el, _) => .exc s 2 el (classCode 2)
          | none => k s nib e (es.map (fun (el, o) => (el, o.getD 0)))

/-- The fields of a VLD or VST are legal, and it has elements to touch. -/
def touches (f : VF) (l : Lan) : Bool :=
  f.ok (uD ||| uA ||| uB ||| uC ||| uVec) && decide (f.a < 16) && decide (f.b < 16) && decide (f.c < 16) &&
    (match f.count l.vl with | some n => decide (0 < n) | none => false)

/-- The layer list of a PRECOND as its first offer read it (R248): its bytes as a number, where the list lies, and its length. -/
def State.listCopy (s : State) (r : Rout) (tid : Nat) (e : TmEntry) : Nat × Nat × Nat :=
  if r.r.kind = .precond ∧ tid = r.r.listTid then
    let l := ((s.dfind r.q r.seq).map (·.list)).getD []
    (l.reverse.foldl (fun x w => x * 2 ^ 256 + w) 0, e.addr, 32 * l.length)
  else (0, 0, 0)

/-- Bytes that a VLD reads: from the copy of the layer list where it has them, else from memory. -/
def State.copyRd (s : State) (c : Nat × Nat × Nat) (a n : Nat) : Nat :=
  if c.2.1 ≤ a ∧ a + n ≤ c.2.1 + c.2.2 then bits c.1 (8 * (a - c.2.1)) (8 * n) else s.rdN a n

/-- VLD (R188, R189): it waits for the routine's own writes to what it reads, then for its data. -/
def State.vldOp (f : VF) (n : Nat) (s : State) (r : Rout) (_ : Image) (c : LCtx) (l : Lan) : LEff :=
  s.lanAccess r l c f
    (fun s nib e es =>
      let cp := s.listCopy r (l.sget f.a % 2 ^ 32) e
      let mem := es.filter (fun (_, x) => let (a, k) := e.at x nib; !(decide (cp.2.1 ≤ a) && decide (a + k ≤ cp.2.1 + cp.2.2)))
      let rng := mem.map (fun (_, x) => e.at x nib)
      if s.overlaps r rng then .wait
      else match mem.find? (fun (_, x) => let (a, k) := e.at x nib; s.inWindow a k) with
        | some (el, _) => .exc s 4 el (classCode 4)
        | none =>
          match s.readAll rng e.attr r.tenant with
          | (s, .error code) => .fail s code
          | (s, .ok _) =>
            match mem.find? (fun (_, x) => let (a, k) := e.at x nib; s.rangeBad a k != 0) with
            | some (el, x) =>
              let (a, k) := e.at x nib
              let b := s.rangeBad a k
              if b = 3 then .exc s 5 el (classCode 5) else .fail s (badCode b)
            | none =>
              let l' := es.foldl (fun (l : Lan) (el, x) => l.vput f.d el (e.read (s.copyRd cp) x nib)) l
              .go (s.rupd r.q r.seq (fun r => r.updLan n (fun _ => l'.retire c.code))))
    (.go (s.rupd r.q r.seq (fun r => r.updLan n (fun _ => l.retire c.code))))

/-- VST (R188, R189): a GRAM that still gathers its tokens writes nothing yet (R154). -/
def State.vstOp (f : VF) (n : Nat) (s : State) (r : Rout) (_ : Image) (c : LCtx) (l : Lan) : LEff :=
  if r.gathers && touches f l then .wait
  else s.lanAccess r l c f
    (fun s nib e es =>
      let tid := l.sget f.a % 2 ^ 32
      let own := tid == r.r.imageTid || tid == r.r.ctxTid || e.base == r.imgBase || (match r.ctxEnt with | some x => x.base == e.base | none => false)
      if own then .exc s 2 0 (classCode 2)
      else match es.find? (fun (_, x) => let (a, k) := e.at x nib; meets a k r.guarded) with
      | some (el, _) => .exc s 2 el (classCode 2)
      | none =>
        match es.find? (fun (_, x) => let (a, k) := e.at x nib; s.inWindow a k) with
        | some (el, _) => .exc s 4 el (classCode 4)
        | none =>
          let rng := es.map (fun (_, x) => e.at x nib)
          if s.overlaps r rng then .wait
          else
            let fmt := (Fmt.ofCode l.mfmt).getD .fp32
            let vals := es.map (fun (el, x) => (x, l.vget f.d el % 2 ^ fmt.width))
            let nf := vals.any (fun (x, v) => (let (a, k) := e.at x nib; meets a k r.shadows) && !(decodeVal fmt v).isFin)
            let l' := if nf then l.setMode 13 else l
            let s := s.writeSet (.rout r.q r.seq) (e.writes s.rdN nib (· == lastElem e nib) vals) e.attr r.tenant false
            .go (s.rupd r.q r.seq (fun r => r.updLan n (fun _ => l'.retire c.code))))
    (.go (s.rupd r.q r.seq (fun r => r.updLan n (fun _ => l.retire c.code))))

/-! The routine's parameters and control. -/

/-- Puts the Lantern back into its routine. -/
def State.putLan (s : State) (r : Rout) (n : Nat) (l : Lan) : State := s.rupd r.q r.seq (fun r => r.updLan n (fun _ => l))

def illegal (s : State) : LEff := .exc s 1 0 (classCode 1)

def State.rdpOp (f : SF) (n : Nat) (s : State) (r : Rout) (i : Image) (c : LCtx) (l : Lan) : LEff :=
  let code := f.imm % 256
  let put := fun (x : Nat) => LEff.go (s.putLan r n ((l.sput f.sd x).retire c.code))
  if code = 28 then
    if !f.ok (vD ||| vA ||| vI) then illegal s
    else
      let tid := l.sget f.sa % 2 ^ 32
      match r.samples.find? (fun x => x.tid == tid && tid != 0) with
      | none => .exc s 2 0 (classCode 2)
      | some x => put (if x.init then (4096 + x.bank * x.span) / 4 else 2 ^ 64 - 1)
  else if !f.ok (vD ||| vI) then illegal s
  else match r.param i n code with
    | none => illegal s
    | some x => put x

/-- An instruction that retires and leaves its Lantern waiting. One that is the last of a loop steps the loop as it retires: a checkpoint's PC is then the loop's
START, or the word after its ENDLOOP, and not the ENDLOOP that follows BOUNDARY (DESIGN CHOICE, log 67). -/
def State.waitOp (ok : Bool) (n : Nat) (w : LWait) (s : State) (r : Rout) (c : LCtx) (l : Lan) : LEff :=
  if !ok then illegal s else .go (s.putLan r n { l.retire c.code with wait := w })

def State.boundaryOp (f : SF) (n : Nat) (s : State) (r : Rout) (_ : Image) (c : LCtx) (l : Lan) : LEff :=
  s.waitOp (f.ok 0) n .boundary r c l

def State.barOp (f : SF) (n : Nat) (s : State) (r : Rout) (_ : Image) (c : LCtx) (l : Lan) : LEff := s.waitOp (f.ok 0) n .bar r c l

def State.stopOp (f : SF) (n : Nat) (s : State) (r : Rout) (_ : Image) (c : LCtx) (l : Lan) : LEff :=
  s.waitOp (f.ok 0 && n != 0) n .stopped r c l

/-- END (R201): legal on logical Lantern 0 only, with an outcome of its list. -/
def State.endOp (f : SF) (n : Nat) (s : State) (r : Rout) (_ : Image) (c : LCtx) (l : Lan) : LEff :=
  let o := l.sget f.sa % 16
  s.waitOp (f.ok vA && n == 0 && (o ∈ [0, 4, 5, 7] || (o == 9 && r.r.kind == .precond))) n (.ended o) r c l

def State.awaitOp (f : SF) (n : Nat) (s : State) (r : Rout) (i : Image) (c : LCtx) (l : Lan) : LEff :=
  let j := f.imm % 256
  s.waitOp (f.ok vI && (j == 255 || decide (j < i.arrays))) n (.await (if j = 255 then none else some j)) r c l

/-- SCHED (R202): it retires only when the schedule has run. In a handler of the schedule it is illegal (DESIGN CHOICE, log 67). -/
def State.schedOp (f : SF) (n : Nat) (s : State) (r : Rout) (_ : Image) (_ : LCtx) (l : Lan) : LEff :=
  if !f.ok 0 || r.r.kind != .solve || !l.loops.isEmpty || l.inHandler then illegal s
  else .go (s.putLan r n { l with wait := .sched })

def State.retOp (f : SF) (n : Nat) (s : State) (r : Rout) (_ : Image) (c : LCtx) (l : Lan) : LEff :=
  if !f.ok 0 || !l.inHandler then illegal s
  else .go (s.putLan r n { l.retire c.code with wait := .retd, inHandler := false })

/-- PIVF (R162, R202). Outside a schedule it is illegal (DESIGN CHOICE, log 21). -/
def State.pivfOp (f : SF) (n : Nat) (s : State) (r : Rout) (_ : Image) (c : LCtx) (l : Lan) : LEff :=
  if !f.ok vMS || r.r.kind != .solve || !r.inSched then illegal s
  else if l.mbit f.ms 0 then .go (s.pivot (r.updLan n (fun _ => l.retire c.code)))
  else .go (s.putLan r n (l.retire c.code))

/-- The FSET of a side that the command stream of an array holds last: queued, or in force. -/
def lastFset (i : Image) (a : LArr) (side : Nat) : Option Nat :=
  let qd := a.queued.filterMap (fun c => match c with
    | .ins _ idx =>
      let w := nth 0 i.arr idx
      if bits w 124 4 = 1 ∧ bits w 123 1 = side then some (bits w 118 5) else none
    | .bind _ => none)
  match qd.getLast? with
  | some x => some x
  | none => (if side = 0 then a.fa else a.fb).map (·.fmt)

/-- ASTR (R203, R276). -/
def State.astrOp (f : SF) (n : Nat) (s : State) (r : Rout) (i : Image) (c : LCtx) (l : Lan) : LEff :=
  let w0 := l.sget f.sa
  let w1 := l.sget (f.sa + 1)
  let w2 := l.sget (f.sa + 2)
  let w3 := l.sget (f.sa + 3)
  let tid := bits w0 32 32
  let side := bits w0 30 2
  let src := bits w0 29 1
  let j := bits w0 0 8
  let kg0 := bits w3 0 20
  let kgm1 := bits w3 20 20
  let runM1 := bits w3 40 5
  let base := bits w1 0 40
  let ks := bits w2 32 32
  let xs := bits w2 0 32
  if !f.ok vA || decide (12 < f.sa) then illegal s
  else if side = 3 || bits w0 8 21 != 0 || bits w1 40 24 != 0 || bits w3 45 19 != 0 || decide (i.arrays ≤ j) || decide (1048575 < kg0 + kgm1) ||
    ((src = 1 || side = 2) && tid != 0) || (src = 1 && (side = 2 || r.r.kind != .gram)) then illegal s
  else
    let go := fun (s : State) => LEff.go (s.putLan r n { l.retire c.code with wait := .bindw j tid side src base ks xs runM1 kgm1 kg0 })
    if side = 2 || src = 1 then go s
    else
      let u := nth j r.arrMap j
      match s.resolve 2 u r.tenant tid with
      | (s, .error code) => .exc s (if code = 0x0603 then 4 else 3) 0 code
      | (s, .ok e) =>
        let last := base + (16 * (kgm1 + 1) - 1) * ks + (if side = 0 then 127 else 8 * runM1 + 7) * xs
        match (r.arrs[j]?).bind (fun a => lastFset i a side) with
        | some fm => if e.holds last (fmtNib fm) then go s else .exc s 2 0 (classCode 2)
        | none => go s

/-- AISS (R204). -/
def State.aissOp (f : SF) (n : Nat) (s : State) (r : Rout) (i : Image) (c : LCtx) (l : Lan) : LEff :=
  let j := f.imm % 256
  let idx := l.sget f.sa
  let cnt := l.sget f.sb
  if !f.ok (vA ||| vB ||| vI) || decide (i.arrays ≤ j) then illegal s
  else if cnt = 0 then .go (s.putLan r n (l.retire c.code))
  else if i.arrWords < idx + cnt then .exc s 2 0 (classCode 2)
  else .go (s.putLan r n { l.retire c.code with wait := .issue j idx cnt })

/-- AFLG (R204): SD[3:0] takes the flags; the other bits of SD keep their values. -/
def State.aflgOp (f : SF) (n : Nat) (s : State) (r : Rout) (i : Image) (c : LCtx) (l : Lan) : LEff :=
  let j := f.imm % 256
  if !f.ok (vD ||| vI) || decide (i.arrays ≤ j) then illegal s
  else
    let fl := ((r.arrs[j]?).map (·.aflg)).getD 0
    let l' := (l.sput f.sd (setBits (l.sget f.sd) 0 4 fl)).retire c.code
    .go (s.rupd r.q r.seq (fun r => (r.updLan n (fun _ => l')).updArr j (fun a => { a with aflg := 0 })))

end Sys2Proof.Machine
end

