-- ==== Sys2Proof/Machine/ArrayOps.lean ====
section
/-! DEFINITION. Array instructions in their routine (R110 to R136, R203, R204), the fall-back service (R133, R205) and the front stage
(R148 to R153). -/

namespace Sys2Proof

/-- The logical Lantern that issued the instruction at the head of the queue. -/
def LArr.issuer (a : LArr) : Nat := match a.queued with | .ins l _ :: _ => l | _ => 0

/-- The instruction at the head of the queue leaves it; bindings that follow take effect. -/
def LArr.pop (a : LArr) : LArr := match a.queued with | .ins _ _ :: l => takeBinds l a | l => takeBinds l a

/-- K order of a channel's captures (R150). -/
def Chan.order (c : Chan) : List CapDesc := sortBy (fun (x : CapDesc) => x.bell * 2 ^ 50 + x.q * 2 ^ 32 + x.seq) c.caps

/-- The capture and view row that hold K (R150). -/
def locateK : List CapDesc → Nat → Option (CapDesc × Nat)
  | [], _ => none
  | c :: l, k => if k < c.rows then some (c, k) else locateK l (k - c.rows)

/-- The tile that brought a capture's view row and column, and the operand received. -/
def Chan.elemTile (c : Chan) (d : CapDesc) (row col : Nat) : Option (FrontTile × Nat) :=
  firstSome (fun (t : FrontTile) => if t.q = d.q ∧ t.seq = d.seq then
    (t.ops.find? (fun (r, k, _) => r == row && k == col)).map (fun (_, _, v) => (t, v)) else none) c.tiles

/-- The received operand of a capture's view row and column. -/
def Chan.elem (c : Chan) (d : CapDesc) (row col : Nat) : Option Nat := (c.elemTile d row col).map (·.2)

/-- The operand at K and feature `x`: zero beyond TOKENS and beyond DIM; none while its tile has not arrived (R150, R151). -/
def Chan.operand (c : Chan) (tokens dim k x : Nat) : Option Nat :=
  if tokens ≤ k ∨ dim ≤ x then some 0
  else match locateK c.order k with
    | none => none
    | some (d, row) => c.elem d row x

/-- Every column of a view row has arrived. -/
def Chan.rowDone (c : Chan) (d : CapDesc) (dim row : Nat) : Bool := (List.range dim).all (fun x => (c.elem d row x).isSome)

/-- Rows received whole (CH_TOKENS). -/
def Chan.received (c : Chan) (dim : Nat) : Nat :=
  sumN (c.caps.map (fun d => ((List.range d.rows).filter (c.rowDone d dim)).length))

/-- The K below which every row has arrived. -/
def Chan.ready (c : Chan) (dim tokens : Nat) : Nat :=
  ((List.range tokens).takeWhile (fun k => match locateK c.order k with
    | some (d, row) => c.rowDone d dim row
    | none => false)).length

/-- The element that K and feature `x` name, beyond neither TOKENS nor DIM: its capture, view row and tile, once it has arrived. -/
def Chan.place (c : Chan) (tokens dim k x : Nat) : Option (CapDesc × Nat × FrontTile) :=
  if tokens ≤ k ∨ dim ≤ x then none
  else match locateK c.order k with
    | none => none
    | some (d, row) => (c.elemTile d row x).map (fun (t, _) => (d, row, t))

/-- The bytes that a re-read sweep reads for an element (R152): its code in the captured destination, its scale, and its tile's side list; each with the
attributes of its tensor. A destination on a stream port is not read. -/
def CapDesc.rereads (d : CapDesc) (row col : Nat) : List (Nat × Nat × Nat) :=
  let c := d.conv
  if c.dstStream then []
  else
    (match d.dst with
     | some e => let (a, n) := e.at (e.index row col) (Machine.fmtNib c.dstFmt); [(a, n, e.attr)]
     | none => []) ++
    (match d.scale with
     | some e =>
       if c.isRequant then []
       else
         let i := match c.scaleSrc with | 1 => row | 3 => blockNo c row col | _ => 0
         [(e.addr + i * c.scaleU, c.scaleU, e.attr)]
     | none => []) ++
    (match d.side with
     | some e => [(e.addr + 512 * c.tileOf row col, 512, e.attr)]
     | none => [])

/-- The K of a capture's first row. -/
def startK (q seq : Nat) : List CapDesc → Nat
  | [] => 0
  | c :: l => if c.q = q ∧ c.seq = seq then 0 else c.rows + startK q seq l

end Sys2Proof

namespace Sys2Proof.Machine

/-- What an array instruction does. -/
inductive AEff where
  | wait
  | fail (s : State) (code : Nat)
  | go (s : State) (a : LArr)

def ctxOf (r : Rout) : Ctx := { queue := some r.q, tenant := some r.tenant, seq := r.seq }

/-- A double-bit Dome error (R123, Table 11.2): the routine restarts; the second in a bank before its next checkpoint fences the bank. A first one that no
second follows is transient, which the checkpoint shows (`State.eccCured`). -/
def State.domeEcc (s : State) (r : Rout) (u : Nat) : State :=
  let s := s.report { code := 0x0304, unitKind := 4, unit := u, queue := some r.q, tenant := some r.tenant, payload := genPay r.seq 3 0 }
  if u ∈ r.domeErrs then (s.rupd r.q r.seq (fun r => { r with domeErrs := r.domeErrs.filter (· != u) })).fence 4 u 3 0 (ctxOf r)
  else s.rupd r.q r.seq (fun r => { r with phase := .restart, domeErrs := u :: r.domeErrs })

/-- The state that an effect carries; `s` while it waits. -/
def AEff.state (s : State) : AEff → State
  | .wait => s
  | .fail t _ => t
  | .go t _ => t

/-- What comes of an effect of an instruction of logical array `la` on physical array `u`, in state `t`: the array is left as the effect says and its
queue moves on, its routine ends, or, while it waits, the state stays `s`. -/
def State.arrRun (r : Rout) (la u : Nat) (s t : State) : AEff → State
  | .wait => s
  | .fail _ code => t.faultRout r.q r.seq code
  | .go _ a => ((t.hold 2 u r la).rupd r.q r.seq (fun r => r.updArr la (fun _ => a.pop))).settle r.q r.seq

/-- KG of the PASS at the head of an array's queue, which a fault of the array names (Table 11.8); 0 for another instruction. -/
def headKg (img : Image) (a : LArr) : Nat :=
  match a.queued with
  | .ins _ idx :: _ => let w := nth 0 img.arr idx; if bits w 124 4 = 2 then bits w 64 20 else 0
  | _ => 0

/-- Issues one array instruction on a logical array (R112): the checks of R293 on it, then its effect. A transient fault replays the open windows first
(R134). Cause 3, ECC, is the Dome's. Nothing happens while the array lacks what it reads, or is another's (R111). -/
def State.arrDo (s : State) (x : AIss) (f : State → Rout → Image → LArr → Nat → AEff) : State :=
  match s.rfind x.q x.seq with
  | none => s
  | some r =>
    match r.arrs[x.la]?, r.img, r.arrMap[x.la]? with
    | some a, some img, some u =>
      if !s.routRuns r || s.arrFrozen || !s.serves 2 u || !s.turnOf 2 u r x.la then s
      else
        let eff := fun (a : LArr) (s : State) => f s r img a u
        let run := fun (g : State → AEff) => s.readThen (.arr x.q x.seq x.la) (fun s => let e := g s; (e.state s, e)) (State.arrRun r x.la u s)
        let after := fun (p : State → State) (b : LArr) (s : State) => match eff a s with | .wait => .wait | _ => eff b (p s)
        match x.chk with
        | .ok => run (eff a)
        | .twig tid => run (after (fun s => s.twigFault 2 u r.tenant tid (ctxOf r)) a)
        | .transient cause _ =>
          if cause = 3 then run (after (fun s => s.bump O.domeCorrected u 32 1) a)
          else
            let p := fun (s : State) => s.transient 2 u cause (headKg img a) (some O.replays) (ctxOf r)
            if (((p s).rfind x.q x.seq).map (·.phase)) != some .loaded then p s else run (after p a.replay)
        | .lasting cause _ col => if cause = 3 then s.domeEcc r u else s.fenceColumn u col cause (headKg img a) (ctxOf r)
    | _, _, _ => s

/-- The instruction that the array of an issue has next: the head of its queue (R112, R204). -/
def State.arrNext (s : State) (x : AIss) : Option Instr :=
  (s.rfind x.q x.seq).bind (fun r => match r.arrs[x.la]?, r.img with
    | some a, some g => g.arrNext x a
    | _, _ => none)

/-- What comes of command `c`, that its array issues: `t` where it heads the queue; another is not due, and changes nothing (log 7). -/
def State.onArr (s : State) (c : Instr) (x : AIss) (t : State) : State := if s.arrNext x = some c then t else s

def State.arrNopOp (rsv : Nat) (s : State) (_ : Rout) (_ : Image) (a : LArr) (_ : Nat) : AEff :=
  if rsv != 0 then .fail s 0x0301 else .go s a

/-- FSET (R117). -/
def State.fsetOp (f : FsetF) (s : State) (_ : Rout) (_ : Image) (a : LArr) (_ : Nat) : AEff :=
  let c := fsetFault s.variant a f
  if c != 0 then .fail s c else .go s (if f.side = 0 then { a with fa := some f } else { a with fb := some f })

/-! The staging area beyond the image's own bytes (R141): the fall-back Dome entries of each logical array, then the tiles that spill. Where
they lie is a DESIGN CHOICE (log 64); what does not fit the area stays in the block. -/

def stageFree (img : Image) : Nat := ceilDiv img.stageBytes 128 * 128

/-- The bytes of the Dome entries of `n` tile slots from `d` on, of logical array `la`, in staging. -/
def domeStage (r : Rout) (img : Image) (la d n : Nat) : Option (Nat × Nat × Nat) :=
  match r.stageEnt with
  | none => none
  | some e =>
    let o := stageFree img + la * 4194304 + d * 8192
    if e.extent < o + n * 8192 then none else some (e.addr + o, n * 8192, e.attr)

/-- The tile slot whose entries a promotion updates. -/
def promoSlot (a : LArr) (p : Promo) : Nat := match a.grp p.group with | some g => g.dbase + p.dtile | none => 0

/-- A write of these entries is outstanding; a read of them waits (R189). -/
def State.domeBusy (s : State) (r : Rout) (img : Image) (la d n : Nat) : Bool :=
  match domeStage r img la d n with | some (adr, k, _) => s.overlaps r [(adr, k)] | none => false

/-- The entries of `n` tile slots from `d` on, as bytes (R123, Table 5.8). -/
def domeBytes (m : SMap W64) (d n : Nat) : List Nat := (List.range (n * 1024)).flatMap (fun k => toBytes 8 (SMap.look 0 m (d * 1024 + k)).toNat)

/-- The fall-back entries of tile slots are written to staging (R133). -/
def State.domeWrite (s : State) (r : Rout) (img : Image) (a : LArr) (la d n : Nat) : State :=
  match domeStage r img la d n with
  | none => s
  | some (adr, len, attr) => s.access (.rout r.q r.seq) adr len attr r.tenant (some (domeBytes a.dome d n)) false

/-- The fall-back entries of tile slots are read from staging (R133). -/
def State.domeRead (s : State) (r : Rout) (img : Image) (la d n : Nat) : Chked Unit :=
  match domeStage r img la d n with
  | none => (s, .ok ())
  | some (adr, len, attr) => andThen (s.readC adr len attr r.tenant) (fun s _ => (s, .ok ()))

/-- GOPEN (R124); on the fall-back path the entries cleared lie in staging (R133). -/
def State.gopenOp (la : Nat) (g : GopenF) (s : State) (r : Rout) (img : Image) (a : LArr) (_ : Nat) : AEff :=
  let c := gopenFault s.variant a g
  if c != 0 then .fail s c
  else
    let a := a.gopen g
    .go (if a.slow then s.domeWrite r img a la g.dbase (g.dcountM1 + 1) else s) a

/-! Operands of a PASS. -/

/-- Where one side's operands come from: the stream's entry `n`, its view and its expansion tensor. -/
structure Side where
  f : FsetF
  b : StreamBind
  n : Nat
  ent : Option TmEntry
  exp : Option TmEntry

/-- The element index of operand (x, k) in the stream's tensor (Table 7.11). -/
def Side.idx (d : Side) (x k : Nat) : Nat := d.b.base + (16 * d.n + k) * d.b.kStride + x * d.b.xStride

/-- The bytes of the operand's element. -/
def Side.elemAt (d : Side) (e : TmEntry) (x k : Nat) : Nat × Nat := e.at (d.idx x k) (fmtNib d.f.fmt)

/-- The bytes of entry `t` of the expansion tensor (R118, R119). -/
def Side.tabAt (d : Side) (e : TmEntry) (t : Nat) : Nat × Nat := if d.f.xmode = 1 then (e.addr + 2 * t, 2) else (e.addr + 8 * t, 8)

def State.sideCode (s : State) (d : Side) (x k : Nat) : Nat :=
  match d.ent with
  | some e => e.read s.rdN (d.idx x k) (fmtNib d.f.fmt)
  | none => 0

def State.sideTab (s : State) (d : Side) (t : Nat) : Nat :=
  match d.exp with
  | some e => let (a, n) := d.tabAt e t; s.rdN a n
  | none => 0

/-- Resolves a side's tensors for an array's twig cache. -/
def State.side (s : State) (r : Rout) (u : Nat) (f : FsetF) (b : StreamBind) (n : Nat) : Chked Side :=
  if b.src = 1 then (s, .ok { f := f, b := b, n := n, ent := none, exp := none })
  else andThen (blaming r b.tid (s.resolve 2 u r.tenant b.tid)) (fun s e =>
    if f.xmode = 0 then (s, .ok { f := f, b := b, n := n, ent := some e, exp := none })
    else andThen (blaming r f.xtid (s.resolve 2 u r.tenant f.xtid)) (fun s x => (s, .ok { f := f, b := b, n := n, ent := some e, exp := some x })))

/-- A capture that precedes may still be refused in the bells that have opened, so that the K order is not yet known (R150). -/
def State.captureDue (s : State) (ch : Nat) : Bool :=
  s.queues.any (fun (_, x) => x.infl.any (fun d => d.phase == .admitted && decide (d.firstBell ≤ s.bellNo) && (match d.d.body with
    | .conv c => c.capture != 0 && c.captureCh == ch && d.capCode == some 0
    | _ => false)))

/-- Ranges with the attributes of their tensors, read in order; the first that fails gives its code. -/
def State.readList (s : State) (tenant : Nat) : List (Nat × Nat × Nat) → Chked Unit
  | [] => (s, .ok ())
  | (a, n, attr) :: l => andThen (s.readC a n attr tenant) (fun s _ => State.readList s tenant l)

/-- What filling a queue with an entry comes to: a fault, a wait, or the entry's operands in the order asked for. -/
abbrev Filled := State × Except Nat (Option (List Val))

/-- Fills an entry from a tensor (R114, R117 to R119, R203): each operand (x, chan, k) is read and expanded. The routine's own writes to what it reads come
first (R189). -/
def State.fillTensor (s : State) (r : Rout) (d : Side) (e : TmEntry) (l : List (Nat × Nat × Nat)) : Filled :=
  let nib := fmtNib d.f.fmt
  if l.any (fun (x, _, k) => !e.holds (d.idx x k) nib) then (s.blame r d.b.tid, .error 0x0502)
  else
    let rng := l.map (fun (x, _, k) => d.elemAt e x k)
    if s.overlaps r rng then (s, .ok none)
    else andThen (s.readList r.tenant (rng.map (fun (a, n) => (a, n, e.attr)))) (fun s _ =>
      let entry := fun (x chan k : Nat) => if d.f.xmode = 1 then s.sideCode d x k % 16 else chan
      match d.exp with
      | none => (s, .ok (some (l.map (fun (x, chan, k) => operandVal d.f (s.sideTab d) chan (s.sideCode d x k)))))
      | some y =>
        let ts := (l.map (fun (x, chan, k) => entry x chan k)).eraseDups
        if ts.any (fun t => let (a, n) := d.tabAt y t; decide (y.addr + y.extent < a + n)) then (s.blame r d.f.xtid, .error 0x0502)
        else andThen (s.readList r.tenant (ts.map (fun t => let (a, n) := d.tabAt y t; (a, n, y.attr)))) (fun s _ =>
          if d.f.xmode = 2 && ts.any (fun t => bits (s.sideTab d t) 41 23 != 0) then (s, .error 0x0302)
          else (s, .ok (some (l.map (fun (x, chan, k) => operandVal d.f (s.sideTab d) chan (s.sideCode d x k)))))))

/-- The window of the front stage that an entry's K-group lies in. -/
def Side.window (d : Side) : Nat := (d.b.kg0 + d.n) / 4

/-- Fills an entry from the capture channel (R150 to R152): it waits for what has not arrived; a tile that spilled is read back from staging, and a re-read
sweep reads the captured tensors. `seen` is the last window that the array has taken. -/
def State.fillFront (s : State) (r : Rout) (seen : Nat) (d : Side) (l : List (Nat × Nat × Nat)) : Filled :=
  let ch := SMap.look {} s.chans r.r.captureCh
  let k0 := 16 * (d.b.kg0 + d.n)
  let w := d.window
  if (r.gathers && decide (w < seen)) || s.captureDue r.r.captureCh then (s, .ok none)
  else
    let val := fun (x k : Nat) => ch.operand r.r.tokens r.r.dim (k0 + k) (d.b.base + x)
    if l.any (fun (x, _, k) => (val x k).isNone) then (s, .ok none)
    else
      let sweep := r.gramRest || decide (w < seen) || decide (w < r.frontSeen)
      let want := (l.flatMap (fun (x, _, k) => match ch.place r.r.tokens r.r.dim (k0 + k) (d.b.base + x) with
        | none => []
        | some (c, row, t) =>
          if sweep || t.lost then c.rereads row (d.b.base + x)
          else match t.spill, r.stageEnt with
            | some a, some e => [(a, t.bytes, e.attr)]
            | _, _ => [])).eraseDups
      if s.overlaps r (want.map (fun (a, n, _) => (a, n))) then (s, .ok none)
      else andThen (s.readList r.tenant want) (fun s _ =>
        (s, .ok (some (l.map (fun (x, _, k) =>
          let v := (val x k).getD 0
          if r.r.ipath then decodeVal .int8 v else v32 v)))))

/-- Fills an entry of a side. -/
def State.fillSide (s : State) (r : Rout) (seen : Nat) (d : Side) (l : List (Nat × Nat × Nat)) : Filled :=
  match d.ent with
  | some e => s.fillTensor r d e l
  | none => s.fillFront r seen d l

/-- An entry joins a queue, or the fill waits. -/
def filled (p : Filled) (k : State → List Val → State × Except Nat (Option LArr)) : State × Except Nat (Option LArr) :=
  match p with
  | (s, .error c) => (s, .error c)
  | (s, .ok none) => (s, .ok none)
  | (s, .ok (some v)) => k s v

/-- Fills the row feeders with the A entry of a PASS, unless it reuses the one before or the entry is there (R114, R203). -/
def State.fillA (s : State) (r : Rout) (a : LArr) (u : Nat) (p : PassF) : State × Except Nat (Option LArr) :=
  match a.fa, a.bindA, a.grp p.group with
  | some fa, some ba, some g =>
    if a.hold.isSome || !a.feedA.isEmpty then (s, .ok (some a))
    else if ba.kgroupsM1 < a.posA then (s, .error 0x0301)
    else andThen (s.side r u fa ba a.posA) (fun s d =>
      let row := g.row0 + 128 * (p.dtile / g.tcols)
      filled (s.fillSide r a.fwin d ((List.range 2048).map (fun n => (n / 16, row + n / 16, n % 16)))) (fun s v =>
        (s, .ok (some { a with feedA := a.feedA ++ [v], posA := a.posA + 1, fwin := if ba.src = 1 then max a.fwin d.window else a.fwin }))))
  | _, _, _ => (s, .ok (if a.hold.isSome then some a else none))

/-- Fills the B queue with the entry of a PASS, unless it is there (R114, R203): pass `j` of a run takes columns 8j to 8j + 7. -/
def State.fillB (s : State) (r : Rout) (a : LArr) (u : Nat) (p : PassF) : State × Except Nat (Option LArr) :=
  match a.fb, a.bindB, a.grp p.group with
  | some fb, some bb, some g =>
    let n := a.posB / (bb.runM1 + 1)
    let j := a.posB % (bb.runM1 + 1)
    if !a.feedB.isEmpty then (s, .ok (some a))
    else if bb.kgroupsM1 < n then (s, .error 0x0301)
    else andThen (s.side r u fb bb n) (fun s d =>
      filled (s.fillSide r a.fwin d ((List.range 128).map (fun m => (8 * j + m / 16, g.outCol p.dtile (m / 16), m % 16)))) (fun s v =>
        (s, .ok (some { a with feedB := a.feedB ++ [v], posB := a.posB + 1, fwin := if bb.src = 1 then max a.fwin d.window else a.fwin }))))
  | _, _, _ => (s, .ok none)

/-- The array with the entries that a PASS needs; none while they are not there. -/
def State.fill (s : State) (r : Rout) (a : LArr) (u : Nat) (p : PassF) : State × Except Nat (Option LArr) :=
  match s.fillA r a u p with
  | (s, .ok (some a)) => s.fillB r a u p
  | x => x

/-- Tile slots whose SAT flag is set, over the open groups. -/
def satCount (a : LArr) : Nat := sumN (a.groups.map (fun (_, g) => match g with | some g => g.sat.length | none => 0))

/-- The engine of the fall-back service (R205). -/
def State.serviceLan (s : State) : Option Nat := (List.range s.nLan).find? (s.serves 5)

/-- What R116 and R130 count of a PASS in time: the frozen cycles before it, and whether it starts a ramp-up. Both are free values (log 3). -/
def State.passTiming (s : State) (u : Nat) : State :=
  ((s.tickFree).bump O.freezeCycles u 32 (Config.stallCycles s.freeCtr).toNat).bump O.rampStarts u 32 (Config.rampStart s.freeCtr).toNat

/-- INT_SAT_TILES (R138): a tile slot counts each time that its SAT flag is newly set (DESIGN CHOICE, log 65). -/
def State.countSat (s : State) (u : Nat) (a b : LArr) : State := s.bump O.intSatTiles u 32 (satCount b - satCount a)

/-- The front stage has presented a K-group: the next K and the windows presented (R150, Table 6.8). -/
def presented (a : LArr) (p : PassF) (r : Rout) : Rout :=
  if (match a.bindA with | some b => b.src == 1 | none => false) || (match a.bindB with | some b => b.src == 1 | none => false) then
    { r with frontNext := 16 * (p.kg + 1), frontWin := max r.frontWin (p.kg / 4 + 1) }
  else r

/-- PASS (R110, R114, R116, R120 to R122, R127, R133). -/
def State.passOp (p : PassF) (s : State) (r : Rout) (_ : Image) (a : LArr) (u : Nat) : AEff :=
  if a.full p then .wait
  else
    let c := passFault a p
    if c != 0 then .fail s c
    else match s.fill r a u p with
      | (s, .error c) => .fail s c
      | (_, .ok none) => .wait
      | (s, .ok (some b)) =>
        let n := match a.fa, a.fb with | some x, some y => (passParts x y).length | _, _ => 1
        let a' := b.pass r.r.srSeed r.r.srStep p
        let s := (((s.passTiming u).bump O.passes u 32 n).countSat u a a').spend (200 * 16384 * n)
        .go (s.rupd r.q r.seq (fun r => { presented a p r with itPasses := r.itPasses + n })) a'

/-- What GDRAIN delivers to the DRAIN stream as 4-byte words (R126, R203): under IPATH each sum N of an INT32 drain becomes the pair of R156, with the
scale of the GRAM's captures (DEDUCED, log 65). -/
def drainWords (r : Rout) (scale form : Nat) (vals : List (Nat × Nat × Nat)) : List Nat :=
  if form = 1 then vals.flatMap (fun (_, _, v) => [v % 2 ^ 32, v / 2 ^ 32])
  else if r.r.ipath && form == 2 then
    vals.flatMap (fun (_, _, v) =>
      let x := Val.mul (Val.mul (v32 scale) (v32 scale)) (Val.ofInt (sext 32 v))
      let vc := rne32 x
      [vc, rne32 (Val.sub x (v32 vc))])
  else vals.map (fun (_, _, v) => v)

/-- GDRAIN (R126, R203, R204): the values go to the DRAIN stream in staging, the flags to AFLG and to MODE.DFLAG of the issuing Lantern. A GRAM that still
gathers its tokens drains nothing yet (R154); on the fall-back path the entries are read from staging (R133). -/
def State.gdrainOp (la : Nat) (g : GdrainF) (s : State) (r : Rout) (img : Image) (a : LArr) (_ : Nat) : AEff :=
  if a.pend.any (fun p => p.group == g.group) || r.gathers then .wait
  else
    let c := gdrainFault a g
    if c != 0 then .fail s c
    else match a.grp g.group with
      | none => .fail s 0x0303
      | some x =>
        match (if a.slow && g.form != 3 then s.domeRead r img la x.dbase x.dcount else (s, .ok ())) with
        | (s, .error c) => .fail s c
        | (s, .ok _) =>
          let words := drainWords r (((SMap.look {} s.chans r.r.captureCh).scale).getD 0) g.form (a.drain x g.form)
          let done := fun (s : State) (a : LArr) =>
            let a := { a with aflg := a.aflg ||| x.flagBits }
            let a := if g.close then a.setGrp g.group none else a
            let s := if x.flagBits = 0 then s else s.rupd r.q r.seq (fun r => r.updLan a.issuer (fun l => l.setMode 14))
            AEff.go s a
          if words.isEmpty then done s a
          else match a.bindD, r.stageEnt with
            | some b, some e =>
              let i0 := b.base + a.posD
              let adr := e.addr + 4 * i0
              if e.extent < 4 * (i0 + words.length) then .fail s 0x0502
              else if s.overlaps r [(adr, 4 * words.length)] then .wait
              else
                done (s.access (.rout r.q r.seq) adr (4 * words.length) e.attr r.tenant (some (words.flatMap (toBytes 4))) false)
                  { a with posD := a.posD + words.length }
            | _, _ => .wait

/-- The Lantern's part of a fall-back promotion (R133, R205): it reads the tile slot's entries through the memory ports, applies R125 and R126, and writes
them. -/
def State.fallbackDo (s : State) (r : Rout) (img : Image) (a : LArr) (la m : Nat) (p : Promo) (l : List Promo) : State :=
  let d := promoSlot a p
  let a' := { a.applyPromo r.r.srSeed r.r.srStep p with pend := l }
  let s := (s.bump O.fallbackPromotions m 32 1).domeWrite r img a' la d 1
  let s := match r.arrMap[la]? with
    | some u => s.countSat u a a'
    | none => s
  (s.rupd r.q r.seq (fun r => r.updArr la (fun _ => a'))).settle r.q r.seq

/-- FALLBACK_PROMOTIONS (R133, R205): the lowest serving Lantern applies the oldest waiting promotion of a fall-back array. -/
def State.fallback (s : State) (q seq la slot : Nat) : State :=
  match s.rfind q seq, s.serviceLan with
  | some r, some m =>
    (match r.arrs[la]?, r.img with
     | some a, some img =>
       (match a.pend with
        | p :: l =>
          if r.phase != .loaded || !s.live || !s.awake || s.lanFrozen || p.slot != slot || s.domeBusy r img la (promoSlot a p) 1 then s
          else s.readThen (.dome q seq la) (fun s => s.domeRead r img la (promoSlot a p) 1) (fun s x => match x with
            | .error c => s.faultRout q seq c
            | .ok _ => s.fallbackDo r img a la m p l)
        | [] => s)
     | _, _ => s)
  | _, _ => s

/-! The front stage. -/

/-- The K of a tile's first row. -/
def tileK (c : Chan) (q seq : Nat) (rows : List Nat) : Nat := startK q seq c.order + rows.foldl min (rows.headD 0)

/-- The bytes that the front buffer holds: tiles that came ahead of their window and have not spilled (R152). -/
def chanBuffered (c : Chan) (ready : Nat) : Nat :=
  sumN (c.tiles.map (fun t => if t.spill.isNone && !t.lost && decide (ready / 64 < tileK c t.q t.seq (t.ops.map (·.1)) / 64) then t.bytes else 0))

/-- The front buffer's occupancy over all channels. -/
def State.frontUsed (s : State) : Nat :=
  sumN (s.chans.map (fun (_, c) => match c.owner with
    | some (q, n) => (match s.rfind q n with | some g => chanBuffered c (c.ready g.r.dim g.r.tokens) | none => 0)
    | none => 0))

/-- What a tile that spills writes to staging (R141): its codes, scales and side-list entries. -/
def spillBytes (t : Captured) (n : Nat) : List Nat :=
  let l := t.codes.flatMap (fun (_, c) => toBytes 4 c) ++ t.scales.flatMap (fun (_, v) => toBytes 4 v) ++ t.sides.flatMap (fun (p, v) => toBytes 4 p ++ toBytes 4 v)
  (l ++ List.replicate n 0).take n

/-- Whether the front stage can take a tile (R103): a spill needs the GRAM's staging area, which its dispatch gives. -/
def frontTakes (g : Rout) (spills : Bool) : Bool := !spills || (g.stageEnt.isSome && g.img.isSome)

/-- Where a tile of `n` bytes that spills lies in the GRAM's staging area, when it fits. -/
def spillAt (g : Rout) (ch : Chan) (n : Nat) : Option (Nat × Nat) :=
  match g.img, g.stageEnt with
  | some i, some e =>
    let o := stageFree i + g.arrs.length * 4194304 + ch.spilled
    if e.extent < o + n then none else some (e.addr + o, e.attr)
  | _, _ => none

/-- A captured tile reaches the front stage (R102, R150 to R152): one that carries poison, or whose capture or GRAM has ended, is discarded (R108). One that
comes ahead of its window waits in the buffer, or spills when that is full or fenced. -/
def State.deliver (s : State) (t : Captured) : State :=
  let ch := SMap.look {} s.chans t.ch
  let gone := s.setRing (s.ring.filter (fun x => x != t))
  match ch.owner, ch.caps.find? (fun p => p.q == t.q && p.seq == t.seq) with
  | some (gq, gs), some p =>
    (match s.rfind gq gs with
     | none => gone
     | some g =>
       if t.poison then gone
       else
         let (ops, rounded) := capOperands t p.conv g.r.ipath
         let n := capSize t p.conv
         let early := decide (ch.ready g.r.dim g.r.tokens / 64 < tileK ch t.q t.seq (ops.map (·.1)) / 64)
         let spills := early && (s.obj O.frontState == 1 || decide (s.obj O.frontBufferBytes < s.frontUsed + n))
         if !frontTakes g spills then s
         else
           let at' := if spills then spillAt g ch n else none
           let ch' := { ch with spilled := if at'.isSome then ch.spilled + ceilDiv n 128 * 128 else ch.spilled
                                tiles := ch.tiles ++ [{ q := t.q, seq := t.seq, no := t.no, bytes := n, ops := ops, spill := at'.map (·.1) }] }
           let s := (gone.setChans (SMap.put {} t.ch ch' s.chans)).bump O.frontRounded 0 32 rounded
           let s := if spills then s.bump O.frontSpills 0 32 1 else s
           let s := match at' with
             | some (a, attr) => s.access (.rout gq gs) a n attr g.tenant (some (spillBytes t n)) false
             | none => s
           s.put O.chTokens t.ch (ch'.received g.r.dim))
  | _, _ => gone

/-- The GRAM restarts for an uncorrectable front buffer error; the second before its next checkpoint fences the buffer (Table 11.2). A first one that no
second follows is transient, which the checkpoint shows (`State.eccCured`). -/
def State.frontFault (s : State) (gq gs cause : Nat) (twice : Bool) : State :=
  match s.rfind gq gs with
  | none => s
  | some g =>
    let lost := g.frontErr || twice
    let s := s.rupd gq gs (fun g => { g with phase := if g.phase = .loaded then .restart else g.phase, frontErr := !lost })
    if lost then (if s.obj O.frontState = 1 then s else (s.logFence 14 0 cause 0 (ctxOf g)).setObj O.frontState 1) else s

/-- CAPTURE_TILE (R103, R152, R294): a tile leaves the runner ring for its channel; the last of its descriptor to leave lets that commit. Cause 3 is the front
buffer's ECC, any other cause the parity of a ring link, numbered by the item. -/
def State.captureTile (s : State) (c : CapTile) (chk : Chk) : State :=
  match s.ring.find? (fun t => t.q == c.q && t.seq == c.seq && t.trow == c.trow && t.tcol == c.tcol) with
  | none => s
  | some t =>
    if !s.live || !s.awake || s.obj O.ringState == 2 then s
    else
      let g := (SMap.look {} s.chans t.ch).owner.getD (0, 0)
      let at' : Ctx := { queue := some t.q, tenant := some (s.tenantOf t.q), seq := t.seq }
      match chk with
      | .ok | .twig _ => s.deliver t
      | .transient cause item =>
        if cause = 3 then (s.deliver t).frontFault g.1 g.2 cause false
        else
          let s := s.transient 13 (item % 65536) cause 0 none at'
          if s.obj O.ringState = 2 then s else s.deliver t
      | .lasting cause item _ =>
        if cause = 3 then (s.deliver t).frontFault g.1 g.2 cause true
        else
          let s := s.bypassLink (item % 65536) cause
          if s.obj O.ringState = 2 then s else s.deliver t

end Sys2Proof.Machine
end

