-- ==== Sys2Proof/Machine/Arrays.lean ====
section
/-! DEFINITION. Routines between their instructions (R168, R172, R205) and array instructions (R112 to R127). -/

namespace Sys2Proof.Machine

/-- ITER_BOUND (R172). -/
def execIterBound (q seq : Nat) (s : State) : Host.Outcome State Fault Refusal := .next (s.iterBound q seq)

/-- ROUTINE_RESTART (R168, R298). -/
def execRoutineRestart (q seq : Nat) (s : State) : Host.Outcome State Fault Refusal := .next (s.restart q seq)

/-- FALLBACK_PROMOTIONS (R133, R205). -/
def execFallbackPromotions (q seq la slot : Nat) (s : State) : Host.Outcome State Fault Refusal := .next (s.fallback q seq la slot)

/-- Array NOP (R112). -/
def execArrNop (x : AIss) (rsv : Nat) (s : State) : Host.Outcome State Fault Refusal := .next (s.onArr (.arrNop x rsv) x (s.arrDo x (State.arrNopOp rsv)))

/-- FSET (R117). -/
def execFset (x : AIss) (f : FsetF) (s : State) : Host.Outcome State Fault Refusal := .next (s.onArr (.fset x f) x (s.arrDo x (State.fsetOp f)))

/-- PASS (R110). -/
def execPass (x : AIss) (f : PassF) (s : State) : Host.Outcome State Fault Refusal := .next (s.onArr (.pass x f) x (s.arrDo x (State.passOp f)))

/-- GOPEN (R124). -/
def execGopen (x : AIss) (f : GopenF) (s : State) : Host.Outcome State Fault Refusal := .next (s.onArr (.gopen x f) x (s.arrDo x (State.gopenOp x.la f)))

/-- GDRAIN (R126). -/
def execGdrain (x : AIss) (f : GdrainF) (s : State) : Host.Outcome State Fault Refusal := .next (s.onArr (.gdrain x f) x (s.arrDo x (State.gdrainOp x.la f)))

/-- An array instruction with a reserved OP stops its routine (R113). -/
def State.spireOp (s : State) (_ : Rout) (_ : Image) (_ : LArr) (_ : Nat) : AEff := .fail s 0x0301

/-- F_SPIRE_OP (R113). -/
def execFSpireOp (x : AIss) (op : Nat) (s : State) : Host.Outcome State Fault Refusal := .next (s.onArr (.fSpireOp x op) x (s.arrDo x State.spireOp))

end Sys2Proof.Machine
end

