-- ==== Sys2Proof/Machine/Packets.lean ====
section
/-! DEFINITION. Packets and frames as the ports carry them, in 64-bit words that hold byte 8k in [7:0] (R9): the Finfa request of Table 13.1
and response of Table 13.2 (R346 to R348), and the Belfry frame of Table 12.1 with its CRC-32 (R326, R327). -/

namespace Sys2Proof

/-! Finfa packets. -/

/-- A request: its common fields, OP, INDEX, SUB and DATA. -/
structure FinfaReq where
  head : FinfaHead
  op : Nat
  index : Nat
  sub : Nat
  data : Nat
deriving DecidableEq, Repr

/-- The request that four beats carry (Table 13.1). `rsv` gathers the reserved bits in their order: [21:20] of offset 0, [7:0] of offset 8 and [31:13] of
offset 12. -/
def FinfaReq.ofBeats (b : List Nat) : FinfaReq :=
  let x := nth 0 b 0
  let y := nth 0 b 1
  { head := { fver := bits x 24 4, role := bits x 22 2, tenant := bits x 8 12, tag := bits x 0 8, dst := bits x 48 16, req := bits x 32 16
              segOff := bits y 32 13, rsv := bits x 20 2 + 2 ^ 2 * bits y 0 8 + 2 ^ 10 * bits y 45 19 }
    op := bits x 28 4, index := bits y 16 16, sub := bits y 8 8, data := bits (nth 0 b 2) 0 64 + 2 ^ 64 * bits (nth 0 b 3) 0 64 }

/-- The four beats of a request (Table 13.1). -/
def FinfaReq.beats (r : FinfaReq) : List Nat :=
  let h := r.head
  [h.tag + 2 ^ 8 * h.tenant + 2 ^ 20 * bits h.rsv 0 2 + 2 ^ 22 * h.role + 2 ^ 24 * h.fver + 2 ^ 28 * r.op + 2 ^ 32 * h.req + 2 ^ 48 * h.dst,
   bits h.rsv 2 8 + 2 ^ 8 * r.sub + 2 ^ 16 * r.index + 2 ^ 32 * h.segOff + 2 ^ 45 * bits h.rsv 10 19,
   r.data % 2 ^ 64, r.data / 2 ^ 64 % 2 ^ 64]

/-- The four beats of a response (Table 13.2). -/
def FinfaResp.beats (r : FinfaResp) : List Nat :=
  [r.tag + 2 ^ 8 * r.ty + 2 ^ 16 * r.status + 2 ^ 24 * r.fver + 2 ^ 28 * r.op + 2 ^ 32 * r.req + 2 ^ 48 * r.src,
   2 ^ 8 * r.sub + 2 ^ 16 * r.index + 2 ^ 32 * r.segOff + 2 ^ 48 * r.size,
   r.data % 2 ^ 64, r.data / 2 ^ 64 % 2 ^ 64]

/-! Belfry frames. -/

/-- One byte of the IEEE 802.3 CRC-32, least significant bit first. -/
def crc32Byte (c b : Nat) : Nat := (List.range 8).foldl (fun c _ => c / 2 ^^^ (if c % 2 = 1 then 0xEDB88320 else 0)) (c ^^^ b)

/-- The IEEE 802.3 CRC-32 of bytes (R327). -/
def crc32 (bs : List Nat) : Nat := bs.foldl crc32Byte 0xFFFFFFFF ^^^ 0xFFFFFFFF

/-- The bytes of words, byte 8k in [7:0] (R326). -/
def wordBytes (l : List Nat) : List Nat := l.flatMap (toBytes 8)

/-- The header of a frame (Table 12.1); the low eight bits of `rsv` are its reserved field. -/
def Frame.header (f : Frame) : List Nat :=
  [f.group + 2 ^ 16 * f.pwords + 2 ^ 24 * f.hops + 2 ^ 28 * f.ftype + 2 ^ 32 * f.dst + 2 ^ 48 * f.src,
   f.lseq + 2 ^ 24 * bits f.rsv 0 8 + 2 ^ 32 * f.ack + 2 ^ 56 * f.credit, f.arg0, f.arg1]

/-- The words of a frame: header, payload and trailer, whose [63:32] are the other bits of `rsv` (R327). -/
def Frame.words (f : Frame) : List Nat :=
  let l := f.header ++ f.payload
  l ++ [crc32 (wordBytes l) + 2 ^ 32 * bits f.rsv 8 32]

/-- The frame that words carry; none when they are not as many as its PWORDS asks for, or its CRC fails (R327, R328). -/
def Frame.ofWords (l : List Nat) : Option Frame :=
  let x := nth 0 l 0
  let y := nth 0 l 1
  let p := bits x 16 8
  let t := nth 0 l (4 + p)
  if l.length ≠ p + 5 ∨ bits t 0 32 ≠ crc32 (wordBytes (l.take (4 + p))) then none
  else some
    { ftype := bits x 28 4, hops := bits x 24 4, pwords := p, group := bits x 0 16, src := bits x 48 16, dst := bits x 32 16, lseq := bits y 0 24
      credit := bits y 56 8, ack := bits y 32 24, arg0 := nth 0 l 2, arg1 := nth 0 l 3, payload := (l.drop 4).take p
      rsv := bits y 24 8 + 2 ^ 8 * bits t 32 32 }

end Sys2Proof
end

