-- ==== Sys2Proof/Machine/BellForm.lean ====
section
/-! DEFINITION. The formation of a bell (R221 to R224): carried charges, the rounds of routines and of queues, the holds of R250, R261, R262,
R146 and R148, and the admission of an item. -/

namespace Sys2Proof

/-- The routine is in the holding phase of the objects it reads at the formation of bell `b` (R146): a ROOT or SOLVE up to the last bell into which its first
iteration is admitted, a PRECOND until it ends. -/
def Rout.holding (r : Rout) (b : Nat) : Bool :=
  !r.ended && (match r.r.kind with
   | .gram => false
   | .precond => true
   | _ => match r.firstPaid with | some p => decide (b ≤ p) | none => true)

/-- The result objects that a routine reads for its whole run, as tensor IDs; `list` is a PRECOND's layer list. -/
def RoutD.readObjs (r : RoutD) (list : List Nat) : List Nat :=
  match r.kind with
  | .gram => []
  | .precond => list.flatMap (fun e => if leSkip e then [] else
      (if leLeftId e then [] else [dw e 4]) ++ (if leRightId e then [] else [dw e 8]))
  | _ => [r.inTid]

/-- The result objects that a routine writes. -/
def RoutD.writeObjs (r : RoutD) : List Nat :=
  match r.kind with
  | .gram | .root => [r.outTid]
  | .solve => r.outTid :: (if r.rhsCols = 0 then [] else [r.solnTid])
  | .precond => []

/-- The tensors that a PRECOND's layer list adds to its sets (R248). -/
def listSets (list : List Nat) : List Nat × List Nat :=
  let l := list.filter (fun e => !leSkip e)
  (l.flatMap (fun e => dw e 0 :: (if leLeftId e then [] else [dw e 4]) ++ (if leRightId e then [] else [dw e 8])), l.map (dw · 12))

/-- View rows of a GRAM's channel that have committed. -/
def Chan.committed (c : Chan) : Nat := sumN (c.caps.map (fun p => if p.done && !p.failed then p.rows else 0))

end Sys2Proof

namespace Sys2Proof.Machine

def State.units (s : State) : Units := { seg := s.nSeg, arr := s.nArr, lan := s.nLan, port := s.nPort }

/-- Base, size and stride of a reduce group in force (R325). -/
def State.redGroup (s : State) (g : Nat) : Nat × Nat × Nat :=
  if g = 0 then (s.group.base, s.group.size, 1) else (s.bget O.rgBase g, s.bget O.rgSize g, s.bget O.rgStride g)

/-- The instance of rank `k` of a reduce group. -/
def grpInst (g : Nat × Nat × Nat) (k : Nat) : Nat := (g.1 + k * g.2.2) % 65536

/-- The rank of an instance in a reduce group. -/
def grpRank (g : Nat × Nat × Nat) (inst : Nat) : Option Nat := (List.range g.2.1).find? (fun k => grpInst g k == inst)

/-- The number of members of a reduce group (R325): group 0 is the bell group. -/
def State.redSize (s : State) (g : Nat) : Nat := (s.redGroup g).2.1

def State.paced (s : State) (q : Nat) : Bool := s.bget O.queuePaced q == 1

def State.updForm (s : State) (f : Form → Form) : State := s.setForm (f s.form)

/-- Places an item's charges into the bell being formed: what is left over is carried (R219). -/
def State.pay (s : State) (ch : Charge) : State × SMap Nat :=
  let (u, rest) := payAll s.form.budget ch s.form.used
  (s.updForm (fun f => { f with used := u }), rest)

/-- A queue has an item that belongs to, or carries in, the bell being formed (R265). -/
def State.noteBell (s : State) (q : Nat) : State := s.updQueue q (fun x => { x with inBell := true })

/-! Carried charges. -/

/-- A descriptor pays what it owes, and belongs to the bell once nothing is owed (R220). -/
def State.payOwed (s : State) (q seq : Nat) (owed : SMap Nat) : State :=
  let b := s.form.bell
  let (s, rest) := s.pay owed
  let s := (s.noteBell q).dupd q seq (fun d => { d with owed := rest, bell := if rest.isEmpty then b else d.bell })
  if rest.isEmpty then s.rupd q seq (fun r => { r with lastBell := b, firstPaid := some (r.firstPaid.getD b) }) else s

/-- Phases 1 and 4 begin with the carried charges of paced or of unpaced queues (R221). An ended item pays nothing further. -/
def State.payCarried (s : State) (paced : Bool) : State :=
  let l := s.queues.flatMap (fun (q, x) => if s.paced q != paced then [] else
    x.infl.filterMap (fun d => if d.owed.isEmpty then none else some (q, d)))
  l.foldl (fun s (q, d) =>
    if d.phase == .parked || d.status == 0x010A || d.status == 0x010B ||
        (match s.rfind q d.seq with | some r => r.ended | none => false) then s.dupd q d.seq (fun d => { d with owed := [] })
    else s.payOwed q d.seq d.owed) s

/-! Continuing routines. -/

/-- The routines of paced or unpaced queues that have begun and have not ended, in the order of admission bell, queue and DESC_SEQ. -/
def State.contRouts (s : State) (paced : Bool) : List Turn :=
  let l := s.routs.filter (fun r => !r.ended && !r.r.isNoop && r.hdrCode == 0 && decide (r.admBell < s.form.bell) && s.paced r.q == paced)
  (sortBy (fun r => r.admBell * 2 ^ 64 + r.q * 2 ^ 32 + r.seq) l).map (fun r => { q := r.q, seq := r.seq })

/-- Places an iteration, or the sweep of a GRAM's rest. -/
def State.placeIter (s : State) (r : Rout) (ch : Charge) (iter : Bool) (bytes : Nat) : State :=
  let b := s.form.bell
  let (s, rest) := s.pay ch
  let s := s.noteBell r.q
  let s := if bytes = 0 then s else s.updQueue r.q (fun x => { x with bytesDue := x.bytesDue ++ [(b, r.seq, bytes)] })
  (s.dupd r.q r.seq (fun d => { d with owed := rest.foldl (fun m (k, v) => SMap.upd 0 k (· + v) m) d.owed })).rupd r.q r.seq
    (fun r => { r with itersPlaced := if iter then r.itersPlaced + 1 else r.itersPlaced, lastBell := if rest.isEmpty then b else r.lastBell })

/-- A continuing routine's turn (R221, R154): true while it goes on offering. It stops for a power move (R382), and when its queue is being reset (R222). The
rest of a GRAM is its re-read sweeps, an item of their own, and its one iteration. -/
def State.offerIter (s : State) (q seq : Nat) : State × Bool :=
  match s.rfind q seq with
  | none => (s, false)
  | some r =>
    let f := s.form
    let iter := iterCharge s.units r.bound r.nArr r.nLan
    let room := fits f.budget f.used iter
    if r.ended || f.noWork || r.preemptReset || s.get O.queueState q == 2 then (s, false)
    else if r.r.kind != .gram || r.gramRest then (if room then s.placeIter r iter true 0 else s, room)
    else
      let c := SMap.look {} s.chans r.r.captureCh
      if c.committed != r.r.tokens then (s, false)
      else
        let bytes := sumN (c.caps.map (·.bytes))
        let rest := s.rupd q seq (fun r => { r with gramRest := true })
        match sweepCharge s.units r.r.dim r.r.tokens bytes with
        | none => (if room then rest.placeIter r iter true 0 else s, room)
        | some ch =>
          if fits f.budget f.used ch then
            let sweeps := ceilDiv (gramSlots r.r.dim) (512 * s.nArr) - 1
            ((rest.placeIter r ch false bytes).bump O.rereadSweeps 0 32 sweeps, true)
          else (s, false)

/-! New descriptors. -/

/-- The code that a read of the entries of a layer list meets first, and the entries that it gives: those in beats that read well (R248). -/
def State.listRead (s : State) (tenant attr a layers : Nat) : Chked (List Nat × Nat) :=
  andThen (s.readAll [(a, 32 * layers)] attr tenant) (fun s _ =>
    let bad := fun (k : Nat) => badCode (s.rangeBad (a + 32 * k) 32)
    let ks := List.range layers
    (s, .ok (ks.map (fun k => if bad k = 0 then s.rdN (a + 32 * k) 32 else 0), ((ks.map bad).find? (· != 0)).getD 0)))

/-- Reads a PRECOND's layer list (R248): its raw entries, 0 for one that could not be read, and the code that the read or the resolution of an entry met. -/
def State.readLayers (s : State) (tenant : Nat) (r : RoutD) : State × (List Nat × Nat) :=
  match s.wres tenant r.listTid with
  | (s, .error c) => (s, ([], c))
  | (s, .ok e) =>
    if e.extent < 32 * r.layers then (s, ([], 0x0105))
    else match s.listRead tenant e.attr e.addr r.layers with
      | (s, .error c) => (s, ([], c))
      | (s, .ok (l, code)) =>
        let (a, b) := listSets (l.filter (· != 0))
        match s.resolveAll tenant (a ++ b) with
        | (s, .error (c, _)) => (s, (l, if code = 0 then c else code))
        | (s, .ok _) => (s, (l, code))

/-- The tensors listed that resolve. -/
def State.resolving (s : State) (tenant : Nat) : List Nat → State × List Nat
  | [] => (s, [])
  | t :: ts =>
    let (s, e) := s.wres tenant t
    let (s, l) := State.resolving s tenant ts
    (s, match e with | .ok _ => t :: l | .error _ => l)

/-- The read and write sets of a descriptor, with what of a layer list was read and resolves (R248). -/
def State.setsOf (s : State) (tenant : Nat) (d : Desc) (list : List Nat) : State × (List Nat × List Nat) :=
  let (r, w) := d.rawSets
  let (a, b) := listSets (list.filter (· != 0))
  let (s, a) := s.resolving tenant a
  let (s, b) := s.resolving tenant b
  s.baseSets tenant (r ++ a, w ++ b)

/-- The base tensors of the result objects that routines of a tenant domain hold at this formation (R146). -/
def State.heldObjs (s : State) (tenant : Nat) : State × List Nat :=
  s.routs.foldl (fun (s, l) r =>
    if r.tenant == tenant && !r.r.isNoop && r.holding s.form.bell then
      let (s, x) := s.baseList tenant (r.r.readObjs (((s.dfind r.q r.seq).map (·.list)).getD []))
      (s, l ++ x)
    else (s, l)) (s, [])

/-- Whether a result object that the routine writes is in the holding phase of an earlier reader (R146). -/
def State.resultHeld (s : State) (tenant : Nat) (w : RoutD) : State × Bool :=
  if w.isNoop || w.writeObjs.isEmpty then (s, false)
  else
    let (s, objs) := s.baseList tenant w.writeObjs
    let (s, held) := s.heldObjs tenant
    (s, objs.any (fun t => t ∈ held))

/-- The image header that formation reads for a routine's price (R218): ITER_BOUND, ARRAYS, LANTERNS_USED, and the code that the read met. -/
def State.priceHdr (s : State) (tenant : Nat) (r : RoutD) : State × (Nat × Nat × Nat × Nat) :=
  match s.wres tenant r.imageTid with
  | (s, .error c) => (s, (0, 0, 0, c))
  | (s, .ok e) =>
    if e.extent < 128 then (s, (0, 0, 0, 0))
    else match s.readC e.addr 128 e.attr tenant with
      | (s, .error c) => (s, (0, 0, 0, c))
      | (s, .ok h) => let i := Image.ofHeader h; (s, (i.iterBound, i.arrays, i.lanterns, 0))

/-- The charge of a descriptor and the bytes that BYTES counts for it (Table 8.2); for a routine, what its header gave. -/
def State.priceOf (s : State) (tenant : Nat) (d : Desc) : State × Charge × Nat × (Nat × Nat × Nat × Nat) :=
  let u := s.units
  let one : Charge := [(ledItems, 1)]
  if d.malformed || d.body.isNoop then (s, one, 0, (0, 0, 0, 0))
  else match d.body with
    | .conv c =>
      let ch := SMap.look {} s.chans c.captureCh
      let dim := ch.owner.bind (fun (q, n) => (s.rfind q n).map (·.r.dim))
      let (a, b) := c.bytesRW
      (s, c.charge u (if c.capture = 0 then none else dim), a + b, (0, 0, 0, 0))
    | .reduce r => let (a, b) := r.bytesRW; (s, r.charge u (s.redSize r.rgroup), a + b, (0, 0, 0, 0))
    | .rout r =>
      let (s, h) := s.priceHdr tenant r
      let (bound, na, nl, code) := h
      (s, if r.kind = .gram || code != 0 then one else iterCharge u bound na nl, 0, h)
    | _ => (s, one, 0, (0, 0, 0, 0))

/-- A FENCE may be admitted (R262). -/
def State.fenceOk (s : State) (q : Nat) (scope : Bool) (a : Nat) : Bool :=
  let f := s.form
  !f.openAt.any (fun (p, _, _) => p == q) && !(s.queue q).infl.any (fun d => d.firstBell == f.bell) &&
    (!scope || !f.openAt.any (fun (p, _, n) => s.tenantOf p == s.tenantOf q && decide (n < a)))

/-- A WAIT at its turn (R261): not yet, satisfied, or timed out. -/
inductive WaitRes where
  | hold | ok | late
deriving DecidableEq, Repr

def State.waitRes (s : State) (thr target bells a : Nat) : WaitRes :=
  if thr ≤ s.get O.syncValue target then .ok
  else if bells != 0 && decide (a + bells ≤ s.form.bell) then .late else .hold

/-- A routine as its admission leaves it (R154, R155, R160). -/
def State.newRout (s : State) (q seq : Nat) (r : RoutD) (h : Nat × Nat × Nat × Nat) : Rout :=
  let gram := r.kind == .gram
  let b := if r.chParams then s.bget O.chDecay r.captureCh else r.decay
  let a := if r.chParams then s.bget O.chWeight r.captureCh else r.weight
  let n := if gram || r.isNoop || h.2.2.2 != 0 then 0 else 1
  { q := q, seq := seq, tenant := s.tenantOf q, r := r, chOk := s.bget O.chOwner r.captureCh == s.tenantOf q, admBell := s.form.bell, bound := h.1, nArr := h.2.1, nLan := h.2.2.1, hdrCode := h.2.2.2
    beta := plusZero b, alpha := a, pivMin := s.bget O.solvePivotMin 0, itersPlaced := n }

/-- What admission samples for a conversion (R62, R65, R80, R100). -/
def State.sampleConv (s : State) (q : Nat) (c : ConvD) (d : DRt) : DRt :=
  { d with slotOwned := s.bget O.histOwner c.histSlot == s.tenantOf q, effMax := s.get O.effMax c.histSlot
           expLo := s.bget O.hedgeHistExpLo 0, frozen := s.frozen, streamT := s.bget O.hedgeStreamTimeout 0 }

/-- Admits the descriptor at the head of a queue into the bell being formed (R220, R221). -/
def State.admitItem (s : State) (q : Nat) (d : Desc) (sets : List Nat × List Nat) (list : List Nat × Nat) (ch : Charge) (bytes : Nat)
    (h : Nat × Nat × Nat × Nat) (aux : Nat × Nat × Nat) : State :=
  let b := s.form.bell
  let n := s.get O.nextSeq q
  let offered := ((s.queue q).offered).getD b
  let s := s.take q (fun r =>
    let r := { r with firstBell := b, bell := b, offered := offered, sets := sets, list := list.1, listErr := list.2
                      aux0 := aux.1, aux1 := aux.2.1, aux2 := aux.2.2 }
    match d.body with
    | .conv c => s.sampleConv q c r
    | .reduce x => { r with grp := s.redGroup x.rgroup }
    | _ => r)
  let (s, rest) := s.pay ch
  let s := (s.noteBell q).dupd q n (fun r => { r with owed := rest })
  let s := if bytes = 0 then s else s.updQueue q (fun x => { x with bytesDue := x.bytesDue ++ [(b, n, bytes)] })
  match d.body, s.dfind q n with
  | .rout r, some dr =>
    if !dr.isRout then s
    else
      let o := s.newRout q n r h
      let s := s.setRouts (s.routs ++ [{ o with lastBell := if rest.isEmpty then b else 0, firstPaid := if rest.isEmpty then some b else none }])
      if r.kind = .gram ∧ !r.isNoop ∧ o.chOk then
        ((s.setChans (SMap.put {} r.captureCh { owner := some (q, n) } s.chans)).put O.chState r.captureCh 1).put O.chTokens r.captureCh 0
      else s
  | _, _ => s

/-- What an offer came to: it stops the queue for the bell, goes on, or waits for a descriptor. -/
inductive Offer where
  | stop (s : State)
  | more (s : State)
  | wait (s : State)

/-- The holds of R250, R146 and R148 on the head descriptor; `skip` when it is malformed or refused with F_SYNC, `res` when R146 holds it. -/
def State.held (s : State) (q : Nat) (d : Desc) (sets : List Nat × List Nat) (skip res : Bool) : Bool :=
  let f := s.form
  let x := s.queue q
  let new := x.infl.filter (fun e => e.isRout && e.firstBell == f.bell)
  let old := f.routAt.filter (fun (p, _, _) => p == q)
  x.infl.any (fun e => !e.isRout && !e.owed.isEmpty) ||
    (!skip && (old.any (fun (_, _, z) => setsConflict z sets) || new.any (fun e => setsConflict e.sets sets))) ||
    decide (16 ≤ old.length + new.length) ||
    (!skip && (match d.body with
     | .rout r => !r.isNoop && (res || (r.kind == .gram && (SMap.look {} s.chans r.captureCh).owner.isSome))
     | _ => false))

/-- Whether a descriptor of a queue will be refused with F_SYNC, from SYNC_OWNER in force (R237, R242). -/
def State.syncRefused (s : State) (q : Nat) (d : Desc) : Bool :=
  let own := fun (t : Nat) => s.bget O.syncOwner t == s.tenantOf q
  !d.malformed && ((d.sigEn && !own d.syncId) ||
    (match d.body with
     | .signal _ _ t => !own t
     | .wait _ t _ => !own t
     | _ => false))

/-- A queue's turn with a readable descriptor (R222). -/
def State.offerHead (s : State) (q : Nat) (d : Desc) : Offer :=
  let t := s.tenantOf q
  let f := s.form
  let s := s.updQueue q (fun x => { x with offered := some (x.offered.getD f.bell), trapMode := s.bget O.nanTrapMode q })
  let a := ((s.queue q).offered).getD f.bell
  let skip := d.malformed || s.syncRefused q d
  let (s, list) := match d.body, (s.queue q).headList with
    | .rout r, none =>
      if r.kind = RKind.precond ∧ !r.isNoop ∧ !skip then
        let (s, l) := s.readLayers t r
        (s.updQueue q (fun x => { x with headList := some l }), l)
      else (s, ([], 0))
    | _, l => (s, l.getD ([], 0))
  let (s, sets) := if skip then (s, ([], [])) else s.setsOf t d list.1
  let (s, res) := match d.body with
    | .rout r => if skip then (s, false) else s.resultHeld t r
    | _ => (s, false)
  if s.held q d sets skip res then .stop s
  else
    let (s, ch, bytes, h) := s.priceOf t d
    if !fits f.budget f.used ch then .stop s
    else
      let go := fun (aux : Nat × Nat × Nat) => State.admitItem s q d sets list ch bytes h aux
      if skip then .more (go (0, 0, 0))
      else match d.body with
        | .fence sc => if s.fenceOk q sc a then .more (go (0, 0, 0)) else .stop s
        | .wait thr g bells =>
          let v := s.get O.syncValue g
          (match s.waitRes thr g bells a with
           | .hold => .stop s
           | .ok => .more (go (0, v % 2 ^ 32, v / 2 ^ 32))
           | .late => .more (go (1, v % 2 ^ 32, v / 2 ^ 32)))
        | .bellWait n =>
          if n = 0 then .more (go (0, 0, 0))
          else .stop ((go (0, 0, 0)).updQueue q (fun x => { x with holdUntil := f.bell + n }))
        | .conv _ | .rout _ => if f.noWork then .stop s else .more (go (0, 0, 0))
        | _ => .more (go (0, 0, 0))

/-- A pace break (R223): the queue stops offering for the bell. -/
def State.paceBreak (s : State) (q : Nat) : State :=
  let f := s.form
  ((s.bump O.paceBreaks 0 32 1).report
    { code := 0x0705, queue := some q, tenant := some (s.tenantOf q), payload := genPay 0 f.pace f.bell }).updForm (fun f => { f with waiting := none })

/-- A queue's turn (R222, R223). A paced queue with nothing to read waits up to BELL_PACE_WAIT cycles; once TAIL names a descriptor, for its read alone. -/
def State.offerQueue (s : State) (q : Nat) (paced : Bool) : Offer :=
  let f := s.form
  let x := s.queue q
  if s.get O.queueState q != 1 || decide (f.bell < x.holdUntil) || f.noNew then .stop s
  else if !paced && SMap.look 0 f.caps q == 0 then .stop s
  else if maxItems ≤ SMap.look 0 f.used ledItems then .stop s
  else match s.head q with
    | some d =>
      (match s.offerHead q d with
       | .more s => .more (s.updForm (fun f => { f with caps := if paced then f.caps else SMap.upd 0 q (· - 1) f.caps }))
       | o => o)
    | none =>
      if s.get O.nextSeq q != s.get O.tail q then .wait (s.updForm (fun f => { f with waiting := none }))
      else if !paced then .stop s
      else if f.pace = 0 then .stop (s.paceBreak q)
      else if f.waiting == some q then .wait s
      else .wait (s.updForm (fun f => { f with waiting := some q, since := s.cycle }))

/-! The formation as a whole. -/

/-- The turns of the paced or unpaced queues that were enabled as the formation began (R264). -/
def State.enabledQs (s : State) (paced : Bool) : List Turn :=
  (s.form.enabled.filter (fun q => s.paced q == paced)).map (fun q => { q := q, seq := 0 })

/-- FILL objects of the bell formed (R230). -/
def State.setFills (s : State) : State :=
  let f := s.form
  let top := fun (lo hi : Nat) => maxN (f.used.map (fun (k, v) => if lo ≤ k ∧ k < hi then v else 0))
  let pm := fun (v : Nat) => if f.budget = 0 then 0 else min 1000 (v * 1000 / f.budget)
  ((((s.setObj O.fillSeg (pm (top 0 10000))).setObj O.fillArr (pm (top 10000 11000))).setObj O.fillLan (pm (top 11000 12000))).setObj
    O.fillPort (pm (top 12000 12002))).setObj O.fillRing (pm (top 12002 12003))

/-- The turns of phase `p`. -/
def State.setTurns (s : State) (p : Nat) (t : List Turn) : State := s.updForm (fun f => { f with phase := p, turn := t, next := [] })

/-- Enters phase `p` of a formation. -/
def State.enterPhase (s : State) (p : Nat) : State :=
  match p with
  | 1 => (s.payCarried true).setTurns p []
  | 2 => s.setTurns p (s.contRouts true)
  | 3 => s.setTurns p (s.enabledQs true)
  | 4 =>
    let caps := (s.enabledQs false).foldl (fun m t => SMap.put 0 t.q ((s.get O.tail t.q + 2 ^ 32 - s.get O.nextSeq t.q) % 2 ^ 32) m) []
    ((s.updForm (fun f => { f with caps := caps })).payCarried false).setTurns p []
  | 5 => s.setTurns p (s.contRouts false)
  | 6 => s.setTurns p (s.enabledQs false)
  | _ => s.setFills.setTurns p []

/-- The turn at the head of the round is over; with `more`, it comes again in the next round. -/
def State.turnOver (s : State) (t : Turn) (rest : List Turn) (more : Bool) : State :=
  s.updForm (fun f => { f with turn := rest, next := if more then f.next ++ [t] else f.next, waiting := none })

/-- The turn of queue `t.q` in a round; it stays at the head of the round while it waits. -/
def State.queueTurn (t : Turn) (rest : List Turn) (s : State) : State :=
  match s.offerQueue t.q (s.form.phase == 3) with
  | .stop s => s.turnOver t rest false
  | .more s => s.turnOver t rest true
  | .wait s => s

/-- One turn of a formation, and whether another may follow: not once it is over, nor while it waits for a descriptor, a walk or a read. -/
def State.formStep (s : State) : State × Bool :=
  let f := s.form
  if 7 ≤ f.phase then (s, false)
  else match f.turn with
    | [] =>
      if f.next.isEmpty then (s.enterPhase (f.phase + 1), true) else (s.updForm (fun f => { f with turn := f.next, next := [] }), true)
    | t :: rest =>
      if f.phase = 2 ∨ f.phase = 5 then
        if maxItems ≤ SMap.look 0 f.used ledItems then (s.turnOver t rest false, true)
        else let (s, more) := s.offerIter t.q t.seq; (s.turnOver t rest more, true)
      else
        let s := s.reading (.form t.q) (State.queueTurn t rest)
        (s, s.form.turn.length == rest.length)

def State.formN (s : State) : Nat → State
  | 0 => s
  | n + 1 => match s.formStep with
    | (s, false) => s
    | (s, true) => State.formN s n

/-- Carries a formation as far as the descriptors and data read allow; each turn but the last of a queue or routine admits an item, so the bound is
not reached. -/
def State.formMore (s : State) : State := s.formN (2 * maxItems + 4 * (s.objs.length + s.queues.length + s.routs.length) + 64)

/-- The formation of bell `b` begins (R216, R221): what is open is noted, the settings are taken, and the ledgers start at 0. What the sapling service left to bell 0
belongs to it already (R378). -/
def State.beginForm (s : State) (b : Nat) : State :=
  let opens := s.queues.flatMap (fun (q, x) => x.infl.map (fun d => (q, d.seq, d.firstBell)))
  let routs := (s.routs.filter (fun r => !r.ended)).filterMap (fun r => (s.dfind r.q r.seq).map (fun d => (r.q, r.seq, d.sets)))
  let fresh := fun (q : Nat) (x : QRt) => { x with inBell := b == 0 && x.inBell, trapMode := s.bget O.nanTrapMode q }
  let s := s.setQueues (s.queues.map (fun (q, x) => (q, fresh q x)))
  let f : Form := { bell := b, budget := s.obj O.bellPeriod * s.obj O.bellFillPct / 100, period := s.obj O.bellPeriod, pace := s.obj O.bellPaceWait,
                    enabled := (s.listed O.queueState).filterMap (fun (q, v) => if v = 1 then some q else none)
                    noNew := s.obj O.bellResetState == 1, noWork := s.draining || s.obj O.powerState != 0, openAt := opens, routAt := routs }
  let s := s.setForm f
  (s.enterPhase 1).formMore

end Sys2Proof.Machine
end

