-- ==== Sys2Proof/Machine/Tick.lean ====
section
/-! DEFINITION. The passing of LCLK cycles: the cycle number, the time base with its rate correction (R330), and the cycles that the throttle
freezes (R384, R116, Table 14.3). -/

namespace Sys2Proof

/-- The arrays are frozen in a cycle of number `c` at a throttle level (Table 14.3). -/
def arrayFrozenAt (level c : Nat) : Bool :=
  let r := c % 8
  match level with
  | 0 => false
  | 1 => decide (7 ≤ r)
  | 2 => decide (6 ≤ r)
  | 3 => decide (4 ≤ r)
  | 4 => decide (2 ≤ r)
  | _ => true

/-- Frozen cycles among the `n` from cycle number `c`. -/
def frozenIn (level c n : Nat) : Nat :=
  let cnt := fun (m : Nat) => ((List.range m).filter (fun i => arrayFrozenAt level (c + i))).length
  (n / 8) * cnt 8 + cnt (n % 8)

/-- One cycle of the time base: its unit is 2^-48 cycle. -/
def tbCycle : Nat := 2 ^ 48

end Sys2Proof

namespace Sys2Proof.Machine

/-- The arrays freeze for `n` cycles, which each of them counts (R116, R131). -/
def State.freezeArrays (s : State) (n : Nat) : State := (List.range s.nArr).foldl (fun s a => s.bump O.freezeCycles a 32 n) s

/-- `n` cycles of LCLK pass. -/
def State.advance (s : State) (n : Nat) : State :=
  if n = 0 then s
  else
    let f := frozenIn (s.obj O.throttleLevel) s.cycle n
    let s := if f = 0 then s else (s.freezeArrays f).bump O.throttleFrozen 0 32 f
    (s.setCycle (s.cycle + n)).setTb (((s.tb : Int) + (n : Int) * ((tbCycle : Int) + s.rate)).toNat % 2 ^ 112)

/-- Time passes until cycle `c`, if it has not come. -/
def State.until (s : State) (c : Nat) : State := s.advance (c - s.cycle)

/-- The cycle at which the time base reaches a stamp of 2^-16 cycle units (R331). -/
def State.cycleOf (s : State) (stamp : Nat) : Nat :=
  let t := stamp * 2 ^ 32
  if t ≤ s.tb then s.cycle
  else
    let per := ((tbCycle : Int) + s.rate).toNat
    s.cycle + (if per = 0 then 0 else ceilDiv (t - s.tb) per)

/-- The stamp of a cycle that has not passed, as the time base now runs. -/
def State.stampOf (s : State) (c : Nat) : Nat :=
  ((s.tb : Int) + ((c : Int) - (s.cycle : Int)) * ((tbCycle : Int) + s.rate)).toNat / 2 ^ 32

/-- An empty command queue: one cycle of LCLK passes (log 4); none passes while a reset is held. -/
def State.idle (s : State) : State := if s.coldHeld || s.warmHeld then s else s.advance 1

end Sys2Proof.Machine
end

