-- ==== Sys2Proof/Machine/GroupOps.lean ====
section
/-! DEFINITION. The bell group (12_belfry.md): the toll tree over live ranks (R332), the configuration digest and its summary (R338, R339),
and the frames of the toll and of formation (R333 to R335). -/

namespace Sys2Proof

/-! The toll tree: `live` lists the live ranks in rising order. -/

/-- The lowest live rank of the node of level `lvl` that covers rank `r`. -/
def holder (live : List Nat) (lvl r : Nat) : Option Nat := live.find? (fun x => x / 2 ^ lvl == r / 2 ^ lvl)

/-- The member that holds the parent of the highest node that rank `r` holds. -/
def parentOf (live : List Nat) (r : Nat) : Option Nat := (rangeFrom 1 15).findSome? (fun l =>
  match holder live l r with
  | some h => if h = r then none else some h
  | none => none)

def childrenOf (live : List Nat) (r : Nat) : List Nat := live.filter (fun c => parentOf live c == some r)

/-- The live ranks below the highest node that rank `r` holds, itself among them. -/
def subtreeOf (live : List Nat) (r : Nat) : List Nat :=
  let top := ((List.range 16).filter (fun l => holder live l r == some r)).getLast?.getD 0
  live.filter (fun x => x / 2 ^ top == r / 2 ^ top)

def Group.live (g : Group) : List Nat := (List.range g.size).filter (fun r => !(r ∈ g.lost))

/-- Live ranks that no LOST has named. -/
def Group.up (g : Group) : List Nat := g.live.filter (fun r => !(r ∈ g.lostNext))

/-- The stamp nearest to `now` whose low 64 bits are `x` (R327). -/
def nearStamp (now x : Nat) : Nat :=
  let hi := now / 2 ^ 64 * 2 ^ 64
  let c := hi + x % 2 ^ 64
  if c + 2 ^ 63 < now then c + 2 ^ 64 else if now + 2 ^ 63 < c ∧ 2 ^ 64 ≤ c then c - 2 ^ 64 else c

/-! The configuration digest (R338). -/

/-- The select numbers of the binding objects of an index. -/
def digestSels (index : Nat) : List Nat :=
  match index with
  | 0x3101 => List.range 16384
  | 0x4231 => List.range 64
  | 0x6101 => List.range 262144
  | 0x6301 => List.range 131072
  | 0x7101 => rangeFrom 1 255
  | 0x8201 => List.range 262144
  | _ => [0]

/-- The 16-byte records of the digest over binding objects, from the values that `get` gives. -/
def digestBytes (get : Nat → Nat → Nat) : List Nat :=
  let idx := (objTable.filter (·.bind)).map (·.oid)
  (idx.map (· / 256)).eraseDups.flatMap (fun i =>
    (idx.filter (fun o => o / 256 == i)).flatMap (fun o => (digestSels i).flatMap (fun n =>
      toBytes 2 i ++ toBytes 1 (o % 256) ++ [0] ++ toBytes 4 n ++ toBytes 8 (get o n))))

end Sys2Proof

namespace Sys2Proof.Machine

/-- CONFIG_DIGEST: the digest of the binding objects as the last close took them; 0 before the first. -/
def State.ownDigest (s : State) : Nat :=
  match s.digest with
  | none => 0
  | some _ => crc64 (digestBytes s.bget)

/-- This member's rank, as its group formed (R324). -/
def State.ownRank (s : State) : Nat := s.obj O.bgRank

def State.updGroup (s : State) (f : Group → Group) : State := s.setGroup (f s.group)

/-- The time master is the live member of lowest rank (R324). -/
def State.isMaster (s : State) : Bool := s.group.up.head? == some s.ownRank

def State.putMaster (s : State) : State :=
  match s.group.up.head? with
  | some m => s.setObj O.bgMaster (s.group.base + m + 1)
  | none => s

/-- The bell in force among a group's frames: all ones while the group forms. -/
def allOnes : Nat := 2 ^ 64 - 1

/-- The block waits for its group to form: at start-up, or after a bell-domain reset (R375, R380). -/
def State.grouping (s : State) : Bool := s.live && (s.phase == 3 || s.obj O.bellResetState == 2)

/-- Whether this member's digest of the running bell differs from the master's (R339). -/
def State.mismatched (s : State) : Bool :=
  match s.masterDig with
  | some m => decide (1 < s.group.size) && m != s.group.ownDigest
  | none => false

/-- The ARRIVEs that have come in with this member's own part: the latest ready stamp and the digest summary. -/
def State.arrived (s : State) (own : Nat) : Nat × Nat × Nat :=
  let me := if s.mismatched then (s.ownRank, 1) else (0xFFFF, 0)
  s.group.arrivals.foldl (fun (t, lo, n) a => (max t a.ready, min lo a.low, n + a.count)) (own, me.1, me.2)

/-- Every child of this member has sent its ARRIVE, or is lost. -/
def State.childrenIn (s : State) : Bool :=
  (childrenOf s.group.live s.ownRank).all (fun c => c ∈ s.group.lostNext || s.group.arrivals.any (fun a => a.rank == c))

/-- The stamp at which this member is ready for the toll (R333): its due time less TOLL_MARGIN, or the end of its close. -/
def State.readyStamp (s : State) : Nat :=
  s.stampOf (max (s.due - s.obj O.tollMargin) (s.closedAt + s.obj O.bellCloseCycles))

/-- Sends a frame to each child of this member, in the tree over the live ranks that no LOST has named, so that it reaches those whose holder is lost
(DESIGN CHOICE, log 71). -/
def State.toChildren (s : State) (ftype a0 a1 : Nat) (p : List Nat) : State :=
  (childrenOf s.group.up s.ownRank).foldl (fun s c => s.sendTo (s.frame ftype (s.group.base + c) a0 a1 p)) s

/-- RELEASE goes down the tree (R333, R339). -/
def State.sendRelease (s : State) (bell stamp dig : Nat) (sum : Nat × Nat) : State :=
  s.toChildren 5 bell stamp [dig, sum.1 * 65536 + sum.2]

/-- Once this member is ready and every child has arrived, the master forms the toll stamp and releases, and any other member sends its
ARRIVE (R332, R333). -/
def State.tryToll (s : State) : State :=
  let g := s.group
  if s.bell != .formed || decide (g.size ≤ 1) || g.sentUp || !s.childrenIn || s.stopped then s
  else
    let (t, lo, n) := s.arrived s.readyStamp
    if s.isMaster then
      let stamp := t + s.obj O.tollMargin * 65536
      let dig := s.ownDigest
      (s.updGroup (fun g => { g with sentUp := true, stamp := some stamp, nextDigest := dig, sum := (lo, n) })).sendRelease s.bellNo stamp dig (lo, n)
    else match parentOf g.live s.ownRank with
      | none => s
      | some p =>
        (s.updGroup (fun g => { g with sentUp := true, heardSent := true })).sendTo
          (s.frame 4 (g.base + p) s.bellNo t [lo * 65536 + n])

/-- A member that becomes master while no RELEASE has come forms the stamp itself, from the ARRIVEs that it holds (R344). -/
def State.takeOver (s : State) (was : Bool) : State :=
  if !was && s.isMaster && s.group.stamp.isNone then s.updGroup (fun g => { g with sentUp := false }) else s

/-- A member is lost (R335): it is counted, the master may change, and the tree re-forms from the next bell. -/
def State.loseRank (s : State) (r : Nat) : State :=
  let g := s.group
  if r ∈ g.lost ∨ r ∈ g.lostNext ∨ g.size ≤ r ∨ r = s.ownRank then s
  else
    let was := s.isMaster
    let s := (s.updGroup (fun g => { g with lostNext := g.lostNext ++ [r] })).setObj O.bgLive (s.obj O.bgLive - 1)
    ((s.keepParent State.putMaster).takeOver was).linkEvent 4 0xFF (g.base + r)

/-! Formation (R334, R375). -/

/-- The group of the formation that begins: BG_BASE and BG_SIZE in force, or a group of one when the instance lies outside (R324). -/
def State.beginGroup (s : State) : State :=
  let own := s.obj O.instanceId
  let b := s.obj O.bgBase
  let n := s.obj O.bgSize
  let inside := decide (b ≤ own) && decide (own < b + n)
  let g : Group := if inside then { self := own, base := b, size := n } else { self := own, base := own, size := 1 }
  let s := (s.setGroup g).setMasterDig none
  let s := ((s.setObj O.bgRank (own - g.base)).setObj O.bgLive g.size).putMaster
  if inside then s else s.linkEvent 2 0xFF 0

/-- This member becomes a group of one (R375). -/
def State.aloneGroup (s : State) : State :=
  let own := s.obj O.instanceId
  let s := (s.setGroup { self := own, base := own, size := 1 }).setMasterDig none
  (((s.setObj O.bgRank 0).setObj O.bgLive 1).setObj O.bgMaster (own + 1)).linkEvent 2 0xFF 0

/-- A forming member whose children have all arrived sends its formation ARRIVE. -/
def State.formArrive (s : State) : State :=
  let g := s.group
  if !s.grouping || decide (g.size ≤ 1) || g.sentUp || !s.childrenIn then s
  else match parentOf g.live s.ownRank with
    | none => s
    | some p =>
      if (s.route (g.base + p)).isNone then s
      else
        let (t, _, _) := s.arrived (s.tb / 2 ^ 32)
        (s.updGroup (fun g => { g with sentUp := true })).sendTo (s.frame 4 (g.base + p) allOnes t [0xFFFF * 65536])

/-- The ranks that the formation ARRIVEs stand for. -/
def State.presentRanks (s : State) : List Nat :=
  s.ownRank :: s.group.arrivals.flatMap (fun a => subtreeOf s.group.live a.rank)

end Sys2Proof.Machine
end

