-- ==== Sys2Proof/Machine/PowerAsk.lean ====
section
/-! DEFINITION. What asks for a power state (R381) and where a move begins (R382): the state requested, the bell at whose close a move to a
deeper state begins, and the pre-emptions of its drain. -/

namespace Sys2Proof.Machine

/-- The power state requested (R381). -/
def State.powerWanted (s : State) : Nat := max s.pstateReq (s.obj O.powerRequest)

/-- For NAP and SLEEP every routine in flight is asked to leave its units (R382). -/
def State.powerPreempt (s : State) (target : Nat) : State :=
  if target < 2 then s else s.routs.foldl (fun s r => s.askPreempt r.q r.seq false) s

/-- The request changes, or comes to be acted on (R381, R382, R390): before phase 4 none is, and a stopped block accepts SLEEP only. A request
that is taken back before its entry ends the move. -/
def State.powerAsk (s : State) : State :=
  let want := s.powerWanted
  let cur := s.obj O.powerState
  if s.coldHeld || s.warmHeld then s
  else if s.stopped then
    (if want = 3 ∧ cur ≠ 3 then ((s.setMoving (some (3, 0))).setDraining true).setExiting false
     else if want < 3 ∧ cur = 3 then ((s.setExiting true).setMoving none).setDraining false
     else (((s.setExiting false).setMoving none).setDraining false))
  else if cur != 3 && s.phase != 4 then s
  else if want = cur then ((s.setExiting false).setMoving none).setDraining false
  else if want < cur then ((s.setExiting true).setMoving none).setDraining false
  else
    let at' := s.obj O.powerAtBell
    let c := if at' = 0 ∨ at' ≤ s.bellNo then 0 else at' - 1
    let s := (s.setExiting false).setMoving (some (want, match s.moving with | some (_, c) => c | none => c))
    if s.draining then s.powerPreempt want else s

/-- The close of bell `b` begins a move that was due (R382, R390). -/
def State.powerClose (s : State) (b : Nat) : State :=
  match s.moving with
  | some (t, c) => if !s.draining && decide (c ≤ b) && s.obj O.bellResetState == 0 then (s.setDraining true).powerPreempt t else s
  | none => s

end Sys2Proof.Machine
end

