-- ==== Sys2Proof/Machine/BellOps.lean ====
section
/-! DEFINITION. The close of a bell and its toll (R225 to R227): late commits (R419), the comparator self-test (R303, R304), the history update
(R64), expired work (R91, R171, R153), BELL_WAITs, sync updates, accounting, the epoch, the digest and the formation of the next bell;
bell 0, the toll and the bell-domain reset (R376, R380). -/

namespace Sys2Proof

/-- HMAX × 2^ADJ clamped to 2^-126 .. 0x7F7FFFFF (R64). -/
def effOf (hmax : Nat) (adj : Int) : Nat :=
  let x := rne32 (Val.mul (v32 hmax) (Val.dyadic false 1 adj))
  if Val.lt (v32 x) (v32 0x00800000) then 0x00800000 else if Val.lt (v32 0x7F7FFFFF) (v32 x) then 0x7F7FFFFF else x

/-- The largest of FP32 maxima, +0 when there is none. -/
def maxF (l : List Nat) : Nat := l.foldl (fun m x => if Val.lt (v32 m) (v32 x) then x else m) 0

/-- The energy of Table 9.14 from the totals and the coefficients of Table 9.17. -/
def energyOf (el macs ops bytes : Nat) : Nat := (300 * el + 200 * macs + 3900 * ops + 1221 * bytes) * 2 ^ 20 / 10 ^ 12 % 2 ^ 64

end Sys2Proof

namespace Sys2Proof.Machine

/-! Binding objects (R340, R67, R282). -/

/-- A served write of a binding object, with what the object's own rule adds. -/
def State.bindPut (s : State) (oid sel v : Nat) : State :=
  if oid = O.histOwner then
    (s.put oid sel v).setHist (SMap.upd {} sel (fun h => { h with reset := true }) s.hist)
  else if oid / 256 = 0x6410 ∨ oid / 256 = 0x6411 then ((s.put oid sel v).staleWalks (fun _ => true)).setTwigs []
  else if oid = O.queueTenant ∧ s.get O.queueState sel ≠ 0 then s
  else if oid = O.nanTrapMode then (s.put oid sel v).put O.nanTrapExtra sel 0
  else s.put oid sel v

/-- A slot as SLOT_RESET leaves it (R67), EFF_MAX at `init`. -/
def State.slotResetTo (s : State) (n init : Nat) : State :=
  let s := s.setHist (SMap.put {} n {} s.hist)
  (((s.put O.ringFill n 0).put O.adj n 0).put O.hmax n (odfl s.variant O.hmax n)).put O.effMax n init

/-- SLOT_RESET: INIT_MAX as it now stands. -/
def State.slotReset (s : State) (n : Nat) : State := s.slotResetTo n (s.get O.initMax n)

/-- Applies the staged epoch due at bell `b` (R340). A slot whose OWNER it writes is reset at this same close, with INIT_MAX as the close
began with it (R67; DEDUCED, log 61): its new owner is in force from bell `b` on. -/
def State.applyEpoch (s : State) (b : Nat) : State :=
  match s.stage with
  | some { writes := w, armed := some (next, bell) } =>
    if bell ≠ b then s
    else
      let was := fun n => s.get O.initMax n
      let s := w.foldl (fun s (o, n, v) => s.bindPut o n v) s
      let s := w.foldl (fun s (o, n, _) => if o = O.histOwner then s.slotResetTo n (was n) else s) s
      (((s.setStage none).setObj O.epochCurrent next).setObj O.epochState 0).setObj O.epochStaged 0
  | _ => s

/-! The history update. -/

/-- The close of one slot (R64); while scales are frozen its accumulators are discarded (R80). -/
def State.slotClose (s : State) (n : Nat) (h : HistRt) (discard : Bool) : State :=
  if h.reset then s.slotReset n
  else if !h.fed then s
  else if discard then s.setHist (SMap.put {} n { ring := h.ring } s.hist)
  else
    let ring := (h.curMax :: h.ring).take 16
    let fill := min (s.get O.ringFill n + 1) 16
    let hmax := maxF (ring.take (min (s.get O.histWindow n) fill))
    let adj := sext 8 (s.get O.adj n)
    let on := s.get O.adapt n == 1
    let adj :=
      if on && decide (0 < h.elements) && decide (s.get O.clipThresh n * h.elements < h.clips * 2 ^ 20) then min (adj + 1) 16
      else if on && decide (0 < h.nonzero) && decide (s.get O.uflowThresh n * h.nonzero < h.uflows * 2 ^ 20) then max (adj - 1) (-16)
      else adj
    let s := s.setHist (SMap.put {} n { ring := ring } s.hist)
    let s := ((s.put O.ringFill n fill).put O.hmax n hmax).put O.adj n (trunc2 8 adj)
    if Val.lt .zero (v32 hmax) then s.put O.effMax n (effOf hmax adj) else s

def State.histClose (s : State) (discard : Bool) : State := s.hist.foldl (fun s (n, h) => s.slotClose n h discard) s

/-! What holds a close (R419). -/

/-- A BELL_WAIT that acts, and the bell at whose close it completes (R222). -/
def bellWaitEnd (d : DRt) : Option Nat :=
  if d.d.malformed || d.noSync then none
  else match d.d.body with
    | .bellWait n => if n = 0 then none else some (d.firstBell + n - 1)
    | _ => none

/-- The conversion of a stream-side descriptor that acts. -/
def streamOf (d : DRt) : Option ConvD :=
  if d.d.malformed || d.noSync || d.d.body.isNoop then none
  else match d.d.body with
    | .conv c => if c.srcStream || c.dstStream then some c else none
    | _ => none

/-- The item belongs to bell `b` or an earlier one. -/
def itemDue (d : DRt) (b : Nat) : Bool := d.owed.isEmpty && decide (d.bell ≤ b)

/-- A pair of a conversion's range is out: its stream ports carry nothing (R107). -/
def State.pairOut (s : State) (c : ConvD) : Bool := (List.range c.segSpan).any (fun i => (s.segOf (c.segBase + i)).isNone)

/-- A stream-side descriptor still misses tiles of its view, or has tiles that a pair of its range, which is out, cannot deliver (R91, R107). That R419 and R91
speak of the second as of the first is DEDUCED from R107 (log 69). -/
def State.streamWaits (s : State) (d : DRt) : Bool :=
  match streamOf d with
  | none => false
  | some c => (d.phase == .admitted || d.phase == .running) &&
      ((c.srcStream && decide (d.tilesIn.length < c.tiles)) || (s.pairOut c && decide (d.tilesOk.length < c.tiles)))

/-- A stream-side descriptor that R419 lets run on: it waits so, or has already outlived its bell. -/
def State.streamOpen (s : State) (d : DRt) : Bool := d.phase != .parked && (s.streamWaits d || (d.late && (streamOf d).isSome))

/-- A routine's share of bell `b` is done: it has ended and its record is parked, or every iteration placed and paid for is over. -/
def State.routShare (s : State) (d : DRt) (q : Nat) : Bool :=
  match s.rfind q d.seq with
  | none => d.phase == .parked
  | some r =>
    if r.ended then d.phase == .parked
    else if d.phase == .admitted then false
    else if r.r.kind == .gram && !r.gramRest then true
    else decide ((if d.owed.isEmpty then r.itersPlaced else r.itersPlaced - 1) ≤ r.iteration)

/-- A queue holds back the close of bell `b`, for work or for the parking write of a record (R245); `behind`: an earlier descriptor of the queue is one that R419
lets run on. -/
def State.queueHolds (s : State) (q b : Nat) : List DRt → Bool → Bool
  | [], _ => false
  | d :: ds, behind =>
    let free := d.phase == .parked || (bellWaitEnd d).isSome || !itemDue d b || behind || s.streamOpen d || (d.late && s.workDone q d)
    let hold := if d.isRout then decide (d.firstBell ≤ b) && !s.routShare d q else !free
    hold || (d.phase == .parked && s.waits (.park q d.seq)) || State.queueHolds s q b ds (behind || s.streamOpen d)

/-- A stream-side descriptor is taken at its dispatch before a close can leave it behind. -/
def State.streamDisp (s : State) (q : Nat) : Bool :=
  match s.nextDisp q with
  | some d => (match streamOf d with | some c => !s.dispHeld d c | none => false)
  | none => false

/-- Every item that holds the close of the running bell is done (R225, R419). -/
def State.closable (s : State) : Bool :=
  s.live && s.bell == .open && decide (7 ≤ s.form.phase) && s.queues.all (fun (q, x) => !s.queueHolds q s.bellNo x.infl false && !s.streamDisp q)

/-! Steps of the close. -/

/-- Commits, in order, the non-routine descriptors of a queue that are done; those that R419 deferred count from the bell that closes. -/
def State.flushQueue (s : State) (q b : Nat) : List DRt → State
  | [] => s
  | e :: es =>
    match s.dfind q e.seq with
    | none => State.flushQueue s q b es
    | some d =>
      let s :=
        if !d.isRout && s.workDone q d then
          let s := if d.late then (s.noteBell q).dupd q d.seq (fun d => { d with bell := b, late := false }) else s
          match s.dfind q d.seq with
          | some d => s.commitD q d
          | none => s
        else s
      State.flushQueue s q b es

def State.flush (s : State) (b : Nat) : State := s.queues.foldl (fun s (q, x) => s.flushQueue q b x.infl) s

/-- F_COMPARATOR (R302, R303). -/
def State.cmpFault (s : State) (kind u : Nat) : State :=
  (s.bump O.comparatorFails 0 32 1).report { code := 0x0205, unitKind := kind, unit := u, payload := genPay 0 8 0 }

/-- The comparator self-test of a close (R303, R304): failing segments are fenced with cause 4, and a failure freezes scales, as a second mismatch of the central
scale unit does (R302). Also whether the close discards the slot accumulators. What fails in one cycle is reported in the order of R306. -/
def State.selfTest (s : State) (segs : List Nat) (central : Bool) (chk : Chk) : State × Bool :=
  let bad := (List.range s.nSeg).filter (fun u => decide (u ∈ segs) && s.serves 1 u)
  let was := s.frozen
  let s := bad.foldl (fun s u => (s.cmpFault 1 u).fence 1 u 4 0 {}) s
  let s := if central then s.cmpFault 9 0 else s
  let (s, lost) := match chk with
    | .transient cause _ => (s.transient 9 0 cause 0 none {}, false)
    | .lasting .. => (s.cmpFault 9 0, true)
    | _ => (s, false)
  let fail := !bad.isEmpty || central || lost
  let s := if was then s.bump O.frozenBells 0 32 1 else s
  let s := if fail then (s.setFrozen true).setObj O.comparatorState 1
    else if was then (s.setFrozen false).setObj O.comparatorState 0 else s
  (s, was || fail)

/-- The routine's deadline falls at bell `b` (R171). -/
def deadlineDue (r : Rout) (b : Nat) : Bool := !r.ended && r.r.deadline != 0 && decide (r.admBell + r.r.deadline ≤ b + 1)

/-- The timeout of a stream-side descriptor falls at bell `b` (R91, R107). -/
def State.streamExpired (s : State) (d : DRt) (b : Nat) : Bool := s.streamWaits d && decide (d.firstBell + d.streamT ≤ b + 1)

/-- A stream-side descriptor stops with F_STREAM_TIMEOUT. -/
def State.streamStop (s : State) (q : Nat) (d : DRt) : State :=
  match d.d.body with
  | .conv c => s.stopConv q d.seq 0x0202 c.mainTid 0
  | _ => s

/-- A GRAM whose channel lost a capture ends (R153). -/
def State.captureLost (s : State) (r : Rout) : State :=
  let c := SMap.look {} s.chans r.r.captureCh
  if !r.ended && r.r.kind == .gram && c.owner == some (r.q, r.seq) && c.caps.any (·.failed) then s.faultRout r.q r.seq 0x0406 else s

/-- Commits a routine's descriptor at once when nothing of it is outstanding. -/
def State.commitNow (s : State) (q seq : Nat) : State :=
  match s.dfind q seq with
  | some d => if s.commitReady q d then s.commitD q d else s
  | none => s

/-- Step 3 of R227: the streams whose timeout falls at `b` stop, and commit; then the routines end that a capture lost by then ends (R153), or whose
deadline falls at `b`. -/
def State.expire (s : State) (b : Nat) : State :=
  let s := s.queues.foldl (fun s (q, x) => x.infl.foldl (fun s d => if s.streamExpired d b then s.streamStop q d else s) s) s
  let s := s.flush b
  let s := s.routs.foldl (fun s r =>
    let s := s.captureLost r
    match s.rfind r.q r.seq with
    | some r => if r.ended then s.commitNow r.q r.seq else if deadlineDue r b then (s.endRout r.q r.seq 2 0).commitNow r.q r.seq else s
    | none => s) s
  s.flush b

/-- Completes a BELL_WAIT. -/
def State.endWait (s : State) (q : Nat) (d : DRt) : State :=
  let s := s.doneD q d.seq
  match s.dfind q d.seq with
  | some d => if s.workDone q d then s.commitD q d else s
  | none => s

/-- Step 4 of R227: BELL_WAITs whose hold ends; all of them when the bells restart (R380). -/
def State.endWaits (s : State) (b : Nat) (every : Bool) : State :=
  s.queues.foldl (fun s (q, x) => x.infl.foldl (fun s d =>
    match bellWaitEnd d with
    | some e => if (every || decide (e ≤ b)) && (d.phase == .admitted || d.phase == .running) then s.endWait q d else s
    | none => s) s) s

/-- The end of step 4: SYNC_VALUE writes, then the updates of released records in queue and DESC_SEQ order (R260). -/
def State.applySync (s : State) : State :=
  let s := s.syncWrites.foldl (fun s (o, v) => s.put O.syncValue o v) (s.setSyncWrites [])
  let l := sortBy (fun (u : SyncUpd) => u.q * 2 ^ 40 + u.seq * 2 + u.sub) s.syncUpds
  l.foldl State.syncApply (s.setSyncUpds [])

/-- Bytes of a queue's items that belong to bells up to `b` (R265). -/
def State.bytesOf (s : State) (q b : Nat) : State :=
  let x := s.queue q
  let due := fun (e : Nat × Nat × Nat) => decide (e.1 ≤ b) && (match qfind x e.2.1 with
    | some d => d.sap || d.owed.isEmpty && (d.isRout || decide (d.bell ≤ b)) && !d.late
    | none => true)
  let n := sumN ((x.bytesDue.filter due).map (·.2.2))
  (s.updQueue q (fun x => { x with bytesDue := x.bytesDue.filter (fun e => !due e) })).acct O.acctBytes q n

/-- Work of the iterations of a queue's routines that are over (R265). -/
def State.workOf (s : State) (q : Nat) : State :=
  let l := s.routs.filter (fun r => r.q == q && (match s.dfind q r.seq with | some d => d.owed.isEmpty | none => true))
  let x := s.queue q
  let m := x.macsDue + sumN (l.map (·.passes))
  let o := x.opsDue + sumN (l.map (·.laneOps))
  let s := s.updRouts (fun r => l.any (fun y => y.q == r.q && y.seq == r.seq)) (fun r => { r with passes := 0, laneOps := 0 })
  ((s.updQueue q (fun x => { x with macsDue := 0, opsDue := 0 })).acct O.acctMacs q (16384 * m)).acct O.acctLaneOps q o

/-- The accounting record (Table 9.14) as a 64-byte number. -/
def State.acctRecord (s : State) (q b : Nat) : Nat :=
  b % 2 ^ 64 + s.get O.acctElements q * 2 ^ 64 + s.get O.acctMacs q * 2 ^ 128 + s.get O.acctLaneOps q * 2 ^ 192 + s.get O.acctBytes q * 2 ^ 256 +
    s.get O.acctEnergy q * 2 ^ 320 + s.get O.acctBells q * 2 ^ 384 + s.get O.acctLateTolls q * 2 ^ 416 + s.get O.acctDescriptors q * 2 ^ 448 +
    s.get O.acctErrors q * 2 ^ 480

/-- Step 5 of R227 for one queue. -/
def State.acctQueue (s : State) (q b : Nat) : State :=
  let s := (s.bytesOf q b).workOf q
  let s := if (s.queue q).inBell then (s.acct O.acctBells q 1).updQueue q (fun x => { x with bellSeen := some b }) else s
  if !(s.queue q).changed then s
  else
    let e := energyOf (s.get O.acctElements q) (s.get O.acctMacs q) (s.get O.acctLaneOps q) (s.get O.acctBytes q)
    let s := (s.put O.acctEnergy q e).updQueue q (fun x => { x with changed := false })
    let a := s.get O.acctBase q
    if a = 0 then s
    else s.ringWrite (.acct q) q 0 a (toBytes 64 (s.acctRecord q b))

/-- Step 6 of R227. -/
def State.takeBinding (s : State) (b : Nat) : State :=
  let s := s.applyEpoch b
  (s.setDigest (some s.objs)).setObj O.digestBell b

/-- What R419 lets run on past its bell is marked: it commits at a later close. -/
def State.markLate (s : State) (b : Nat) : State :=
  let mark := fun (d : DRt) => if d.isRout || d.phase == .parked || (bellWaitEnd d).isSome || !itemDue d b then d else { d with late := true }
  s.setQueues (s.queues.map (fun (q, (x : QRt)) => (q, { x with infl := x.infl.map mark })))

/-- The iterations of a routine that the bells opened so far hold (R220). The sweeps of a GRAM's rest may be admitted a bell before its iteration. -/
def opensOf (r : Rout) : Nat := if r.gramRest then max r.itersPlaced 1 else r.itersPlaced

/-- The bell being formed is complete: it waits for its toll, and a member of a group tells its parent (R225, R333). Once it has opened, the captures admitted into
it are judged (R149), and the iterations that it holds go on. -/
def State.formed (s : State) : State :=
  if s.form.phase < 7 then s
  else match s.bell with
    | .forming => ((s.setBell .formed).setClosedAt s.cycle).tryToll
    | .open =>
      let s := (s.judgeCaptures s.bellNo).updRouts (fun r => r.itersOpen != opensOf r) (fun r => { r with itersOpen := opensOf r })
      s.routs.foldl (fun s r => s.settle r.q r.seq) s
    | _ => s

/-- A formation that waited goes on. -/
def State.formResume (s : State) : State :=
  if (s.bell == .forming || s.bell == .open) && decide (s.form.phase < 7) then s.formMore.formed else s

/-- Nothing admitted is incomplete (R380): only BELL_WAITs hold, and no routine, carry or late descriptor remains. -/
def State.drained (s : State) : Bool :=
  s.queues.all (fun (_, x) => x.infl.all (fun d => d.phase == .parked || (bellWaitEnd d).isSome)) && s.routs.all (fun r => r.phase == .over)

/-- The bell sequence restarts at a close (R380, step 2). -/
def State.restartBells (s : State) : State :=
  let slots := (s.hist.map (·.1) ++ s.objs.filterMap (fun (k, _) => if k / 262144 / 256 = 0x3101 then some (k % 262144) else none)).eraseDups
  let s := slots.foldl State.slotReset s
  let fresh := fun (x : QRt) => { x with holdUntil := 0, offered := none, bellSeen := none, trapBell := none, inBell := false }
  let s := ((s.setQueues (s.queues.map (fun (q, x) => (q, fresh x)))).setBell .none).setForm { bell := 0, budget := 0 }
  (((s.setObj O.bellNumber 0).setObj O.bellResetState 2).beginGroup).formArrive

/-- Steps 1 to 7 of a close (R227). Every record that may go by then is released in it, and its sync updates take part in step 4 (R260). -/
def State.closeSteps (s : State) (segs : List Nat) (centralFail : Bool) (central : Chk) : State :=
  let b := s.bellNo
  let asked := s.obj O.bellResetState == 1
  let s := (s.flush b).releaseAll
  let (s, discard) := s.selfTest segs centralFail central
  let s := ((s.histClose discard).expire b).releaseAll
  let reset := asked && s.drained
  let s := ((s.endWaits b reset).releaseAll).applySync
  let s := s.queues.foldl (fun s (q, _) => s.acctQueue q b) s
  let s := ((s.takeBinding (b + 1)).markLate b).powerClose b
  if reset then s.restartBells
  else ((s.setBell .forming).beginForm (b + 1)).formed

/-- BELL_CLOSE (R227), in which the sequencer's checks pass, or fail (R300). -/
def State.closeBell (s : State) (segs : List Nat) (centralFail : Bool) (central seqr : Chk) : State :=
  if !s.closable then s
  else
    let s := s.singular 10 0x0907 seqr
    if s.stopped then s else s.closeSteps segs centralFail central

/-! Opening bells. -/

/-- The bell formed opens (R225, R226): `s.cycle` is its toll. -/
def State.openNext (s : State) : State :=
  let b := s.bellNo
  let t := s.cycle
  let late := decide (s.due < t)
  let s := s.setObj O.lastBellCycles (min (t - s.openedAt) (2 ^ 32 - 1))
  let s := if late then
      let s := (s.bump O.lateTolls 0 32 1).setObj O.maxLateness (max (s.obj O.maxLateness) (min (t - s.due) (2 ^ 32 - 1)))
      s.queues.foldl (fun s (q, x) => if x.bellSeen == some b then s.acct O.acctLateTolls q 1 else s) s
    else s
  let s := (((((s.setObj O.bellNumber (b + 1)).setBell .open).setOpenedAt t).setDue (t + s.form.period)).setOverrun false).setTransBell []
  s.formed

/-- The digest summary of the bell that tolls, and the master's digest for the next (R339). -/
def State.tollDigest (s : State) : State :=
  let g := s.group
  if g.size ≤ 1 then s
  else
    let b := s.bellNo
    let (lo, n) := g.sum
    let s := if n = 0 then s
      else
        let s := (s.bump O.digestMismatches 0 32 1).setObj O.lastMismatchBell b
        if g.prevMismatch then s
        else s.report { code := 0x0802, payload := belPay (lo * 65536 + n) 0 0xFF 0 b (s.masterDig.getD g.ownDigest) g.ownDigest }
    let own := s.ownDigest
    let g := { g with lost := g.lost ++ g.lostNext, lostNext := [], arrivals := [], sentUp := false, stamp := none, ownDigest := own, sum := (0xFFFF, 0)
                      prevMismatch := n != 0 }
    (s.setGroup g).setMasterDig (if s.isMaster then none else some s.group.nextDigest)

/-- TOLL (R225, R333). -/
def State.toll (s : State) : State :=
  if s.bell != .formed || !s.live then s
  else if s.group.size ≤ 1 then (s.until (max s.due (s.closedAt + s.obj O.bellCloseCycles))).openNext
  else match s.group.stamp with
    | none => s
    | some t => ((s.until (s.cycleOf t)).tollDigest).openNext

/-- A stream-source descriptor that the sapling service left incomplete is taken as admitted into bell 0 (R378); any other keeps no bell. -/
def adopted (d : DRt) : DRt :=
  if d.phase == .parked || !d.sap then d
  else match streamOf d with
    | some c => if c.srcStream then { d with firstBell := 0, bell := 0, sap := false } else d
    | none => d

/-- Bell 0 opens (R376, R380): the streams that the sapling service left are taken as admitted into it, and it forms. -/
def State.openBell0 (s : State) : State :=
  let boot := s.phase == 3
  let s := if boot then (s.tickFree.setObj O.startupTime (Config.startupTime s.freeCtr).toNat).setObj O.startupPhase 4 else s
  let s := if boot then (s.setQueues (s.queues.map (fun (q, (x : QRt)) =>
    (q, { x with infl := x.infl.map adopted, inBell := x.infl.any (fun d => d.sap && !(adopted d).sap) })))) else s
  let s := (s.setObj O.bellResetState 0).setObj O.bellNumber 0
  let s := (((s.setBell .open).setOpenedAt s.cycle).setOverrun false).takeBinding 0
  let s := if boot then (s.setPstateAck 0).powerAsk else s
  let s := s.beginForm 0
  (s.setDue (s.openedAt + s.form.period)).formed

/-- F_BELL_OVERRUN (R226): cycle O + 4 × BELL_PERIOD comes with the close not ended. -/
def State.overrunNow (s : State) : State :=
  let lim := s.openedAt + 4 * (s.due - s.openedAt)
  let ended := s.bell == .formed && decide (s.closedAt + s.obj O.bellCloseCycles ≤ lim)
  if s.overrun || ended || s.bell == .none || !s.live then s
  else
    let s := s.until lim
    ((s.setOverrun true).bump O.overruns 0 32 1).report { code := 0x0704, payload := genPay 0 (3 * (s.due - s.openedAt)) s.bellNo }

/-- PACE_BREAKS (R223): the pace wait of the queue at its turn is over. -/
def State.paceOver (s : State) : State :=
  match s.form.waiting, s.form.turn with
  | some q, t :: rest =>
    if t.q = q ∧ s.form.phase = 3 ∧ s.live then
      (((s.until (s.form.since + s.form.pace)).paceBreak q).updForm (fun f => { f with turn := rest })).formMore.formed
    else s
  | _, _ => s

end Sys2Proof.Machine
end

