-- ==== Sys2Proof/Machine/RedOps.lean ====
section
/-! DEFINITION. REDUCE (R197, R241, R420) and its transport over the Belfry (R336, R337). -/

namespace Sys2Proof

/-- The instances of a reduce group repeat (R337): they are base + k × stride mod 65,536 for k below the size. -/
def repeats (size stride : Nat) : Bool := decide (65536 / Nat.gcd stride 65536 < size)

/-- The operator of REDUCE_OP on two nodes (Table 7.9). -/
def redOp (op : Nat) (x y : Nat × Nat) : Nat × Nat :=
  match op with
  | 1 => pairAdd x y
  | 2 => ((maxNode false (x.1, 0) (y.1, 0)).1, 0)
  | 3 => ((minNode false (x.1, 0) (y.1, 0)).1, 0)
  | 4 =>
    let z := sext 32 x.1 + sext 32 y.1
    (trunc2 32 (if z < -(2 ^ 31) then -(2 ^ 31) else if 2 ^ 31 - 1 < z then 2 ^ 31 - 1 else z), 0)
  | _ => (add32 x.1 y.1, 0)

/-- An element as a member writes it: its words (Table 7.9). -/
def redOut (op : Nat) (outPair : Bool) (x : Nat × Nat) : List Nat :=
  if op != 1 then [x.1]
  else
    let nan := isNan32 x.1 || isNan32 x.2
    if outPair then (if nan then [0x7FC00000, 0] else [x.1, x.2])
    else if nan then [0x7FC00000] else [rne32 (Val.add (v32 x.1) (v32 x.2))]

/-- Payload words of element chunk `l`: two 32-bit values a word, or one pair. -/
def redWords (pair : Bool) : List (Nat × Nat) → List Nat
  | [] => []
  | [x] => [if pair then x.1 + x.2 * 2 ^ 32 else x.1]
  | x :: y :: l => if pair then (x.1 + x.2 * 2 ^ 32) :: redWords pair (y :: l) else (x.1 + y.1 * 2 ^ 32) :: redWords pair l

/-- The elements that payload words carry, at most `n`. -/
def redElems (pair : Bool) (n : Nat) (p : List Nat) : List (Nat × Nat) :=
  (if pair then p.map (fun w => (bits w 0 32, bits w 32 32)) else p.flatMap (fun w => [(bits w 0 32, 0), (bits w 32 32, 0)])).take n

/-- A list cut into chunks of `k`, each with the number of its first element. -/
def chunksOf (k : Nat) (l : List (Nat × Nat)) : List (Nat × List (Nat × Nat)) :=
  (List.range (ceilDiv l.length k)).map (fun i => (i * k, (l.drop (i * k)).take k))

/-- ARG1 of a REDUCE frame (Table 12.2). -/
def redArg1 (err : Bool) (op : Nat) (pair : Bool) (first : Nat) : Nat := b2n err * 2 ^ 63 + op * 2 ^ 44 + b2n pair * 2 ^ 43 + first

/-- The elements 0 to count − 1 of a node in order, once all have come. -/
def RedNode.whole (n : RedNode) (count : Nat) : Option (List (Nat × Nat)) :=
  let l := (List.range count).filterMap (fun i => (n.elems.find? (fun e => e.1 == i)).map (·.2))
  if l.length = count then some l else none

end Sys2Proof

namespace Sys2Proof.Machine

/-- A REDUCE context waits for a member that is lost to the bell group. -/
def State.redLost (s : State) (c : RedCtx) : Bool :=
  let bg := s.group
  (bg.lost ++ bg.lostNext).any (fun r => (grpRank c.grp (bg.base + r)).isSome)

def State.updRed (s : State) (g tag : Nat) (f : RedCtx → RedCtx) : State :=
  s.setReds (mapIf (fun r => r.group == g && r.tag == tag) f s.reds)

def State.findRed (s : State) (g tag : Nat) : Option RedCtx := s.reds.find? (fun r => r.group == g && r.tag == tag)

/-- A REDUCE ends with F_REDUCE and a cause (R337, R343). -/
def State.failRed (s : State) (q seq g tag cause : Nat) : State :=
  let pay := belPay seq cause 0xFF g s.bellNo tag 0
  let s := s.setReds (s.reds.filter (fun r => !(r.group == g && r.tag == tag && r.owner == some (q, seq))))
  s.dupd q seq (fun d =>
    { d with phase := DPhase.done, status := 0x0803, committed := false, evPay := some (0, 0, pay) })

/-- Sends a node or a result to an instance in chunks; it fails when no route serves. -/
def State.sendRed (s : State) (ftype dst g tag count op : Nat) (err : Bool) (l : List (Nat × Nat)) : State :=
  let pair := op == 1
  (chunksOf (if pair then 128 else 256) l).foldl (fun s (first, es) =>
    let f := s.frame ftype dst (count * 2 ^ 32 + tag) (redArg1 err op pair first) (redWords pair es)
    s.sendTo { f with group := g }) s

/-- NaNs of a REDUCE's own partials and of its result, for the NaN trap (R48, Table 2.11). -/
def redNans (op base step : Nat) (ins outs : List (Nat × Nat)) : NanInfo :=
  if op = 4 then {}
  else ((ins.zip outs).zipIdx).foldl (fun (n : NanInfo) ((a, b), i) =>
    let x := isNan32 a.1 || isNan32 a.2
    let y := isNan32 b.1 || isNan32 b.2
    if !x && !y then n
    else if n.count = 0 then { idx := base + step * i, seg := 0xFFFF, snan := false, produced := !x, count := 1 }
    else { n with count := n.count + 1 }) {}

/-- The descriptor of a local REDUCE that runs. -/
def State.redOf (s : State) (o : Option (Nat × Nat)) : Option RedD :=
  match o with
  | none => none
  | some (q, seq) => match s.dfind q seq with
    | some d => (match d.d.body with | .reduce r => if d.phase == .running then some r else none | _ => none)
    | none => none

/-- A REDUCE that no Lantern carries any longer ends (R298). -/
def State.redNoLan (s : State) (q seq : Nat) : State :=
  (s.setReds (s.reds.filter (fun c => c.owner != some (q, seq)))).dupd q seq (fun d => { d with phase := .done, status := 0x010D, committed := false })

/-- Writes the result `outs` of a REDUCE to DST_TID; its work is done. -/
def State.finishRed (s : State) (q seq : Nat) (r : RedD) (ins outs : List (Nat × Nat)) (e : Except Nat TmEntry) : State :=
  let t := s.tenantOf q
  let s := s.setReds (s.reds.filter (fun c => c.owner != some (q, seq)))
  match e with
  | .error c => s.refuseD q seq c r.dstTid
  | .ok e =>
    let ws := outs.flatMap (redOut r.rop r.outPair)
    let step := if r.outPair then 2 else 1
    let s := s.access (.red q seq) (e.addr + 4 * e.offset) (4 * ws.length) e.attr t (some (ws.flatMap (toBytes 4))) false
    let sums := if r.rop = 1 then outs.map (fun x => (rne32 (Val.add (v32 x.1) (v32 x.2)), 0)) else outs
    let nan := redNans r.rop e.offset step ins sums
    s.dupd q seq (fun d => { d with phase := .done, nan := nan })

/-- A REDUCE whose result is whole writes it, once its destination is resolved. -/
def State.redWrite (s : State) (q seq : Nat) : State :=
  match s.redOf (some (q, seq)), s.reds.find? (fun c => c.owner == some (q, seq)) with
  | some r, some { down0 := ins, result := some outs, .. } =>
    s.readThen (.desc q seq) (fun s => s.wres (s.tenantOf q) r.dstTid) (fun s e => s.finishRed q seq r ins outs e)
  | _, _ => s

/-- The result of a REDUCE is whole. -/
def State.redWhole (s : State) (q seq g tag : Nat) (outs : List (Nat × Nat)) : State :=
  (s.updRed g tag (fun c => { c with result := some outs, sent := true })).redWrite q seq

/-- Combines nodes up the tree as far as they have come, unless the Lanterns are frozen (R336, Table 14.3): the member's own node at `level` with the node of rank + 2^level. -/
def State.climb (s : State) (g tag : Nat) : Nat → State
  | 0 => s
  | n + 1 =>
    match s.findRed g tag with
    | none => s
    | some c =>
      match s.redOf c.owner, c.owner with
      | some _, some (q, seq) =>
        if c.own.isEmpty || c.sent || s.lanFrozen then s
        else if (s.lanOf 0).isNone then s.redNoLan q seq
        else if s.redLost c then s.failRed q seq g tag 4
        else
          let up := 2 ^ c.level
          if c.rank % (2 * up) != 0 then
            let dst := grpInst c.grp (c.rank - up)
            if (s.route dst).isNone then s.failRed q seq g tag 4
            else (s.updRed g tag (fun c => { c with sent := true })).sendRed 6 dst g tag c.count c.rop (c.err != 0) c.own
          else if c.size ≤ up then
            let kids := (List.range c.level).filterMap (fun l => if c.rank + 2 ^ l < c.size then some (grpInst c.grp (c.rank + 2 ^ l)) else none)
            if kids.any (fun k => (s.route k).isNone) then s.failRed q seq g tag 4
            else
              let s := kids.foldl (fun s k => s.sendRed 7 k g tag c.count c.rop (c.err != 0) c.own) s
              if c.err != 0 then s.failRed q seq g tag c.err else s.redWhole q seq g tag c.own
          else if c.size ≤ c.rank + up then State.climb (s.updRed g tag (fun c => { c with level := c.level + 1 })) g tag n
          else match c.nodes.find? (fun x => x.rank == c.rank + up) with
            | none => s
            | some x =>
              if x.err || x.count != c.count || x.rop != c.rop || x.pair != c.pair then
                State.climb (s.updRed g tag (fun c => { c with err := 2, level := c.level + 1 })) g tag n
              else match x.whole c.count with
                | none => s
                | some l =>
                  State.climb (s.updRed g tag (fun c => { c with own := (c.own.zip l).map (fun (a, b) => redOp c.rop a b), level := c.level + 1 })) g tag n
      | _, _ => s

/-- The reads of a REDUCE are answered: its partials are taken. -/
def State.redReady (s : State) (q seq : Nat) : State :=
  match s.redOf (some (q, seq)), s.reds.find? (fun c => c.owner == some (q, seq)) with
  | some r, some c =>
    if s.waits (.red q seq) || !c.own.isEmpty then s
    else
      let n := r.count * (if r.inPair then 2 else 1)
      let b := s.rangeBad c.src (4 * n)
      if b != 0 then
        (s.setReds (s.reds.filter (fun c => c.owner != some (q, seq)))).stopConv q seq (badCode b) r.srcTid 0
      else
        let ins := (List.range r.count).map (fun i =>
          if r.inPair then (s.rdN (c.src + 8 * i) 4, s.rdN (c.src + 8 * i + 4) 4) else (s.rdN (c.src + 4 * i) 4, 0))
        (s.updRed r.rgroup r.rtag (fun c => { c with own := ins, down0 := ins })).climb r.rgroup r.rtag 40
  | _, _ => s

/-- The refusals of Table 9.18 in their order, with the tensor concerned; a pair held by an incomplete REDUCE is its owner's. -/
def State.redRefusal (s : State) (q : Nat) (r : RedD) : State × Except (Nat × Nat) TmEntry :=
  let t := s.tenantOf q
  if (s.lanOf 0).isNone then (s, .error (0x010D, r.dstTid))
  else match s.wres t r.srcTid with
    | (s, .error c) => (s, .error (c, r.srcTid))
    | (s, .ok a) => match s.wres t r.dstTid with
      | (s, .error c) => (s, .error (c, r.dstTid))
      | (s, .ok b) =>
        let f := if r.rop = 4 then 8 else 0
        let out := fun (e : TmEntry) (n : Nat) => !e.holds (e.offset + n - 1) 8
        (s, if a.fmt ≠ f then .error (0x0102, r.srcTid) else if b.fmt ≠ f then .error (0x0102, r.dstTid)
            else if out a (r.count * (if r.inPair then 2 else 1)) then .error (0x0105, r.srcTid)
            else if out b (r.count * (if r.outPair then 2 else 1)) then .error (0x0105, r.dstTid) else .ok a)

/-- A REDUCE that was dispatched, and whose record is not yet released, holds a (RGROUP, RTAG) pair (R245, R337). -/
def State.pairHeld (s : State) (g tag : Nat) : Bool :=
  s.queues.any (fun (_, x) => x.infl.any (fun d => match d.d.body with
    | .reduce r => d.sent && r.rgroup == g && r.rtag == tag
    | _ => false))

/-- The checks on what the Lanterns do of a REDUCE (R293): the one that carries logical Lantern 0 stands for them, since the spec does not say which engine takes
which elements (DESIGN CHOICE, log 69). -/
def State.redChecks (s : State) (q : Nat) (d : DRt) (chk : Chk) : State :=
  match s.lanOf 0 with
  | none => s
  | some u =>
    let c : Ctx := { queue := some q, tenant := some d.tenant, seq := d.seq }
    match chk with
    | .transient cause _ => s.transient 5 u cause 0 (some O.laneRetries) c
    | .lasting cause _ _ => s.fence 5 u cause 0 c
    | .ok | .twig _ => s

/-- What the dispatch of a REDUCE resolves and checks; a fault in a cached entry has it read again (R294). -/
def State.redResolve (s : State) (q : Nat) (d : DRt) (r : RedD) (chk : Chk) : State × Except (Nat × Nat) TmEntry :=
  match chk, (s.redRefusal q r).2 with
  | .twig tid, .ok _ => (s.twigFault 8 0 d.tenant tid { queue := some q, tenant := some d.tenant, seq := d.seq }).redRefusal q r
  | _, _ => s.redRefusal q r

/-- A REDUCE that its dispatch accepts, with the entry of its source, opens its context and issues its reads (R336, R337); one of a group that this
instance is not in, or whose pair is held, performs nothing. -/
def State.runRed (s : State) (q : Nat) (d : DRt) (r : RedD) (chk : Chk) (e : TmEntry) : State :=
  let refuse := fun (cause : Nat) =>
    (s.refuseD q d.seq 0x0803 r.dstTid).dupd q d.seq (fun d => { d with evPay := some (0, 0, belPay d.seq cause 0xFF r.rgroup s.bellNo r.rtag 0) })
  let (_, n, st) := d.grp
  match grpRank d.grp s.group.self with
  | none => refuse 3
  | some k =>
    if repeats n st then refuse 3
    else if s.pairHeld r.rgroup r.rtag then refuse 5
    else
      let old := ((s.findRed r.rgroup r.rtag).map (·.nodes)).getD []
      let c : RedCtx := { group := r.rgroup, tag := r.rtag, owner := some (q, d.seq), tenant := d.tenant, rank := k, size := n, grp := d.grp, count := r.count
                          rop := r.rop, pair := r.rop == 1, nodes := old, src := e.addr + 4 * e.offset }
      let s := s.setReds (s.reds.filter (fun (c : RedCtx) => !(c.group == r.rgroup && c.tag == r.rtag)) ++ [c])
      let s := (s.dupd q d.seq (fun d => { d with phase := .running, sent := true })).redChecks q d chk
      let m := 4 * r.count * (if r.inPair then 2 else 1)
      (s.readBeats (.red q d.seq) (beatsOf (e.addr + 4 * e.offset) m) e.attr d.tenant).redReady q d.seq

/-- A REDUCE is dispatched (R241, R420). -/
def State.dispRed (s : State) (q : Nat) (d : DRt) (r : RedD) (chk : Chk) : State :=
  if d.noSync then s.refuseD q d.seq 0x0106 r.dstTid
  else if r.count = 0 then s.doneD q d.seq
  else s.readThen (.desc q d.seq) (fun s => s.redResolve q d r chk) (fun s x => match x with
    | .error (c, t) => s.refuseD q d.seq c t
    | .ok e => s.runRed q d r chk e)

/-- A REDUCE_UP frame for this instance, taken on port `p` (R336, R337): one that no context can take waits there. -/
def State.redUp (s : State) (p : Nat) (f : Frame) : State :=
  let g := f.group
  let tag := bits f.arg0 0 32
  let count := bits f.arg0 32 32
  let pair := bitAt f.arg1 43
  let first := bits f.arg1 0 40
  let grp := match s.findRed g tag with | some c => (if c.owner.isSome then c.grp else s.redGroup g) | none => s.redGroup g
  match grpRank grp f.src with
  | none => s
  | some k =>
    let es := (redElems pair (count - first) f.payload).zipIdx.map (fun ((a : Nat × Nat), i) => (first + i, a.1, a.2))
    let node : RedNode := { rank := k, count := count, rop := bits f.arg1 44 4, pair := pair, err := bitAt f.arg1 63, elems := es }
    let add := fun (l : List RedNode) =>
      if l.any (fun x => x.rank == k) then mapIf (fun x => x.rank == k) (fun x => { x with elems := x.elems ++ es, err := x.err || node.err }) l
      else l ++ [node]
    match s.findRed g tag with
    | some _ => (s.updRed g tag (fun c => { c with nodes := add c.nodes })).climb g tag 40
    | none =>
      if s.rxCredit = 0 then s.updBport p (fun b => { b with held := b.held ++ [f] })
      else s.setReds (s.reds ++ [{ group := g, tag := tag, nodes := add [] }])

/-- The REDUCE_UP frames that wait for a context are taken as far as contexts have become free. -/
def State.redSpace (s : State) : State :=
  if !s.live || !s.bports.any (fun (_, b) => !b.held.isEmpty) then s
  else s.bports.foldl (fun s (p, b) => b.held.foldl (fun s f => s.redUp p f) (s.updBport p (fun b => { b with held := [] }))) s

/-- A REDUCE_DOWN frame for this instance: the result goes on down the tree, a member that no route reaches ends the REDUCE, and once whole it is written. -/
def State.redDown (s : State) (f : Frame) : State :=
  let g := f.group
  let tag := bits f.arg0 0 32
  match s.findRed g tag with
  | none => s
  | some c =>
    match s.redOf c.owner, c.owner with
    | some _, some (q, seq) =>
      if !c.sent || c.result.isSome then s
      else
        let first := bits f.arg1 0 40
        let es := (redElems c.pair (c.count - first) f.payload).zipIdx.map (fun ((a : Nat × Nat), i) => (first + i, a.1, a.2))
        let kids := (List.range c.level).filterMap (fun l => if c.rank + 2 ^ l < c.size then some (grpInst c.grp (c.rank + 2 ^ l)) else none)
        let s := kids.foldl (fun s k => let x := s.frame 7 k f.arg0 f.arg1 f.payload; s.sendTo { x with group := g }) s
        if bitAt f.arg1 63 then s.failRed q seq g tag 2
        else if kids.any (fun k => (s.route k).isNone) then s.failRed q seq g tag 4
        else
          let down := c.down ++ es
          let s := s.updRed g tag (fun c => { c with down := down })
          match ({ rank := 0, count := c.count, rop := c.rop, pair := c.pair, err := false, elems := down } : RedNode).whole c.count with
          | none => s
          | some l => s.redWhole q seq g tag l
    | _, _ => s

/-- A REDUCE that waits on a lost member ends (R337). -/
def State.redLosses (s : State) : State :=
  s.reds.foldl (fun s c => match s.redOf c.owner, c.owner with
    | some _, some (q, seq) => if s.redLost c then s.failRed q seq c.group c.tag 4 else s
    | _, _ => s) s

/-- REDUCE_TIMEOUT (R337). -/
def State.redTimeout (s : State) (q seq : Nat) : State :=
  match s.redOf (some (q, seq)) with
  | some r => if s.live then (s.failRed q seq r.rgroup r.rtag 1).redSpace else s
  | none => s

end Sys2Proof.Machine
end

