-- ==== Sys2Proof/Machine/BelfryOps.lean ====
section
/-! DEFINITION. Received Belfry frames (R327 to R330, R332 to R335): link order and acknowledgement, training, calibration, forwarding, the toll's
frames, losses, and the formation of the bell group. -/

namespace Sys2Proof

/-- A frame that is discarded as a protocol error (R327). -/
def Frame.illegal (f : Frame) : Bool := f.ftype == 0 || decide (9 < f.ftype) || f.rsv != 0 || decide (128 < f.pwords)

/-- Frames that an acknowledgement covers, and those it leaves. -/
def ackSplit (ack : Nat) (l : List SentFrame) : List SentFrame × List SentFrame :=
  if l.any (fun x => x.lseq == ack) then
    let n := (l.takeWhile (fun x => x.lseq != ack)).length + 1
    (l.take n, l.drop n)
  else ([], l)

/-- A signed number in 32 bits, saturating. -/
def sat32 (x : Int) : Int := if x < -(2 ^ 31) then -(2 ^ 31) else if 2 ^ 31 - 1 < x then 2 ^ 31 - 1 else x

end Sys2Proof

namespace Sys2Proof.Machine

/-- The frame that goes next on a port: REDUCE frames let every other go ahead (R328). -/
def portNext (b : BPort) : Option Frame :=
  match b.waiting.find? (fun f => !isReduceFrame f) with
  | some f => some f
  | none => b.waiting.head?

/-- Sends what waits on a port, as far as its peer takes it. -/
def State.flushPort (s : State) (p : Nat) : Nat → State
  | 0 => s
  | n + 1 =>
    let b := s.bport p
    match portNext b with
    | none => s
    | some f =>
      if portTakes b f then State.flushPort ((s.updBport p (fun b => { b with waiting := b.waiting.erase f })).emit p f) p n
      else s

/-- The Belfry takes frames: the block is out of reset, has not stopped and is not asleep. -/
def State.belfryOn (s : State) : Bool := s.live

/-- A port begins to train (R328, R403): numbering restarts, and what was unacknowledged waits to be sent again. -/
def State.trainPort (s : State) (p : Nat) : State :=
  (s.updBport p (fun b => { b with trained := false, nextLseq := 1, lastRx := 0, credit := 32, calT1 := none, unacked := []
                                   waiting := (b.unacked.map (·.frame)).filter (fun f => decide (4 ≤ f.ftype)) ++ b.waiting })).emit p (s.frame 1 0 p 0 [])

/-- The peer instance of a port. -/
def State.peerOf (s : State) (p : Nat) : Nat := s.get O.bportPeer p / 65536

/-- A frame in LSEQ order is taken: acknowledgements, credit, and a repetition that succeeded (R328). -/
def State.linkTake (s : State) (p : Nat) (f : Frame) : State :=
  let b := s.bport p
  let (done, left) := ackSplit f.ack b.unacked
  let s := s.updBport p (fun b => { b with lastRx := f.lseq, unacked := left, credit := f.credit - left.length })
  let s := (done.filter (·.again)).foldl (fun s _ => s.transient 7 p 6 0 (some O.bportRetransmits) {}) s
  s.flushPort p b.waiting.length

/-! What each frame does once it is taken. -/

/-- TRAIN (R327): the port serves. -/
def State.onTrain (s : State) (p : Nat) (f : Frame) : State :=
  let s := s.updBport p (fun b => { b with trained := true, lostLock := false })
  let s := s.put O.bportPeer p (f.src * 65536 + f.arg0 % 64)
  let s := s.keepParent (fun s => if s.get O.bportState p = 3 then s.setUnit 7 p 0 else s)
  ((s.flushPort p (s.bport p).waiting.length).calibrate p).formArrive

/-- CAL_REQ (R330): answered in the cycle in which it is taken. -/
def State.onCalReq (s : State) (p : Nat) (f : Frame) : State := s.sendOn p (s.frame 3 f.src s.stamp s.stamp [f.arg0])

/-- CAL_RSP (R330): the delay and the offset, and the time base of a member whose time parent answered: a step at its first calibration, and never again
(R342; DEDUCED, log 71). -/
def State.onCalRsp (s : State) (p : Nat) (f : Frame) : State :=
  match (s.bport p).calT1 with
  | none => s
  | some t1 =>
    if f.payload.head? != some t1 then s
    else
      let sub := fun (a b : Nat) => sext 64 (a + 2 ^ 64 - b)
      let t4 := s.stamp
      let d := (sub t4 t1 - sub f.arg1 f.arg0) / 2
      let asym := s.get O.bportAsym p
      let corr : Int := if asym = 0 then 0 else (Config.asymCorrection asym).toInt
      let th := (sub f.arg0 t1 + sub f.arg1 t4) / 2 + corr
      let first := !s.bports.any (fun (_, b) => b.stepped)
      let s := (s.updBport p (fun b => { b with calT1 := none })).put O.bportDelay p (trunc2 32 d)
      if s.timePort != some p then s
      else
        let s := (s.updBport p (fun b => { b with stepped := true })).setObj O.timeOffset (trunc2 32 (sat32 th))
        if first then (s.setTb (((s.tb : Int) + th * 2 ^ 32).toNat % 2 ^ 112)).setRate 0
        else
          let s := s.setRate (th * 2 ^ 32 / (s.obj O.calPeriod : Int))
          if 98304 < th.natAbs then s.linkEvent 3 p (s.peerOf p) else s

/-- The toll tree's formation is released by its master (R375): the ranks that have not arrived are lost, and bell 0 opens at the stamp. -/
def State.releaseGroup (s : State) : State :=
  let g := s.group
  if g.size ≤ 1 then s.openBell0
  else
    let here := s.presentRanks
    let gone := (List.range g.size).filter (fun r => !(r ∈ here))
    let (t, _, _) := s.arrived (s.tb / 2 ^ 32)
    let stamp := t + s.obj O.tollMargin * 65536
    let dig := crc64 (digestBytes s.get)
    let s := (s.updGroup (fun g => { g with lost := gone, told := gone, arrivals := [], sentUp := false })).setObj O.bgLive (g.size - gone.length)
    let s := s.sendRelease allOnes stamp dig (0xFFFF, 0)
    let s := gone.foldl (fun s r => (s.toChildren 8 r 2 []).linkEvent 4 0xFF (g.base + r)) s
    let s := (s.until (s.cycleOf stamp)).openBell0
    s.updGroup (fun g => { g with ownDigest := dig })

/-- ARRIVE (R332, R334). -/
def State.onArrive (s : State) (f : Frame) : State :=
  let g := s.group
  let r := f.src - g.base
  if f.src < g.base ∨ !(r ∈ childrenOf g.live s.ownRank) ∨ g.arrivals.any (fun a => a.rank == r) then s
  else
    let w := f.payload.headD 0
    let a : Arrival := { rank := r, ready := nearStamp (s.tb / 2 ^ 32) f.arg1, low := bits w 16 16, count := bits w 0 16 }
    let s' := s.updGroup (fun g => { g with arrivals := g.arrivals ++ [a] })
    if f.arg0 = allOnes then
      if !s.grouping then s
      else if s'.isMaster && s'.childrenIn then s'.releaseGroup else s'.formArrive
    else if f.arg0 = s.bellNo ∧ s.bell ≠ .none then s'.tryToll else s

/-- A RELEASE whose stamp has passed counts and is reported (R333). -/
def State.tardy (s : State) (late : Bool) (src : Nat) : State :=
  if late then (s.bump O.lateReleases 0 32 1).linkEvent 5 0xFF src else s

/-- RELEASE (R333, R334, R339): it goes on down the tree; the member tolls at the stamp, or at once when the stamp has passed. -/
def State.onRelease (s : State) (f : Frame) : State :=
  let now := s.tb / 2 ^ 32
  let t := nearStamp now f.arg1
  let dig := f.payload.headD 0
  let w := nth 0 f.payload 1
  let late := decide (t < now)
  if s.isMaster || decide (s.group.size ≤ 1) then s
  else if f.arg0 = allOnes then
    if !s.grouping then s
    else
      let s := (s.toChildren 5 f.arg0 f.arg1 f.payload).tardy late f.src
      let s := (s.updGroup (fun g => { g with arrivals := [], sentUp := false })).until (s.cycleOf t)
      let s := s.openBell0
      let own := s.ownDigest
      (s.updGroup (fun g => { g with ownDigest := own })).setMasterDig (some dig)
  else if f.arg0 = s.bellNo ∧ s.bell = .formed then
    let s := (s.toChildren 5 f.arg0 f.arg1 f.payload).updGroup (fun g => { g with
      stamp := some t, nextDigest := dig, sum := (bits w 16 16, bits w 0 16) })
    if late then (s.tardy late f.src).toll else s
  else s

/-- A member learns that rank `r` is lost (R335); `tell` when it found so itself. One that is not the master tells the master, and the master's LOST goes on
down the tree once. -/
def State.learnLost (s : State) (r cause : Nat) (tell : Bool) : State :=
  let g := s.group
  if r ∈ g.told ∨ g.size ≤ r ∨ r = s.ownRank then s
  else if (r ∈ g.lost ∨ r ∈ g.lostNext) ∧ tell = true then s
  else
    let s := s.loseRank r
    let s := if s.isMaster || !tell then (s.updGroup (fun g => { g with told := g.told ++ [r] })).toChildren 8 r cause []
      else match s.group.up.head? with
        | some m => s.sendTo (s.frame 8 (g.base + m) r cause [])
        | none => s
    s.tryToll.redLosses

/-- Forwards a frame, or discards it as unroutable (R329). -/
def State.forward (s : State) (f : Frame) : State :=
  if f.hops = 15 then s.linkEvent 6 0xFF f.dst
  else match s.route f.dst with
    | none => s.linkEvent 6 0xFF f.dst
    | some p => s.sendOn p { f with hops := f.hops + 1 }

/-- What a frame taken on port `p` does. -/
def State.onFrame (s : State) (p : Nat) (f : Frame) : State :=
  match f.ftype with
  | 1 => s.onTrain p f
  | 2 => s.onCalReq p f
  | 3 => s.onCalRsp p f
  | t =>
    if f.dst ≠ s.group.self then s.forward f
    else match t with
      | 4 => s.onArrive f
      | 5 => s.onRelease f
      | 6 => s.redUp p f
      | 7 => s.redDown f
      | 8 => s.learnLost (f.arg0 % 65536) (f.arg1 % 4) false
      | _ => s

/-- A frame received on a port, with a good CRC (R327, R328, R403): ignored without lock or out of service, discarded when it comes out of order or is
illegal, and otherwise taken. What it frees lets REDUCE frames that wait for a context be taken. -/
def State.rxFrame (s : State) (p : Nat) (f : Frame) : State :=
  let b := s.bport p
  let st := s.get O.bportState p
  if !s.belfryOn || !b.lock || st = 1 || st = 2 then s
  else if f.ftype != 1 && (!b.trained || f.lseq != (b.lastRx + 1) % 2 ^ 24) then s
  else
    let s := s.linkTake p f
    if f.illegal then s.linkEvent 7 p (s.peerOf p) else (s.onFrame p f).redSpace

/-- Words received on a port as a frame (R326 to R328): those that Bn_RX_ERR marks, or that make no frame with a good CRC, are discarded. -/
def State.rxWords (s : State) (p : Nat) (l : List Nat) (rxErr : Bool) : State :=
  match Frame.ofWords l with
  | some f => if rxErr then s else s.rxFrame p f
  | none => s

/-! Link events. -/

/-- The oldest frame of a port was not acknowledged in time (R328): it is sent again once; a second failure fences the port. -/
def State.retransmit (s : State) (p : Nat) : State :=
  let b := s.bport p
  if !s.belfryOn || !b.trained then s
  else match b.unacked with
    | [] => s
    | x :: l =>
      if x.again then (s.fence 7 p 6 0 {}).linkEvent 1 p (s.peerOf p)
      else (s.updBport p (fun b => { b with unacked := { x with again := true } :: l })).setBtx (s.btx ++ [(p, x.frame)])

/-- CAL_PERIOD (R330). -/
def State.calNow (s : State) (p : Nat) : State := if s.belfryOn && (s.bport p).trained && s.serves 7 p then s.calibrate p else s

/-- Bn_LOCK falls (R403): the port is down until it has trained again. -/
def State.lockFell (s : State) (p : Nat) : State :=
  let b := s.bport p
  if !b.lock then s
  else
    s.keepParent (fun s =>
      let s := s.updBport p (fun b => { b with lock := false, trained := false, calT1 := none, lostLock := b.lostLock || b.trained })
      if s.get O.bportState p = 0 then s.setUnit 7 p 3 else s)

/-- Bn_LOCK rises (R403): the port trains once phase 3 has begun. -/
def State.lockRose (s : State) (p : Nat) : State :=
  let b := s.bport p
  if b.lock then s
  else
    let s := s.updBport p (fun b => { b with lock := true })
    if s.belfryOn && decide (3 ≤ s.phase) && s.get O.bportState p == 3 then s.trainPort p else s

/-- A lock that fell has not been cured within 65,536 cycles (R328). -/
def State.retrainFailed (s : State) (p : Nat) : State :=
  if s.belfryOn && (s.bport p).lostLock && s.get O.bportState p == 3 then
    ((s.updBport p (fun b => { b with lostLock := false })).fence 7 p 6 0 {}).linkEvent 1 p (s.peerOf p)
  else s

/-- ALIVE_INTERVAL (R335). -/
def State.aliveNow (s : State) : State :=
  let g := s.group
  if !s.belfryOn || decide (g.size ≤ 1) || s.isMaster || s.bell == .none then s
  else
    let s := if g.heardSent then s
      else match parentOf g.live s.ownRank with
        | some p => s.sendTo (s.frame 9 (g.base + p) s.bellNo 0 [])
        | none => s
    s.updGroup (fun g => { g with heardSent := false })

/-- TOLL_TIMEOUT (R335). -/
def State.silent (s : State) (r : Nat) : State :=
  if s.belfryOn && decide (1 < s.group.size) && s.bell != .none then s.learnLost r 2 true else s

/-- FORMATION_TIMEOUT (R375). -/
def State.formTimeout (s : State) : State := if s.grouping && s.isMaster then s.releaseGroup else s

/-- GROUP_OF_ONE (R375). -/
def State.formAlone (s : State) : State := if s.grouping then s.aloneGroup.openBell0 else s

end Sys2Proof.Machine
end

