-- ==== Sys2Proof/Machine/Belfry.lean ====
section
/-! DEFINITION. The Belfry (R324 to R343, R403): received frames by type, and the events of links and members. -/

namespace Sys2Proof.Machine

/-- TRAIN (R327). -/
def execTrain (port : Nat) (f : Frame) (s : State) : Host.Outcome State Fault Refusal := onBport port (s.rxFrame port f)

/-- CAL_REQ (R330). -/
def execCalReq (port : Nat) (f : Frame) (s : State) : Host.Outcome State Fault Refusal := onBport port (s.rxFrame port f)

/-- CAL_RSP (R330). -/
def execCalRsp (port : Nat) (f : Frame) (s : State) : Host.Outcome State Fault Refusal := onBport port (s.rxFrame port f)

/-- ARRIVE (R332). -/
def execArrive (port : Nat) (f : Frame) (s : State) : Host.Outcome State Fault Refusal := onBport port (s.rxFrame port f)

/-- RELEASE (R333). -/
def execRelease (port : Nat) (f : Frame) (s : State) : Host.Outcome State Fault Refusal := onBport port (s.rxFrame port f)

/-- REDUCE_UP (R336). -/
def execReduceUp (port : Nat) (f : Frame) (s : State) : Host.Outcome State Fault Refusal := onBport port (s.rxFrame port f)

/-- REDUCE_DOWN (R336). -/
def execReduceDown (port : Nat) (f : Frame) (s : State) : Host.Outcome State Fault Refusal := onBport port (s.rxFrame port f)

/-- LOST (R335). -/
def execLost (port : Nat) (f : Frame) (s : State) : Host.Outcome State Fault Refusal := onBport port (s.rxFrame port f)

/-- ALIVE (R335). -/
def execAlive (port : Nat) (f : Frame) (s : State) : Host.Outcome State Fault Refusal := onBport port (s.rxFrame port f)

/-- FRAME_FORWARD (R329): a frame for another instance. -/
def execFrameForward (port : Nat) (f : Frame) (s : State) : Host.Outcome State Fault Refusal := onBport port (s.rxFrame port f)

/-- BELFRY_FRAME_DISCARD (R326, R327): the words of a frame that fails its checks. -/
def execBelfryFrameDiscard (port : Nat) (rx : RxWords) (s : State) : Host.Outcome State Fault Refusal :=
  onBport port (s.rxWords port rx.words rx.err)

/-- BPORT_RETRANSMITS (R328). -/
def execBportRetransmits (port : Nat) (s : State) : Host.Outcome State Fault Refusal := onBport port (s.retransmit port)

/-- CAL_PERIOD (R330). -/
def execCalPeriod (port : Nat) (s : State) : Host.Outcome State Fault Refusal := onBport port (s.calNow port)

/-- LOCK, a fall (R403). -/
def execLockFall (port : Nat) (s : State) : Host.Outcome State Fault Refusal := onBport port (s.lockFell port)

/-- LOCK_RISE (R403). -/
def execLockRise (port : Nat) (s : State) : Host.Outcome State Fault Refusal := onBport port (s.lockRose port)

/-- RETRAIN_TIMEOUT (R328). -/
def execRetrainTimeout (port : Nat) (s : State) : Host.Outcome State Fault Refusal := onBport port (s.retrainFailed port)

/-- ALIVE_INTERVAL (R335). -/
def execAliveInterval (s : State) : Host.Outcome State Fault Refusal := .next s.aliveNow

/-- TOLL_TIMEOUT (R335). -/
def execTollTimeout (rank : Nat) (s : State) : Host.Outcome State Fault Refusal := .next (s.silent rank)

end Sys2Proof.Machine
end

