-- ==== Sys2Proof/Machine/Bells.lean ====
section
/-! DEFINITION. The bell (R222 to R227, R333) and the expiries that a close brings, each as a command of its own. -/

namespace Sys2Proof.Machine

/-- A routine's deadline falls at the close of the running bell (R171, R227): once every item that holds the close is done, it ends with outcome
DEADLINE. -/
def State.deadlineAt (s : State) (q seq : Nat) : State :=
  match s.rfind q seq with
  | some r => if s.closable && deadlineDue r s.bellNo then (s.endRout q seq 2 0).commitNow q seq else s
  | none => s

/-- The timeout of a stream-side descriptor falls at the close of the running bell (R91, R227). -/
def State.streamTimeout (s : State) (q seq : Nat) : State :=
  match s.dfind q seq with
  | some d => if s.closable && s.streamExpired d s.bellNo then s.streamStop q d else s
  | none => s

/-- A BELL_WAIT completes at the close at which its hold ends (R222, R227). -/
def State.bellWaitAt (s : State) (q seq : Nat) : State :=
  match s.dfind q seq with
  | some d =>
    (match bellWaitEnd d with
     | some e => if s.closable && decide (e ≤ s.bellNo) && (d.phase == .admitted || d.phase == .running) then s.endWait q d else s
     | none => s)
  | none => s

/-- BELL_CLOSE (R227); the operands name the scale comparators that failed their self-test (R303), and the outcomes of the checks on the central scale unit and on
the sequencer (R293, R302). -/
def execBellClose (cmpFail : List Nat) (central : CloseChks) (s : State) : Host.Outcome State Fault Refusal :=
  .next (s.closeBell cmpFail central.cmp central.scale central.seqr)

/-- PACE_BREAKS (R223). -/
def execPaceBreaks (s : State) : Host.Outcome State Fault Refusal := .next s.paceOver

/-- TOLL (R225, R333). -/
def execToll (s : State) : Host.Outcome State Fault Refusal := .next s.toll

/-- F_BELL_OVERRUN (R226). -/
def execFBellOverrun (s : State) : Host.Outcome State Fault Refusal := .next s.overrunNow

/-- F_STREAM_TIMEOUT (R91). -/
def execFStreamTimeout (q seq : Nat) (s : State) : Host.Outcome State Fault Refusal := .next (s.streamTimeout q seq)

/-- DEADLINE (R171). -/
def execDeadline (q seq : Nat) (s : State) : Host.Outcome State Fault Refusal := .next (s.deadlineAt q seq)

/-- BELL_WAIT_END (R222). -/
def execBellWaitEnd (q seq : Nat) (s : State) : Host.Outcome State Fault Refusal := .next (s.bellWaitAt q seq)

/-- FORMATION_TIMEOUT (R375). -/
def execFormationTimeout (s : State) : Host.Outcome State Fault Refusal := .next s.formTimeout

/-- GROUP_OF_ONE (R375). -/
def execGroupOfOne (s : State) : Host.Outcome State Fault Refusal := .next s.formAlone

end Sys2Proof.Machine
end

