-- ==== Sys2Proof/Machine/Descriptors.lean ====
section
/-! DEFINITION. Descriptors at their dispatch, commit and release (R237, R245 to R250, R259 to R263), with the rounds of the sapling
service (R377, R378). -/

namespace Sys2Proof.Machine

/-! The sapling service. -/

/-- The descriptor lies inside the sapling service (R377). -/
def saplingDesc (d : Desc) : Bool :=
  match d.body with
  | .conv c =>
    c.op == .convert && decide (c.srcFmt < 3) && decide (c.dstFmt < 3) && c.rnd == 0 && !c.strict && c.capture == 0 && decide (c.segBase + c.segSpan ≤ 256)
  | _ => false

/-- The descriptor that queue `q` offers in a round: the one at its head, when it lies inside the service and none before it waits at dispatch. -/
def State.sapHead (s : State) (q : Nat) : Option Desc :=
  if s.get O.queueState q != 1 || (s.queue q).infl.any (fun d => d.phase == .admitted) then none
  else (s.head q).filter saplingDesc

/-- It is the turn of queue `q` in the rounds of R378. -/
def State.sapTurnOf (s : State) (q : Nat) : Bool :=
  let has := fun (p : Nat) => (s.sapHead p).isSome
  if s.sapTurn ≤ q then !(List.range q).any (fun p => decide (s.sapTurn ≤ p) && has p)
  else !(List.range 64).any (fun p => (decide (p < q) || decide (s.sapTurn ≤ p)) && has p)

/-- During the sapling service, takes the descriptor at the head of queue `q` when it is its turn: without admission or charge, and with BELL
0xFFFF_FFFF in its record (R378). -/
def State.sapTake (s : State) (q : Nat) (want : Desc → Bool) : State :=
  if !s.sapling || !s.live || decide (64 ≤ q) || !s.sapTurnOf q then s
  else match s.sapHead q with
    | none => s
    | some d =>
      if !want d then s
      else match d.body with
        | .conv c =>
          let n := s.get O.nextSeq q
          let (a, b) := if d.malformed || d.body.isNoop then (0, 0) else c.bytesRW
          s.reading (.form q) (fun s =>
            let (s, sets) := s.setsOf (s.tenantOf q) d []
            let t := s.take q (fun r => s.sampleConv q c { r with bell := 2 ^ 32 - 1, sap := true, sets := sets })
            let t := if a + b = 0 then t else t.updQueue q (fun x => { x with bytesDue := x.bytesDue ++ [(0, n, a + b)] })
            t.setSapTurn ((q + 1) % 64))
        | _ => s

/-! Dispatch. -/

/-- Dispatches the next descriptor of a queue, when it is one that `want` names and nothing holds it (R247, R249), once what its checks read is there. -/
def State.dispatch (s : State) (q : Nat) (want : Desc → Bool) (f : State → DRt → State) : State :=
  let t := s.sapTake q want
  match t.nextDisp q with
  | some d => if want d.d then f t d else t
  | none => t

/-- A well-formed descriptor with an opcode. -/
def isOp (op : Nat) (d : Desc) : Bool := !d.malformed && d.opcode == op

/-- A conversion descriptor at its dispatch. -/
def State.startConv (q : Nat) (ks : TileChks) (s : State) (d : DRt) : State :=
  match d.d.body with
  | .conv c => s.dispConv q d c ks
  | _ => s

/-- A routine descriptor at its dispatch; one refused with F_SYNC starts no routine (R237). -/
def State.startRout (q : Nat) (s : State) (d : DRt) : State := if d.noSync then s.refuseD q d.seq 0x0106 0 else s.dispRout q d

/-- A REDUCE at its dispatch. -/
def State.startRed (q : Nat) (chk : Chk) (s : State) (d : DRt) : State :=
  match d.d.body with
  | .reduce r => s.dispRed q d r chk
  | _ => s

/-- A WAIT that was admitted because its time is over carries AUX0 = 1 (R261). -/
def waitLate (d : DRt) : Bool := match d.d.body with | .wait .. => d.aux0 == 1 && !d.noSync | _ => false

/-- A control descriptor at its dispatch (R260 to R263): it completes at once; a BELL_WAIT holds until its close (R222), and a WAIT whose time is over
is F_WAIT_TIMEOUT's. -/
def State.startCtl (q : Nat) (s : State) (d : DRt) : State :=
  if d.noSync then s.refuseD q d.seq 0x0106 0
  else if waitLate d then s
  else if (bellWaitEnd d).isSome then s.dupd q d.seq (fun d => { d with phase := .running })
  else s.doneD q d.seq

/-- A WAIT completes with F_WAIT_TIMEOUT (R261). -/
def State.waitTimeout (s : State) (q seq : Nat) : State :=
  match s.nextDisp q with
  | some d => if d.seq = seq ∧ waitLate d = true then s.refuseD q seq 0x010C 0 else s
  | none => s

/-- COMMIT (R246). -/
def State.commitAt (s : State) (q seq : Nat) : State :=
  match s.dfind q seq with
  | some d => if s.commitReady q d then s.commitD q d else s
  | none => s

/-! Commands. -/

/-- NOP (R263). -/
def execNop (q : Nat) (s : State) : Host.Outcome State Fault Refusal := .next (s.dispatch q (isOp 0x00) (State.startCtl q))

/-- CONVERT (R54). -/
def execConvert (d : ConvDisp) (s : State) : Host.Outcome State Fault Refusal := .next (s.dispatch d.q (isOp 0x01) (State.startConv d.q d.ks))

/-- QUANT (R50). -/
def execQuant (d : ConvDisp) (s : State) : Host.Outcome State Fault Refusal := .next (s.dispatch d.q (isOp 0x02) (State.startConv d.q d.ks))

/-- DEQUANT (R73). -/
def execDequant (d : ConvDisp) (s : State) : Host.Outcome State Fault Refusal := .next (s.dispatch d.q (isOp 0x03) (State.startConv d.q d.ks))

/-- STATS (R54). -/
def execStats (d : ConvDisp) (s : State) : Host.Outcome State Fault Refusal := .next (s.dispatch d.q (isOp 0x04) (State.startConv d.q d.ks))

/-- GRAM (R154). -/
def execGram (q : Nat) (s : State) : Host.Outcome State Fault Refusal := .next (s.dispatch q (isOp 0x10) (State.startRout q))

/-- ROOT (R158). -/
def execRootOp (q : Nat) (s : State) : Host.Outcome State Fault Refusal := .next (s.dispatch q (isOp 0x11) (State.startRout q))

/-- SOLVE (R161). -/
def execSolve (q : Nat) (s : State) : Host.Outcome State Fault Refusal := .next (s.dispatch q (isOp 0x12) (State.startRout q))

/-- PRECOND (R166). -/
def execPrecond (q : Nat) (s : State) : Host.Outcome State Fault Refusal := .next (s.dispatch q (isOp 0x13) (State.startRout q))

/-- REDUCE (R241). -/
def execReduce (d : RedDisp) (s : State) : Host.Outcome State Fault Refusal :=
  .next (s.dispatch d.q (isOp 0x20) (fun s r => (State.startRed d.q d.chk s r).redSpace))

/-- FENCE (R262). -/
def execFence (q : Nat) (s : State) : Host.Outcome State Fault Refusal := .next (s.dispatch q (isOp 0x30) (State.startCtl q))

/-- BELL_WAIT (R222). -/
def execBellWait (q : Nat) (s : State) : Host.Outcome State Fault Refusal := .next (s.dispatch q (isOp 0x31) (State.startCtl q))

/-- SIGNAL (R260). -/
def execSignal (q : Nat) (s : State) : Host.Outcome State Fault Refusal := .next (s.dispatch q (isOp 0x32) (State.startCtl q))

/-- WAIT (R261). -/
def execWaitOp (q : Nat) (s : State) : Host.Outcome State Fault Refusal := .next (s.dispatch q (isOp 0x33) (State.startCtl q))

/-- F_DESC_MALFORMED (R237). -/
def execFDescMalformed (q : Nat) (s : State) : Host.Outcome State Fault Refusal := 
  .next (s.dispatch q (·.malformed) (fun s d => s.refuseD q d.seq 0x0101 0))

/-- F_WAIT_TIMEOUT (R261). -/
def execFWaitTimeout (q seq : Nat) (s : State) : Host.Outcome State Fault Refusal := .next (s.waitTimeout q seq)

/-- REDUCE_TIMEOUT (R337). -/
def execReduceTimeout (q seq : Nat) (s : State) : Host.Outcome State Fault Refusal := .next (s.redTimeout q seq)

/-- COMMIT (R246). -/
def execCommit (q seq : Nat) (s : State) : Host.Outcome State Fault Refusal := .next (s.commitAt q seq)

/-- RELEASED (R245). -/
def execReleased (q : Nat) (s : State) : Host.Outcome State Fault Refusal := .next (s.releaseNext q)

end Sys2Proof.Machine
end

