-- ==== Sys2Proof/Machine/Doorbells.lean ====
section
/-! DEFINITION. The doorbell port (R232, R233): TAIL, IRQ_ACK and words that are ignored. -/

namespace Sys2Proof.Machine

/-- An accepted TAIL (R233): the new descriptors are read; in DOZE or NAP, POWER_WAKE clears POWER_REQUEST (R383); a formation that waited for
the queue goes on. -/
def State.tailTo (s : State) (q index : Nat) : State :=
  let n := (index + 2 ^ 32 - s.get O.tail q) % 2 ^ 32
  let s := (s.put O.tail q index).askRing q n
  let p := s.obj O.powerState
  let s := if s.obj O.powerWake = 1 ∧ (p = 1 ∨ p = 2) then (s.setObj O.powerRequest 0).powerAsk else s
  s.formResume

/-- A doorbell word (R233). What arrives while a reset is held, before the NV load has ended, in SLEEP or on a stopped block is ignored
(R301, R372, R396). -/
def State.doorbell (s : State) (w : Nat) : State :=
  if !s.live then s
  else if dbTail w && s.tailOk (dbQueue w) (dbIndex w) then s.tailTo (dbQueue w) (dbIndex w)
  else if dbAck w then s.put O.irqPending (dbQueue w) 0
  else s.badDoorbell w

/-- TAIL (R233). -/
def execTail (q index : Nat) (s : State) : Host.Outcome State Fault Refusal := .next (s.doorbell (dbWord 0 q index))

/-- IRQ_ACK (R233, R267). -/
def execIrqAck (q : Nat) (s : State) : Host.Outcome State Fault Refusal := .next (s.doorbell (dbWord 1 q 0))

/-- DOORBELL_ERRORS (R233): any other word. -/
def execDoorbellErrors (word : Nat) (s : State) : Host.Outcome State Fault Refusal := .next (s.doorbell word)

end Sys2Proof.Machine
end

