-- ==== Sys2Proof/Machine/Accept.lean ====
section
/-! DEFINITION. The values that the writable objects accept, from the tables of accepted values of the chapters (R11): what an object's own value
decides. What a write's moment decides stands with the writes themselves. -/

namespace Sys2Proof

/-- Objects that accept the values from `lo` to `hi`. -/
def acceptRanges : List (Nat × Nat × Nat) :=
  [ (O.archLevelRequest, 1, 255), (O.epochControl, 1, 3), (O.segTimeout, 1000, 2 ^ 32 - 1), (O.nvStore, 1, 1), (O.nvRestore, 1, 2),
    (O.bellPeriod, 4096, 16777216), (O.bellFillPct, 1, 100), (O.bellPaceWait, 0, 16777216), (O.hedgeTagWait, 0, 16777216),
    (O.hedgeStreamTimeout, 1, 65535), (O.histSelect, 0, 16383), (O.histOwner, 0, 4095), (O.histWindow, 1, 16),
    (O.clipThresh, 0, 1048576), (O.uflowThresh, 0, 1048576), (O.adapt, 0, 1), (O.slotReset, 1, 1), (O.chSelect, 0, 63), (O.chOwner, 0, 4095),
    (O.queueSelect, 0, 262143), (O.syncSelect, 0, 131071), (O.queueTenant, 0, 4095), (O.syncOwner, 0, 4095), (O.ringLog2, 4, 16), (O.irqLine, 0, 7),
    (O.queuePaced, 0, 1), (O.errPolicy, 0, 1), (O.queueEnable, 1, 1), (O.queueReset, 1, 1), (O.tenantSelect, 0, 4095), (O.tmtDirLog2, 0, 20),
    (O.memTimeout, 1024, 16777216) ]

def acceptRanges2 : List (Nat × Nat × Nat) :=
  [ (O.tollMargin, 64, 1048576), (O.tollTimeout, 262144, 2 ^ 32 - 1), (O.calPeriod, 65536, 268435456),
    (O.reduceTimeout, 65536, 2 ^ 32 - 1), (O.rgSelect, 1, 255), (O.rgSize, 1, 65536), (O.rgStride, 1, 65535), (O.bportSelect, 0, 47),
    (O.firstFaultClear, 1, 1), (O.fatalIrqLine, 0, 7), (O.evlogIrqLine, 0, 7), (O.evlogLog2, 6, 16), (O.evlogEnable, 0, 1), (O.evlogIrqSev, 0, 4),
    (O.evlogIrqAck, 1, 1), (O.evlogMinSev, 0, 3), (O.trapQueueSelect, 0, 262143), (O.nanTrapMode, 0, 3), (O.testCommand, 1, 3),
    (O.powerRequest, 0, 2), (O.powerWake, 0, 1), (O.throttleForce, 0, 7), (O.tempHyst, 16, 320), (O.bellReset, 1, 1), (O.ijtagAccess, 0, 1),
    (O.portCheck, 1, 1), (O.repairStore, 1, 1) ]

/-- Tables 3.6 and 6.11: a finite FP32 code from `lo` to `hi` in magnitude, of positive sign. -/
def posFinite (v lo hi : Nat) : Bool := decide (lo ≤ v) && decide (v ≤ hi)

/-- ATTR with bit 7 clear and MTYPE not 3 (Table 10.3). -/
def attrOk (v : Nat) : Bool := decide (v < 128) && v % 4 != 3

/-- A write of −0 stores +0 where Table 6.11 says so. -/
def storedValue (oid v : Nat) : Nat := if (oid = O.chDecay ∨ oid = O.solvePivotMin) ∧ v = 0x80000000 then 0 else v

end Sys2Proof

namespace Sys2Proof.Machine

/-- An object accepts a value (R11), judged by the value and by the objects that its range names. -/
def State.accepts (s : State) (oid sel v : Nat) : Bool :=
  match (acceptRanges ++ acceptRanges2).find? (fun e => e.1 == oid) with
  | some (_, lo, hi) => decide (lo ≤ v) && decide (v ≤ hi)
  | none =>
    if oid = O.initMax then posFinite v 0x00800000 0x7F7FFFFF
    else if oid = O.chDecay then v == 0x80000000 || posFinite v 0 0x3F800000
    else if oid = O.chWeight then v / 2 ^ 23 % 256 != 255
    else if oid = O.solvePivotMin then v == 0x80000000 || posFinite v 0 0x7F7FFFFF
    else if oid = O.hedgeHistExpLo then decide (v ≤ 67) || decide (128 ≤ v)
    else if oid = O.segSelect then decide (v < s.nSeg)
    else if oid = O.arraySelect then decide (v < s.nArr)
    else if oid = O.lanternSelect then decide (v < s.nLan)
    else if oid = O.memportSelect then decide (v < s.nPort)
    else if oid = O.ringBase ∨ oid = O.cplBase then v % 4096 == 0
    else if oid = O.acctBase then v % 64 == 0
    else if oid = O.ringAttr ∨ oid = O.tmtAttr ∨ oid = O.evlogAttr then attrOk v
    else if oid = O.tmtDirBase ∨ oid = O.evlogBase ∨ oid = O.portCheckAddr ∨ oid / 256 = 0x6410 then v % 4096 == 0 && decide (v < 2 ^ 56)
    else if oid / 256 = 0x6411 then v % 4096 == 0 && decide (s.obj (O.devwinBase (oid % 256)) + v ≤ 2 ^ 56)
    else if oid = O.bgSize then decide (1 ≤ v) && decide (v ≤ 16384) && decide (s.obj O.bgBase + v ≤ 65536)
    else if oid = O.routePrimary ∨ oid = O.routeAlternate then decide (v < 48) || v == 0xFF
    else if oid = O.evcodeSelect then v == 0 || decide (v ∈ evCodes)
    else if oid = O.evlogHead then decide ((v + 2 ^ 32 - s.get oid sel) % 2 ^ 32 ≤ (s.obj O.evlogTail + 2 ^ 32 - s.get oid sel) % 2 ^ 32)
    else if oid = O.testKind then v == 1 || v == 2 || v == 4 || v == 5 || v == 6 || v == 7
    else if oid = O.tempWarn then decide (v ≤ 2400) && decide (v < s.obj O.tempHot)
    else if oid = O.tempHot then decide (v ≤ 2400) && decide (s.obj O.tempWarn < v) && decide (v < s.obj O.tempCrit)
    else if oid = O.tempCrit then decide (v ≤ 2400) && decide (s.obj O.tempHot < v)
    else true

end Sys2Proof.Machine
end

