-- ==== Sys2Proof/Machine/MemResp.lean ====
section
/-! DEFINITION. What comes back on the memory ports (R285, R286, R289, R290): read data, write responses and timeouts, the one reissue, the runs
that fence a port, and what each owner of a request makes of its outcome (R235, R312, R415, Table 10.6). -/

namespace Sys2Proof.Machine

/-- The queue and DESC_SEQ of the descriptor that an act serves; an offer at a formation has none. -/
def actOf (a : Act) : Nat × Nat :=
  match a with
  | .desc q n | .tiles q n | .arr q n _ | .lan q n _ | .dome q n _ | .restart q n => (q, n)
  | .form q => (q, 0)

/-- Where a fault of a request arose. -/
def State.reqCtx (s : State) (o : ReqOwner) : Ctx :=
  match o with
  | .conv q n | .ring q n | .park q n | .release q n | .rout q n | .red q n => { queue := some q, tenant := some (s.tenantOf q), seq := n }
  | .act a => { queue := some (actOf a).1, tenant := some (s.tenantOf (actOf a).1), seq := (actOf a).2 }
  | .acct q => { queue := some q, tenant := some (s.tenantOf q) }
  | .walk id => { tenant := (s.reads.walks.find? (fun w => w.id == id)).map (·.tenant) }
  | .evlog _ | .check _ => {}

def State.run (s : State) (p : Nat) : PortRun := SMap.look {} s.runs p
def State.updRun (s : State) (p : Nat) (f : PortRun → PortRun) : State := s.setRuns (SMap.upd {} p f s.runs)

/-- What of a run no later outcome can join is dropped. -/
def prune : List RunEl → List RunEl
  | .brk :: l => prune l
  | .good :: .brk :: l => prune l
  | l => l

/-- Two consecutive requests of a port failed and succeeded elsewhere (R290). -/
def twoGood : List RunEl → Bool
  | .good :: .good :: _ => true
  | _ :: l => twoGood l
  | [] => false

/-- An outcome on a port becomes known. -/
def State.addRun (s : State) (p : Nat) (e : RunEl) : State := s.updRun p (fun x => { x with seq := prune (x.seq ++ [e]) })

/-- The reissue of failure `n` of a port has come to an end. -/
def State.settleRun (s : State) (p n : Nat) (e : RunEl) : State :=
  s.updRun p (fun x => { x with seq := prune (x.seq.map (fun y => if y = .pend n then e else y)) })

/-- F_MEM_PORT, then the fence (R290). -/
def State.fencePort (s : State) (p cause addr : Nat) (c : Ctx) : State :=
  if !s.serves 6 p && s.get O.memportState p != 2 then s
  else
    ((s.updRun p (fun x => { next := x.next })).report { code := 0x0607, unitKind := 6, unit := p, queue := c.queue, tenant := c.tenant, payload := genPay c.seq cause addr }).fence
      6 p cause addr c

/-- Takes an answered request off the list; those that wait behind it are presented. -/
def State.dropReq (s : State) (r : MemReq) : State := (s.setReqs (s.reqs.erase r)).retag

/-! What each owner makes of an outcome. -/

/-- A data write of a descriptor failed for good: the descriptor stops with its first code. -/
def State.writeStop (s : State) (q seq code : Nat) : State :=
  match s.dfind q seq with
  | some d =>
    if d.phase == .parked || d.status != 0 then s
    else s.stopConv q seq code (match d.d.body with | .conv c => c.mainTid | .reduce r => r.dstTid | _ => 0) 0
  | none => s

/-- A write of a routine failed for good (R289, R168). A header write that fails ends a commit with outcome FAULT. -/
def State.routWriteFail (s : State) (q seq code : Nat) : State :=
  match s.rfind q seq with
  | none => s
  | some r =>
    if !r.ended then s.faultRout q seq code
    else
      let commit := r.outcome == 0 || r.outcome == 1 || r.outcome == 9
      let s := if commit then s.rupd q seq (fun r => { r with outcome := 8, code := code, hdrs := [] }) else s
      s.nextHdr q seq

/-- The requests of a routine are answered: header writes go on, or its waits end. -/
def State.routAnswered (s : State) (q seq : Nat) : State :=
  match s.rfind q seq with
  | some r => if r.ended then s.nextHdr q seq else s.settle q seq
  | none => s

/-- F_EVLOG_WRITE (R312): the log is disabled, and the entry stays buffered. -/
def State.evlogFail (s : State) (addr : Nat) : State :=
  let s := match s.evOut with
    | some e => ((s.setEvOut none).setEvbuf (e :: s.evbuf))
    | none => s
  (s.setObj O.evlogEnable 0).report { code := 0x0906, payload := genPay 0 0 addr }

/-- An entry is in the ring (R311, R313, R314). -/
def State.evlogDone (s : State) : State :=
  match s.evOut with
  | none => s
  | some e =>
    let s := ((s.setEvOut none).bump O.evlogTail 0 32 1).bump O.entriesWritten 0 64 1
    if s.obj O.evlogIrqSev ≤ evSeverity e.code then s.setObj O.evlogPending 1 else s

/-- A descriptor has been read (R235, R269); a formation that waited for it goes on. -/
def State.ringGot (s : State) (q seq raw : Nat) : State :=
  if s.get O.queueState q = 0 ∨ s.get O.queueState q = 3 ∧ (s.queue q).resetFrom then s
  else
    let s := s.updQueue q (fun x => { x with fetched := x.fetched ++ [(seq, raw)] })
    let s := if s.get O.queueState q = 2 then (s.drainFetched q (s.queue q).fetched.length).endReset q else s
    s.formResume

/-- An act whose data or walk has come goes on. Dispatches, instructions and restarts go on with the next command that asks for them. -/
def State.resume (s : State) (a : Act) : State :=
  match a with
  | .tiles q n => s.convReady q n
  | .form _ => s.formResume
  | .desc q n => ((s.redReady q n).redWrite q n).redSpace
  | _ => s

/-- A read of a walk is answered: its value, or none when it failed for good. The walk goes on, and the acts that waited for it with it. -/
def State.walkAnswer (s : State) (id : Nat) (ok : Bool) : State :=
  match s.reads.walks.find? (fun w => w.id == id) with
  | some { asked := some (a, n), acts := acts, .. } =>
    let s := s.updWalk id (fun w => { w with asked := none, ans := w.ans ++ [if ok then some (s.rdN a n) else none] })
    let s := (s.walkStep id).walkPump
    let gone := !s.reads.walks.any (fun w => w.id == id)
    (if gone then acts else []).foldl State.resume s
  | _ => s

/-- Beats of an act have been read, or have failed for good; with the last of them it goes on. -/
def State.actAnswer (s : State) (a : Act) (r : MemReq) : State :=
  let s := s.setReads { s.reads with got := s.reads.got ++ (rangeFrom (r.addr / 128) r.beats).map (fun b => (a, b)) }
  if s.waits (.act a) then s else s.resume a

/-- A request of an owner ended well. -/
def State.answered (s : State) (r : MemReq) : State :=
  match r.owner with
  | .walk id => s.walkAnswer id true
  | .act a => s.actAnswer a r
  | .conv q n => s.convReady q n
  | .ring q n => s.ringGot q n (s.rdN (s.get O.ringBase q + 64 * (n % s.ringSize q)) 64)
  | .rout q n => s.routAnswered q n
  | .red q n => if r.wr then s else (s.redReady q n).redSpace
  | .evlog _ => s.evlogDone
  | .check n =>
    (if !r.wr && s.rdN r.addr 128 != ofBytes (checkBytes n) then s.checkFail n else s).checkNext
  | .park .. | .release .. | .acct _ => s

/-- A request of an owner failed for good: `bad` is 1 for ERR or a timeout, 2 for DECERR, 3 for poison. -/
def State.failed (s : State) (r : MemReq) (bad : Nat) : State :=
  let code := if bad = 2 then 0x0606 else if r.wr then 0x0605 else 0x0604
  let s := if r.wr then s
    else s.setMemErr ((rangeFrom (r.addr / 128) r.beats).foldl (fun m b => SMap.put 0 b (min bad 2) m) s.memErr)
  match r.owner with
  | .walk id => s.walkAnswer id false
  | .act a => s.actAnswer a r
  | .conv q n => if r.wr then (s.writeStop q n code).convReady q n else s.convReady q n
  | .ring q n => ((s.ringReadFail q n).endReset q).formResume
  | .park q n | .release q n => s.ringWriteFail q n r.addr
  | .acct q => s.ringWriteFail q 0 r.addr
  | .rout q n => s.routWriteFail q n code
  | .red q n => if r.wr then s.writeStop q n code else (s.redReady q n).redSpace
  | .evlog _ => s.evlogFail r.addr
  | .check _ => (s.checkLost r).checkNext

/-- Accesses that R235, R277 and R312 retry after any failure. -/
def retriesAll (o : ReqOwner) : Bool :=
  match o with | .ring .. | .park .. | .release .. | .acct _ | .evlog _ | .walk _ => true | _ => false

/-- Reads for which poison is a failure (R235, R277, R415). -/
def poisonFails (o : ReqOwner) : Bool := match o with | .ring .. | .walk _ | .check _ => true | _ => false

/-- The request, already off the list or marked late, failed on its port with `bad` (1 ERR or timeout, 2 DECERR, 3 poison): it is reissued once
on the next serving port (R289), unless a device window now covers it (R279), or its owner meets the failure. A stopped block reissues nothing (R301). -/
def State.failOrRetry (s : State) (r : MemReq) (bad cause : Nat) : State :=
  let retry := r.retryOf.isNone && !isCheck r.owner && (!s.stopped || isEvlog r.owner) && (bad == 1 || retriesAll r.owner) &&
    !s.inWindow r.span.1 r.span.2
  match (if retry then s.nextPort r.port else none) with
  | some p =>
    let s := s.bump (if r.wr then O.memportWriteRetries else O.memportReadRetries) r.port 32 1
    let n := (s.run r.port).next
    let counts := bad == 1 && p != r.port
    let s := (s.addRun r.port (if counts then .pend n else .brk)).updRun r.port (fun x => { x with next := n + 1 })
    s.reissue { r with port := p, tag := none, got := 0, err := 0, poisoned := false, late := false
                       retryOf := some (r.port, if counts then some n else none, cause) }
  | none =>
    let s := s.addRun r.port .brk
    let s := match r.retryOf with
      | some (p0, some n, _) => s.settleRun p0 n .brk
      | _ => s
    s.failed r bad

/-- A reissue succeeded: the fault was transient (R294), and counts in the run of failures of the first port (R290). -/
def State.retryOk (s : State) (r : MemReq) : State :=
  match r.retryOf with
  | none => s
  | some (p0, pend, cause) =>
    let c := s.reqCtx r.owner
    let s := s.transient 6 p0 cause r.addr none c
    match pend with
    | none => s
    | some n =>
      let s := s.settleRun p0 n .good
      if twoGood (s.run p0).seq && s.serves 6 p0 then s.fencePort p0 cause r.addr c else s

/-- The whole request is answered with `bad` (0 when it succeeded). -/
def State.complete (s : State) (r : MemReq) (bad : Nat) : State :=
  let s := s.setReqs (s.reqs.erase r)
  let s := if isCheck r.owner then (if bad = 0 then s.answered r else s.failed r bad)
    else
      let s := s.updRun r.port (fun x => { x with timeouts := 0 })
      if bad = 0 then ((s.addRun r.port .brk).retryOk r).answered r else s.failOrRetry r bad 5
  s.retag

/-- The requests that a device window keeps from being moved off a fenced port fail (R279, R290). -/
def State.failShut (s : State) : Nat → State
  | 0 => s
  | n + 1 => match s.reqs.find? (·.shut) with
    | none => s
    | some r => State.failShut (((s.setReqs (s.reqs.erase r)).failed r 1).retag) n

/-- A port takes part: no reset is held, start-up has left the NV load, and the port is neither fenced nor absent. -/
def State.portTalks (s : State) (port : Nat) : Bool :=
  !s.deaf && decide (2 ≤ s.phase) && s.obj O.powerState != 3 && s.get O.memportState port != 1

/-- The outstanding request that a port, a direction and a tag name. -/
def State.byTag (s : State) (port tag : Nat) (wr : Bool) : Option MemReq :=
  s.reqs.find? (fun r => r.port == port && r.wr == wr && r.tag == some tag)

/-- READ_DATA (R285, R289): one beat. A beat that is not the request's breaks the protocol (R290). -/
def State.readData (s : State) (port tag data : Nat) (last : Bool) (resp : Nat) (poison : Bool) : State :=
  if !s.portTalks port then s
  else
    let s := match s.byTag port tag false with
      | none => s.fencePort port 7 0 {}
      | some r =>
        let r' := { r with got := r.got + 1, err := max r.err (if resp = 3 then 1 else resp), poisoned := r.poisoned || poison }
        if last != (r'.got == r.beats) then s.fencePort port 7 r.addr (s.reqCtx r.owner)
        else if r.late || s.stopped then
          if last then s.dropReq r else s.setReqs (swapReq r (fun _ => r') s.reqs)
        else
          let s := if poison then s.bump O.memportPoisonBeats port 32 1 else s
          let s := if resp = 0 then s.wrBytes (r.addr + 128 * r.got) (toBytes 128 data) poison else s
          let s := s.setReqs (swapReq r (fun _ => r') s.reqs)
          if !last then s
          else s.complete r' (if r'.err != 0 then r'.err else if r'.poisoned && poisonFails r.owner then 3 else 0)
    s.failShut s.reqs.length

/-- WRITE_RESPONSE (R286, R289): the write is in memory, or failed. -/
def State.writeResp (s : State) (port tag resp : Nat) : State :=
  if !s.portTalks port then s
  else
    let s := match s.byTag port tag true with
      | none => s.fencePort port 7 0 {}
      | some r =>
        if r.late then s.dropReq r
        else
          let s := if resp = 0 then s.wrBytes r.addr r.data r.poison else s
          if s.stopped && !isEvlog r.owner then s.dropReq r
          else s.complete r (if resp = 0 then 0 else if resp = 2 then 2 else 1)
    s.failShut s.reqs.length

/-- MEM_TIMEOUT (R289): the request keeps its tag until the late response, which is discarded; two timeouts in a row fence the port. -/
def State.memTimedOut (s : State) (port tag : Nat) (wr : Bool) : State :=
  if !s.portTalks port then s
  else match s.byTag port tag wr with
    | none => s
    | some r =>
      if r.late then s
      else
        let s := s.setReqs (swapReq r (fun x => { x with late := true }) s.reqs)
        if isCheck r.owner then (s.failed r 1).retag
        else
          let c := s.reqCtx r.owner
          let s := s.updRun port (fun x => { x with timeouts := x.timeouts + 1 })
          let two := decide (2 ≤ (s.run port).timeouts)
          let s := (s.failOrRetry r 1 6).retag
          let s := if two then s.fencePort port 6 r.addr c else s
          s.failShut s.reqs.length

end Sys2Proof.Machine
end

