-- ==== Sys2Proof/Machine/TestOps.lean ====
section
/-! DEFINITION. The in-service test (R318 to R320), self-tests at start-up (R374), the repair map as it is applied (R387), the self-test instrument of
the IEEE 1687 network (R413), and the writing of buffered events to the event log ring (R301, R311, R312). -/

namespace Sys2Proof

/-- The unit that a valid repair entry names (Table 14.4). -/
def repairUnit (w : Nat) : Option UnitRef :=
  if bitAt w 31 && bits w 20 11 == 0 then some { kind := bits w 16 4, unit := bits w 0 16 } else none

end Sys2Proof

namespace Sys2Proof.Machine

/-- What takes part in a test of a unit may be refused (R320, R387). -/
def State.testRefused (s : State) (cmd kind u : Nat) : Bool :=
  let known := kind == 1 || kind == 2 || kind == 4 || kind == 5 || kind == 6 || kind == 7
  let busy := s.obj O.testState == 1 || s.obj O.testState == 2
  busy || !known || decide (unitCount s kind ≤ u) || s.phase == 3 || s.stopped ||
    (if cmd = 3 then s.inService kind u || decide ({ kind := kind, unit := u } ∈ s.mapped)
     else !s.inService kind u || ((kind == 1 || kind == 2 || kind == 5 || kind == 6) && !s.othersServe kind u))

/-- A unit goes offline (R319). -/
def State.goOffline (s : State) (kind u : Nat) : State :=
  match kind with
  | 4 => let s := s.put O.domeState u 2; if s.get O.arrayState u = 0 then s.put O.arrayState u 3 else s
  | 7 => s.keepParent (fun s => ((s.setUnit 7 u 2).reroute u).updBport u (fun b => { b with trained := false, lostLock := false }))
  | _ => s.setUnit kind u 2

/-- A TEST_COMMAND that is not refused starts (R318). Segments and ports leave service at once; an array, a Dome bank or a Lantern once the
routines that it carries have been pre-empted. -/
def State.startTest (s : State) (cmd kind u : Nat) (net : Bool) : State :=
  let s := ((s.setTest (some { cmd := cmd, kind := kind, unit := u, net := net })).setIjtag (if net then 1 else s.ijtag)).setObj O.testState 1
  if cmd = 3 then s
  else if kind = 2 ∨ kind = 4 ∨ kind = 5 then
    (s.routs.filter (s.uses (if kind = 5 then 5 else 2) u)).foldl (fun s r => s.askPreempt r.q r.seq false) s
  else s.goOffline kind u

/-- The drain of Table 11.10 is complete. -/
def State.testDrained (s : State) (t : TestRt) : Bool :=
  t.cmd == 3 ||
  (if t.kind = 2 ∨ t.kind = 4 ∨ t.kind = 5 then !s.routs.any (s.uses (if t.kind = 5 then 5 else 2) t.unit)
   else if t.kind = 6 then !s.reqs.any (fun r => r.port == t.unit && !r.late)
   else true)

/-- TEST_DRAIN_DONE (R319): the self-test starts. -/
def State.drainTest (s : State) : State :=
  match s.test with
  | some t =>
    if s.obj O.testState = 1 ∧ s.testDrained t = true then
      let s := if t.cmd ≠ 3 ∧ (t.kind = 2 ∨ t.kind = 4 ∨ t.kind = 5) then s.goOffline t.kind t.unit else s
      (s.setObj O.testState 2).bump O.testRuns 0 32 1
    else s
  | none => s

/-- A unit returns to service (R319, R342). Logical arrays and Lanterns move back at their boundaries and restarts, and an array whose Dome bank serves again
leaves the fall-back path once no routine uses it there (Table 11.10). -/
def State.goOnline (s : State) (kind u : Nat) : State :=
  match kind with
  | 1 => ((s.setUnit 1 u 0).convResume).joinAll
  | 2 => s.setUnit 2 u (if s.get O.domeState u = 0 then 0 else 3)
  | 4 => (s.put O.domeState u 0).domeBack
  | 6 => (s.setUnit 6 u 0).updRun u (fun x => { next := x.next })
  | 7 => let s := s.setUnit 7 u 3; if (s.bport u).lock then s.trainPort u else s
  | _ => s.setUnit kind u 0

/-- Bypasses a column (R132). -/
def State.bypass (s : State) (a c : Nat) : State := (s.put O.bypassedColumn a c).put O.arrayColumns a 7

/-- A unit failed a self-test (R319, R374): it is fenced, F_BIST_FAIL is raised with cause 8, and REPAIR_FOUND lists it. The loss of the last
memory port stops the block (R298). -/
def State.bistFail (s : State) (kind u : Nat) : State :=
  let s := match kind with
    | 3 => s.bypass (u / 8) (u % 8)
    | 4 => let s := s.put O.domeState u 1; if s.get O.arrayState u = 0 then s.put O.arrayState u 3 else s
    | _ => s.setUnit kind u 1
  let s := (s.report { code := 0x0904, unitKind := kind, unit := u, payload := genPay 0 8 0 }).found kind u
  if kind = 6 ∧ s.ports.isEmpty then s.stop 0x090A 6 8 else s

/-- The faulty columns that a self-test of an array leaves, with the one already bypassed. -/
def State.badColumns (s : State) (u : Nat) (failed : List Nat) : List Nat :=
  let b := s.get O.bypassedColumn u
  (if b = 0xFF then failed else b :: failed).eraseDups

/-- The verdict of a self-test: it passes when nothing failed, or when the one faulty column of an array can be bypassed (R319). -/
def State.testPasses (s : State) (kind u : Nat) (failed : List Nat) (whole : Bool) : Bool :=
  !whole && (failed.isEmpty || (kind == 2 && decide ((s.badColumns u failed).length ≤ 1)))

/-- TEST_RESULT[15:0]: the lowest failing element of the kinds that have elements. -/
def testElement (kind : Nat) (failed : List Nat) (whole : Bool) : Nat :=
  if whole || kind == 6 || kind == 7 || (kind == 2 && decide (failed.eraseDups.length ≠ 1)) then 0xFFFF
  else match failed with
    | [] => 0xFFFF
    | x :: l => l.foldl min x

/-- The self-test of the test in progress ends (R318, R319). -/
def State.endTest (s : State) (t : TestRt) (failed : List Nat) (whole : Bool) : State :=
  let pass := s.testPasses t.kind t.unit failed whole
  let el := testElement t.kind failed whole
  let s := ((s.setTest none).setIjtag (if t.net then (if pass then 2 else 4) else s.ijtag))
  let s := if pass && t.kind == 2 then (match failed with | c :: _ => s.bypass t.unit c | [] => s) else s
  let s := if !pass then s.bistFail t.kind t.unit
    else if t.cmd = 2 then s
    else
      let s := s.goOnline t.kind t.unit
      if t.cmd = 3 then s.report { code := 0x0903, unitKind := t.kind, unit := t.unit, payload := genPay 0 8 0 } else s
  (s.setObj O.testState (if pass then 3 else 4)).setObj O.testResult ((if pass then 0 else 2 ^ 24) + el)

/-- A self-test of phase 3 ends (R374); the units that the repair map fences are not tested (R387). -/
def State.bootTest (s : State) (kind u : Nat) (failed : List Nat) (whole : Bool) : State :=
  let known := kind == 1 || kind == 2 || kind == 4 || kind == 5 || kind == 6 || kind == 7
  if !known || decide (unitCount s kind ≤ u) || decide ({ kind := kind, unit := u } ∈ s.mapped) || !s.inService kind u then s
  else if failed.isEmpty && !whole then s
  else if s.testPasses kind u failed whole then
    (match failed with | c :: _ => if s.get O.bypassedColumn u = c then s else s.bistFail 3 (u * 8 + c % 8) | [] => s)
  else s.bistFail kind u

/-- SELF_TEST_DONE (R319, R374, R413). With TEST_MODE = 1 it only ends a run of the self-test instrument. -/
def State.selfTestDone (s : State) (kind u : Nat) (failed : List Nat) (whole : Bool) : State :=
  match s.test with
  | some t =>
    if t.kind ≠ kind ∨ t.unit ≠ u then s
    else if s.testMode then (s.setTest none).setIjtag (if failed.isEmpty && !whole then 2 else 4)
    else if s.obj O.testState = 2 then s.endTest t failed whole
    else s
  | none => if s.phase = 3 ∧ !s.stopped ∧ !s.coldHeld ∧ !s.warmHeld then s.bootTest kind u failed whole else s

/-- IJTAG_UNIT_SELF_TEST (R412, R413). -/
def State.netTest (s : State) (kind u : Nat) : State :=
  if s.testMode then
    (if s.test.isSome then (s.setIjtag 3) else ((s.setTest (some { cmd := 1, kind := kind, unit := u, net := true })).setIjtag 1))
  else if s.coldHeld || s.warmHeld || s.phase = 0 then s
  else if s.obj O.ijtagAccess = 1 ∧ s.loaded ∧ s.obj O.powerState ≠ 3 ∧ !s.testRefused 1 kind u then s.startTest 1 kind u true
  else s.setIjtag 3

/-! The repair map (R387). -/

/-- A valid entry names a unit that the configuration has. -/
def State.repairOk (s : State) (w : Nat) : Bool :=
  match repairUnit w with
  | some r => decide (1 ≤ r.kind) && decide (r.kind ≤ 7) && decide (r.unit < unitCount s r.kind)
  | none => false

/-- Fences the unit of one entry, without an event. -/
def State.mapUnit (s : State) (r : UnitRef) : State :=
  let s := s.setMapped (if r ∈ s.mapped then s.mapped else s.mapped ++ [r])
  match r.kind with
  | 3 =>
    let a := r.unit / 8
    let b := s.get O.bypassedColumn a
    if b = 0xFF then s.bypass a (r.unit % 8)
    else if b = r.unit % 8 then s
    else s.setUnit 2 a 1
  | 4 => let s := s.put O.domeState r.unit 1; if s.get O.arrayState r.unit = 0 then s.put O.arrayState r.unit 3 else s
  | k => s.setUnit k r.unit 1

/-- Applies a repair map: every valid entry fences its unit; a map that leaves no memory port stops the block (R298). -/
def State.applyMap (s : State) (m : Nat) : State :=
  let l := (List.range 256).map (fun i => bits m (32 * i) 32)
  let s := l.foldl (fun s w => if s.repairOk w then (match repairUnit w with | some r => s.mapUnit r | none => s) else s) s
  if s.ports.isEmpty then s.stop 0x090A 6 8 else s

/-- A map with an entry in use that is not valid is not stored (R388). -/
def State.mapInvalid (s : State) (m : Nat) : Bool :=
  (List.range 256).any (fun i => let w := bits m (32 * i) 32; bitAt w 31 && !s.repairOk w)

/-! The event log ring (R311, R312). -/

/-- A stopped block writes entries up to its first FATAL one (R301). -/
def State.evlogMay (s : State) : Bool :=
  !s.stopped || decide ((s.evbuf.filter evFatal).length = s.fatalRaised.length)

/-- EVLOG_ENTRY_WRITE (R301, R311, R312). -/
def State.evlogWrite (s : State) : State :=
  let n := s.obj O.evlogTail
  let k := s.obj O.evlogLog2
  let room := decide ((n + 2 ^ 32 - s.obj O.evlogHead) % 2 ^ 32 < 2 ^ k)
  match s.evbuf, s.evOut with
  | e :: l, none =>
    if s.obj O.evlogEnable = 1 ∧ room = true ∧ s.evlogMay = true ∧ !s.coldHeld ∧ !s.warmHeld ∧ s.obj O.powerState ≠ 3 ∧ !s.ports.isEmpty then
      let a := s.obj O.evlogBase + 64 * (n % 2 ^ k)
      let s := (s.setEvbuf l).setEvOut (some e)
      if s.inWindow a 64 then s.evlogFail a
      else s.access (.evlog (evSeverity e.code)) a 64 (s.obj O.evlogAttr) 0 (some (toBytes 64 (evEntry e (1 - bits n k 1)))) false
    else s
  | _, _ => s

end Sys2Proof.Machine
end

