-- ==== Sys2Proof/Machine/PowerOps.lean ====
section
/-! DEFINITION. Resets, start-up, the NV copies, power states, throttle, temperature and the clock monitor (R362 to R365, R372 to R397). -/

namespace Sys2Proof

/-- The persistence class of an object (R361). -/
def persOf (oid : Nat) : Pers := match Obj.find oid with | some o => o.pers | none => .none

/-- The newer of two NV copies with a good CRC (R364). -/
def newerCopy : List NvCopy → Nat → Option (Nat × NvCopy)
  | [], _ => none
  | c :: l, i =>
    match newerCopy l (i + 1) with
    | none => if c.present && c.good then some (i, c) else none
    | some (j, d) => if c.present && c.good && decide (d.seq ≤ c.seq) then some (i, c) else some (j, d)

/-- The copy that the next store writes: the older (R362). -/
def olderCopy (l : List NvCopy) : Nat :=
  match newerCopy l 0 with
  | some (0, _) => 1
  | some _ => 0
  | none => 0

/-- The sequence number of the next copy. -/
def nextSeqNo (l : List NvCopy) : Nat := match newerCopy l 0 with | some (_, c) => c.seq + 1 | none => 1

/-- The codes of NV_LOAD_STATUS for two copies (R364). -/
def loadStatus (l : List NvCopy) : Nat :=
  if !l.any (·.present) then 2
  else match newerCopy l 0 with
    | none => 3
    | some (_, c) => if l.any (fun d => d.present && decide (c.seq < d.seq)) then 1 else 0

/-- The persistent values that the copies give. -/
def copyVals (l : List NvCopy) : SMap Nat := match newerCopy l 0 with | some (_, c) => c.vals | none => []

/-- A store that is cut short leaves the copy it was writing with a bad CRC (R364). -/
def Nv.cut (n : Nv) : Nv :=
  let bad := fun (l : List NvCopy) (i : Nat) => setNth l i { present := true, seq := nextSeqNo l, good := false, vals := [] }
  match n.op with
  | some (.store _ i) => { n with copies := bad n.copies i, op := none }
  | some (.repair _ i) => { n with repair := bad n.repair i, op := none }
  | _ => { n with op := none }

/-- A store is under way. -/
def Nv.storing (n : Nv) : Bool := match n.op with | some (.store _ _) | some (.repair _ _) => true | _ => false

/-- THERMAL_LEVEL for a temperature (R385). -/
def thermalOf (warn hot crit : Nat) (t : Int) : Nat := if (crit : Int) ≤ t then 7 else if (hot : Int) ≤ t then 5 else if (warn : Int) ≤ t then 2 else 0

/-- The sensor with the highest reading, the lowest-numbered of equals, and the reading. -/
def hottest : List Int → Nat → Option (Nat × Int)
  | [], _ => none
  | t :: l, i => match hottest l (i + 1) with
    | none => some (i, t)
    | some (j, u) => if u ≤ t then some (i, t) else some (j, u)

end Sys2Proof

namespace Sys2Proof.Machine

/-! What each reset keeps (R389). -/

def State.keepObjs (s : State) (p : Pers → Bool) : SMap Nat := s.objs.filter (fun (k, _) => p (persOf (k / 262144)))

/-- The reset value of the block, with what lies outside its logic: the host's memory, the pins, what the ports have put out, the wrappers, the NV
store, the waiting commands and the model's counter. -/
def State.outside (s : State) (nv : Nv) : State :=
  { State.resetOf s.variant with
    pending := s.pending, freeCtr := s.freeCtr, mem := s.mem, poison := s.poison, memErr := s.memErr, soOut := s.soOut, moOut := s.moOut
    btx := s.btx, wirs := s.wirs, nv := nv, pgLane := s.pgLane, pgSpire := s.pgSpire, pgAon := s.pgAon, pgNv := s.pgNv
    thrPin := s.thrPin, pstateReq := s.pstateReq
    bports := s.bports.filterMap (fun (p, b) => if b.lock then some (p, { lock := true : BPort }) else none) }

/-- COLD_RESET (R373): a store in progress is cut short. -/
def State.coldReset (s : State) : State := s.outside s.nv.cut

/-- What a warm reset keeps beside (R379): persistent and always-on objects, the SEQ count, the time base, trained links that keep lock, TEST_MODE
and PSTATE_ACK until the exit steps are complete (R399). A store in progress goes on. -/
def State.warmReset (s : State) : State :=
  let keep : SMap Nat := s.objs.filter (fun (k, _) =>
    let o := k / 262144
    persOf o == .nv || persOf o == .always || o == O.testModeState)
  let link := fun (b : BPort) => b.lock && b.trained && !b.lostLock
  let nv := if s.nv.storing then s.nv else { s.nv with op := none }
  ((((((((((s.outside nv).setObjs keep).setEvSeq s.evSeq).setTb s.tb).setRate s.rate).setTestMode s.testMode).setBports (s.bports.filterMap (fun (p, b) =>
      if link b then some (p, { b with unacked := [], waiting := [], calT1 := none }) else if b.lock then some (p, { lock := true : BPort }) else none))).setColdHeld false).setWarmHeld true).setWarmStart true).setPstateAck s.pstateAck

/-- SLEEP keeps the NV store and the always-on records (R372). -/
def State.sleepLoss (s : State) : State :=
  ((((s.outside { s.nv with op := none }).setObjs (s.keepObjs (· == .always))).setEvSeq s.evSeq).setTestMode s.testMode).setPstateAck s.pstateAck

/-- The REDUCE under way go on, as Lanterns are no longer frozen, or as the block leaves NAP. -/
def State.redResume (s : State) : State :=
  (s.reds.foldl (fun s c => match c.owner with
    | some (q, n) => ((s.redReady q n).climb c.group c.tag 40).redWrite q n
    | none => s) s).redSpace

/-- What segments and Lanterns hold goes on when the throttle no longer freezes them (Table 14.3). -/
def State.thaw (s : State) (segs lans : Bool) : State :=
  let s := if segs then s.convResume.joinAll else s
  if lans then s.redResume else s

/-- The effective throttle level (R384). -/
def State.throttle (s : State) : State :=
  let t := s.setObj O.throttleLevel (max (s.obj O.thrInput) (max (s.obj O.thermalLevel) (s.obj O.throttleForce)))
  t.thaw (s.segFrozen && !t.segFrozen) (s.lanFrozen && !t.lanFrozen)

/-- The reset rises: the stopped state is left and the start-up phases begin (R373, R379, R382). -/
def State.rise (s : State) (cause : Nat) : State :=
  let s := (((((s.setColdHeld false).setWarmHeld false).setRiseDue false).setCycle 0).setLoaded false).setObj O.blockState 0
  (((s.setObj O.startupPhase 1).setObj O.resetCause cause).setObj O.thrInput s.thrPin).throttle

def State.supplied (s : State) : Bool := s.pgLane && s.pgSpire && s.pgAon && s.pgNv

/-- A reset that is no longer driven ends once every supply is good and a store has ended (R371, R379, R390, R397); under TEST_MODE the block does not
start (R409). -/
def State.riseNow (s : State) : State :=
  if !s.riseDue || s.warmAsk || !s.supplied || s.nv.storing then s
  else if s.testMode then (((s.setColdHeld false).setWarmHeld false).setRiseDue false)
  else if s.coldHeld then s.rise 1
  else s.rise 2

/-- COLD_RESET_RELEASE (R373, R409). -/
def State.coldRelease (s : State) (testMode : Bool) : State :=
  if !s.coldHeld then s
  else ((s.setRiseDue true).setTestMode testMode).setObj O.testModeState (b2n testMode) |>.riseNow

/-- The warm reset takes its effect: from SLEEP the exit runs as a warm start (R379, R390). -/
def State.warmAct (s : State) : State :=
  if s.obj O.powerState = 3 then ((s.sleepLoss.setColdHeld false).setWarmHeld true).setSleepStart true else s.warmReset

/-- WARM_RESET (R379, R390, R395): ignored while COLD_RST_N is low; in NAP and SLEEP it is acted on when every domain is within tolerance. -/
def State.warmStart' (s : State) : State :=
  if s.coldHeld then s
  else if s.warmHeld || s.warmAsk then s.setRiseDue false
  else if 2 ≤ s.obj O.powerState ∧ s.supplied = false then s.setWarmAsk true
  else s.warmAct

/-- WARM_RESET_RELEASE (R379). -/
def State.warmRelease (s : State) : State := if s.warmHeld || s.warmAsk then (s.setRiseDue true).riseNow else s

/-- A warm reset that waits for the supplies takes its effect once they are good; one released meanwhile then rises (R390). -/
def State.askedNow (s : State) : State := if s.warmAsk && s.supplied then s.warmAct.setRiseDue s.riseDue else s

/-- The exit from SLEEP runs the cold start (R382), once the request is lowered and every supply is good. -/
def State.wakeNow (s : State) : State :=
  if s.obj O.powerState = 3 ∧ s.exiting = true ∧ s.supplied = true ∧ s.coldHeld = false ∧ s.warmHeld = false then (s.sleepLoss.setSleepStart true).rise 3 else s

/-- POWER_GOOD_FALL (R397, Table 14.2). -/
def State.pgFall (s : State) (d : Domain) : State :=
  let asleep := s.obj O.powerState
  match d with
  | .lane | .spire =>
    let s := match d with | .lane => (s.setPgLane false) | _ => (s.setPgSpire false)
    if s.coldHeld || s.warmHeld || decide (2 ≤ asleep) then s else s.warmReset.setRiseDue true
  | .aon =>
    let s := s.setPgAon false
    if s.coldHeld || asleep == 3 then s else (s.coldReset.setRiseDue true).setTestMode s.testMode
  | .nv =>
    let s := s.setPgNv false
    if s.coldHeld then s else (s.coldReset.setRiseDue true).setTestMode s.testMode

/-- POWER_GOOD_RISE (R382, R390): what waits for the supplies goes on. -/
def State.pgRise (s : State) (d : Domain) : State :=
  let s := match d with
    | .lane => s.setPgLane true
    | .spire => s.setPgSpire true
    | .aon => s.setPgAon true
    | .nv => s.setPgNv true
  s.askedNow.riseNow.wakeNow

/-! Start-up. -/

/-- Puts the values of the newer NV copy in force; a value outside its object's accepted values takes the default (R364). -/
def State.loadVals (s : State) : State :=
  let vals := (copyVals s.nv.copies).filter (fun (k, _) => persOf (k / 262144) == .nv)
  let all := vals.foldl (fun s (k, v) => s.put (k / 262144) (k % 262144) v) s
  vals.foldl (fun (t : State) (k, v) => if all.accepts (k / 262144) (k % 262144) v then t.put (k / 262144) (k % 262144) v else t) s

/-- NV_LOAD (R364, R387): the repair map is applied, and after a cold reset or SLEEP the persistent values are loaded; phase 2 begins. -/
def State.nvLoad (s : State) (corrected : Nat) : State :=
  if s.phase ≠ 1 ∨ s.coldHeld ∨ s.warmHeld then s
  else
    let s := if s.warmStart then s else s.loadVals.setObj O.nvLoadStatus (loadStatus s.nv.copies)
    let s := (((s.setWarmStart false).setSleepStart false).setLoaded true).bump O.nvCorrected 0 32 corrected
    let m := SMap.look 0 (copyVals s.nv.repair) 0
    (((s.setObj O.repairMap m).setObj O.repairLoadStatus (loadStatus s.nv.repair)).setObj O.startupPhase 2).applyMap m

/-- F_SEQUENCER, F_DICTIONARY or F_NV for a failed self-test of a singular unit (R374); none for another kind. -/
def singularCode (kind : Nat) : Option Nat :=
  if kind = 10 ∨ kind = 8 ∨ kind = 13 then some 0x0907 else if kind = 11 then some 0x0908 else if kind = 12 then some 0x0909 else none

/-- CORE_TEST (R374): the units that failed are reported in order of kind and number (R306); phase 3 begins, the links that have lock train, and the group begins to form. -/
def State.coreTest (s : State) (failed : List UnitRef) : State :=
  if s.phase ≠ 2 ∨ s.stopped ∨ s.coldHeld ∨ s.warmHeld then s
  else
    let s := (sortBy (fun (r : UnitRef) => r.kind * 2 ^ 32 + r.unit) failed).foldl (fun s r => if s.stopped then s else match singularCode r.kind with
      | some c => s.stop c r.kind 8
      | none => s.bootTest r.kind r.unit [] true) s
    if s.stopped then s
    else
      let s := (s.setObj O.startupPhase 3).beginGroup
      let s := (List.range 48).foldl (fun s p =>
        let b := s.bport p
        if !b.lock || s.get O.bportState p != 3 then s else if b.trained then s.setUnit 7 p 0 else s.trainPort p) s
      s.formArrive

/-! The NV store (R362, R363, R388). -/

/-- The persistent values in force, as a store takes them. -/
def State.snapshot (s : State) : SMap Nat := s.keepObjs (· == .nv)

/-- Ends a store into one of two copies. -/
def storeInto (l : List NvCopy) (i : Nat) (vals : SMap Nat) : List NvCopy :=
  setNth l i { present := true, seq := nextSeqNo l, good := true, vals := vals }

/-- NV_STORE_DONE (R362): the copy becomes the newer, or a lasting fault of the NV store stops the block; a warm reset that waited goes on either way
(R379). -/
def State.storeDone (s : State) (pass : Bool) : State :=
  match s.nv.op with
  | some (.store snap i) =>
    if pass then (s.setNv { s.nv with copies := storeInto s.nv.copies i snap, storeCount := s.nv.storeCount + 1, op := none }).riseNow
    else ((s.setNv s.nv.cut).stop 0x0909 12 3).riseNow
  | _ => s

/-- REPAIR_STORE_DONE (R388). -/
def State.repairDone (s : State) (pass : Bool) : State :=
  match s.nv.op with
  | some (.repair m i) =>
    if pass then
      (s.setNv { s.nv with repair := storeInto s.nv.repair i (SMap.put 0 0 m []), repairCount := s.nv.repairCount + 1, op := none }).riseNow
    else ((s.setNv s.nv.cut).stop 0x0909 12 3).riseNow
  | _ => s

/-! Power states (R381 to R383). -/

/-- PSTATE_REQ changes. -/
def State.pstate (s : State) (v : Nat) : State := ((s.setPstateReq (v % 4)).powerAsk).wakeNow

/-- No admitted item that uses a segment, an array or a Lantern routine remains incomplete (R382). -/
def State.powerDrained (s : State) (target : Nat) : Bool :=
  s.stopped ||
  (s.queues.all (fun (_, x) => x.infl.all (fun d => match d.d.body with
     | .conv _ => d.d.malformed || d.noSync || d.phase == .parked || d.phase == .done
     | _ => true)) &&
   s.routs.all (fun r => r.ended || r.phase == .restart ||
     (r.phase == .loaded && decide (target < 2) && (decide (r.itersPlaced ≤ r.iteration) || (r.r.kind == .gram && !r.gramRest)))))

/-- What NAP loses beside the routines' units (R389, Table 14.5): twig caches, image store, the front buffer, and what the runner ring carries; walks in flight
are abandoned (Table 10.7). A tile that the buffer held is read again as a re-read sweep reads it. -/
def State.napLoss (s : State) : State :=
  let s := (s.setReads {}).giveUp (fun o => match o with | .walk _ | .act _ => true | _ => false)
  ((((s.setTwigs []).setStore []).setHolds []).setRing []).setChans (s.chans.map (fun (k, c) =>
    (k, { c with tiles := c.tiles.map (fun t => { t with lost := t.lost || t.spill.isNone }) })))

/-- POWER_ENTRY (R382, Table 14.2). -/
def State.powerEntry (s : State) : State :=
  match s.moving with
  | none => s
  | some (t, _) =>
    if !s.draining || s.coldHeld || s.warmHeld || !s.powerDrained t || (t == 3 && s.nv.op.isSome) then s
    else
      let s := if t = 3 ∧ !s.stopped then s.tellLost 3 else s
      let s := (((s.setObj O.powerState t).setPstateAck t).setMoving none).setDraining false
      match t with
      | 1 => s.bump O.dozeEntries 0 32 1
      | 2 => s.napLoss.bump O.napEntries 0 32 1
      | _ => (s.setSegs [])

/-- POWER_EXIT_DONE (R382): DOZE or NAP ends, and what was abandoned is read anew; the exit from NAP needs its supplies. -/
def State.powerExit (s : State) : State :=
  let cur := s.obj O.powerState
  if !s.exiting || s.coldHeld || s.warmHeld || cur == 0 || cur == 3 || (cur == 2 && !(s.pgLane && s.pgSpire)) then s
  else
    let want := s.powerWanted
    (((s.setPstateAck want).setExiting false).setObj O.powerState want).redResume.formResume

/-! Throttle, temperature, clocks. -/

/-- THR (R384). -/
def State.thr (s : State) (v : Nat) : State :=
  let s := s.setThrPin (v % 8)
  if s.coldHeld || s.warmHeld || s.obj O.powerState = 3 then s else (s.setObj O.thrInput (v % 8)).throttle

/-- THROTTLE_FORCE (R384). -/
def State.force (s : State) (v : Nat) : State := (s.setObj O.throttleForce v).throttle

/-- The threshold under which a thermal level was raised (R385). -/
def State.threshold (s : State) (level : Nat) : Nat :=
  if level = 7 then s.obj O.tempCrit else if level = 5 then s.obj O.tempHot else s.obj O.tempWarn

/-- TEMP_READ (R385, R386): the readings of the sensors in order, as I16 codes. -/
def State.tempRead (s : State) (readings : List Nat) : State :=
  let n := s.obj O.tempSensors
  let l := (readings.take n).map (fun x => x % 65536)
  if s.coldHeld || s.warmHeld || s.phase = 0 || s.obj O.powerState = 3 then s
  else match hottest (l.map (sext 16)) 0 with
    | none => s
    | some (i, t) =>
      let s := (s.setObj O.tempTable (ofBytes (l.flatMap (toBytes 2)))).setObj O.tempMax (trunc2 16 t)
      let s := if sext 16 (s.obj O.tempPeak) < t then s.setObj O.tempPeak (trunc2 16 t) else s
      let cur := s.obj O.thermalLevel
      let new := thermalOf (s.obj O.tempWarn) (s.obj O.tempHot) (s.obj O.tempCrit) t
      if cur < new then
        let cause := if new = 7 then 3 else if new = 5 then 2 else 1
        ((s.setObj O.thermalLevel new).throttle).report { code := 0x0A01, payload := genPay 0 (cause * 2 ^ 24 + i) (trunc2 16 t) }
      else if new < cur ∧ t + (s.obj O.tempHyst : Int) < (s.threshold cur : Int) then (s.setObj O.thermalLevel new).throttle
      else s

/-- CLOCK_MEASURE (R393, R414). -/
def State.clocks (s : State) (l m : Nat) : State :=
  if s.coldHeld || s.warmHeld || s.obj O.powerState = 3 then s
  else
    let out := b2n (decide (l < 1000000) || decide (1400000 < l)) + b2n (decide (m < 100000) || decide (400000 < m))
    ((s.setObj O.lclkKhz (l % 2 ^ 32)).setObj O.mclkKhz (m % 2 ^ 32)).bump O.clockOutOfRange 0 32 out

/-- LCLK in kHz as the clock monitor last measured it; nominal before (DESIGN CHOICE, log 70). -/
def State.lclk (s : State) : Nat := if s.obj O.lclkKhz = 0 then 1250000 else s.obj O.lclkKhz

/-- POWER_LIMIT_W over a window of 1,024 cycles, in femtojoules (R17). -/
def State.budgetFJ (s : State) : Nat := s.obj O.powerLimitW * 1024 * 10 ^ 12 / s.lclk

/-- The governor acts in the window that ends (R17): the estimate is above the limit, and on MQ1-L the LCLK is above nominal. -/
def State.governs (s : State) : Bool := decide (s.budgetFJ < s.gov.fJ) && !(s.variant == .l && decide (s.lclk ≤ 1250000))

/-- The cycles of the window in which the governor alone freezes (R18): a free value (log 3), within the cycles that the throttle leaves. -/
def State.governed (s : State) : Nat :=
  if s.governs then min (1024 - frozenIn (s.obj O.throttleLevel) s.cycle 1024) (Config.governorFrozen s.freeCtr).toNat else 0

/-- GOVERNOR_WINDOW (R17, R18, R116): each frozen cycle is of one array, by rotation in array number, and the next window's estimate begins. -/
def State.governor (s : State) : State :=
  if s.live then
    let f := s.governed
    let n := s.nArr
    let t := ((if s.governs then s.tickFree else s).setGov { fJ := 0, next := (s.gov.next + f) % n }).bump O.governorFrozen 0 32 f
    (List.range n).foldl (fun t a => t.bump O.freezeCycles a 32
      (((List.range f).filter (fun i => (s.gov.next + i) % n == a)).length)) t
  else s

/-! The wrappers (R410). -/

/-- The configuration has the macro. -/
def State.hasMacro (s : State) (m : Macro) : Bool :=
  match m with
  | .segment n => decide (n < s.nSeg)
  | .array n => decide (n < s.nArr)
  | .lantern n => decide (n < s.nLan)
  | .memPort n => decide (n < s.nPort)
  | .core => true

/-- The macro's instruction register as it stands. -/
def State.wir (s : State) (m : Macro) : Nat := ((s.wirs.find? (fun e => e.1 == m)).map (·.2)).getD 0

/-- The instruction that acts: the reserved codes, and outside test mode all but WS_PRELOAD, act as WS_BYPASS. -/
def State.wirActs (s : State) (m : Macro) : Nat :=
  let c := s.wir m
  if 8 ≤ c ∨ (!s.testMode ∧ c ≠ 5) then 0 else c

/-- WIR_UPDATE (R410). -/
def State.wirUpdate (s : State) (m : Macro) (code : Nat) : State :=
  s.setWirs (if s.wirs.any (fun e => e.1 == m) then mapIf (fun e => e.1 == m) (fun e => (e.1, code % 16)) s.wirs else s.wirs ++ [(m, code % 16)])

end Sys2Proof.Machine
end

