-- ==== Sys2Proof/Machine/FinfaOps.lean ====
section
/-! DEFINITION. The management port and the parameter dictionary (13_parameter_dictionary.md): the checks of a request (R352), reads, writes and the
commands that writes start, segmented transfers (R356 to R358) and NEXT (R360). -/

namespace Sys2Proof

/-! The statuses of Table 13.5. -/

namespace St
abbrev ok : Nat := 0x00
abbrev noSuchObject : Nat := 0x01
abbrev accessDenied : Nat := 0x02
abbrev outOfRange : Nat := 0x03
abbrev notWritable : Nat := 0x04
abbrev malformed : Nat := 0x05
abbrev needsSegmented : Nat := 0x06
abbrev noTransfer : Nat := 0x07
abbrev sequence : Nat := 0x08
abbrev busy : Nat := 0x09
abbrev blockStopped : Nat := 0x0A
abbrev wrongInstance : Nat := 0x0B
abbrev notReady : Nat := 0x0C
abbrev nvWear : Nat := 0x0D
end St

/-- The object exists for a role (R367). -/
def Obj.visible (o : Obj) (role : Nat) : Bool := role == 2 || !(decide (0xF00000 ≤ o.oid) && decide (o.oid < 0xF10000))

/-- The first object after `oid` that exists for a role (R360). -/
def Obj.next (role oid : Nat) : Option Obj := objTable.find? (fun o => decide (oid < o.oid) && o.visible role)

/-- No role may write the object (Table 13.7). -/
def Acc.readOnly (a : Acc) : Bool := a == .ro || a == .rwTenantReadOnly

/-- Every read returns 0 (Table 13.7). -/
def Acc.writeOnly (a : Acc) : Bool := a == .woTenant || a == .woOperator || a == .woService

/-- The objects that a stopped block lets be read (R301). -/
def readableStopped (index sub : Nat) : Bool :=
  (index == 0x8000 && sub == 0) || index == 0x8001 || (decide (0x8010 ≤ index) && decide (index ≤ 0x8021))

end Sys2Proof

namespace Sys2Proof.Machine

/-! Reads. -/

/-- The logical units that a physical unit carries (R111, R176). -/
def carriedBy (of : Nat → Option Nat) (n u : Nat) : Nat := sumN ((List.range n).map (fun l => if of l = some u then 2 ^ l else 0))

/-- NV_DIRTY (R370). -/
def State.nvDirty (s : State) : Bool := match newerCopy s.nv.copies 0 with | some (_, c) => c.vals != s.snapshot | none => true

/-- The value that a read of an object returns (R359, Table 13.7). RG_RANK reads its default until a first close has sampled the reduce groups (R345). -/
def State.rdObj (s : State) (o : Obj) (sel : Nat) : Nat :=
  let i := o.oid
  if o.acc.writeOnly then 0
  else if i = O.configDigest then s.ownDigest
  else if i = O.masterDigest then s.masterDig.getD s.ownDigest
  else if i = O.rgRank then (if s.digest.isNone then 0xFFFFFFFF else (grpRank (s.redGroup sel) s.group.self).getD 0xFFFFFFFF)
  else if i = O.timeNow then s.tb / 2 ^ 48
  else if i = O.timeFrac then s.tb / 2 ^ 32 % 2 ^ 16
  else if i = O.segActive then s.segs.length
  else if i = O.logicalArrays then carriedBy s.arrOf s.nArr sel
  else if i = O.lanternLogical then carriedBy s.lanOf s.nLan sel
  else if i = O.segState then (if s.serves 1 sel || s.serves 1 (sel ^^^ 1) then s.get i sel else 3)
  else if i = O.syncValue then ((s.syncWrites.reverse.find? (fun e => e.1 == sel)).map (·.2)).getD (s.get i sel)
  else if i = O.nvState then (match s.nv.op with | none => 0 | some (.restore ..) => 2 | some _ => 1)
  else if i = O.nvDirty then b2n s.nvDirty
  else if i = O.nvStoreCount then s.nv.storeCount
  else if i = O.repairStoreCount then s.nv.repairCount
  else if i = O.wirActive then s.wirActs .core
  else if i = O.queueEnable then b2n (s.get O.queueState sel != 0)
  else s.get i sel

/-! Access rights (R353). -/

/-- The tenant domain that owns what an object of an owned block acts on. -/
def State.ownerOf (s : State) (oid sel : Nat) : Option Nat :=
  let i := oid / 256
  if i = 0x3101 then some (s.get O.histOwner sel)
  else if i = 0x4231 then some (s.get O.chOwner sel)
  else if i = 0x6101 ∨ i = 0x8201 then some (s.get O.queueTenant sel)
  else if i = 0x6201 then some sel
  else if i = 0x6301 then some (s.get O.syncOwner sel)
  else none

/-- The role and tenant domain may read, or write, the object. -/
def State.allowed (s : State) (o : Obj) (sel role tenant : Nat) (wr : Bool) : Bool :=
  let queue := o.oid / 256 == 0x6101 || o.oid / 256 == 0x8201
  let mine := match s.ownerOf o.oid sel with | some t => t == tenant | none => true
  let right := match o.acc with
    | .rwTenant | .woTenant => true
    | .rwOperator | .rwOperatorDisabled | .woOperator => decide (1 ≤ role)
    | .rwService | .woService => role == 2
    | .ro | .rwTenantReadOnly => false
  if role != 0 then !wr || right
  else if queue then mine && (!wr || right)
  else if wr then right && mine
  else o.acc != .rwTenant || mine

/-! Writes. -/

/-- A write served (R340, R359): a binding object's goes to the stage while one exists. -/
def State.servePut (s : State) (o : Obj) (sel v : Nat) : State :=
  match s.stage with
  | some g =>
    if o.bind then
      (s.setStage (some { g with writes := g.writes ++ [(o.oid, sel, v)] })).setObj O.epochStaged (g.writes.length + 1)
    else s.put o.oid sel v
  | none => s.bindPut o.oid sel v

/-- QUEUE_ENABLE is refused (R268). -/
def State.enableRefused (s : State) (q : Nat) : Bool :=
  let b := s.get O.ringBase q
  let c := s.get O.cplBase q
  let k := s.get O.ringLog2 q
  s.get O.queueState q != 0 || b == 0 || b % 4096 != 0 || c == 0 || c % 4096 != 0 || decide (k < 4) || decide (16 < k) ||
    s.get O.ringAttr q % 4 == 2

/-- An accepted enable (R268). -/
def State.enableQ (s : State) (q : Nat) : State :=
  let s := s.setQueue q { changed := (s.queue q).changed }
  let s := [O.nextSeq, O.tail, O.released, O.acctElements, O.acctMacs, O.acctLaneOps, O.acctBytes, O.acctEnergy, O.acctBells, O.acctLateTolls,
            O.acctDescriptors, O.acctErrors].foldl (fun s o => s.put o q 0) s
  s.put O.queueState q 1

/-- QUEUE_RESET (R267, R269). -/
def State.resetQ (s : State) (q : Nat) : State :=
  let st := s.get O.queueState q
  if st = 0 then s
  else
    let s := ((s.put O.queueState q 2).put O.irqPending q 0).updQueue q (fun x => { x with resetFrom := x.resetFrom || st == 3 })
    let s := s.sweepQ q 0x010B (fun r s => s.askPreempt r.q r.seq true)
    ((s.drainFetched q (s.queue q).fetched.length).endReset q).formResume

/-- EVLOG_ENABLE is refused (R312). -/
def State.evlogRefused (s : State) : Bool :=
  let b := s.obj O.evlogBase
  s.obj O.evlogEnable == 1 || b == 0 || b % 4096 != 0 || s.inWindow b (64 * 2 ^ s.obj O.evlogLog2) || s.obj O.evlogAttr % 4 == 2

/-- The event log is enabled: an entry whose write is outstanding is buffered again (R311, R312). -/
def State.evlogOn (s : State) : State :=
  let s := (match s.evOut with
    | some e => ((s.setEvOut none).setEvbuf (e :: s.evbuf))
    | none => s).giveUp isEvlog
  ((s.setObj O.evlogTail 0).setObj O.evlogHead 0).setObj O.evlogEnable 1

/-- BELL_RESET is refused (R380). -/
def State.bellResetRefused (s : State) : Bool :=
  s.obj O.epochState != 0 || s.obj O.bellResetState != 0 || s.phase != 4 || s.obj O.powerState != 0

/-- PORT_CHECK is refused (R415). -/
def State.checkRefused (s : State) : Bool :=
  let a := s.obj O.portCheckAddr
  s.phase != 4 || s.obj O.portCheckState == 1 || s.inWindow a 8192 || a == 0

/-- PORT_CHECK starts (R415): each serving port writes its pattern. -/
def State.startCheck (s : State) : State :=
  let a := s.obj O.portCheckAddr
  let l := s.ports
  let s := ((s.setCheck (some { addr := a, ports := l })).setObj O.portCheckState 1).setObj O.portCheckFailed 0
  l.foldl (fun s n => s.checkReq a n n true) s

/-- The persistent objects that a role may write, which differ from their defaults or from what the newer copy gives. -/
def State.restoreKeys (s : State) (role : Nat) (vals : SMap Nat) : List (Obj × Nat) :=
  ((s.snapshot.map (·.1)) ++ vals.map (·.1)).eraseDups.filterMap (fun k => match Obj.find (k / 262144) with
    | some o =>
      let may := match o.acc with
        | .rwOperator => decide (1 ≤ role)
        | .rwService => role == 2
        | _ => false
      if o.pers == .nv && may then some (o, k % 262144) else none
    | none => none)

/-- Each object takes its value in `vals`, or its default, as a write served at that point (R363). -/
def State.restoreTo (s : State) (role : Nat) (vals : SMap Nat) : State :=
  (s.restoreKeys role vals).foldl (fun (t : State) (o, n) => t.servePut o n (SMap.look (odfl s.variant o.oid n) vals (okey o.oid n))) s

/-- The read of the NV copy that a RESTORE = 2 served in `s` has started, if it has, meets `n` errors that ECC corrects (R364). -/
def State.restoreErrs (t s : State) (n : Nat) : State :=
  match s.nv.op, t.nv.op with
  | none, some (.restore role _) => t.setNv { t.nv with op := some (.restore role n) }
  | _, _ => t

/-- RESTORE_DONE (R363); errors of the MRAM that it corrected are counted (R364). -/
def State.restoreDone (s : State) : State :=
  match s.nv.op with
  | some (.restore role corrected) =>
    if s.coldHeld || s.warmHeld then s
    else ((s.setNv { s.nv with op := none }).bump O.nvCorrected 0 32 corrected).restoreTo role (copyVals s.nv.copies)
  | _ => s

/-- The write refuses the value or the state (check 14). -/
def State.writeRefused (s : State) (o : Obj) (sel v : Nat) : Bool :=
  let i := o.oid
  let full := match s.stage with | some g => o.bind && decide (4096 ≤ g.writes.length) | none => false
  let disabled := o.acc == .rwOperatorDisabled && (if i / 256 = 0x6101 then s.get O.queueState sel != 0 else s.obj O.evlogEnable != 0)
  let held :=
    if i = O.queueEnable then s.enableRefused sel
    else if i = O.evlogEnable then v == 1 && s.evlogRefused
    else if i = O.epochControl then
      (if v = 1 then s.stage.isSome
       else if v = 2 then !(match s.stage with | some g => g.armed.isNone | none => false) ||
         decide (s.obj O.epochBell < s.bellNo + 2) || decide (s.obj O.epochNext ≤ s.obj O.epochCurrent)
       else false)
    else if i = O.nvRestore then s.stage.isSome
    else if i = O.repairStore then s.mapInvalid (s.obj O.repairMap)
    else if i = O.testCommand then s.testRefused v (s.obj O.testKind) (s.obj O.testUnit)
    else if i = O.bellReset then s.bellResetRefused
    else if i = O.portCheck then s.checkRefused
    else false
  !s.accepts i sel v || full || disabled || held

/-- EPOCH_CONTROL (R340): 1 opens the stage, 2 arms it with EPOCH_NEXT and EPOCH_BELL as they stand, 3 discards it. -/
def State.epochCtl (s : State) (v : Nat) : State :=
  if v = 1 then ((s.setStage (some {})).setObj O.epochState 1).setObj O.epochStaged 0
  else if v = 2 then
    (s.setStage (s.stage.map (fun (g : Stage) => { g with armed := some (s.obj O.epochNext, s.obj O.epochBell) }))).setObj O.epochState 2
  else ((s.setStage none).setObj O.epochState 0).setObj O.epochStaged 0

/-- An invalidation is served (R282): walks of the tenant domain that have begun, and results not yet used, serve their own accesses alone. -/
def State.invalidate (s : State) (tenant tid : Nat) : State :=
  (s.staleWalks (· == tenant)).setInvals (s.invals ++ [{ tenant := tenant, tid := tid }])

/-- What an accepted write does (R359). -/
def State.doWrite (s : State) (o : Obj) (role sel v : Nat) : State :=
  let i := o.oid
  if i = O.archLevelRequest then (s.setObj i v).setObj O.archLevelGranted (min v (s.obj O.archLevelMax))
  else if i = O.queueEnable then s.enableQ sel
  else if i = O.queueReset then s.resetQ sel
  else if i = O.slotReset then s.setHist (SMap.upd {} sel (fun (h : HistRt) => { h with reset := true }) s.hist)
  else if i = O.syncValue then s.setSyncWrites (s.syncWrites ++ [(sel, v)])
  else if i = O.tmapInvalidate then s.invalidate sel v
  else if i = O.tmtDirBase ∨ i = O.tmtDirLog2 ∨ i = O.tmtAttr then (s.put i sel v).invalidate sel 0
  else if i = O.firstFaultClear then (s.setObj O.firstFault 0).setObj O.firstFaultValid 0
  else if i = O.evlogEnable then (if v = 1 then s.evlogOn else s.setObj O.evlogEnable 0)
  else if i = O.evlogIrqAck then s.setObj O.evlogPending 0
  else if i = O.epochControl then
    s.epochCtl v
  else if i = O.nvStore then s.setNv { s.nv with op := some (.store s.snapshot (olderCopy s.nv.copies)) }
  else if i = O.nvRestore then
    (if v = 1 then s.restoreTo role [] else (s.setNv { s.nv with op := some (.restore role 0) }))
  else if i = O.repairStore then s.setNv { s.nv with op := some (.repair (s.obj O.repairMap) (olderCopy s.nv.repair)) }
  else if i = O.testCommand then s.startTest v (s.obj O.testKind) (s.obj O.testUnit) false
  else if i = O.bellReset then s.setObj O.bellResetState 1
  else if i = O.powerRequest then (s.setObj i v).powerAsk
  else if i = O.throttleForce then s.force v
  else if i = O.portCheck then s.startCheck
  else s.servePut o sel (storedValue i v)

/-- Checks 12 to 14 of a write, and its performance. -/
def State.finWrite (s : State) (o : Obj) (role sel v : Nat) : State × Nat :=
  let i := o.oid
  let nv := o.pers == .nv || i == O.nvStore || i == O.nvRestore || i == O.repairStore
  if nv && s.nv.op.isSome then (s, St.busy)
  else if (i = O.nvStore ∧ s.obj O.nvStoreLimit ≤ s.nv.storeCount) ∨ (i = O.repairStore ∧ s.obj O.nvStoreLimit ≤ s.nv.repairCount) then (s, St.nvWear)
  else if s.writeRefused o sel v then (s, St.outOfRange)
  else (s.doWrite o role sel v, St.ok)

/-! Segmented transfers (R356 to R358). -/

def State.segOfReq (s : State) (req : Nat) : Option SegCtx := s.segs.find? (fun c => c.req == req)
def State.dropSeg (s : State) (req : Nat) : State := s.setSegs (s.segs.filter (fun c => c.req != req))

/-- Opens a context, in place of one that the requester holds; none is free when all are in use. -/
def State.openSeg (s : State) (c : SegCtx) : Option State :=
  let t := s.dropSeg c.req
  if s.obj O.segContexts ≤ t.segs.length then none else some (t.setSegs (t.segs ++ [c]))

/-- A SEG_READ of an object that the role may read (R356): the state, the status and the data. The segment with the object's last byte closes the context. -/
def State.segRead (s : State) (o : Obj) (req sel off : Nat) : State × Nat × Nat :=
  let size := o.ty.size
  if off = 0 then
    let snap := s.rdObj o sel
    match s.openSeg { req := req, wr := false, oid := o.oid, sel := sel, data := snap, last := 0, lastData := 0, status := none } with
    | none => (s, St.busy, 0)
    | some t => (if size ≤ 16 then t.dropSeg req else t, St.ok, snap % 2 ^ 128)
  else match s.segOfReq req with
    | none => (s, St.noTransfer, 0)
    | some c =>
      if c.wr || c.oid != o.oid || decide (size ≤ off) then (s, St.noTransfer, 0)
      else (if size ≤ off + 16 then s.dropSeg req else s, St.ok, bits c.data (8 * off) 128)

/-- A segment kept; the one with the object's last byte ends the transfer. -/
def State.segKeep (s : State) (o : Obj) (role : Nat) (c : SegCtx) : State × Nat :=
  if o.ty.size ≤ c.last + 16 then
    let (t, st) := s.finWrite o role c.sel c.data
    (t.setSegs (mapIf (fun x => x.req == c.req) (fun _ => { c with status := some st }) t.segs), st)
  else (s.setSegs (mapIf (fun x => x.req == c.req) (fun _ => c) s.segs), St.ok)

/-- The first segment of a write opens its context. -/
def State.segStart (s : State) (o : Obj) (role req sel v : Nat) : State × Nat :=
  let c : SegCtx := { req := req, wr := true, oid := o.oid, sel := sel, data := v, last := 0, lastData := v, status := none }
  match s.openSeg c with
  | none => (s, St.busy)
  | some t => t.segKeep o role c

/-- A SEG_WRITE of an object that the role may write. -/
def State.segWrite (s : State) (o : Obj) (role req sel off v : Nat) : State × Nat :=
  match s.segOfReq req with
  | none => if off = 0 then s.segStart o role req sel v else (s, St.noTransfer)
  | some c =>
    if !c.wr then (if off = 0 then s.segStart o role req sel v else (s, St.noTransfer))
    else if c.oid = o.oid ∧ c.last = off ∧ c.lastData = v then (s, c.status.getD St.ok)
    else if off = 0 then s.segStart o role req sel v
    else if c.oid = o.oid ∧ off = c.last + 16 ∧ c.status = none ∧ off < o.ty.size then
      s.segKeep o role { c with data := c.data + v * 2 ^ (8 * off), last := off, lastData := v }
    else (s.dropSeg req, St.sequence)

/-! Requests. -/

/-- The form of a request (check 1). -/
def reqMalformed (h : FinfaHead) (op index sub data : Nat) : Bool :=
  op == 0 || decide (6 < op) || decide (2 < h.role) || h.fver != 1 || h.rsv != 0 || (h.role != 0 && h.tenant != 0) ||
    (op == 5 && (index != 0 || sub != 0 || data != 0)) || (op == 6 && data != 0)

/-- Puts a response out and counts it (R348, R370). -/
def State.respond (s : State) (h : FinfaHead) (src op status ty size index sub data : Nat) : State :=
  let ok := status == 0
  let r : FinfaResp := { op := op, fver := h.fver, status := status, ty := if ok then ty else 0, tag := h.tag, src := src, req := h.req, index := index, sub := sub
                         size := if ok then size else 0, segOff := h.segOff, data := if ok then data else 0 }
  let s := (s.setMoOut (s.moOut ++ [r])).bump O.finfaServed 0 32 1
  let s := if ok then s else s.bump O.finfaRefused 0 32 1
  if status = St.wrongInstance then s.bump O.finfaWrongInstance 0 32 1 else s

/-- The selection that a request acts on (R356, R368): a later segment acts on that of its context. -/
def State.selFor (s : State) (o : Obj) (h : FinfaHead) (op : Nat) : Nat :=
  let now := match selectOf o.oid with | some x => s.obj x | none => 0
  if (op = 3 ∨ op = 4) ∧ h.segOff ≠ 0 then
    (match s.segOfReq h.req with
     | some c => if c.oid = o.oid then c.sel else now
     | none => now)
  else now

/-- Checks 6 to 14 of a READ, WRITE, SEG_READ or SEG_WRITE, and its performance. A WRITE with a SEG_OFFSET is refused at check 14, under R11; a READ does not
use the field (DESIGN CHOICE, log 42). -/
def State.perform (s : State) (h : FinfaHead) (op : Nat) (o : Obj) (data : Nat) : State × Nat × Nat :=
  let wr := op == 2 || op == 4
  let size := o.ty.size
  let sel := s.selFor o h op
  let room := if op = 4 then min 16 (size - h.segOff) else size
  if (op = 1 ∨ op = 2) ∧ 16 < size then (s, St.needsSegmented, 0)
  else if wr && o.acc.readOnly then (s, St.notWritable, 0)
  else if !s.allowed o sel h.role h.tenant wr then (s, St.accessDenied, 0)
  else if wr && decide (2 ^ (8 * room) ≤ data) then (s, St.malformed, 0)
  else match op with
    | 1 => (s, St.ok, s.rdObj o sel)
    | 2 =>
      let (t, st) := s.finWrite o h.role sel data
      if st = St.ok ∧ h.segOff ≠ 0 then (s, St.outOfRange, 0) else (t, st, 0)
    | 3 => s.segRead o h.req sel h.segOff
    | _ => let (t, st) := s.segWrite o h.role h.req sel h.segOff data; (t, st, 0)

/-- A request that reaches the dictionary is checked in the order of Table 13.6, performed, and answered (R346 to R352). -/
def State.answer (s : State) (h : FinfaHead) (op index sub data : Nat) : State :=
  let src := s.obj O.instanceId
  let no := fun (st : Nat) => s.respond h src op st 0 0 index sub 0
  if reqMalformed h op index sub data then no St.malformed
  else if h.dst ≠ src then no St.wrongInstance
  else if (!s.loaded || s.obj O.powerState == 3) && !(s.testMode && op == 1 && index == 0xA000) then no St.notReady
  else if s.stopped && !(((op == 1 || op == 3) && readableStopped index sub) || op == 5 || (op == 2 && index == 0x8020 && sub == 0)) then no St.blockStopped
  else if op = 5 then
    (match s.segOfReq h.req with
     | none => no St.noTransfer
     | some _ => (s.dropSeg h.req).respond h src op St.ok 0 0 index sub 0)
  else if op = 6 then
    (match Obj.next h.role (index * 256 + sub) with
     | none => no St.noSuchObject
     | some o => s.respond h src op St.ok o.ty.code o.ty.size (o.oid / 256) (o.oid % 256) 0)
  else match (Obj.find (index * 256 + sub)).filter (·.visible h.role) with
    | none => no St.noSuchObject
    | some o =>
      let (t, st, d) := s.perform h op o data
      t.respond h src op st o.ty.code o.ty.size index sub d

/-- One Finfa request. While a reset is held, what arrives is discarded (R396). Where the checks on the dictionary itself fail for good, the block stops
before the request is answered (R300, R371). -/
def State.serve (s : State) (h : FinfaHead) (op index sub data : Nat) : State :=
  if s.deaf then s
  else (if s.stopped then s else s.singular 11 0x0908 h.chk).answer h op index sub data

/-- A WRITE to one object. -/
def State.serveWrite (s : State) (h : FinfaHead) (oid v : Nat) : State := s.serve h 2 (oid / 256) (oid % 256) v

/-- SEG_TIMEOUT (R358). -/
def State.segTimeout (s : State) (req : Nat) : State := s.dropSeg req

/-- TMAP_INV_DONE (R282): the oldest invalidation completes, once every access that a walk begun before it serves has been issued. -/
def State.invDone (s : State) : State :=
  match s.invals with
  | [] => s
  | v :: l =>
    if s.staleLeft v.tenant then s else
    let hit := fun (e : TwigEntry) => e.tenant == v.tenant && (v.tid == 0 || e.tid == v.tid || e.ent.base == v.tid)
    ((s.setInvals l).setTwigs (s.twigs.filter (fun e => !hit e))).bump O.tmapInvDone v.tenant 32 1

end Sys2Proof.Machine
end

