-- ==== Sys2Proof/Machine/Finfa.lean ====
section
/-! DEFINITION. The management port (R346 to R370, R401): requests by operation, and the writes to objects that have an effect of their own, each a
WRITE request served under the checks of R352. -/

namespace Sys2Proof.Machine

/-! Requests by operation (Table 13.3). -/

/-- READ (R349). -/
def execFinfaRead (h : FinfaHead) (index sub : Nat) (s : State) : Host.Outcome State Fault Refusal := .next (s.serve h 1 index sub 0)

/-- WRITE (R359). -/
def execFinfaWrite (h : FinfaHead) (index sub v : Nat) (s : State) : Host.Outcome State Fault Refusal := .next (s.serve h 2 index sub v)

/-- SEG_READ (R356). -/
def execSegRead (h : FinfaHead) (index sub : Nat) (s : State) : Host.Outcome State Fault Refusal := .next (s.serve h 3 index sub 0)

/-- SEG_WRITE (R357). -/
def execSegWrite (h : FinfaHead) (index sub v : Nat) (s : State) : Host.Outcome State Fault Refusal := .next (s.serve h 4 index sub v)

/-- ABORT (R358). -/
def execAbort (h : FinfaHead) (index sub v : Nat) (s : State) : Host.Outcome State Fault Refusal := .next (s.serve h 5 index sub v)

/-- NEXT (R360). -/
def execFinfaNext (h : FinfaHead) (index sub v : Nat) (s : State) : Host.Outcome State Fault Refusal := .next (s.serve h 6 index sub v)

/-- MALFORMED (R347, R352): a request as its four beats carry it, whose form the first check refuses. -/
def execMalformed (b0 b1 b2 b3 : Nat) (chk : Chk) (s : State) : Host.Outcome State Fault Refusal :=
  let r := FinfaReq.ofBeats [b0, b1, b2, b3]
  .next (s.serve { r.head with chk := chk } r.op r.index r.sub r.data)

/-- FINFA_PACKET_DISCARD (R401): a cut packet counts in FINFA_REFUSED; while a reset is held what arrives is discarded (R396). -/
def execFinfaPacketDiscard (s : State) : Host.Outcome State Fault Refusal :=
  .next (if s.deaf then s else s.bump O.finfaRefused 0 32 1)

/-- SEG_TIMEOUT (R358). -/
def execSegTimeout (requester : Nat) (s : State) : Host.Outcome State Fault Refusal := .next (s.segTimeout requester)

/-! Writes that act. -/

/-- ARCH_LEVEL_REQUEST (R6). -/
def execArchLevelRequest (h : FinfaHead) (v : Nat) (s : State) : Host.Outcome State Fault Refusal := .next (s.serveWrite h O.archLevelRequest v)

/-- QUEUE_ENABLE (R268). -/
def execQueueEnable (h : FinfaHead) (v : Nat) (s : State) : Host.Outcome State Fault Refusal := .next (s.serveWrite h O.queueEnable v)

/-- QUEUE_RESET (R267, R269). -/
def execQueueReset (h : FinfaHead) (v : Nat) (s : State) : Host.Outcome State Fault Refusal := .next (s.serveWrite h O.queueReset v)

/-- SLOT_RESET (R67). -/
def execSlotReset (h : FinfaHead) (v : Nat) (s : State) : Host.Outcome State Fault Refusal := .next (s.serveWrite h O.slotReset v)

/-- OWNER of a history slot (R67). -/
def execHistOwner (h : FinfaHead) (v : Nat) (s : State) : Host.Outcome State Fault Refusal := .next (s.serveWrite h O.histOwner v)

/-- SYNC_VALUE (R260). -/
def execSyncValue (h : FinfaHead) (v : Nat) (s : State) : Host.Outcome State Fault Refusal := .next (s.serveWrite h O.syncValue v)

/-- TMAP_INVALIDATE (R282). -/
def execTmapInvalidate (h : FinfaHead) (v : Nat) (s : State) : Host.Outcome State Fault Refusal := .next (s.serveWrite h O.tmapInvalidate v)

/-- INSTANCE_ID (R359). -/
def execInstanceId (h : FinfaHead) (v : Nat) (s : State) : Host.Outcome State Fault Refusal := .next (s.serveWrite h O.instanceId v)

/-- FIRST_FAULT_CLEAR (R315). -/
def execFirstFaultClear (h : FinfaHead) (v : Nat) (s : State) : Host.Outcome State Fault Refusal := .next (s.serveWrite h O.firstFaultClear v)

/-- EVLOG_ENABLE (R312). -/
def execEvlogEnable (h : FinfaHead) (v : Nat) (s : State) : Host.Outcome State Fault Refusal := .next (s.serveWrite h O.evlogEnable v)

/-- EVLOG_HEAD (R311). -/
def execEvlogHead (h : FinfaHead) (v : Nat) (s : State) : Host.Outcome State Fault Refusal := .next (s.serveWrite h O.evlogHead v)

/-- EVLOG_IRQ_ACK (R313). -/
def execEvlogIrqAck (h : FinfaHead) (v : Nat) (s : State) : Host.Outcome State Fault Refusal := .next (s.serveWrite h O.evlogIrqAck v)

/-- NAN_TRAP_MODE (R316). -/
def execNanTrapMode (h : FinfaHead) (v : Nat) (s : State) : Host.Outcome State Fault Refusal := .next (s.serveWrite h O.nanTrapMode v)

/-- STORE (R362). -/
def execNvStore (h : FinfaHead) (v : Nat) (s : State) : Host.Outcome State Fault Refusal := .next (s.serveWrite h O.nvStore v)

/-- REPAIR_STORE (R388). -/
def execRepairStore (h : FinfaHead) (v : Nat) (s : State) : Host.Outcome State Fault Refusal := .next (s.serveWrite h O.repairStore v)

/-- BELL_RESET (R380). -/
def execBellReset (h : FinfaHead) (v : Nat) (s : State) : Host.Outcome State Fault Refusal := .next (s.serveWrite h O.bellReset v)

/-- POWER_REQUEST (R381). -/
def execPowerRequest (h : FinfaHead) (v : Nat) (s : State) : Host.Outcome State Fault Refusal := .next (s.serveWrite h O.powerRequest v)

/-- PORT_CHECK (R415). -/
def execPortCheck (h : FinfaHead) (v : Nat) (s : State) : Host.Outcome State Fault Refusal := .next (s.serveWrite h O.portCheck v)

/-- THROTTLE_FORCE (R384). -/
def execThrottleForce (h : FinfaHead) (v : Nat) (s : State) : Host.Outcome State Fault Refusal := .next (s.serveWrite h O.throttleForce v)

/-- EPOCH_CONTROL = 1 (R340). -/
def execEpochOpen (h : FinfaHead) (s : State) : Host.Outcome State Fault Refusal := .next (s.serveWrite h O.epochControl 1)

/-- EPOCH_CONTROL = 2 (R340). -/
def execEpochArm (h : FinfaHead) (s : State) : Host.Outcome State Fault Refusal := .next (s.serveWrite h O.epochControl 2)

/-- EPOCH_CONTROL = 3 (R340). -/
def execEpochAbort (h : FinfaHead) (s : State) : Host.Outcome State Fault Refusal := .next (s.serveWrite h O.epochControl 3)

/-- RESTORE = 1 (R363). -/
def execRestoreDefaults (h : FinfaHead) (s : State) : Host.Outcome State Fault Refusal := .next (s.serveWrite h O.nvRestore 1)

/-- RESTORE = 2 (R363). -/
def execRestoreNv (r : NvRead) (s : State) : Host.Outcome State Fault Refusal := .next ((s.serveWrite r.h O.nvRestore 2).restoreErrs s r.corrected)

/-- TEST_COMMAND = 1, TEST (R318). -/
def execTest (h : FinfaHead) (s : State) : Host.Outcome State Fault Refusal := .next (s.serveWrite h O.testCommand 1)

/-- TEST_COMMAND = 2, HOLD (R318). -/
def execTestHold (h : FinfaHead) (s : State) : Host.Outcome State Fault Refusal := .next (s.serveWrite h O.testCommand 2)

/-- TEST_COMMAND = 3, RETURN (R318). -/
def execTestReturn (h : FinfaHead) (s : State) : Host.Outcome State Fault Refusal := .next (s.serveWrite h O.testCommand 3)

/-- The object that a write of R282 names. -/
def tmtOid (o : TmtObj) : Nat := match o with | .dirBase => O.tmtDirBase | .dirLog2 => O.tmtDirLog2 | .attr => O.tmtAttr

/-- TMT_DIR_BASE, TMT_DIR_LOG2 and TMT_ATTR (R282). -/
def execTmtDirBase (h : FinfaHead) (o : TmtObj) (v : Nat) (s : State) : Host.Outcome State Fault Refusal := .next (s.serveWrite h (tmtOid o) v)

/-- DEVWIN_BASE and DEVWIN_SIZE of window `n` (R279, R282). -/
def execDevwinBase (h : FinfaHead) (size : Bool) (n v : Nat) (s : State) : Host.Outcome State Fault Refusal :=
  .next (s.serveWrite h (if size then O.devwinSize n else O.devwinBase n) v)

/-! What started writes come to. -/

/-- TMAP_INV_DONE (R282). -/
def execTmapInvDone (s : State) : Host.Outcome State Fault Refusal := .next s.invDone

/-- NV_STORE_DONE (R362). -/
def execNvStoreDone (pass : Bool) (s : State) : Host.Outcome State Fault Refusal := .next (s.storeDone pass)

/-- REPAIR_STORE_DONE (R388). -/
def execRepairStoreDone (pass : Bool) (s : State) : Host.Outcome State Fault Refusal := .next (s.repairDone pass)

/-- RESTORE_DONE (R363). -/
def execRestoreDone (s : State) : Host.Outcome State Fault Refusal := .next s.restoreDone

end Sys2Proof.Machine
end

