-- ==== Sys2Proof/Machine/LanternScalar.lean ====
section
/-! DEFINITION. Scalar and control instructions of the Lantern (Table 7.6), and words of no opcode (R183). -/

namespace Sys2Proof

/-- SLI: SD ← IMM, sign-extended (R184). -/
def Lan.sli (f : SF) (c : LCtx) (l : Lan) : LRes := l.sop c vI f f.simm

/-- SLIH: SD[63:32] ← IMM (R184). -/
def Lan.slih (f : SF) (c : LCtx) (l : Lan) : LRes := l.sop c vI f (l.sget f.sd % 2 ^ 32 + f.imm * 2 ^ 32)

/-- SADDI: SD ← SA + IMM, sign-extended, modulo 2^64 (R186). -/
def Lan.saddi (f : SF) (c : LCtx) (l : Lan) : LRes := l.sop c (vA ||| vI) f ((l.sget f.sa + f.simm) % 2 ^ 64)

/-- SADD: SD ← SA + SB modulo 2^64 (R186). -/
def Lan.sadd (f : SF) (c : LCtx) (l : Lan) : LRes := l.sop c (vA ||| vB) f ((l.sget f.sa + l.sget f.sb) % 2 ^ 64)

/-- SSUB: SD ← SA − SB modulo 2^64 (R186). -/
def Lan.ssub (f : SF) (c : LCtx) (l : Lan) : LRes := l.sop c (vA ||| vB) f ((l.sget f.sa + 2 ^ 64 - l.sget f.sb) % 2 ^ 64)

/-- SMUL: SD ← the low 64 bits of SA × SB (R186). -/
def Lan.smul (f : SF) (c : LCtx) (l : Lan) : LRes := l.sop c (vA ||| vB) f (l.sget f.sa * l.sget f.sb % 2 ^ 64)

/-- SSHL: SD ← SA << IMM[5:0] (R186). -/
def Lan.sshl (f : SF) (c : LCtx) (l : Lan) : LRes := l.sop c (vA ||| vI) f (l.sget f.sa <<< (f.imm % 64) % 2 ^ 64)

/-- SSHR: SD ← SA >> IMM[5:0], logical (R186). -/
def Lan.sshr (f : SF) (c : LCtx) (l : Lan) : LRes := l.sop c (vA ||| vI) f (l.sget f.sa >>> (f.imm % 64))

/-- SFADD: SD ← SA + SB in FP32 (R185). -/
def Lan.sfadd (f : SF) (c : LCtx) (l : Lan) : LRes := l.sfp c vB f [l.sfa f, l.sfb f] (Val.add (l.sfa f) (l.sfb f))

/-- SFSUB: SD ← SA − SB in FP32 (R185). -/
def Lan.sfsub (f : SF) (c : LCtx) (l : Lan) : LRes := l.sfp c vB f [l.sfa f, l.sfb f] (Val.sub (l.sfa f) (l.sfb f))

/-- SFMUL: SD ← SA × SB in FP32 (R185). -/
def Lan.sfmul (f : SF) (c : LCtx) (l : Lan) : LRes := l.sfp c vB f [l.sfa f, l.sfb f] (Val.mul (l.sfa f) (l.sfb f))

/-- SFDIV: SD ← SA / SB in FP32, with DIVZERO (R185). -/
def Lan.sfdiv (f : SF) (c : LCtx) (l : Lan) : LRes := l.sfp c vB f [l.sfa f, l.sfb f] (Val.div (l.sfa f) (l.sfb f)) (isDivz (l.sfa f) (l.sfb f))

/-- SFSQRT: SD ← √SA in FP32 (R185). -/
def Lan.sfsqrt (f : SF) (c : LCtx) (l : Lan) : LRes := l.sfp c 0 f [l.sfa f] (Val.sqrt (l.sfa f))

/-- SSEL: SD ← SA when M[MS] bit 0 is set, else SB (R184). -/
def Lan.ssel (f : SF) (c : LCtx) (l : Lan) : LRes := l.sop c (vA ||| vB ||| vMS) f (if l.mbit f.ms 0 then l.sget f.sa else l.sget f.sb)

/-- SETVL: VL ← SA (R184). -/
def Lan.setvl (f : SF) (c : LCtx) (l : Lan) : LRes := l.setvlTo c vA f (l.sget f.sa)

/-- SETVLI: VL ← IMM (R184). -/
def Lan.setvli (f : SF) (c : LCtx) (l : Lan) : LRes := l.setvlTo c vI f f.imm

/-- MODER: SD ← MODE, zero-extended (R184). -/
def Lan.moder (f : SF) (c : LCtx) (l : Lan) : LRes := l.sop c 0 f l.mode.toNat

/-- NOP (R184). -/
def Lan.nopOp (f : SF) (c : LCtx) (l : Lan) : LRes := scaOp c 0 f true l

end Sys2Proof

namespace Sys2Proof.Machine

/-- SLI: SD ← IMM, sign-extended (R184). -/
def execSli (i : LIss) (f : SF) (s : State) : Host.Outcome State Fault Refusal := .next (s.onLan (.sli i f) i (s.lanS i (Lan.sli f)))

/-- SLIH: SD[63:32] ← IMM (R184). -/
def execSlih (i : LIss) (f : SF) (s : State) : Host.Outcome State Fault Refusal := .next (s.onLan (.slih i f) i (s.lanS i (Lan.slih f)))

/-- SADDI: SD ← SA + IMM, sign-extended, modulo 2^64 (R186). -/
def execSaddi (i : LIss) (f : SF) (s : State) : Host.Outcome State Fault Refusal := .next (s.onLan (.saddi i f) i (s.lanS i (Lan.saddi f)))

/-- SADD: SD ← SA + SB modulo 2^64 (R186). -/
def execSadd (i : LIss) (f : SF) (s : State) : Host.Outcome State Fault Refusal := .next (s.onLan (.sadd i f) i (s.lanS i (Lan.sadd f)))

/-- SSUB: SD ← SA − SB modulo 2^64 (R186). -/
def execSsub (i : LIss) (f : SF) (s : State) : Host.Outcome State Fault Refusal := .next (s.onLan (.ssub i f) i (s.lanS i (Lan.ssub f)))

/-- SMUL: SD ← the low 64 bits of SA × SB (R186). -/
def execSmul (i : LIss) (f : SF) (s : State) : Host.Outcome State Fault Refusal := .next (s.onLan (.smul i f) i (s.lanS i (Lan.smul f)))

/-- SSHL: SD ← SA << IMM[5:0] (R186). -/
def execSshl (i : LIss) (f : SF) (s : State) : Host.Outcome State Fault Refusal := .next (s.onLan (.sshl i f) i (s.lanS i (Lan.sshl f)))

/-- SSHR: SD ← SA >> IMM[5:0], logical (R186). -/
def execSshr (i : LIss) (f : SF) (s : State) : Host.Outcome State Fault Refusal := .next (s.onLan (.sshr i f) i (s.lanS i (Lan.sshr f)))

/-- SFADD: SD ← SA + SB in FP32 (R185). -/
def execSfadd (i : LIss) (f : SF) (s : State) : Host.Outcome State Fault Refusal := .next (s.onLan (.sfadd i f) i (s.lanS i (Lan.sfadd f)))

/-- SFSUB: SD ← SA − SB in FP32 (R185). -/
def execSfsub (i : LIss) (f : SF) (s : State) : Host.Outcome State Fault Refusal := .next (s.onLan (.sfsub i f) i (s.lanS i (Lan.sfsub f)))

/-- SFMUL: SD ← SA × SB in FP32 (R185). -/
def execSfmul (i : LIss) (f : SF) (s : State) : Host.Outcome State Fault Refusal := .next (s.onLan (.sfmul i f) i (s.lanS i (Lan.sfmul f)))

/-- SFDIV: SD ← SA / SB in FP32, with DIVZERO (R185). -/
def execSfdiv (i : LIss) (f : SF) (s : State) : Host.Outcome State Fault Refusal := .next (s.onLan (.sfdiv i f) i (s.lanS i (Lan.sfdiv f)))

/-- SFSQRT: SD ← √SA in FP32 (R185). -/
def execSfsqrt (i : LIss) (f : SF) (s : State) : Host.Outcome State Fault Refusal := .next (s.onLan (.sfsqrt i f) i (s.lanSqrt i (fun _ => 1) (fun l => [l.sget f.sa % 2 ^ 32]) (Lan.sfsqrt f)))

/-- SCMPM (R184). -/
def execScmpm (i : LIss) (f : SF) (s : State) : Host.Outcome State Fault Refusal := .next (s.onLan (.scmpm i f) i (s.lanS i (fun c l => l.scmpm c f)))

/-- SSEL: SD ← SA when M[MS] bit 0 is set, else SB (R184). -/
def execSsel (i : LIss) (f : SF) (s : State) : Host.Outcome State Fault Refusal := .next (s.onLan (.ssel i f) i (s.lanS i (Lan.ssel f)))

/-- RDP (R192). -/
def execRdp (i : LIss) (f : SF) (s : State) : Host.Outcome State Fault Refusal := .next (s.onLan (.rdp i f) i (s.lanDo i (fun _ => 1) (State.rdpOp f i.l)))

/-- SETVL: VL ← SA (R184). -/
def execSetvl (i : LIss) (f : SF) (s : State) : Host.Outcome State Fault Refusal := .next (s.onLan (.setvl i f) i (s.lanS i (Lan.setvl f)))

/-- SETVLI: VL ← IMM (R184). -/
def execSetvli (i : LIss) (f : SF) (s : State) : Host.Outcome State Fault Refusal := .next (s.onLan (.setvli i f) i (s.lanS i (Lan.setvli f)))

/-- MODEW (R206). -/
def execModew (i : LIss) (f : SF) (s : State) : Host.Outcome State Fault Refusal := .next (s.onLan (.modew i f) i (s.lanS i (fun c l => l.modew c f)))

/-- MODER: SD ← MODE, zero-extended (R184). -/
def execModer (i : LIss) (f : SF) (s : State) : Host.Outcome State Fault Refusal := .next (s.onLan (.moder i f) i (s.lanS i (Lan.moder f)))

/-- LOOP (R198). -/
def execLoop (i : LIss) (f : SF) (s : State) : Host.Outcome State Fault Refusal := .next (s.onLan (.loop i f) i (s.lanS i (fun c l => l.loopOp c f)))

/-- ENDLOOP reached as an instruction is illegal (R198). -/
def execEndloop (i : LIss) (f : SF) (s : State) : Host.Outcome State Fault Refusal := .next (s.onLan (.endloop i f) i (s.lanS i (fun _ _ => .exc 1 0)))

/-- BRK (R199). -/
def execBrk (i : LIss) (f : SF) (s : State) : Host.Outcome State Fault Refusal := .next (s.onLan (.brk i f) i (s.lanS i (fun c l => l.brkOp c f)))

/-- BOUNDARY (R200). -/
def execBoundary (i : LIss) (f : SF) (s : State) : Host.Outcome State Fault Refusal := .next (s.onLan (.boundary i f) i (s.lanDo i (fun _ => 1) (State.boundaryOp f i.l)))

/-- BAR (R201). -/
def execBar (i : LIss) (f : SF) (s : State) : Host.Outcome State Fault Refusal := .next (s.onLan (.bar i f) i (s.lanDo i (fun _ => 1) (State.barOp f i.l)))

/-- SCHED (R202). -/
def execSched (i : LIss) (f : SF) (s : State) : Host.Outcome State Fault Refusal := .next (s.onLan (.sched i f) i (s.lanDo i (fun _ => 1) (State.schedOp f i.l)))

/-- RET (R202). -/
def execLnRet (i : LIss) (f : SF) (s : State) : Host.Outcome State Fault Refusal := .next (s.onLan (.lnRet i f) i (s.lanDo i (fun _ => 1) (State.retOp f i.l)))

/-- PIVF (R202). -/
def execPivf (i : LIss) (f : SF) (s : State) : Host.Outcome State Fault Refusal := .next (s.onLan (.pivf i f) i (s.lanDo i (fun _ => 1) (State.pivfOp f i.l)))

/-- END (R201). -/
def execLnEnd (i : LIss) (f : SF) (s : State) : Host.Outcome State Fault Refusal := .next (s.onLan (.lnEnd i f) i (s.lanDo i (fun _ => 1) (State.endOp f i.l)))

/-- STOP (R201). -/
def execLnStop (i : LIss) (f : SF) (s : State) : Host.Outcome State Fault Refusal := .next (s.onLan (.lnStop i f) i (s.lanDo i (fun _ => 1) (State.stopOp f i.l)))

/-- ASTR (R203). -/
def execAstr (i : LIss) (f : SF) (s : State) : Host.Outcome State Fault Refusal := .next (s.onLan (.astr i f) i (s.lanDo i (fun _ => 1) (State.astrOp f i.l)))

/-- AISS (R204). -/
def execAiss (i : LIss) (f : SF) (s : State) : Host.Outcome State Fault Refusal := .next (s.onLan (.aiss i f) i (s.lanDo i (fun _ => 1) (State.aissOp f i.l)))

/-- AWAIT (R204). -/
def execAwait (i : LIss) (f : SF) (s : State) : Host.Outcome State Fault Refusal := .next (s.onLan (.await i f) i (s.lanDo i (fun _ => 1) (State.awaitOp f i.l)))

/-- AFLG (R204). -/
def execAflg (i : LIss) (f : SF) (s : State) : Host.Outcome State Fault Refusal := .next (s.onLan (.aflg i f) i (s.lanDo i (fun _ => 1) (State.aflgOp f i.l)))

/-- NOP (R184). -/
def execLnNop (i : LIss) (f : SF) (s : State) : Host.Outcome State Fault Refusal := .next (s.onLan (.lnNop i f) i (s.lanS i (Lan.nopOp f)))

/-- A word whose opcode the tables do not name raises the exception. -/
def State.badWord (s : State) (_ : Rout) (_ : Image) (_ : LCtx) (_ : Lan) : LEff := illegal s

/-- F_LANTERN_ILLEGAL (R183). -/
def execFLanternIllegal (i : LIss) (word : Nat) (s : State) : Host.Outcome State Fault Refusal := .next (s.onLan (.fLanternIllegal i word) i (s.lanDo i (fun _ => 1) State.badWord))

end Sys2Proof.Machine
end

