-- ==== Sys2Proof/Machine/LanternVec.lean ====
section
/-! DEFINITION. Vector instructions of the Lantern (Table 7.5). -/

namespace Sys2Proof

/-- VADD: D ← A + B (R185). -/
def Lan.vadd (f : VF) (c : LCtx) (l : Lan) : LRes :=
  l.fpV c (uA ||| uB) f (fun e => [l.fa f e, l.fb f e]) (fun e => Val.add (l.fa f e) (l.fb f e))

/-- VSUB: D ← A − B (R185). -/
def Lan.vsub (f : VF) (c : LCtx) (l : Lan) : LRes :=
  l.fpV c (uA ||| uB) f (fun e => [l.fa f e, l.fb f e]) (fun e => Val.sub (l.fa f e) (l.fb f e))

/-- VMUL: D ← A × B (R185). -/
def Lan.vmul (f : VF) (c : LCtx) (l : Lan) : LRes :=
  l.fpV c (uA ||| uB) f (fun e => [l.fa f e, l.fb f e]) (fun e => Val.mul (l.fa f e) (l.fb f e))

/-- VFMA: D ← A × B + C with one rounding (R185). -/
def Lan.vfma (f : VF) (c : LCtx) (l : Lan) : LRes :=
  l.fpV c (uA ||| uB ||| uC) f (fun e => [l.fa f e, l.fb f e, l.fc f e]) (fun e => Val.add (Val.mul (l.fa f e) (l.fb f e)) (l.fc f e))

/-- VDIV: D ← A / B, with DIVZERO (R185). -/
def Lan.vdiv (f : VF) (c : LCtx) (l : Lan) : LRes :=
  l.fpV c (uA ||| uB) f (fun e => [l.fa f e, l.fb f e]) (fun e => Val.div (l.fa f e) (l.fb f e)) (fun e => isDivz (l.fa f e) (l.fb f e))

/-- VSQRT: D ← √A (R185). -/
def Lan.vsqrt (f : VF) (c : LCtx) (l : Lan) : LRes :=
  l.fpV c uA f (fun e => [l.fa f e]) (fun e => Val.sqrt (l.fa f e))

/-- VMIN: D ← minimum(A, B) (R185). -/
def Lan.vmin (f : VF) (c : LCtx) (l : Lan) : LRes :=
  l.fpV c (uA ||| uB) f (fun e => [l.fa f e, l.fb f e]) (fun e => Val.min2 (l.fa f e) (l.fb f e))

/-- VMAX: D ← maximum(A, B) (R185). -/
def Lan.vmax (f : VF) (c : LCtx) (l : Lan) : LRes :=
  l.fpV c (uA ||| uB) f (fun e => [l.fa f e, l.fb f e]) (fun e => Val.max2 (l.fa f e) (l.fb f e))

/-- VABS: D ← A with bit 31 cleared (R185). -/
def Lan.vabs (f : VF) (c : LCtx) (l : Lan) : LRes :=
  l.intV c uA f (fun e => l.vget f.a e % 2 ^ 31)

/-- VNEG: D ← A with bit 31 inverted (R185). -/
def Lan.vneg (f : VF) (c : LCtx) (l : Lan) : LRes :=
  l.intV c uA f (fun e => l.vget f.a e ^^^ 2 ^ 31)

/-- VADDS: D ← A + S[SA] (R185). -/
def Lan.vadds (f : VF) (c : LCtx) (l : Lan) : LRes :=
  l.fpV c (uA ||| uSA) f (fun e => [l.fa f e, l.fs f]) (fun e => Val.add (l.fa f e) (l.fs f))

/-- VMULS: D ← A × S[SA] (R185). -/
def Lan.vmuls (f : VF) (c : LCtx) (l : Lan) : LRes :=
  l.fpV c (uA ||| uSA) f (fun e => [l.fa f e, l.fs f]) (fun e => Val.mul (l.fa f e) (l.fs f))

/-- VFMAS: D ← A × S[SA] + C with one rounding (R185). -/
def Lan.vfmas (f : VF) (c : LCtx) (l : Lan) : LRes :=
  l.fpV c (uA ||| uC ||| uSA) f (fun e => [l.fa f e, l.fc f e, l.fs f]) (fun e => Val.add (Val.mul (l.fa f e) (l.fs f)) (l.fc f e))

/-- VIADD: D ← A + B as INT32, wrapping (R186). -/
def Lan.viadd (f : VF) (c : LCtx) (l : Lan) : LRes :=
  l.intV c (uA ||| uB) f (fun e => trunc2 32 (l.ia f e + l.ib f e))

/-- VISUB: D ← A − B as INT32, wrapping (R186). -/
def Lan.visub (f : VF) (c : LCtx) (l : Lan) : LRes :=
  l.intV c (uA ||| uB) f (fun e => trunc2 32 (l.ia f e - l.ib f e))

/-- VIMUL: D ← the low 32 bits of A × B (R186). -/
def Lan.vimul (f : VF) (c : LCtx) (l : Lan) : LRes :=
  l.intV c (uA ||| uB) f (fun e => trunc2 32 (l.ia f e * l.ib f e))

/-- VIADDSAT: D ← A + B clamped to the INT32 range (R186). -/
def Lan.viaddsat (f : VF) (c : LCtx) (l : Lan) : LRes :=
  l.intV c (uA ||| uB) f (fun e => trunc2 32 (clampI (-(2 ^ 31)) (2 ^ 31 - 1) (l.ia f e + l.ib f e)).1)

/-- VAND: D ← A AND B (R186). -/
def Lan.vand (f : VF) (c : LCtx) (l : Lan) : LRes :=
  l.intV c (uA ||| uB) f (fun e => l.vget f.a e &&& l.vget f.b e)

/-- VOR: D ← A OR B (R186). -/
def Lan.vor (f : VF) (c : LCtx) (l : Lan) : LRes :=
  l.intV c (uA ||| uB) f (fun e => l.vget f.a e ||| l.vget f.b e)

/-- VXOR: D ← A XOR B (R186). -/
def Lan.vxor (f : VF) (c : LCtx) (l : Lan) : LRes :=
  l.intV c (uA ||| uB) f (fun e => l.vget f.a e ^^^ l.vget f.b e)

/-- VSHL: D ← A << S[SA][4:0] (R186). -/
def Lan.vshl (f : VF) (c : LCtx) (l : Lan) : LRes :=
  l.intV c (uA ||| uSA) f (fun e => l.vget f.a e <<< (l.sget f.sa % 32) % 2 ^ 32)

/-- VSRA: D ← A >> S[SA][4:0], arithmetic (R186). -/
def Lan.vsra (f : VF) (c : LCtx) (l : Lan) : LRes :=
  l.intV c (uA ||| uSA) f (fun e => trunc2 32 (l.ia f e / (2 ^ (l.sget f.sa % 32) : Nat)))

/-- VSRL: D ← A >> S[SA][4:0], logical (R186). -/
def Lan.vsrl (f : VF) (c : LCtx) (l : Lan) : LRes :=
  l.intV c (uA ||| uSA) f (fun e => l.vget f.a e >>> (l.sget f.sa % 32))

/-- VIOTA: D ← S[SA][31:0] + e, wrapping (R184). -/
def Lan.viota (f : VF) (c : LCtx) (l : Lan) : LRes :=
  l.intV c uSA f (fun e => (l.sget f.sa + e) % 2 ^ 32)

/-- VMOV: D ← A (R184). -/
def Lan.vmov (f : VF) (c : LCtx) (l : Lan) : LRes :=
  l.intV c uA f (fun e => l.vget f.a e)

/-- VBCAST: D ← S[SA][31:0] (R184). -/
def Lan.vbcast (f : VF) (c : LCtx) (l : Lan) : LRes :=
  l.intV c uSA f (fun _ => l.sget f.sa % 2 ^ 32)

/-- MAND: M[D] ← M[A] AND M[B], bits below n (R184). -/
def Lan.mand (f : VF) (c : LCtx) (l : Lan) : LRes :=
  l.mop c uB f (fun e => l.mbit f.a e && l.mbit f.b e)

/-- MOR: M[D] ← M[A] OR M[B], bits below n (R184). -/
def Lan.mor (f : VF) (c : LCtx) (l : Lan) : LRes :=
  l.mop c uB f (fun e => l.mbit f.a e || l.mbit f.b e)

/-- MNOT: M[D] ← NOT M[A], bits below n (R184). -/
def Lan.mnot (f : VF) (c : LCtx) (l : Lan) : LRes :=
  l.mop c 0 f (fun e => !l.mbit f.a e)

/-- VRSUM: TREE of RNE additions (R193). -/
def Lan.vrsum (f : VF) (c : LCtx) (l : Lan) : LRes :=
  l.redV c 0 f (addNode l.strict) (fun e => (l.vget f.a e, 0)) (·.1) (·.2) 0

/-- VRMAX: TREE of maximum (R193). -/
def Lan.vrmax (f : VF) (c : LCtx) (l : Lan) : LRes :=
  l.redV c 0 f (maxNode l.strict) (fun e => (l.vget f.a e, 0)) (·.1) (·.2) 0xFF800000

/-- VRMIN: TREE of minimum (R193). -/
def Lan.vrmin (f : VF) (c : LCtx) (l : Lan) : LRes :=
  l.redV c 0 f (minNode l.strict) (fun e => (l.vget f.a e, 0)) (·.1) (·.2) 0x7F800000

/-- VRCSUM: TREE of PAIRADD over the pairs (A, B); the value in [31:0], the error in [63:32] (R195). -/
def Lan.vrcsum (f : VF) (c : LCtx) (l : Lan) : LRes :=
  l.redV c uB f pairNode (fun e => ((l.vget f.a e, l.vget f.b e), 0)) (fun x => x.1.1 + x.1.2 * 2 ^ 32) (·.2) 0

/-- VRISUM: the exact sum of active A (R186). -/
def Lan.vrisum (f : VF) (c : LCtx) (l : Lan) : LRes :=
  l.redV c 0 f (fun (x y : Int) => x + y) (fun e => l.ia f e) (trunc2 64) (fun _ => 0) 0

end Sys2Proof

namespace Sys2Proof.Machine

/-- VADD: D ← A + B (R185). -/
def execVadd (i : LIss) (f : VF) (s : State) : Host.Outcome State Fault Refusal := .next (s.onLan (.vadd i f) i (s.lanV i f (Lan.vadd f)))

/-- VSUB: D ← A − B (R185). -/
def execVsub (i : LIss) (f : VF) (s : State) : Host.Outcome State Fault Refusal := .next (s.onLan (.vsub i f) i (s.lanV i f (Lan.vsub f)))

/-- VMUL: D ← A × B (R185). -/
def execVmul (i : LIss) (f : VF) (s : State) : Host.Outcome State Fault Refusal := .next (s.onLan (.vmul i f) i (s.lanV i f (Lan.vmul f)))

/-- VFMA: D ← A × B + C with one rounding (R185). -/
def execVfma (i : LIss) (f : VF) (s : State) : Host.Outcome State Fault Refusal := .next (s.onLan (.vfma i f) i (s.lanV i f (Lan.vfma f)))

/-- VDIV: D ← A / B, with DIVZERO (R185). -/
def execVdiv (i : LIss) (f : VF) (s : State) : Host.Outcome State Fault Refusal := .next (s.onLan (.vdiv i f) i (s.lanV i f (Lan.vdiv f)))

/-- VSQRT: D ← √A (R185). -/
def execVsqrt (i : LIss) (f : VF) (s : State) : Host.Outcome State Fault Refusal := .next (s.onLan (.vsqrt i f) i (s.lanSqrt i (vecOps f) (fun l => (l.actives f (vecOps f l)).map (l.vget f.a)) (Lan.vsqrt f)))

/-- VMIN: D ← minimum(A, B) (R185). -/
def execVmin (i : LIss) (f : VF) (s : State) : Host.Outcome State Fault Refusal := .next (s.onLan (.vmin i f) i (s.lanV i f (Lan.vmin f)))

/-- VMAX: D ← maximum(A, B) (R185). -/
def execVmax (i : LIss) (f : VF) (s : State) : Host.Outcome State Fault Refusal := .next (s.onLan (.vmax i f) i (s.lanV i f (Lan.vmax f)))

/-- VABS: D ← A with bit 31 cleared (R185). -/
def execVabs (i : LIss) (f : VF) (s : State) : Host.Outcome State Fault Refusal := .next (s.onLan (.vabs i f) i (s.lanV i f (Lan.vabs f)))

/-- VNEG: D ← A with bit 31 inverted (R185). -/
def execVneg (i : LIss) (f : VF) (s : State) : Host.Outcome State Fault Refusal := .next (s.onLan (.vneg i f) i (s.lanV i f (Lan.vneg f)))

/-- VADDS: D ← A + S[SA] (R185). -/
def execVadds (i : LIss) (f : VF) (s : State) : Host.Outcome State Fault Refusal := .next (s.onLan (.vadds i f) i (s.lanV i f (Lan.vadds f)))

/-- VMULS: D ← A × S[SA] (R185). -/
def execVmuls (i : LIss) (f : VF) (s : State) : Host.Outcome State Fault Refusal := .next (s.onLan (.vmuls i f) i (s.lanV i f (Lan.vmuls f)))

/-- VFMAS: D ← A × S[SA] + C with one rounding (R185). -/
def execVfmas (i : LIss) (f : VF) (s : State) : Host.Outcome State Fault Refusal := .next (s.onLan (.vfmas i f) i (s.lanV i f (Lan.vfmas f)))

/-- VPADD (R195). -/
def execVpadd (i : LIss) (f : VF) (s : State) : Host.Outcome State Fault Refusal := .next (s.onLan (.vpadd i f) i (s.lanV i f (fun c l => l.vpadd c f)))

/-- VIADD: D ← A + B as INT32, wrapping (R186). -/
def execViadd (i : LIss) (f : VF) (s : State) : Host.Outcome State Fault Refusal := .next (s.onLan (.viadd i f) i (s.lanV i f (Lan.viadd f)))

/-- VISUB: D ← A − B as INT32, wrapping (R186). -/
def execVisub (i : LIss) (f : VF) (s : State) : Host.Outcome State Fault Refusal := .next (s.onLan (.visub i f) i (s.lanV i f (Lan.visub f)))

/-- VIMUL: D ← the low 32 bits of A × B (R186). -/
def execVimul (i : LIss) (f : VF) (s : State) : Host.Outcome State Fault Refusal := .next (s.onLan (.vimul i f) i (s.lanV i f (Lan.vimul f)))

/-- VIADDSAT: D ← A + B clamped to the INT32 range (R186). -/
def execViaddsat (i : LIss) (f : VF) (s : State) : Host.Outcome State Fault Refusal := .next (s.onLan (.viaddsat i f) i (s.lanV i f (Lan.viaddsat f)))

/-- VAND: D ← A AND B (R186). -/
def execVand (i : LIss) (f : VF) (s : State) : Host.Outcome State Fault Refusal := .next (s.onLan (.vand i f) i (s.lanV i f (Lan.vand f)))

/-- VOR: D ← A OR B (R186). -/
def execVor (i : LIss) (f : VF) (s : State) : Host.Outcome State Fault Refusal := .next (s.onLan (.vor i f) i (s.lanV i f (Lan.vor f)))

/-- VXOR: D ← A XOR B (R186). -/
def execVxor (i : LIss) (f : VF) (s : State) : Host.Outcome State Fault Refusal := .next (s.onLan (.vxor i f) i (s.lanV i f (Lan.vxor f)))

/-- VSHL: D ← A << S[SA][4:0] (R186). -/
def execVshl (i : LIss) (f : VF) (s : State) : Host.Outcome State Fault Refusal := .next (s.onLan (.vshl i f) i (s.lanV i f (Lan.vshl f)))

/-- VSRA: D ← A >> S[SA][4:0], arithmetic (R186). -/
def execVsra (i : LIss) (f : VF) (s : State) : Host.Outcome State Fault Refusal := .next (s.onLan (.vsra i f) i (s.lanV i f (Lan.vsra f)))

/-- VSRL: D ← A >> S[SA][4:0], logical (R186). -/
def execVsrl (i : LIss) (f : VF) (s : State) : Host.Outcome State Fault Refusal := .next (s.onLan (.vsrl i f) i (s.lanV i f (Lan.vsrl f)))

/-- VIOTA: D ← S[SA][31:0] + e, wrapping (R184). -/
def execViota (i : LIss) (f : VF) (s : State) : Host.Outcome State Fault Refusal := .next (s.onLan (.viota i f) i (s.lanV i f (Lan.viota f)))

/-- VMOV: D ← A (R184). -/
def execVmov (i : LIss) (f : VF) (s : State) : Host.Outcome State Fault Refusal := .next (s.onLan (.vmov i f) i (s.lanV i f (Lan.vmov f)))

/-- VBCAST: D ← S[SA][31:0] (R184). -/
def execVbcast (i : LIss) (f : VF) (s : State) : Host.Outcome State Fault Refusal := .next (s.onLan (.vbcast i f) i (s.lanV i f (Lan.vbcast f)))

/-- VCMP (R184). -/
def execVcmp (i : LIss) (f : VF) (s : State) : Host.Outcome State Fault Refusal := .next (s.onLan (.vcmp i f) i (s.lanV i f (fun c l => l.vcmp c f)))

/-- VICMP (R184). -/
def execVicmp (i : LIss) (f : VF) (s : State) : Host.Outcome State Fault Refusal := .next (s.onLan (.vicmp i f) i (s.lanV i f (fun c l => l.vicmp c f)))

/-- VSEL (R184). -/
def execVsel (i : LIss) (f : VF) (s : State) : Host.Outcome State Fault Refusal := .next (s.onLan (.vsel i f) i (s.lanV i f (fun c l => l.vsel c f)))

/-- MAND: M[D] ← M[A] AND M[B], bits below n (R184). -/
def execMand (i : LIss) (f : VF) (s : State) : Host.Outcome State Fault Refusal := .next (s.onLan (.mand i f) i (s.lanV i f (Lan.mand f)))

/-- MOR: M[D] ← M[A] OR M[B], bits below n (R184). -/
def execMor (i : LIss) (f : VF) (s : State) : Host.Outcome State Fault Refusal := .next (s.onLan (.mor i f) i (s.lanV i f (Lan.mor f)))

/-- MNOT: M[D] ← NOT M[A], bits below n (R184). -/
def execMnot (i : LIss) (f : VF) (s : State) : Host.Outcome State Fault Refusal := .next (s.onLan (.mnot i f) i (s.lanV i f (Lan.mnot f)))

/-- MANY (R184). -/
def execMany (i : LIss) (f : VF) (s : State) : Host.Outcome State Fault Refusal := .next (s.onLan (.many i f) i (s.lanV i f (fun c l => l.many c f)))

/-- VRSUM: TREE of RNE additions (R193). -/
def execVrsum (i : LIss) (f : VF) (s : State) : Host.Outcome State Fault Refusal := .next (s.onLan (.vrsum i f) i (s.lanV i f (Lan.vrsum f)))

/-- VRMAX: TREE of maximum (R193). -/
def execVrmax (i : LIss) (f : VF) (s : State) : Host.Outcome State Fault Refusal := .next (s.onLan (.vrmax i f) i (s.lanV i f (Lan.vrmax f)))

/-- VRMIN: TREE of minimum (R193). -/
def execVrmin (i : LIss) (f : VF) (s : State) : Host.Outcome State Fault Refusal := .next (s.onLan (.vrmin i f) i (s.lanV i f (Lan.vrmin f)))

/-- VRCSUM: TREE of PAIRADD over the pairs (A, B); the value in [31:0], the error in [63:32] (R195). -/
def execVrcsum (i : LIss) (f : VF) (s : State) : Host.Outcome State Fault Refusal := .next (s.onLan (.vrcsum i f) i (s.lanV i f (Lan.vrcsum f)))

/-- VRISUM: the exact sum of active A (R186). -/
def execVrisum (i : LIss) (f : VF) (s : State) : Host.Outcome State Fault Refusal := .next (s.onLan (.vrisum i f) i (s.lanV i f (Lan.vrisum f)))

/-- VCVT (R187). -/
def execVcvt (i : LIss) (f : VF) (s : State) : Host.Outcome State Fault Refusal := .next (s.onLan (.vcvt i f) i (s.lanV i f (fun c l => l.vcvt c f)))

/-- VLD (R188). -/
def execVld (i : LIss) (f : VF) (s : State) : Host.Outcome State Fault Refusal := .next (s.onLan (.vld i f) i (s.lanDo i (vecOps f) (State.vldOp f i.l)))

/-- VST (R188). -/
def execVst (i : LIss) (f : VF) (s : State) : Host.Outcome State Fault Refusal := .next (s.onLan (.vst i f) i (s.lanDo i (vecOps f) (State.vstOp f i.l)))

end Sys2Proof.Machine
end

