-- ==== Sys2Proof/Machine/Ports.lean ====
section
/-! DEFINITION. What comes back on a memory port (R284 to R290). -/

namespace Sys2Proof.Machine

/-- READ_DATA (R285). -/
def execReadData (port tag data : Nat) (last : Bool) (resp : Nat) (poison : Bool) (s : State) : Host.Outcome State Fault Refusal :=
  onPort s port (s.readData port tag data last resp poison)

/-- WRITE_RESPONSE (R286). -/
def execWriteResponse (port tag resp : Nat) (s : State) : Host.Outcome State Fault Refusal := onPort s port (s.writeResp port tag resp)

/-- MEM_TIMEOUT (R289). -/
def execMemTimeout (port tag : Nat) (wr : Bool) (s : State) : Host.Outcome State Fault Refusal := onPort s port (s.memTimedOut port tag wr)

end Sys2Proof.Machine
end

