-- ==== Sys2Proof/Machine/Power.lean ====
section
/-! DEFINITION. Resets, start-up, power states, throttle, temperature, the clock monitor, tests, the event log and the wrappers
(R17, R311, R318 to R320, R372 to R397, R410, R413). -/

namespace Sys2Proof.Machine

/-- COLD_RESET (R373). Power-up empties the wrapper instruction registers too. -/
def execColdReset (powerUp : Bool) (s : State) : Host.Outcome State Fault Refusal := .next (if powerUp then (s.coldReset.setWirs []) else s.coldReset)

/-- COLD_RESET_RELEASE (R373, R409). -/
def execColdResetRelease (testMode : Bool) (s : State) : Host.Outcome State Fault Refusal := .next (s.coldRelease testMode)

/-- WARM_RESET (R379). -/
def execWarmReset (s : State) : Host.Outcome State Fault Refusal := .next (s.warmStart')

/-- WARM_RESET_RELEASE (R379). -/
def execWarmResetRelease (s : State) : Host.Outcome State Fault Refusal := .next (s.warmRelease)

/-- POWER_GOOD_FALL (R397). -/
def execPowerGoodFall (d : Domain) (s : State) : Host.Outcome State Fault Refusal := .next (s.pgFall d)

/-- POWER_GOOD_RISE (R382). -/
def execPowerGoodRise (d : Domain) (s : State) : Host.Outcome State Fault Refusal := .next (s.pgRise d)

/-- NV_LOAD (R364, R387). -/
def execNvLoad (corrected : Nat) (s : State) : Host.Outcome State Fault Refusal := .next (s.nvLoad corrected)

/-- CORE_TEST (R374). -/
def execCoreTest (failed : List UnitRef) (s : State) : Host.Outcome State Fault Refusal := .next (s.coreTest failed)

/-- PSTATE_REQ (R381). -/
def execPstateReq (v : Nat) (s : State) : Host.Outcome State Fault Refusal := .next (s.pstate v)

/-- POWER_ENTRY (R382). -/
def execPowerEntry (s : State) : Host.Outcome State Fault Refusal := .next (s.powerEntry)

/-- POWER_EXIT_DONE (R382). -/
def execPowerExitDone (s : State) : Host.Outcome State Fault Refusal := .next (s.powerExit)

/-- THR (R384). -/
def execThr (v : Nat) (s : State) : Host.Outcome State Fault Refusal := .next (s.thr v)

/-- TEMP_READ (R385, R386). -/
def execTempRead (readings : List Nat) (s : State) : Host.Outcome State Fault Refusal := .next (s.tempRead readings)

/-- CLOCK_MEASURE (R393, R414). -/
def execClockMeasure (lclkKhz mclkKhz : Nat) (s : State) : Host.Outcome State Fault Refusal := .next (s.clocks lclkKhz mclkKhz)

/-- GOVERNOR_WINDOW (R17, R18). -/
def execGovernorWindow (s : State) : Host.Outcome State Fault Refusal := .next (s.governor)

/-- TEST_DRAIN_DONE (R319). -/
def execTestDrainDone (s : State) : Host.Outcome State Fault Refusal := .next (s.drainTest)

/-- SELF_TEST_DONE (R319, R374). -/
def execSelfTestDone (kind unit : Nat) (failed : List Nat) (whole : Bool) (s : State) : Host.Outcome State Fault Refusal := .next (s.selfTestDone kind unit failed whole)

/-- IJTAG_UNIT_SELF_TEST (R413). -/
def execIjtagUnitSelfTest (kind unit : Nat) (s : State) : Host.Outcome State Fault Refusal := .next (s.netTest kind unit)

/-- EVLOG_ENTRY_WRITE (R311). -/
def execEvlogEntryWrite (s : State) : Host.Outcome State Fault Refusal := .next (s.evlogWrite)

/-- Whether the configuration has the macro: nothing can arrive at one that it has not. -/
def macroAt (m : Macro) : Nat × Nat :=
  match m with
  | .segment n => (1, n) | .array n => (2, n) | .lantern n => (5, n) | .memPort n => (6, n) | .core => (0, 0)

/-- WIR_UPDATE (R410). -/
def execWirUpdate (m : Macro) (code : Nat) (s : State) : Host.Outcome State Fault Refusal :=
  if s.hasMacro m then .next (s.wirUpdate m code) else .fault (.noSuchUnit (macroAt m).1 (macroAt m).2)

end Sys2Proof.Machine
end

