-- ==== Sys2Proof/Machine/Streams.lean ====
section
/-! DEFINITION. What arrives inside the Hedge: tiles on the stream ports (R88 to R95, R105 to R107), orphans (R90) and captured tiles
(R102, R103, R152). -/

namespace Sys2Proof.Machine

/-- The segment takes tiles: the Hedge serves (R373, R377), is awake and not frozen (Table 14.3), and no orphan waits on the port (R90). -/
def State.segTakes (s : State) (seg : Nat) : Bool :=
  s.live && s.awake && decide (3 ≤ s.phase) && s.obj O.throttleLevel != 7 && !(s.sapling && decide (256 ≤ seg)) &&
    (SMap.look none s.waitTiles seg).isNone

/-- An orphan is accepted and discarded (R90). -/
def State.orphan (s : State) (t : Tile) : State :=
  (s.bump O.hedgeOrphanTiles 0 32 1).report { code := 0x0206, unitKind := 1, unit := t.seg, payload := genPay 0 0 t.tag }

/-- STREAM_TILE (R89): a tile whose tag no descriptor names waits on its port (R90). -/
def State.streamTile (s : State) (t : Tile) (chk : Chk) : State :=
  if !s.segTakes t.seg || (s.segOf t.seg).isNone then s
  else match s.tagged t.tag t.seg with
    | some (q, d, c) => s.takeTile q d c t chk
    | none => if s.bget O.hedgeTagWait 0 = 0 then s.orphan t else s.setWaitTiles (SMap.put none t.seg (some (t, chk)) s.waitTiles)

/-- ORPHAN_TILE (R90): HEDGE_TAG_WAIT has passed for the tile that waits on the port; while the Hedge is frozen, or the pair is out, the port takes no
beat (R107, R108). -/
def State.orphanOut (s : State) (seg : Nat) : State :=
  match SMap.look none s.waitTiles seg with
  | none => s
  | some (t, _) =>
    if s.live && s.awake && !s.segFrozen && (s.segOf seg).isSome then (s.setWaitTiles (SMap.put none seg none s.waitTiles)).orphan t else s

/-- STREAM_TILE (R89). -/
def execStreamTile (t : Tile) (chk : Chk) (s : State) : Host.Outcome State Fault Refusal := onSeg s t.seg (s.streamTile t chk)

/-- ORPHAN_TILE (R90). -/
def execOrphanTile (seg : Nat) (s : State) : Host.Outcome State Fault Refusal := onSeg s seg (s.orphanOut seg)

/-- CAPTURE_TILE (R103, R152). -/
def execCaptureTile (c : CapTile) (chk : Chk) (s : State) : Host.Outcome State Fault Refusal := .next (s.captureTile c chk)

end Sys2Proof.Machine
end

