-- ==== Sys2Proof/Machine/Dispatch.lean ====
section
/-! DEFINITION. What each command does: one arm per command, a direct call of its meaning. -/

namespace Sys2Proof.Machine

def exec (i : Instr) (s : State) : Host.Outcome State Fault Refusal :=
  match i with
  | .tail q index => Sys2Proof.Machine.execTail q index s
  | .irqAck q => Sys2Proof.Machine.execIrqAck q s
  | .doorbellErrors word => Sys2Proof.Machine.execDoorbellErrors word s
  | .streamTile t chk => Sys2Proof.Machine.execStreamTile t chk s
  | .orphanTile seg => Sys2Proof.Machine.execOrphanTile seg s
  | .captureTile c chk => Sys2Proof.Machine.execCaptureTile c chk s
  | .readData port tag data last resp poison => Sys2Proof.Machine.execReadData port tag data last resp poison s
  | .writeResponse port tag resp => Sys2Proof.Machine.execWriteResponse port tag resp s
  | .memTimeout port tag wr => Sys2Proof.Machine.execMemTimeout port tag wr s
  | .finfaRead h index sub => Sys2Proof.Machine.execFinfaRead h index sub s
  | .finfaWrite h index sub v => Sys2Proof.Machine.execFinfaWrite h index sub v s
  | .segRead h index sub => Sys2Proof.Machine.execSegRead h index sub s
  | .segWrite h index sub v => Sys2Proof.Machine.execSegWrite h index sub v s
  | .abort h index sub v => Sys2Proof.Machine.execAbort h index sub v s
  | .finfaNext h index sub v => Sys2Proof.Machine.execFinfaNext h index sub v s
  | .finfaPacketDiscard => Sys2Proof.Machine.execFinfaPacketDiscard s
  | .segTimeout requester => Sys2Proof.Machine.execSegTimeout requester s
  | .archLevelRequest h v => Sys2Proof.Machine.execArchLevelRequest h v s
  | .queueEnable h v => Sys2Proof.Machine.execQueueEnable h v s
  | .queueReset h v => Sys2Proof.Machine.execQueueReset h v s
  | .slotReset h v => Sys2Proof.Machine.execSlotReset h v s
  | .histOwner h v => Sys2Proof.Machine.execHistOwner h v s
  | .syncValue h v => Sys2Proof.Machine.execSyncValue h v s
  | .tmapInvalidate h v => Sys2Proof.Machine.execTmapInvalidate h v s
  | .tmtDirBase h o v => Sys2Proof.Machine.execTmtDirBase h o v s
  | .tmapInvDone => Sys2Proof.Machine.execTmapInvDone s
  | .devwinBase h size n v => Sys2Proof.Machine.execDevwinBase h size n v s
  | .instanceId h v => Sys2Proof.Machine.execInstanceId h v s
  | .firstFaultClear h v => Sys2Proof.Machine.execFirstFaultClear h v s
  | .evlogEnable h v => Sys2Proof.Machine.execEvlogEnable h v s
  | .evlogHead h v => Sys2Proof.Machine.execEvlogHead h v s
  | .evlogIrqAck h v => Sys2Proof.Machine.execEvlogIrqAck h v s
  | .nanTrapMode h v => Sys2Proof.Machine.execNanTrapMode h v s
  | .epochOpen h => Sys2Proof.Machine.execEpochOpen h s
  | .epochArm h => Sys2Proof.Machine.execEpochArm h s
  | .epochAbort h => Sys2Proof.Machine.execEpochAbort h s
  | .nvStore h v => Sys2Proof.Machine.execNvStore h v s
  | .nvStoreDone pass => Sys2Proof.Machine.execNvStoreDone pass s
  | .restoreDefaults h => Sys2Proof.Machine.execRestoreDefaults h s
  | .restoreNv r => Sys2Proof.Machine.execRestoreNv r s
  | .restoreDone => Sys2Proof.Machine.execRestoreDone s
  | .repairStore h v => Sys2Proof.Machine.execRepairStore h v s
  | .test h => Sys2Proof.Machine.execTest h s
  | .testHold h => Sys2Proof.Machine.execTestHold h s
  | .testReturn h => Sys2Proof.Machine.execTestReturn h s
  | .testDrainDone => Sys2Proof.Machine.execTestDrainDone s
  | .selfTestDone kind unit failed whole => Sys2Proof.Machine.execSelfTestDone kind unit failed whole s
  | .bellReset h v => Sys2Proof.Machine.execBellReset h v s
  | .powerRequest h v => Sys2Proof.Machine.execPowerRequest h v s
  | .portCheck h v => Sys2Proof.Machine.execPortCheck h v s
  | .pstateReq v => Sys2Proof.Machine.execPstateReq v s
  | .powerEntry => Sys2Proof.Machine.execPowerEntry s
  | .powerExitDone => Sys2Proof.Machine.execPowerExitDone s
  | .thr v => Sys2Proof.Machine.execThr v s
  | .coldReset powerUp => Sys2Proof.Machine.execColdReset powerUp s
  | .coldResetRelease testMode => Sys2Proof.Machine.execColdResetRelease testMode s
  | .warmReset => Sys2Proof.Machine.execWarmReset s
  | .warmResetRelease => Sys2Proof.Machine.execWarmResetRelease s
  | .powerGoodFall d => Sys2Proof.Machine.execPowerGoodFall d s
  | .nvLoad corrected => Sys2Proof.Machine.execNvLoad corrected s
  | .coreTest failed => Sys2Proof.Machine.execCoreTest failed s
  | .formationTimeout => Sys2Proof.Machine.execFormationTimeout s
  | .groupOfOne => Sys2Proof.Machine.execGroupOfOne s
  | .tempRead readings => Sys2Proof.Machine.execTempRead readings s
  | .clockMeasure lclkKhz mclkKhz => Sys2Proof.Machine.execClockMeasure lclkKhz mclkKhz s
  | .governorWindow => Sys2Proof.Machine.execGovernorWindow s
  | .bellClose cmpFail central => Sys2Proof.Machine.execBellClose cmpFail central s
  | .paceBreaks => Sys2Proof.Machine.execPaceBreaks s
  | .toll => Sys2Proof.Machine.execToll s
  | .fBellOverrun => Sys2Proof.Machine.execFBellOverrun s
  | .fStreamTimeout q seq => Sys2Proof.Machine.execFStreamTimeout q seq s
  | .deadline q seq => Sys2Proof.Machine.execDeadline q seq s
  | .fWaitTimeout q seq => Sys2Proof.Machine.execFWaitTimeout q seq s
  | .bellWaitEnd q seq => Sys2Proof.Machine.execBellWaitEnd q seq s
  | .nop q => Sys2Proof.Machine.execNop q s
  | .convert d => Sys2Proof.Machine.execConvert d s
  | .quant d => Sys2Proof.Machine.execQuant d s
  | .dequant d => Sys2Proof.Machine.execDequant d s
  | .stats d => Sys2Proof.Machine.execStats d s
  | .gram q => Sys2Proof.Machine.execGram q s
  | .rootOp q => Sys2Proof.Machine.execRootOp q s
  | .solve q => Sys2Proof.Machine.execSolve q s
  | .precond q => Sys2Proof.Machine.execPrecond q s
  | .reduce d => Sys2Proof.Machine.execReduce d s
  | .fence q => Sys2Proof.Machine.execFence q s
  | .bellWait q => Sys2Proof.Machine.execBellWait q s
  | .signal q => Sys2Proof.Machine.execSignal q s
  | .waitOp q => Sys2Proof.Machine.execWaitOp q s
  | .commit q seq => Sys2Proof.Machine.execCommit q seq s
  | .released q => Sys2Proof.Machine.execReleased q s
  | .evlogEntryWrite => Sys2Proof.Machine.execEvlogEntryWrite s
  | .iterBound q seq => Sys2Proof.Machine.execIterBound q seq s
  | .routineRestart q seq => Sys2Proof.Machine.execRoutineRestart q seq s
  | .fallbackPromotions q seq la slot => Sys2Proof.Machine.execFallbackPromotions q seq la slot s
  | .arrNop x rsv => Sys2Proof.Machine.execArrNop x rsv s
  | .fset x f => Sys2Proof.Machine.execFset x f s
  | .pass x f => Sys2Proof.Machine.execPass x f s
  | .gopen x f => Sys2Proof.Machine.execGopen x f s
  | .gdrain x f => Sys2Proof.Machine.execGdrain x f s
  | .vadd x f => Sys2Proof.Machine.execVadd x f s
  | .vsub x f => Sys2Proof.Machine.execVsub x f s
  | .vmul x f => Sys2Proof.Machine.execVmul x f s
  | .vfma x f => Sys2Proof.Machine.execVfma x f s
  | .vdiv x f => Sys2Proof.Machine.execVdiv x f s
  | .vsqrt x f => Sys2Proof.Machine.execVsqrt x f s
  | .vmin x f => Sys2Proof.Machine.execVmin x f s
  | .vmax x f => Sys2Proof.Machine.execVmax x f s
  | .vabs x f => Sys2Proof.Machine.execVabs x f s
  | .vneg x f => Sys2Proof.Machine.execVneg x f s
  | .vadds x f => Sys2Proof.Machine.execVadds x f s
  | .vmuls x f => Sys2Proof.Machine.execVmuls x f s
  | .vfmas x f => Sys2Proof.Machine.execVfmas x f s
  | .vpadd x f => Sys2Proof.Machine.execVpadd x f s
  | .viadd x f => Sys2Proof.Machine.execViadd x f s
  | .visub x f => Sys2Proof.Machine.execVisub x f s
  | .vimul x f => Sys2Proof.Machine.execVimul x f s
  | .viaddsat x f => Sys2Proof.Machine.execViaddsat x f s
  | .vand x f => Sys2Proof.Machine.execVand x f s
  | .vor x f => Sys2Proof.Machine.execVor x f s
  | .vxor x f => Sys2Proof.Machine.execVxor x f s
  | .vshl x f => Sys2Proof.Machine.execVshl x f s
  | .vsra x f => Sys2Proof.Machine.execVsra x f s
  | .vsrl x f => Sys2Proof.Machine.execVsrl x f s
  | .viota x f => Sys2Proof.Machine.execViota x f s
  | .vmov x f => Sys2Proof.Machine.execVmov x f s
  | .vbcast x f => Sys2Proof.Machine.execVbcast x f s
  | .vcmp x f => Sys2Proof.Machine.execVcmp x f s
  | .vicmp x f => Sys2Proof.Machine.execVicmp x f s
  | .vsel x f => Sys2Proof.Machine.execVsel x f s
  | .mand x f => Sys2Proof.Machine.execMand x f s
  | .mor x f => Sys2Proof.Machine.execMor x f s
  | .mnot x f => Sys2Proof.Machine.execMnot x f s
  | .many x f => Sys2Proof.Machine.execMany x f s
  | .vrsum x f => Sys2Proof.Machine.execVrsum x f s
  | .vrmax x f => Sys2Proof.Machine.execVrmax x f s
  | .vrmin x f => Sys2Proof.Machine.execVrmin x f s
  | .vrcsum x f => Sys2Proof.Machine.execVrcsum x f s
  | .vrisum x f => Sys2Proof.Machine.execVrisum x f s
  | .vcvt x f => Sys2Proof.Machine.execVcvt x f s
  | .vld x f => Sys2Proof.Machine.execVld x f s
  | .vst x f => Sys2Proof.Machine.execVst x f s
  | .sli x f => Sys2Proof.Machine.execSli x f s
  | .slih x f => Sys2Proof.Machine.execSlih x f s
  | .saddi x f => Sys2Proof.Machine.execSaddi x f s
  | .sadd x f => Sys2Proof.Machine.execSadd x f s
  | .ssub x f => Sys2Proof.Machine.execSsub x f s
  | .smul x f => Sys2Proof.Machine.execSmul x f s
  | .sshl x f => Sys2Proof.Machine.execSshl x f s
  | .sshr x f => Sys2Proof.Machine.execSshr x f s
  | .sfadd x f => Sys2Proof.Machine.execSfadd x f s
  | .sfsub x f => Sys2Proof.Machine.execSfsub x f s
  | .sfmul x f => Sys2Proof.Machine.execSfmul x f s
  | .sfdiv x f => Sys2Proof.Machine.execSfdiv x f s
  | .sfsqrt x f => Sys2Proof.Machine.execSfsqrt x f s
  | .scmpm x f => Sys2Proof.Machine.execScmpm x f s
  | .ssel x f => Sys2Proof.Machine.execSsel x f s
  | .rdp x f => Sys2Proof.Machine.execRdp x f s
  | .setvl x f => Sys2Proof.Machine.execSetvl x f s
  | .setvli x f => Sys2Proof.Machine.execSetvli x f s
  | .modew x f => Sys2Proof.Machine.execModew x f s
  | .moder x f => Sys2Proof.Machine.execModer x f s
  | .loop x f => Sys2Proof.Machine.execLoop x f s
  | .endloop x f => Sys2Proof.Machine.execEndloop x f s
  | .brk x f => Sys2Proof.Machine.execBrk x f s
  | .boundary x f => Sys2Proof.Machine.execBoundary x f s
  | .bar x f => Sys2Proof.Machine.execBar x f s
  | .sched x f => Sys2Proof.Machine.execSched x f s
  | .lnRet x f => Sys2Proof.Machine.execLnRet x f s
  | .pivf x f => Sys2Proof.Machine.execPivf x f s
  | .lnEnd x f => Sys2Proof.Machine.execLnEnd x f s
  | .lnStop x f => Sys2Proof.Machine.execLnStop x f s
  | .astr x f => Sys2Proof.Machine.execAstr x f s
  | .aiss x f => Sys2Proof.Machine.execAiss x f s
  | .await x f => Sys2Proof.Machine.execAwait x f s
  | .aflg x f => Sys2Proof.Machine.execAflg x f s
  | .lnNop x f => Sys2Proof.Machine.execLnNop x f s
  | .train port f => Sys2Proof.Machine.execTrain port f s
  | .calReq port f => Sys2Proof.Machine.execCalReq port f s
  | .calRsp port f => Sys2Proof.Machine.execCalRsp port f s
  | .arrive port f => Sys2Proof.Machine.execArrive port f s
  | .release port f => Sys2Proof.Machine.execRelease port f s
  | .reduceUp port f => Sys2Proof.Machine.execReduceUp port f s
  | .reduceDown port f => Sys2Proof.Machine.execReduceDown port f s
  | .lost port f => Sys2Proof.Machine.execLost port f s
  | .alive port f => Sys2Proof.Machine.execAlive port f s
  | .frameForward port f => Sys2Proof.Machine.execFrameForward port f s
  | .bportRetransmits port => Sys2Proof.Machine.execBportRetransmits port s
  | .calPeriod port => Sys2Proof.Machine.execCalPeriod port s
  | .aliveInterval => Sys2Proof.Machine.execAliveInterval s
  | .tollTimeout rank => Sys2Proof.Machine.execTollTimeout rank s
  | .reduceTimeout q seq => Sys2Proof.Machine.execReduceTimeout q seq s
  | .lockFall port => Sys2Proof.Machine.execLockFall port s
  | .powerGoodRise d => Sys2Proof.Machine.execPowerGoodRise d s
  | .lockRise port => Sys2Proof.Machine.execLockRise port s
  | .retrainTimeout port => Sys2Proof.Machine.execRetrainTimeout port s
  | .belfryFrameDiscard port rx => Sys2Proof.Machine.execBelfryFrameDiscard port rx s
  | .malformed b0 b1 b2 b3 chk => Sys2Proof.Machine.execMalformed b0 b1 b2 b3 chk s
  | .fDescMalformed q => Sys2Proof.Machine.execFDescMalformed q s
  | .fSpireOp x op => Sys2Proof.Machine.execFSpireOp x op s
  | .fLanternIllegal x word => Sys2Proof.Machine.execFLanternIllegal x word s
  | .throttleForce h v => Sys2Proof.Machine.execThrottleForce h v s
  | .repairStoreDone pass => Sys2Proof.Machine.execRepairStoreDone pass s
  | .ijtagUnitSelfTest kind unit => Sys2Proof.Machine.execIjtagUnitSelfTest kind unit s
  | .wirUpdate m code => Sys2Proof.Machine.execWirUpdate m code s

end Sys2Proof.Machine
end

