-- ==== Sys2Proof/Machine/Outputs.lean ====
section
/-! DEFINITION. What the outputs of Table 15.1 read in a state, where they are not themselves fields of it: READY of the doorbell and management ports,
the beats and words that the management and Belfry ports put out, Bn_TRAIN, the interrupt lines and PSTATE_ACK. -/

namespace Sys2Proof

/-- A word on the doorbell port (R400). -/
def Instr.isDoorbell : Instr → Bool
  | .tail .. | .irqAck _ | .doorbellErrors _ => true
  | _ => false

/-- A request on the management port (R346). -/
def Instr.isRequest : Instr → Bool
  | .finfaRead .. | .finfaWrite .. | .segRead .. | .segWrite .. | .abort .. | .finfaNext .. | .malformed .. | .archLevelRequest .. | .queueEnable ..
  | .queueReset .. | .slotReset .. | .histOwner .. | .syncValue .. | .tmapInvalidate .. | .tmtDirBase .. | .devwinBase .. | .instanceId ..
  | .firstFaultClear .. | .evlogEnable .. | .evlogHead .. | .evlogIrqAck .. | .nanTrapMode .. | .epochOpen _ | .epochArm _ | .epochAbort _ | .nvStore ..
  | .restoreDefaults _ | .restoreNv _ | .repairStore .. | .test _ | .testHold _ | .testReturn _ | .bellReset .. | .powerRequest .. | .portCheck ..
  | .throttleForce .. => true
  | _ => false

end Sys2Proof

namespace Sys2Proof.Machine

/-- Functional outputs hold their safe values (R411): the macro is in test mode, outside WS_EXTEST and WP_EXTEST, or its wrapper is in WS_SAFE or WS_CLAMP. -/
def State.safeOut (s : State) (m : Macro) : Bool := s.testMode && s.wirActs m != 1 && s.wirActs m != 2

/-- DB_READY (R400): the buffer holds 256 words, those of the waiting commands that came on the doorbell port. -/
def State.dbReady (s : State) : Bool := !s.safeOut .core && decide ((s.pending.filter (·.isDoorbell)).length < 256)

/-- MI_READY (R346, R396): the dictionary holds 16 requests, those of the waiting commands; while a reset is held every beat is taken and discarded. -/
def State.miReady (s : State) : Bool := s.deaf || decide ((s.pending.filter (·.isRequest)).length < 16)

/-- The beats of the responses, in order (R346, R348, R401): four each, the first with MO_SOP. -/
def State.moBeats (s : State) : List Nat := s.moOut.flatMap (·.beats)

/-- The words that Belfry port `p` has put out (R326, R327, R403). -/
def State.txWords (s : State) (p : Nat) : List Nat := (s.btx.filter (fun x => x.1 == p)).flatMap (fun x => x.2.words)

/-- Bn_TRAIN (R403): the block asks the SerDes of a port that is not fenced to retrain while a lock that fell has not been cured, and while it trains
(DEDUCED, log 72). -/
def State.bTrain (s : State) (p : Nat) : Bool :=
  let b := s.bport p
  !s.safeOut .core && s.live && decide (3 ≤ s.phase) && s.get O.bportState p == 3 && !b.trained && (b.lock || b.lostLock)

/-- PSTATE_ACK as driven (R399, R411). -/
def State.ackPin (s : State) : Nat := if s.safeOut .core then 3 else s.pstateAck

/-! Interrupt lines (R267, R300, R313, R402). -/

/-- Line `n` is asserted. -/
def State.irqLine (s : State) (n : Nat) : Bool :=
  !s.safeOut .core && ((s.listed O.irqPending).any (fun (q, v) => v != 0 && s.get O.irqLine q == n) ||
    (s.stopped && s.obj O.fatalIrqLine == n) || (s.obj O.evlogPending == 1 && s.obj O.evlogIrqLine == n))

end Sys2Proof.Machine
end

