-- ==== Sys2Proof/Safety.lean ====
section
/-! DEFINITION. The words that statements use: the invariant of a run, the unit that a command names, what a held reset and the stopped state
silence, and the moments at which a request, a Lantern instruction or an array instruction has its effect. -/

namespace Sys2Proof

/-- The commands that bring data to host memory: read data and write responses (R285, R286). -/
def Instr.bringsMemory : Instr → Bool
  | .readData .. | .writeResponse .. => true
  | _ => false

/-- The unit that a command names, by kind of Table 11.6 and number: a segment, a memory port, a Belfry port or a macro. -/
def Instr.unit : Instr → Option (Nat × Nat)
  | .streamTile t _ => some (1, t.seg)
  | .orphanTile seg => some (1, seg)
  | .readData p .. | .writeResponse p .. | .memTimeout p .. => some (6, p)
  | .train p _ | .calReq p _ | .calRsp p _ | .arrive p _ | .release p _ | .reduceUp p _ | .reduceDown p _ | .lost p _ | .alive p _
  | .frameForward p _ | .belfryFrameDiscard p _ | .bportRetransmits p | .calPeriod p | .lockFall p | .lockRise p | .retrainTimeout p => some (7, p)
  | .wirUpdate m _ => some (Machine.macroAt m)
  | _ => none

/-- The commands that a held reset leaves their effect: the resets, the power-good inputs and the pins themselves, what the NV store, the wrappers and
the IEEE 1687 network do, and what ends work that the reset has already dropped. -/
def Instr.outlivesReset : Instr → Bool
  | .coldReset _ | .coldResetRelease _ | .warmReset | .warmResetRelease | .powerGoodFall _ | .powerGoodRise _ | .pstateReq _ | .thr _
  | .nvStoreDone _ | .repairStoreDone _ | .lockFall _ | .lockRise _ | .wirUpdate .. | .ijtagUnitSelfTest .. | .selfTestDone .. | .testDrainDone
  | .tmapInvDone | .segTimeout _ | .commit .. | .released _ => true
  | _ => false

/-- The commands that a stopped block ignores or does not bring about (R301): doorbells, tiles, and every step of descriptors, bells, routines and
their instructions. -/
def Instr.needsLive : Instr → Bool
  | .tail .. | .irqAck _ | .doorbellErrors _ | .streamTile .. | .orphanTile _ | .captureTile .. | .bellClose .. | .paceBreaks | .toll
  | .fBellOverrun | .fStreamTimeout .. | .deadline .. | .fWaitTimeout .. | .bellWaitEnd .. | .nop _ | .convert .. | .quant .. | .dequant .. | .stats ..
  | .gram _ | .rootOp _ | .solve _ | .precond _ | .reduce .. | .fence _ | .bellWait _ | .signal _ | .waitOp _ | .commit .. | .released _
  | .iterBound .. | .routineRestart .. | .fallbackPromotions .. | .arrNop .. | .fset .. | .pass .. | .gopen .. | .gdrain .. | .fSpireOp ..
  | .formationTimeout | .groupOfOne | .reduceTimeout .. | .fDescMalformed _ | .vadd .. | .vsub .. | .vmul .. | .vfma .. | .vdiv .. | .vsqrt ..
  | .vmin .. | .vmax .. | .vabs .. | .vneg .. | .vadds .. | .vmuls .. | .vfmas .. | .vpadd .. | .viadd .. | .visub .. | .vimul .. | .viaddsat ..
  | .vand .. | .vor .. | .vxor .. | .vshl .. | .vsra .. | .vsrl .. | .viota .. | .vmov .. | .vbcast .. | .vcmp .. | .vicmp .. | .vsel ..
  | .mand .. | .mor .. | .mnot .. | .many .. | .vrsum .. | .vrmax .. | .vrmin .. | .vrcsum .. | .vrisum .. | .vcvt .. | .vld .. | .vst ..
  | .sli .. | .slih .. | .saddi .. | .sadd .. | .ssub .. | .smul .. | .sshl .. | .sshr .. | .sfadd .. | .sfsub .. | .sfmul .. | .sfdiv ..
  | .sfsqrt .. | .scmpm .. | .ssel .. | .rdp .. | .setvl .. | .setvli .. | .modew .. | .moder .. | .loop .. | .endloop .. | .brk ..
  | .boundary .. | .bar .. | .sched .. | .lnRet .. | .pivf .. | .lnEnd .. | .lnStop .. | .astr .. | .aiss .. | .await .. | .aflg .. | .lnNop ..
  | .fLanternIllegal .. => true
  | _ => false

end Sys2Proof

namespace Sys2Proof.Machine

/-- What holds in every state of a run: host memory is in its canonical form. -/
def State.Inv (s : State) : Prop := Memory.wf s.mem = true

/-- The configuration has the unit that a command names (Table 1.2, Table 15.1). -/
def State.hasUnit (s : State) (c : Instr) : Prop := ∀ k u, c.unit = some (k, u) → u < unitCount s k

/-- The reset state of the block, but for what lies outside its logic. -/
def State.cold (s : State) : Prop := s.coldHeld = true ∧ s.warmHeld = false ∧ s.objs = []

/-! Requests on the management port. -/

/-- A request passes checks 1 to 4 of R352: its form, its instance, the moment, and what a stopped block answers. -/
def State.hears (s : State) (h : FinfaHead) (op index sub data : Nat) : Bool :=
  !s.deaf && h.chk == .ok && !reqMalformed h op index sub data && h.dst == s.obj O.instanceId &&
    ((s.loaded && s.obj O.powerState != 3) || (s.testMode && op == 1 && index == 0xA000)) &&
    (!s.stopped || (op == 1 || op == 3) && readableStopped index sub || op == 5 || (op == 2 && index == 0x8020 && sub == 0))

/-- The object that a request names, for its role. -/
def objFor (h : FinfaHead) (oid : Nat) : Option Obj := (Obj.find oid).filter (·.visible h.role)

/-- The response to a request for object `o` that is answered OK with `data`. -/
def State.okTo (t s : State) (h : FinfaHead) (op : Nat) (o : Obj) (data : Nat) : State :=
  t.respond h (s.obj O.instanceId) op St.ok o.ty.code o.ty.size (o.oid / 256) (o.oid % 256) data

/-- A WRITE of `v` to object `o` passes every check of R352: the object is writable by the requester and not larger than 16 bytes, no NV activity or
wear bars it, and neither its value nor the moment is refused. -/
def State.takesWrite (s : State) (h : FinfaHead) (o : Obj) (v : Nat) : Bool :=
  let sel := s.selFor o h 2
  let nv := o.pers == .nv || o.oid == O.nvStore || o.oid == O.nvRestore || o.oid == O.repairStore
  s.hears h 2 (o.oid / 256) (o.oid % 256) v && decide (objFor h o.oid = some o) && decide (o.ty.size ≤ 16) && h.segOff == 0 && !o.acc.readOnly &&
    s.allowed o sel h.role h.tenant true && decide (v < 2 ^ (8 * o.ty.size)) && !(nv && s.nv.op.isSome) &&
    !(o.oid == O.nvStore && decide (s.obj O.nvStoreLimit ≤ s.nv.storeCount)) &&
    !(o.oid == O.repairStore && decide (s.obj O.nvStoreLimit ≤ s.nv.repairCount)) && !s.writeRefused o sel v

/-! Instructions of routines. -/

/-- The logical Lantern that an issue names. -/
def State.lanAt (s : State) (i : LIss) : Option Lan := (s.rfind i.q i.seq).bind (fun r => r.lans[i.l]?)

/-- Nothing that act `a` read, or asked for, is left from before. -/
structure ActIdle (s : State) (a : Act) : Prop where
  walks : ∀ w ∈ s.reads.walks, a ∉ w.acts
  res : ∀ x ∈ s.reads.res, x.act ≠ a
  got : ∀ x ∈ s.reads.got, x.1 ≠ a
  reqs : ∀ r ∈ s.reqs, r.owner = .act a → r.late = true

/-- The act of an issue to a Lantern, and to an array. -/
def lanAct (i : LIss) : Act := .lan i.q i.seq i.l
def arrAct (x : AIss) : Act := .arr x.q x.seq x.la

/-- Lantern `l` of routine `r`, carried by physical Lantern `u` whose turn it has, issues an instruction that passes its checks (R176, R184). -/
structure LanReady (s : State) (i : LIss) (r : Rout) (img : Image) (l : Lan) (u : Nat) : Prop where
  rout : s.rfind i.q i.seq = some r
  lan : r.lans[i.l]? = some l
  image : r.img = some img
  unit : r.lanMap[i.l]? = some u
  runs : s.routRuns r = true
  awake : s.lanFrozen = false
  waits : l.wait = .run
  serves : s.serves 5 u = true
  turn : s.turnOf 5 u r i.l = true
  checks : i.chk = .ok

/-- It issues one for which it has read nothing. -/
structure LanIssues (s : State) (i : LIss) (r : Rout) (img : Image) (l : Lan) (u : Nat) : Prop extends LanReady s i r img l u where
  idle : ActIdle s (lanAct i)

/-- What an instruction of the Lantern of issue `i` leaves beside its routine: everything, but for the count of instructions of physical Lantern `u`, which the
logical Lantern then holds, and the energy that the governor estimates. -/
structure OnlyRoutine (s t : State) (i : LIss) (u : Nat) : Prop where
  frame : t = (((s.setHolds (SMap.put none (5 * 65536 + u) (some (i.q, i.seq, i.l)) s.holds)).bump O.instructions u 32 1).setGov t.gov).setRouts t.routs
  others : ∀ q' seq', ¬(q' = i.q ∧ seq' = i.seq) → t.rfind q' seq' = s.rfind q' seq'

/-- Logical array `la` of routine `r`, carried by physical array `u` whose turn it has, issues an instruction that passes its checks (R111, R112). -/
structure ArrIssues (s : State) (x : AIss) (r : Rout) (img : Image) (a : LArr) (u : Nat) : Prop where
  rout : s.rfind x.q x.seq = some r
  arr : r.arrs[x.la]? = some a
  image : r.img = some img
  unit : r.arrMap[x.la]? = some u
  runs : s.routRuns r = true
  awake : s.arrFrozen = false
  serves : s.serves 2 u = true
  turn : s.turnOf 2 u r x.la = true
  checks : x.chk = .ok

end Sys2Proof.Machine
end

