-- ==== Sys2Proof/WellFormed.lean ====
section
/-! DEFINITION. Which commands can arrive: every operand fits the field or the signals that carry it, and a row that names a class of words
carries a word of that class. The meanings are total: they do not rest on this file. -/

namespace Sys2Proof

/-- `x` fits in `w` bits. -/
def inBits (w x : Nat) : Bool := x < 2 ^ w

/-- A queue number (R231). -/
def queueWf (q : Nat) : Bool := q < 262144

/-- A sequence number is 32 bits (R231). -/
def seqWf (n : Nat) : Bool := inBits 32 n

/-- A check's outcome: a cause of Table 11.9, an item of DETAIL1 and a column or 0xFF. -/
def Chk.wf : Chk → Bool
  | .ok => true
  | .transient cause item => decide (1 ≤ cause ∧ cause ≤ 9) && inBits 64 item
  | .lasting cause item col => decide (1 ≤ cause ∧ cause ≤ 9) && inBits 64 item && decide (col < 64 ∨ col = 255)
  | .twig tid => inBits 32 tid

/-- The outcomes of a conversion's checks. -/
def chksWf (ks : TileChks) : Bool := ks.all (fun (_, k) => k.wf)

/-- A stream beat (Table 4.1). -/
def Beat.wf (b : Beat) : Bool := inBits 2048 b.data && decide (1 ≤ b.nlane ∧ b.nlane ≤ 64)

/-- A stream tile (Table 4.1, R84): its first beat, and no other, carries SI_FIRST. -/
def Tile.wf (t : Tile) : Bool :=
  inBits 16 t.tag && inBits 21 t.trow && inBits 10 t.tcol && t.beats.all Beat.wf &&
  match t.beats with
  | [] => false
  | b :: bs => b.first && bs.all (fun x => !x.first)

/-- A captured tile's names. -/
def CapTile.wf (c : CapTile) : Bool := queueWf c.q && seqWf c.seq && inBits 21 c.trow && inBits 10 c.tcol

/-- A Finfa request's common fields (Table 13.1). -/
def FinfaHead.wf (h : FinfaHead) : Bool :=
  inBits 4 h.fver && inBits 2 h.role && inBits 12 h.tenant && inBits 8 h.tag && inBits 16 h.dst && inBits 16 h.req && inBits 13 h.segOff &&
    inBits 29 h.rsv && h.chk.wf

/-- INDEX and SUB (Table 13.1). -/
def objWf (index sub : Nat) : Bool := inBits 16 index && inBits 8 sub

/-- The value bytes of a request (Table 13.1). -/
def valueWf (v : Nat) : Bool := inBits 128 v

/-- A Belfry frame (Table 12.1): its fields' widths, and as many payload words as arrived. -/
def Frame.wf (f : Frame) : Bool :=
  inBits 4 f.ftype && inBits 4 f.hops && inBits 8 f.pwords && inBits 16 f.group && inBits 16 f.src && inBits 16 f.dst && inBits 24 f.lseq &&
  inBits 8 f.credit && inBits 24 f.ack && inBits 64 f.arg0 && inBits 64 f.arg1 && f.payload.all (inBits 64) && f.payload.length == f.pwords && inBits 40 f.rsv

/-- A frame of one of the ten types of Table 12.2 that arrives as that type. -/
def Frame.is (t : Nat) (f : Frame) : Bool := f.ftype == t && f.wf

/-- The issuing Lantern's names. -/
def LIss.wf (i : LIss) : Bool := queueWf i.q && seqWf i.seq && i.chk.wf

/-- The issuing array's names. -/
def AIss.wf (x : AIss) : Bool := queueWf x.q && seqWf x.seq && x.chk.wf

/-- The vector format (Table 7.3). -/
def VF.wf (f : VF) : Bool :=
  inBits 5 f.d && inBits 5 f.a && inBits 5 f.b && inBits 5 f.c && inBits 3 f.ms && inBits 1 f.men && inBits 13 f.cnt && inBits 4 f.sa && inBits 5 f.f1 &&
  inBits 5 f.f2 && inBits 1 f.ovf && inBits 4 f.rsv

/-- The scalar format (Table 7.4). -/
def SF.wf (f : SF) : Bool := inBits 4 f.sd && inBits 4 f.sa && inBits 4 f.sb && inBits 3 f.ms && inBits 9 f.rsv && inBits 32 f.imm

/-- FSET (Table 5.2). -/
def FsetF.wf (f : FsetF) : Bool := inBits 1 f.side && inBits 5 f.fmt && inBits 2 f.xmode && inBits 5 f.xfmt && inBits 32 f.xtid && inBits 79 f.rsv

/-- PASS (Table 5.3). -/
def PassF.wf (f : PassF) : Bool := inBits 6 f.group && inBits 5 f.slot && inBits 9 f.dtile && inBits 20 f.kg && inBits 82 f.rsv

/-- GOPEN (Table 5.4). -/
def GopenF.wf (f : GopenF) : Bool :=
  inBits 6 f.group && inBits 2 f.mode && inBits 9 f.dbase && inBits 9 f.dcountM1 && inBits 9 f.tcolsM1 && inBits 16 f.outNM1 && inBits 21 f.row0 &&
  inBits 16 f.col0 && inBits 32 f.outTid && inBits 4 f.rsv

/-- GDRAIN (Table 5.5). -/
def GdrainF.wf (f : GdrainF) : Bool := inBits 6 f.group && inBits 2 f.form && inBits 115 f.rsv

/-- An issue with its vector fields. -/
def vecWf (i : LIss) (f : VF) : Bool := i.wf && f.wf

/-- An issue with its scalar fields. -/
def scaWf (i : LIss) (f : SF) : Bool := i.wf && f.wf

/-- A request with its value. -/
def reqWf (h : FinfaHead) (v : Nat) : Bool := h.wf && valueWf v

/-- A doorbell word that is neither a TAIL nor an IRQ_ACK of its row's own form (Table 9.2): DOORBELL_ERRORS. -/
def doorbellWordWf (w : Nat) : Bool := inBits 64 w

/-- A command is well formed. -/
def Instr.wf : Instr → Bool
  | .tail q index => queueWf q && inBits 32 index
  | .irqAck q => queueWf q
  | .doorbellErrors w => doorbellWordWf w
  | .streamTile t c => t.wf && c.wf
  | .orphanTile _ => true
  | .captureTile c k => c.wf && k.wf
  | .readData _ tag data _ resp _ => inBits 10 tag && inBits 1024 data && inBits 2 resp
  | .writeResponse _ tag resp => inBits 10 tag && inBits 2 resp
  | .memTimeout _ tag _ => inBits 10 tag
  | .finfaRead h i u => h.wf && objWf i u
  | .finfaWrite h i u v => reqWf h v && objWf i u
  | .segRead h i u => h.wf && objWf i u
  | .segWrite h i u v => reqWf h v && objWf i u
  | .abort h i u v => reqWf h v && objWf i u
  | .finfaNext h i u v => reqWf h v && objWf i u
  | .finfaPacketDiscard => true
  | .segTimeout r => inBits 16 r
  | .archLevelRequest h v => reqWf h v
  | .queueEnable h v => reqWf h v
  | .queueReset h v => reqWf h v
  | .slotReset h v => reqWf h v
  | .histOwner h v => reqWf h v
  | .syncValue h v => reqWf h v
  | .tmapInvalidate h v => reqWf h v
  | .tmtDirBase h _ v => reqWf h v
  | .tmapInvDone => true
  | .devwinBase h _ n v => reqWf h v && decide (n < 16)
  | .instanceId h v => reqWf h v
  | .firstFaultClear h v => reqWf h v
  | .evlogEnable h v => reqWf h v
  | .evlogHead h v => reqWf h v
  | .evlogIrqAck h v => reqWf h v
  | .nanTrapMode h v => reqWf h v
  | .epochOpen h => h.wf
  | .epochArm h => h.wf
  | .epochAbort h => h.wf
  | .nvStore h v => reqWf h v
  | .nvStoreDone _ => true
  | .restoreDefaults h => h.wf
  | .restoreNv r => r.h.wf && inBits 64 r.corrected
  | .restoreDone => true
  | .repairStore h v => reqWf h v
  | .test h => h.wf
  | .testHold h => h.wf
  | .testReturn h => h.wf
  | .testDrainDone => true
  | .selfTestDone _ _ failed _ => failed.all (fun c => decide (c < 64))
  | .bellReset h v => reqWf h v
  | .powerRequest h v => reqWf h v
  | .portCheck h v => reqWf h v
  | .pstateReq v => inBits 3 v
  | .powerEntry => true
  | .powerExitDone => true
  | .thr v => inBits 3 v
  | .coldReset _ => true
  | .coldResetRelease _ => true
  | .warmReset => true
  | .warmResetRelease => true
  | .powerGoodFall _ => true
  | .nvLoad n => inBits 64 n
  | .coreTest _ => true
  | .formationTimeout => true
  | .groupOfOne => true
  | .tempRead r => r.all (inBits 16)
  | .clockMeasure a b => inBits 32 a && inBits 32 b
  | .governorWindow => true
  | .bellClose segs c => segs.all (inBits 16) && c.scale.wf && c.seqr.wf
  | .paceBreaks => true
  | .toll => true
  | .fBellOverrun => true
  | .fStreamTimeout q n => queueWf q && seqWf n
  | .deadline q n => queueWf q && seqWf n
  | .fWaitTimeout q n => queueWf q && seqWf n
  | .bellWaitEnd q n => queueWf q && seqWf n
  | .nop q => queueWf q
  | .convert d => queueWf d.q && chksWf d.ks
  | .quant d => queueWf d.q && chksWf d.ks
  | .dequant d => queueWf d.q && chksWf d.ks
  | .stats d => queueWf d.q && chksWf d.ks
  | .gram q => queueWf q
  | .rootOp q => queueWf q
  | .solve q => queueWf q
  | .precond q => queueWf q
  | .reduce d => queueWf d.q && d.chk.wf
  | .fence q => queueWf q
  | .bellWait q => queueWf q
  | .signal q => queueWf q
  | .waitOp q => queueWf q
  | .commit q n => queueWf q && seqWf n
  | .released q => queueWf q
  | .evlogEntryWrite => true
  | .iterBound q n => queueWf q && seqWf n
  | .routineRestart q n => queueWf q && seqWf n
  | .fallbackPromotions q n _ slot => queueWf q && seqWf n && decide (slot < 32)
  | .arrNop x rsv => x.wf && inBits 124 rsv
  | .fset x f => x.wf && f.wf
  | .pass x f => x.wf && f.wf
  | .gopen x f => x.wf && f.wf
  | .gdrain x f => x.wf && f.wf
  | .vadd i f => vecWf i f
  | .vsub i f => vecWf i f
  | .vmul i f => vecWf i f
  | .vfma i f => vecWf i f
  | .vdiv i f => vecWf i f
  | .vsqrt i f => vecWf i f
  | .vmin i f => vecWf i f
  | .vmax i f => vecWf i f
  | .vabs i f => vecWf i f
  | .vneg i f => vecWf i f
  | .vadds i f => vecWf i f
  | .vmuls i f => vecWf i f
  | .vfmas i f => vecWf i f
  | .vpadd i f => vecWf i f
  | .viadd i f => vecWf i f
  | .visub i f => vecWf i f
  | .vimul i f => vecWf i f
  | .viaddsat i f => vecWf i f
  | .vand i f => vecWf i f
  | .vor i f => vecWf i f
  | .vxor i f => vecWf i f
  | .vshl i f => vecWf i f
  | .vsra i f => vecWf i f
  | .vsrl i f => vecWf i f
  | .viota i f => vecWf i f
  | .vmov i f => vecWf i f
  | .vbcast i f => vecWf i f
  | .vcmp i f => vecWf i f
  | .vicmp i f => vecWf i f
  | .vsel i f => vecWf i f
  | .mand i f => vecWf i f
  | .mor i f => vecWf i f
  | .mnot i f => vecWf i f
  | .many i f => vecWf i f
  | .vrsum i f => vecWf i f
  | .vrmax i f => vecWf i f
  | .vrmin i f => vecWf i f
  | .vrcsum i f => vecWf i f
  | .vrisum i f => vecWf i f
  | .vcvt i f => vecWf i f
  | .vld i f => vecWf i f
  | .vst i f => vecWf i f
  | .sli i f => scaWf i f
  | .slih i f => scaWf i f
  | .saddi i f => scaWf i f
  | .sadd i f => scaWf i f
  | .ssub i f => scaWf i f
  | .smul i f => scaWf i f
  | .sshl i f => scaWf i f
  | .sshr i f => scaWf i f
  | .sfadd i f => scaWf i f
  | .sfsub i f => scaWf i f
  | .sfmul i f => scaWf i f
  | .sfdiv i f => scaWf i f
  | .sfsqrt i f => scaWf i f
  | .scmpm i f => scaWf i f
  | .ssel i f => scaWf i f
  | .rdp i f => scaWf i f
  | .setvl i f => scaWf i f
  | .setvli i f => scaWf i f
  | .modew i f => scaWf i f
  | .moder i f => scaWf i f
  | .loop i f => scaWf i f
  | .endloop i f => scaWf i f
  | .brk i f => scaWf i f
  | .boundary i f => scaWf i f
  | .bar i f => scaWf i f
  | .sched i f => scaWf i f
  | .lnRet i f => scaWf i f
  | .pivf i f => scaWf i f
  | .lnEnd i f => scaWf i f
  | .lnStop i f => scaWf i f
  | .astr i f => scaWf i f
  | .aiss i f => scaWf i f
  | .await i f => scaWf i f
  | .aflg i f => scaWf i f
  | .lnNop i f => scaWf i f
  | .train _ f => f.is 1
  | .calReq _ f => f.is 2
  | .calRsp _ f => f.is 3
  | .arrive _ f => f.is 4
  | .release _ f => f.is 5
  | .reduceUp _ f => f.is 6
  | .reduceDown _ f => f.is 7
  | .lost _ f => f.is 8
  | .alive _ f => f.is 9
  | .frameForward _ f => f.wf
  | .bportRetransmits _ => true
  | .calPeriod _ => true
  | .aliveInterval => true
  | .tollTimeout r => inBits 16 r
  | .reduceTimeout q n => queueWf q && seqWf n
  | .lockFall _ => true
  | .powerGoodRise _ => true
  | .lockRise _ => true
  | .retrainTimeout _ => true
  | .belfryFrameDiscard _ rx => rx.words.all (inBits 64)
  | .malformed b0 b1 b2 b3 k => [b0, b1, b2, b3].all (inBits 64) && k.wf
  | .fDescMalformed q => queueWf q
  | .fSpireOp x op => x.wf && decide (5 ≤ op ∧ op ≤ 15)
  | .fLanternIllegal i w => i.wf && inBits 64 w && !lanOpcode (bits w 56 8)
  | .throttleForce h v => reqWf h v
  | .repairStoreDone _ => true
  | .ijtagUnitSelfTest _ _ => true
  | .wirUpdate _ code => inBits 4 code

end Sys2Proof
end

