-- ==== Sys2Proof/Certificates/Slice0/Obligations.lean ====
section
/-! DEFINITION. The statements for the provers, by family: the machine as a whole, doorbells, the management port, memory ports, streams, the bell,
descriptors, Lantern and array instructions, the Belfry, tests, power and resets. -/

open Sys2Proof Sys2Proof.Machine Host

/-! The machine as a whole. -/

/-- A step runs the command at the front of the queue, on the state with the rest of the queue. -/
def Obligations.StepTakesTheFrontCommand : Prop :=
  ∀ (c : Instr) (rest : List Instr) (s : State), step { s with pending := c :: rest } = exec c { s with pending := rest }

/-- On an empty queue one cycle of LCLK passes, and none while a reset is held (the model's choice, log 4): the cycle number, the time base of R330 at its
corrected rate, and the counts of a cycle in which Table 14.3 freezes the arrays: THROTTLE_FROZEN, and FREEZE_CYCLES of every array. -/
def Obligations.EmptyQueuePassesOneCycle : Prop :=
  ∀ s : State, s.pending = [] →
    (s.inReset = true → step s = .next s) ∧
    (s.inReset = false → step s = .next
      (((if arrayFrozenAt (s.obj O.throttleLevel) s.cycle then (s.freezeArrays 1).bump O.throttleFrozen 0 32 1 else s).setCycle (s.cycle + 1)).setTb
        (((s.tb : Int) + 2 ^ 48 + s.rate).toNat % 2 ^ 112)))

/-- A command that names no unit the configuration lacks has its effect; one that names such a unit stops under a name, and no command is refused. -/
def Obligations.CommandsStopOnlyAtAbsentUnits : Prop :=
  ∀ (c : Instr) (s : State),
    (s.hasUnit c → ∃ t : State, exec c s = .next t) ∧
    (∀ k u, c.unit = some (k, u) → unitCount s k ≤ u → exec c s = .fault (.noSuchUnit k u))

/-- No command changes the configuration, and none changes the commands that wait. -/
def Obligations.CommandsKeepConfigurationAndQueue : Prop :=
  ∀ (c : Instr) (s t : State), exec c s = .next t → t.variant = s.variant ∧ t.pending = s.pending

/-- Host memory changes only when a memory port answers: every other command leaves every byte (R284 to R286). -/
def Obligations.OnlyPortAnswersChangeMemory : Prop :=
  ∀ (c : Instr) (s t : State), c.bringsMemory = false → exec c s = .next t → ∀ a, t.byte a = s.byte a

/-- Every step keeps host memory in its canonical form. -/
def Obligations.StepKeepsTheInvariant : Prop :=
  ∀ s t : State, s.Inv → step s = .next t → t.Inv

/-- The reset state meets the invariant, with no command waiting and nothing in host memory. -/
def Obligations.ResetMeetsTheInvariant : Prop :=
  State.reset.Inv ∧ State.reset.pending = [] ∧ ∀ a, State.reset.byte a = 0

/-- A write of an object's value is what every later read returns, and changes no other object, but for BG_MASTER while it reads INSTANCE_ID. -/
def Obligations.ObjectWriteChangesOneObject : Prop :=
  ∀ (s : State) (o n v o' n' : Nat), o ≠ O.bgMaster → n < 262144 → n' < 262144 →
    (s.put o n v).get o n = v ∧
    ((o', n') ≠ (o, n) → (o' ≠ O.bgMaster ∨ o ≠ O.instanceId) → (s.put o n v).get o' n' = s.get o' n') ∧
    s.put o n v = s.setObjs (s.put o n v).objs

/-- While either reset is held, every command of the block's logic, and everything that arrives, changes nothing (R373, R379, R396). -/
def Obligations.HeldResetSilencesTheLogic : Prop :=
  ∀ (c : Instr) (s : State), s.inReset = true → c.outlivesReset = false → s.hasUnit c → exec c s = .next s

/-- A stopped block ignores doorbells and tiles, admits, dispatches, commits and releases nothing, and runs no bell, routine or instruction (R301). -/
def Obligations.StoppedBlockIgnoresWork : Prop :=
  ∀ (c : Instr) (s : State), s.stopped = true → c.needsLive = true → s.hasUnit c → exec c s = .next s

/-! Doorbells (R232, R233). -/

/-- An accepted TAIL sets TAIL to INDEX, and a repeated INDEX outside DOZE and NAP asks for nothing; a formation that waited for the queue then goes on. IRQ_ACK
clears IRQ_PENDING of its queue in every queue state, and does nothing else. Every other doorbell word, a TAIL that fails a check among them, is counted in
DOORBELL_ERRORS and reported as F_DOORBELL with the queue and the word, and is otherwise ignored (R233, R267). -/
def Obligations.DoorbellWordsAct : Prop :=
  (∀ (s : State) (q i : Nat), s.live = true → q < 262144 → i < 2 ^ 32 → s.tailOk q i = true →
      (((s.obj O.powerState ≠ 1 ∧ s.obj O.powerState ≠ 2) ∨ s.obj O.powerWake ≠ 1) → ∃ u : State, exec (.tail q i) s = .next u.formResume ∧ u.get O.tail q = i ∧ ∀ a, u.byte a = s.byte a) ∧
      (s.get O.tail q = i → (s.obj O.powerState = 0 ∨ s.obj O.powerWake ≠ 1) → exec (.tail q i) s = .next (s.put O.tail q i).formResume)) ∧
  (∀ (s : State) (q : Nat), s.live = true → q < 262144 → exec (.irqAck q) s = .next (s.put O.irqPending q 0)) ∧
  (∀ (s : State) (w : Nat), s.live = true → w < 2 ^ 64 → dbAck w = false → (dbTail w && s.tailOk (dbQueue w) (dbIndex w)) = false →
    let t := (s.bump O.doorbellErrors 0 32 1).report
      { code := 0x0701, queue := some (dbQueue w), tenant := some (s.tenantOf (dbQueue w)), payload := genPay 0 0 w }
    exec (.doorbellErrors w) s = .next t ∧ (∀ q i, w = dbWord 0 q i → exec (.tail q i) s = .next t))

/-! The management port (R346 to R370). -/

/-- A request whose four beats (Table 13.1) have a bad form is answered MALFORMED, counted in FINFA_SERVED and FINFA_REFUSED, and changes nothing else; and a READ, WRITE, NEXT or ABORT that is answered
with any status but OK changes nothing but the response port and its counters (R352, R357). -/
def Obligations.RefusedRequestsChangeNothing : Prop :=
  (∀ (s : State) (b0 b1 b2 b3 : Nat), s.deaf = false →
      let r := FinfaReq.ofBeats [b0, b1, b2, b3]
      let h := r.head
      reqMalformed h r.op r.index r.sub r.data = true → exec (.malformed b0 b1 b2 b3 .ok) s = .next
        (((s.setMoOut (s.moOut ++ [{ op := r.op, fver := h.fver, status := 0x05, ty := 0, tag := h.tag, src := s.obj O.instanceId, req := h.req
                                     index := r.index, sub := r.sub, size := 0, segOff := h.segOff, data := 0 }])).bump O.finfaServed 0 32 1).bump
          O.finfaRefused 0 32 1)) ∧
  (∀ (s t : State) (h : FinfaHead) (index sub v : Nat) (r : FinfaResp), h.chk = .ok →
      ∀ p ∈ ([(.finfaRead h index sub, 1), (.finfaWrite h index sub v, 2), (.abort h index sub v, 5), (.finfaNext h index sub v, 6)] : List (Instr × Nat)),
        exec p.1 s = .next t → t.moOut = s.moOut ++ [r] → r.status ≠ 0 →
          t = s.respond h (s.obj O.instanceId) p.2 r.status 0 0 index sub 0)

/-- NEXT returns TYPE and SIZE of the first object after INDEX:SUB that exists for the role, in ascending order of index and then sub-index, whatever the select
objects read; when none follows it answers NO_SUCH_OBJECT. -/
def Obligations.NextNamesTheFollowingObject : Prop :=
  ∀ (s : State) (h : FinfaHead) (index sub : Nat), s.hears h 6 index sub 0 = true →
    (∀ o, Obj.next h.role (index * 256 + sub) = some o →
      exec (.finfaNext h index sub 0) s = .next (s.okTo s h 6 o 0) ∧ o ∈ objTable ∧ o.visible h.role = true ∧ index * 256 + sub < o.oid ∧
      ∀ x ∈ objTable, x.visible h.role = true → index * 256 + sub < x.oid → o.oid ≤ x.oid) ∧
    (Obj.next h.role (index * 256 + sub) = none →
      exec (.finfaNext h index sub 0) s = .next (s.respond h (s.obj O.instanceId) 6 St.noSuchObject 0 0 index sub 0) ∧
      ∀ x ∈ objTable, x.visible h.role = true → x.oid ≤ index * 256 + sub)

/-- A READ of an object of at most 16 bytes that the role may read returns its value; a SEG_READ at offset 0 returns the first 16 bytes of a larger object and keeps
the rest in a context, and of a smaller object returns the value and closes the context at once, in place of one that the requester held; ABORT closes the requester's context; the first segment of a write opens a context that keeps its bytes; a context unused for SEG_TIMEOUT
closes; a cut packet is counted in FINFA_REFUSED (R356 to R359, R401). -/
def Obligations.ReadsAndSegmentsAnswer : Prop :=
  (∀ (s : State) (h : FinfaHead) (o : Obj),
      (s.hears h 1 (o.oid / 256) (o.oid % 256) 0 = true → objFor h o.oid = some o → o.ty.size ≤ 16 →
        s.allowed o (s.selFor o h 1) h.role h.tenant false = true →
        exec (.finfaRead h (o.oid / 256) (o.oid % 256)) s = .next (s.okTo s h 1 o (s.rdObj o (s.selFor o h 1)))) ∧
      (s.hears h 3 (o.oid / 256) (o.oid % 256) 0 = true → objFor h o.oid = some o → 16 < o.ty.size → h.segOff = 0 →
        s.allowed o (s.selFor o h 3) h.role h.tenant false = true → (s.dropSeg h.req).segs.length < s.obj O.segContexts →
        let x := s.rdObj o (s.selFor o h 3)
        exec (.segRead h (o.oid / 256) (o.oid % 256)) s = .next
          (((s.dropSeg h.req).setSegs ((s.dropSeg h.req).segs ++
            [{ req := h.req, wr := false, oid := o.oid, sel := s.selFor o h 3, data := x, last := 0, lastData := 0, status := none }])).okTo s h 3 o
            (x % 2 ^ 128))) ∧
      (s.hears h 3 (o.oid / 256) (o.oid % 256) 0 = true → objFor h o.oid = some o → o.ty.size ≤ 16 → h.segOff = 0 →
        s.allowed o (s.selFor o h 3) h.role h.tenant false = true → (s.dropSeg h.req).segs.length < s.obj O.segContexts →
        exec (.segRead h (o.oid / 256) (o.oid % 256)) s = .next ((s.dropSeg h.req).okTo s h 3 o (s.rdObj o (s.selFor o h 3) % 2 ^ 128))) ∧
      (∀ c, s.hears h 5 0 0 0 = true → s.segOfReq h.req = some c →
        exec (.abort h 0 0 0) s = .next ((s.setSegs (s.segs.filter (fun c => c.req != h.req))).respond h (s.obj O.instanceId) 5 0 0 0 0 0 0))) ∧
  (∀ (s : State) (h : FinfaHead) (o : Obj) (v : Nat),
      (s.hears h 4 (o.oid / 256) (o.oid % 256) v = true → objFor h o.oid = some o → 16 < o.ty.size → h.segOff = 0 → o.acc.readOnly = false →
        s.allowed o (s.selFor o h 4) h.role h.tenant true = true → v < 2 ^ 128 → s.segOfReq h.req = none → s.segs.length < s.obj O.segContexts →
        exec (.segWrite h (o.oid / 256) (o.oid % 256) v) s = .next
          ((s.setSegs (s.segs ++
            [{ req := h.req, wr := true, oid := o.oid, sel := s.selFor o h 4, data := v, last := 0, lastData := v, status := none }])).okTo s h 4 o 0)) ∧
      (∀ n, exec (.segTimeout n) s = .next (s.setSegs (s.segs.filter (fun c => c.req != n)))) ∧
      (s.deaf = false → exec .finfaPacketDiscard s = .next (s.bump O.finfaRefused 0 32 1)))

/-- The objects whose writes do more than take a value. -/
def actingObjects : List Nat :=
  [O.archLevelRequest, O.queueEnable, O.queueReset, O.slotReset, O.syncValue, O.tmapInvalidate, O.tmtDirBase, O.tmtDirLog2, O.tmtAttr, O.firstFaultClear,
   O.evlogEnable, O.evlogIrqAck, O.epochControl, O.nvStore, O.nvRestore, O.repairStore, O.testCommand, O.bellReset, O.powerRequest, O.throttleForce,
   O.portCheck]

/-- An accepted WRITE of an object that is neither binding nor one that acts sets its value; INSTANCE_ID and EVLOG_HEAD are such objects. -/
def Obligations.AcceptedWritesTakeTheValue : Prop :=
  ∀ (s : State) (h : FinfaHead) (o : Obj) (v : Nat), s.takesWrite h o v = true → o.bind = false → o.oid ∉ actingObjects →
    let t := (s.put o.oid (s.selFor o h 2) (storedValue o.oid v)).okTo s h 2 o 0
    exec (.finfaWrite h (o.oid / 256) (o.oid % 256) v) s = .next t ∧
    (o.oid = O.instanceId → exec (.instanceId h v) s = .next t ∧ storedValue o.oid v = v) ∧
    (o.oid = O.evlogHead → exec (.evlogHead h v) s = .next t ∧ storedValue o.oid v = v)

/-- An accepted write of a binding object acts at once while no epoch stage exists, and is held in the stage while one does: OWNER of a slot resets the
slot at the next close, NAN_TRAP_MODE zeroes the count of trapped NaNs, and a device window drops every cached translation and keeps the results of walks under
way from the cache. -/
def Obligations.BindingWritesActOrStage : Prop :=
  ∀ (s : State) (h : FinfaHead) (o : Obj) (v n : Nat), s.takesWrite h o v = true → o.bind = true → n = s.selFor o h 2 →
    ∀ p ∈ ([(.histOwner h v, O.histOwner, (s.put O.histOwner n v).setHist (SMap.upd {} n (fun x => { x with reset := true }) s.hist)),
            (.nanTrapMode h v, O.nanTrapMode, (s.put O.nanTrapMode n v).put O.nanTrapExtra n 0)] ++
           (List.range 16).map (fun k => (.devwinBase h false k v, O.devwinBase k, ((s.put (O.devwinBase k) n v).staleWalks (fun _ => true)).setTwigs [])) ++
           (List.range 16).map (fun k => (.devwinBase h true k v, O.devwinSize k, ((s.put (O.devwinSize k) n v).staleWalks (fun _ => true)).setTwigs [])) :
           List (Instr × Nat × State)),
      o.oid = p.2.1 →
        (s.stage = none → exec p.1 s = .next (p.2.2.okTo s h 2 o 0)) ∧
        (∀ g, s.stage = some g → exec p.1 s = .next
          (((s.setStage (some { g with writes := g.writes ++ [(o.oid, n, v)] })).setObj O.epochStaged (g.writes.length + 1)).okTo s h 2 o 0))

/-- Accepted writes that start or record something: the granted level, a slot reset, a sync value, invalidations, the first-fault record, EVLOG_PENDING and a
bell-domain reset. An invalidation waits behind the others, and keeps from the cache what walks of its tenant domain that have begun will find; it completes, the
oldest first, once no access waits for such a walk: it then drops the tenant domain's cached translations of the tensor, or all of them, and counts (R282). -/
def Obligations.CommandWritesAndInvalidationsAct : Prop :=
  (∀ (s : State) (h : FinfaHead) (o : Obj) (v n : Nat), s.takesWrite h o v = true → n = s.selFor o h 2 →
      ∀ p ∈ ([(.archLevelRequest h v, O.archLevelRequest, (s.setObj O.archLevelRequest v).setObj O.archLevelGranted (min v (s.obj O.archLevelMax))),
              (.slotReset h v, O.slotReset, s.setHist (SMap.upd {} n (fun x => { x with reset := true }) s.hist)),
              (.syncValue h v, O.syncValue, s.setSyncWrites (s.syncWrites ++ [(n, v)])),
              (.tmapInvalidate h v, O.tmapInvalidate, s.invalidate n v),
              (.tmtDirBase h .dirBase v, O.tmtDirBase, (s.put O.tmtDirBase n v).invalidate n 0),
              (.tmtDirBase h .dirLog2 v, O.tmtDirLog2, (s.put O.tmtDirLog2 n v).invalidate n 0),
              (.tmtDirBase h .attr v, O.tmtAttr, (s.put O.tmtAttr n v).invalidate n 0),
              (.firstFaultClear h v, O.firstFaultClear, (s.setObj O.firstFault 0).setObj O.firstFaultValid 0),
              (.evlogIrqAck h v, O.evlogIrqAck, s.setObj O.evlogPending 0),
              (.bellReset h v, O.bellReset, s.setObj O.bellResetState 1)] : List (Instr × Nat × State)),
        o.oid = p.2.1 → exec p.1 s = .next (p.2.2.okTo s h 2 o 0)) ∧
  (∀ (s : State) (n tid : Nat), (s.invalidate n tid).invals = s.invals ++ [{ tenant := n, tid := tid }] ∧
      (∀ w ∈ (s.invalidate n tid).reads.walks, w.begun = true → w.tenant = n → w.stale = true) ∧
      (∀ x ∈ (s.invalidate n tid).reads.res, x.tenant = n → x.stale = true)) ∧
  (∀ (s : State) (x : Inval) (l : List Inval), s.invals = x :: l →
    (s.staleLeft x.tenant = true → exec .tmapInvDone s = .next s) ∧
    (s.staleLeft x.tenant = false →
      ∃ t : State, exec .tmapInvDone s = .next t ∧ t.invals = l ∧ t.get O.tmapInvDone x.tenant = (s.get O.tmapInvDone x.tenant + 1) % 2 ^ 32 ∧
        (∀ e ∈ t.twigs, e ∈ s.twigs ∧ ¬(e.tenant = x.tenant ∧ (x.tid = 0 ∨ e.tid = x.tid ∨ e.ent.base = x.tid))) ∧
        (∀ e ∈ s.twigs, e.tenant ≠ x.tenant → e ∈ t.twigs) ∧ ∀ a, t.byte a = s.byte a))

/-- The epoch stage: EPOCH_CONTROL = 1 opens it, 2 arms it with EPOCH_NEXT and EPOCH_BELL as they stand, 3 discards it. -/
def Obligations.EpochControlMovesTheStage : Prop :=
  ∀ (s : State) (h : FinfaHead) (o : Obj), o.oid = O.epochControl →
    (s.takesWrite h o 1 = true → exec (.epochOpen h) s = .next
      ((((s.setStage (some { writes := [], armed := none })).setObj O.epochState 1).setObj O.epochStaged 0).okTo s h 2 o 0) ∧ s.stage = none) ∧
    (s.takesWrite h o 2 = true → ∃ g, s.stage = some g ∧ g.armed = none ∧ s.bellNo + 2 ≤ s.obj O.epochBell ∧ s.obj O.epochCurrent < s.obj O.epochNext ∧
      exec (.epochArm h) s = .next
        (((s.setStage (some { g with armed := some (s.obj O.epochNext, s.obj O.epochBell) })).setObj O.epochState 2).okTo s h 2 o 0)) ∧
    (s.takesWrite h o 3 = true → exec (.epochAbort h) s = .next
      ((((s.setStage none).setObj O.epochState 0).setObj O.epochStaged 0).okTo s h 2 o 0))

/-- The persistent objects that a role may write. -/
def restorable (role : Nat) (o : Obj) : Bool :=
  o.pers == .nv && (match o.acc with | .rwOperator => decide (1 ≤ role) | .rwService => role == 2 | _ => false)

/-- STORE and REPAIR_STORE begin with the values in force when the write is served, and end with the older copy as the newer one; a failed store stops the block.
RESTORE = 1 gives every persistent object that the role may write its default; RESTORE = 2 begins a read of the newer NV copy, whose end gives each its value
there, or its default (R361 to R366). -/
def Obligations.NvStoresAndRestores : Prop :=
  (∀ (s : State) (h : FinfaHead) (o : Obj) (v : Nat),
      (s.takesWrite h o v = true → o.oid = O.nvStore →
        exec (.nvStore h v) s = .next ((s.setNv { s.nv with op := some (.store s.snapshot (olderCopy s.nv.copies)) }).okTo s h 2 o 0)) ∧
      (s.takesWrite h o v = true → o.oid = O.repairStore →
        exec (.repairStore h v) s = .next ((s.setNv { s.nv with op := some (.repair (s.obj O.repairMap) (olderCopy s.nv.repair)) }).okTo s h 2 o 0)) ∧
      (∀ snap i, s.nv.op = some (.store snap i) → s.riseDue = false →
        exec (.nvStoreDone true) s = .next (s.setNv { s.nv with
          copies := setNth s.nv.copies i { present := true, seq := nextSeqNo s.nv.copies, good := true, vals := snap }
          storeCount := s.nv.storeCount + 1, op := none }) ∧
        (∃ t : State, exec (.nvStoreDone false) s = .next t ∧ t.obj O.blockState = 1 ∧ t.nv = s.nv.cut)) ∧
      (∀ m i, s.nv.op = some (.repair m i) → s.riseDue = false →
        exec (.repairStoreDone true) s = .next (s.setNv { s.nv with
          repair := setNth s.nv.repair i { present := true, seq := nextSeqNo s.nv.repair, good := true, vals := SMap.put 0 0 m [] }
          repairCount := s.nv.repairCount + 1, op := none }) ∧
        (∃ t : State, exec (.repairStoreDone false) s = .next t ∧ t.obj O.blockState = 1 ∧ t.nv = s.nv.cut))) ∧
  (∀ (s : State) (h : FinfaHead) (o : Obj), o.oid = O.nvRestore →
      (s.takesWrite h o 1 = true → ∃ u : State, exec (.restoreDefaults h) s = .next (u.okTo s h 2 o 0) ∧ (∀ a, u.byte a = s.byte a) ∧
        ∀ x ∈ objTable, ∀ n, n < 262144 → restorable h.role x = true → u.get x.oid n = odfl s.variant x.oid n) ∧
      (∀ k, s.takesWrite h o 2 = true → exec (.restoreNv ⟨h, k⟩) s = .next ((s.setNv { s.nv with op := some (.restore h.role k) }).okTo s h 2 o 0)) ∧
      (∀ role k, s.nv.op = some (.restore role k) → s.inReset = false → s.stage = none → ∃ t : State, exec .restoreDone s = .next t ∧ t.nv.op = none ∧
        (∀ a, t.byte a = s.byte a) ∧ t.obj O.nvCorrected = (s.obj O.nvCorrected + k) % 2 ^ 32 ∧
        ∀ x ∈ objTable, ∀ n, n < 262144 → restorable role x = true →
          t.get x.oid n = SMap.look (odfl s.variant x.oid n) (copyVals s.nv.copies) (okey x.oid n)))

/-- An accepted QUEUE_ENABLE enables a disabled queue with NEXT_SEQ, TAIL, RELEASED and every accounting total 0, and leaves every other object. QUEUE_RESET clears
IRQ_PENDING and ends what the queue has in flight: with no routine of its own running, every descriptor that has not committed completes with F_QUEUE_RESET; a
disabled queue stays as it is. -/
def Obligations.QueuesEnableAndReset : Prop :=
  (∀ (s : State) (h : FinfaHead) (o : Obj) (v n : Nat), s.takesWrite h o v = true → o.oid = O.queueEnable → n = s.selFor o h 2 → n < 262144 →
      let zeroed := [O.nextSeq, O.tail, O.released, O.acctElements, O.acctMacs, O.acctLaneOps, O.acctBytes, O.acctEnergy, O.acctBells, O.acctLateTolls,
        O.acctDescriptors, O.acctErrors]
      ∃ u : State, exec (.queueEnable h v) s = .next (u.okTo s h 2 o 0) ∧ s.get O.queueState n = 0 ∧ u.get O.queueState n = 1 ∧
        (∀ x ∈ zeroed, u.get x n = 0) ∧
        (∀ x k, k < 262144 → x ≠ O.bgMaster → (k ≠ n ∨ (x ≠ O.queueState ∧ x ∉ zeroed)) → u.get x k = s.get x k) ∧
        (u.queue n).infl = [] ∧ (∀ p, p ≠ n → u.queue p = s.queue p) ∧ ∀ a, u.byte a = s.byte a) ∧
  (∀ (s : State) (h : FinfaHead) (o : Obj) (v n : Nat), s.takesWrite h o v = true → o.oid = O.queueReset → n = s.selFor o h 2 → n < 262144 →
      (s.get O.queueState n = 0 → exec (.queueReset h v) s = .next (s.okTo s h 2 o 0)) ∧
      (s.get O.queueState n ≠ 0 → (∀ r ∈ s.routs, r.q = n → r.ended = true) →
        ∃ u : State, exec (.queueReset h v) s = .next ((u.formResume).okTo s h 2 o 0) ∧ u.get O.irqPending n = 0 ∧ u.get O.queueState n ≠ 1 ∧
          (∀ d ∈ (u.queue n).infl, d.isRout = true ∨ d.phase = .parked ∨ (d.phase = .done ∧ d.status = 0x010B ∧ d.committed = false)) ∧
          ∀ a, u.byte a = s.byte a))

/-! Memory ports (R284 to R290). -/

/-- READ_DATA: a beat answered OK puts its 128 bytes in their place, one answered with an error changes no byte, and a beat that is not the last leaves the
read waiting for the next. A beat that names no read, or ends one early or late, fences the port (R285, R290). What a device window then keeps from being moved
off a fenced port fails (`failShut`, R279). -/
def Obligations.ReadDataArrives : Prop :=
  ∀ (s : State) (port tag data resp : Nat) (last poison : Bool), s.Inv → port < s.nPort → s.portTalks port = true →
    let shut := fun (u : State) => u.failShut u.reqs.length
    (s.byTag port tag false = none → exec (.readData port tag data last resp poison) s = .next (shut (s.fencePort port 7 0 {}))) ∧
    (∀ r, s.byTag port tag false = some r →
      let lo := r.addr + 128 * r.got
      (last ≠ (r.got + 1 == r.beats) → exec (.readData port tag data last resp poison) s = .next (shut (s.fencePort port 7 r.addr (s.reqCtx r.owner)))) ∧
      (last = (r.got + 1 == r.beats) → r.late = false → s.stopped = false →
        ∃ t : State, exec (.readData port tag data last resp poison) s = .next t ∧
          (∀ a, t.byte a = if resp = 0 ∧ lo ≤ a ∧ a < lo + 128 then data / 256 ^ (a - lo) % 256 else s.byte a) ∧
          (last = false → (∀ x ∈ s.reqs, x.shut = false) → t.reqs = swapReq r (fun _ =>
            { r with got := r.got + 1, err := max r.err (if resp = 3 then 1 else resp), poisoned := r.poisoned || poison }) s.reqs)) ∧
      (last = (r.got + 1 == r.beats) → r.late = true ∨ s.stopped = true →
        ∃ t : State, exec (.readData port tag data last resp poison) s = .next t ∧ ∀ a, t.byte a = s.byte a))

/-- WRITE_RESPONSE: a write answered OK is in memory, byte for byte, and one answered with an error changes no byte; a late response only frees its tag; a
response that names no write fences the port (R286, R289).
MEM_TIMEOUT: the first leaves the request's tag to its late response and issues the request once more on the next serving port, counted as a retry, unless a device
window now covers it, which then fails it; the second in a row fences the port (R279, R289, R290). -/
def Obligations.PortWritesAndTimeouts : Prop :=
  let shut := fun (u : State) => u.failShut u.reqs.length
  (∀ (s : State) (port tag resp : Nat), s.Inv → port < s.nPort → s.portTalks port = true →
      (s.byTag port tag true = none → exec (.writeResponse port tag resp) s = .next (shut (s.fencePort port 7 0 {}))) ∧
      (∀ r, s.byTag port tag true = some r →
        (r.late = true → exec (.writeResponse port tag resp) s = .next (shut (s.dropReq r))) ∧
        (r.late = false → ∃ t : State, exec (.writeResponse port tag resp) s = .next t ∧
          ∀ a, t.byte a = if resp = 0 ∧ r.addr ≤ a ∧ a < r.addr + r.data.length then nth 0 r.data (a - r.addr) % 256 else s.byte a))) ∧
  (∀ (s : State) (port tag p : Nat) (wr : Bool) (r : MemReq), port < s.nPort → port < 262144 → s.portTalks port = true → s.stopped = false →
      s.byTag port tag wr = some r → r.late = false → isCheck r.owner = false → r.retryOf = none → s.nextPort port = some p →
      let s1 := (s.setReqs (swapReq r (fun x => { x with late := true }) s.reqs)).updRun port (fun x => { x with timeouts := x.timeouts + 1 })
      let n := (s.run port).next
      let again := { r with port := p, tag := none, got := 0, err := 0, poisoned := false, late := false
                            retryOf := some (port, if p ≠ port then some n else none, 6) }
      let u := ((((s1.bump (if wr then O.memportWriteRetries else O.memportReadRetries) port 32 1).addRun port (if p ≠ port then .pend n else .brk)).updRun port
        (fun x => { x with next := n + 1 })).reissue again).retag
      let v := u.fencePort port 6 r.addr (s.reqCtx r.owner)
      (s.inWindow r.span.1 r.span.2 = false →
        ((s.run port).timeouts = 0 → exec (.memTimeout port tag wr) s = .next (shut u)) ∧
        (0 < (s.run port).timeouts → s.serves 6 port = true → exec (.memTimeout port tag wr) s = .next (shut v) ∧ v.get O.memportState port = 1 ∧
          ∀ a, v.byte a = s.byte a)) ∧
      (s.inWindow r.span.1 r.span.2 = true → (s.run port).timeouts = 0 →
        exec (.memTimeout port tag wr) s = .next (shut (((s1.addRun port .brk).failed r 1).retag))))

/-! Streams and events. -/

/-- STREAM_TILE: a tile whose tag and segment name a descriptor, framed as its view and new, joins the descriptor's tiles, and what is then complete is
converted; a tile that names none waits on its port, or is an orphan at once (R89, R90).
ORPHAN_TILE discards the tile that waits, counts it and reports it; CAPTURE_TILE moves a tile from the runner ring to its channel, as the operands of R151 or R156
in the front buffer, unless the tile spills, and CH_TOKENS then counts the tokens that are whole; a poisoned tile, and one whose capture or GRAM has ended, is
dropped (R90, R103, R108, R152). -/
def Obligations.TilesReachTheirDescriptorsOrLeave : Prop :=
  (∀ (s : State) (t : Tile) (u : Nat), t.seg < s.nSeg → s.segTakes t.seg = true → s.segOf t.seg = some u →
      (∀ q d c, s.tagged t.tag t.seg = some (q, d, c) → d.phase ≠ .parked → d.phase ≠ .done →
        (t.framed c = true → c.gang = 1 → (∀ y ∈ d.tilesIn, y.no c ≠ t.no c) →
          exec (.streamTile t .ok) s = .next ((s.dupd q d.seq (fun d => { d with tilesIn := d.tilesIn ++ [t] })).convReady q d.seq)) ∧
        (t.framed c = false → exec (.streamTile t .ok) s = .next (s.stopConv q d.seq 0x0201 c.mainTid (t.no c)))) ∧
      (s.tagged t.tag t.seg = none →
        (s.bget O.hedgeTagWait 0 ≠ 0 → ∀ k, exec (.streamTile t k) s = .next (s.setWaitTiles (SMap.put none t.seg (some (t, k)) s.waitTiles))) ∧
        (s.bget O.hedgeTagWait 0 = 0 → ∀ k, exec (.streamTile t k) s = .next ((s.bump O.hedgeOrphanTiles 0 32 1).report
          { code := 0x0206, unitKind := 1, unit := t.seg, payload := genPay 0 0 t.tag })))) ∧
  (∀ s : State, s.live = true → s.awake = true →
      (∀ seg t k, seg < s.nSeg → s.segFrozen = false → s.segOf seg ≠ none → SMap.look none s.waitTiles seg = some (t, k) → exec (.orphanTile seg) s = .next
        (((s.setWaitTiles (SMap.put none seg none s.waitTiles)).bump O.hedgeOrphanTiles 0 32 1).report
          { code := 0x0206, unitKind := 1, unit := t.seg, payload := genPay 0 0 t.tag })) ∧
      (∀ (c : CapTile) (t : Captured), s.obj O.ringState ≠ 2 →
        s.ring.find? (fun x => x.q == c.q && x.seq == c.seq && x.trow == c.trow && x.tcol == c.tcol) = some t →
        let ch := SMap.look {} s.chans t.ch
        let cap := ch.caps.find? (fun p => p.q == t.q && p.seq == t.seq)
        let gone := s.setRing (s.ring.filter (fun x => x != t))
        (ch.owner = none ∨ cap = none ∨ (∃ g, ch.owner = some g ∧ s.rfind g.1 g.2 = none) ∨ t.poison = true → exec (.captureTile c .ok) s = .next gone) ∧
        (∀ gq gs g p, ch.owner = some (gq, gs) → s.rfind gq gs = some g → cap = some p → t.poison = false →
          let x := capOperands t p.conv g.r.ipath
          let n := capSize t p.conv
          let ch' := { ch with tiles := ch.tiles ++ [{ q := t.q, seq := t.seq, no := t.no, bytes := n, ops := x.1 }] }
          tileK ch t.q t.seq (x.1.map (·.1)) / 64 ≤ ch.ready g.r.dim g.r.tokens / 64 ∨
            (s.obj O.frontState ≠ 1 ∧ s.frontUsed + n ≤ s.obj O.frontBufferBytes) →
          exec (.captureTile c .ok) s = .next (((gone.setChans (SMap.put {} t.ch ch' s.chans)).bump O.frontRounded 0 32 x.2).put O.chTokens t.ch
            (ch'.received g.r.dim)))))

/-- EVLOG_ENABLE = 1 empties the ring, with an entry whose write is outstanding buffered again, 0 disables it; EVLOG_ENTRY_WRITE takes the oldest buffered event, and asks for the write of its entry, with the phase of
the lap, in the slot that EVLOG_TAIL names. The entry is in the ring when the write is answered (R311, R312). -/
def Obligations.EventsGoToTheRing : Prop :=
  ∀ (s : State),
    (∀ h o, s.takesWrite h o 1 = true → o.oid = O.evlogEnable →
      let b := (match s.evOut with | some e => (s.setEvOut none).setEvbuf (e :: s.evbuf) | none => s).giveUp isEvlog
      exec (.evlogEnable h 1) s = .next ((((b.setObj O.evlogTail 0).setObj O.evlogHead 0).setObj O.evlogEnable 1).okTo s h 2 o 0)) ∧
    (∀ h o, s.takesWrite h o 0 = true → o.oid = O.evlogEnable → exec (.evlogEnable h 0) s = .next ((s.setObj O.evlogEnable 0).okTo s h 2 o 0)) ∧
    (∀ e l p, s.evbuf = e :: l → s.evOut = none → s.obj O.evlogEnable = 1 → s.inReset = false → s.stopped = false → s.obj O.powerState ≠ 3 →
      let n := s.obj O.evlogTail
      let k := s.obj O.evlogLog2
      let a := s.obj O.evlogBase + 64 * (n % 2 ^ k)
      (n + 2 ^ 32 - s.obj O.evlogHead) % 2 ^ 32 < 2 ^ k → s.inWindow a 64 = false → s.portOf a = some p → a % 64 = 0 →
      ∃ (t : State) (r : MemReq), exec .evlogEntryWrite s = .next t ∧ t.evbuf = l ∧ t.evOut = some e ∧ t.reqs = s.reqs ++ [r] ∧
        r.wr = true ∧ r.port = p ∧ r.addr = a ∧ r.owner = .evlog (evSeverity e.code) ∧
        r.data = toBytes 64 (evEntry e (1 - n / 2 ^ k % 2)) ∧ ∀ b, t.byte b = s.byte b)

/-! Power, throttle and sensors. -/

/-- A request for a power state (R381): once the block runs, the higher of the two requests begins a move down, ends one, or begins the exit.
POWER_ENTRY reaches the state asked for once its drain is complete: POWER_STATE and PSTATE_ACK take it, NAP drops cached translations and images, SLEEP the
transfer contexts; POWER_EXIT_DONE reaches the state asked for, and the REDUCE under way and a formation that waited go on (R382, Table 14.2). -/
def Obligations.PowerStatesMove : Prop :=
  (∀ (s s1 : State), s.inReset = false → s.stopped = false → s.phase = 4 → s.obj O.powerState ≠ 3 → s.draining = false →
      let moved :=
        if s1.powerWanted = s.obj O.powerState then ((s1.setExiting false).setMoving none).setDraining false
        else if s1.powerWanted < s.obj O.powerState then ((s1.setExiting true).setMoving none).setDraining false
        else (s1.setExiting false).setMoving (some (s1.powerWanted, match s.moving with
          | some (_, c) => c
          | none => if s.obj O.powerAtBell ≤ s.bellNo then 0 else s.obj O.powerAtBell - 1))
      (∀ h o v, s.takesWrite h o v = true → o.oid = O.powerRequest → s1 = s.setObj O.powerRequest v →
        exec (.powerRequest h v) s = .next (moved.okTo s h 2 o 0)) ∧
      (∀ v, s1 = s.setPstateReq (v % 4) → exec (.pstateReq v) s = .next moved)) ∧
  (∀ s : State, s.inReset = false →
      (∀ t c, s.moving = some (t, c) → 1 ≤ t → t ≤ 3 → s.draining = true → s.powerDrained t = true → (t = 3 → s.nv.op = none) →
        ∃ x : State, exec .powerEntry s = .next x ∧ x.obj O.powerState = t ∧ x.pstateAck = t ∧ x.moving = none ∧ x.draining = false ∧
          (t = 1 → x.obj O.dozeEntries = (s.obj O.dozeEntries + 1) % 2 ^ 32) ∧
          (t = 2 → x.twigs = [] ∧ x.store = [] ∧ x.obj O.napEntries = (s.obj O.napEntries + 1) % 2 ^ 32) ∧ (t = 3 → x.segs = []) ∧
          ∀ a, x.byte a = s.byte a) ∧
      (s.exiting = true → (s.obj O.powerState = 1 ∨ (s.obj O.powerState = 2 ∧ s.pgLane = true ∧ s.pgSpire = true)) →
        ∃ u : State, exec .powerExitDone s = .next u.redResume.formResume ∧ u = ((s.setPstateAck s.powerWanted).setExiting false).setObj O.powerState s.powerWanted))

/-- THROTTLE_LEVEL is the highest of THR, the thermal level and THROTTLE_FORCE: a write of THROTTLE_FORCE and a change of THR set it at once, and what it no
longer freezes goes on (R384).
TEMP_READ keeps the readings, the highest and the peak, and sets THERMAL_LEVEL: up at once, with an event that names the sensor, and down only below the
threshold of the level less TEMP_HYST (R385, R386).
CLOCK_MEASURE records both clocks and counts those outside the ranges of R414. GOVERNOR_WINDOW acts only where the estimate of the window that ends is above
POWER_LIMIT_W, and on MQ1-L only above the nominal LCLK; the cycles that it then freezes, a free value within those that the throttle leaves (the model's
choice, log 3), are counted in GOVERNOR_FROZEN and, one array in each by rotation (log 70), in FREEZE_CYCLES; the next estimate begins at 0 (R17, R18, R393). -/
def Obligations.ThrottleAndSensors : Prop :=
  (∀ s : State, s.inReset = false → s.obj O.powerState ≠ 3 →
      let at' := fun (x : State) (n : Nat) =>
        let t := x.setObj O.throttleLevel n
        t.thaw (s.segFrozen && !t.segFrozen) (s.lanFrozen && !t.lanFrozen)
      (∀ h o v, s.takesWrite h o v = true → o.oid = O.throttleForce → exec (.throttleForce h v) s = .next
        ((at' (s.setObj O.throttleForce v) (max (s.obj O.thrInput) (max (s.obj O.thermalLevel) v))).okTo s h 2 o 0)) ∧
      (∀ v, exec (.thr v) s = .next (at' ((s.setThrPin (v % 8)).setObj O.thrInput (v % 8)) (max (v % 8) (max (s.obj O.thermalLevel) (s.obj O.throttleForce))))) ∧
      ∀ x : State, x.thaw false false = x) ∧
  (∀ (s : State) (readings : List Nat) (i : Nat) (t : Int), s.inReset = false → s.phase ≠ 0 → s.obj O.powerState ≠ 3 →
      let l := (readings.take (s.obj O.tempSensors)).map (fun x => x % 65536)
      let at' := l.map (sext 16)
      at'[i]? = some t → (∀ x ∈ at', x ≤ t) → (∀ j < i, at'[j]? ≠ some t) →
      let s1 := (s.setObj O.tempTable (ofBytes (l.flatMap (toBytes 2)))).setObj O.tempMax (trunc2 16 t)
      let s2 := if sext 16 (s.obj O.tempPeak) < t then s1.setObj O.tempPeak (trunc2 16 t) else s1
      let cur := s.obj O.thermalLevel
      let new := if (s.obj O.tempCrit : Int) ≤ t then 7 else if (s.obj O.tempHot : Int) ≤ t then 5 else if (s.obj O.tempWarn : Int) ≤ t then 2 else 0
      let limit := if cur = 7 then s.obj O.tempCrit else if cur = 5 then s.obj O.tempHot else s.obj O.tempWarn
      let fell := (s2.setObj O.thermalLevel new).throttle
      exec (.tempRead readings) s = .next
        (if cur < new then fell.report { code := 0x0A01, payload := genPay 0 ((if new = 7 then 3 else if new = 5 then 2 else 1) * 2 ^ 24 + i) (trunc2 16 t) }
         else if new < cur ∧ t + (s.obj O.tempHyst : Int) < (limit : Int) then fell else s2)) ∧
  (∀ s : State,
      (∀ l m, s.inReset = false → s.obj O.powerState ≠ 3 → exec (.clockMeasure l m) s = .next
        (((s.setObj O.lclkKhz (l % 2 ^ 32)).setObj O.mclkKhz (m % 2 ^ 32)).bump O.clockOutOfRange 0 32
          ((if l < 1000000 ∨ 1400000 < l then 1 else 0) + (if m < 100000 ∨ 400000 < m then 1 else 0)))) ∧
      (s.live = true → ∀ acts : Bool, (acts = true ↔ s.budgetFJ < s.gov.fJ ∧ ¬(s.variant = .l ∧ s.lclk ≤ 1250000)) →
        let f := if acts then min (1024 - frozenIn (s.obj O.throttleLevel) s.cycle 1024) (Config.governorFrozen s.freeCtr).toNat else 0
        exec .governorWindow s = .next
          ((List.range s.nArr).foldl (fun t a => t.bump O.freezeCycles a 32 ((List.range f).filter (fun i => (s.gov.next + i) % s.nArr == a)).length)
            (((if acts then s.setFreeCtr (s.freeCtr + 1) else s).setGov { fJ := 0, next := (s.gov.next + f) % s.nArr }).bump O.governorFrozen 0 32 f))))

/-! Tests, resets and start-up. -/

/-- Tests start (R318 to R320, R413, R415): TEST_COMMAND and the IEEE 1687 network name a unit that leaves service, at once or once its routines have left it,
and RETURN one that is out of service; PORT_CHECK asks each serving port for the write of its pattern.
TEST_DRAIN_DONE starts the self-test once the unit is idle; SELF_TEST_DONE gives the verdict, and returns a unit that passes, but for HOLD; one that fails is
fenced; WIR_UPDATE loads one wrapper instruction register (R318, R319, R410). -/
def Obligations.TestsStartAndEnd : Prop :=
  (∀ (s : State) (h : FinfaHead) (o : Obj),
      let begins := fun (cmd kind u : Nat) (net : Bool) =>
        let s1 := ((s.setTest (some { cmd := cmd, kind := kind, unit := u, net := net })).setIjtag (if net then 1 else s.ijtag)).setObj O.testState 1
        if cmd = 3 then s1
        else if kind = 2 ∨ kind = 4 ∨ kind = 5 then
          (s1.routs.filter (s1.uses (if kind = 5 then 5 else 2) u)).foldl (fun s r => s.askPreempt r.q r.seq false) s1
        else s1.goOffline kind u
      (o.oid = O.testCommand →
        ∀ p ∈ ([(.test h, 1), (.testHold h, 2), (.testReturn h, 3)] : List (Instr × Nat)), s.takesWrite h o p.2 = true →
          exec p.1 s = .next ((begins p.2 (s.obj O.testKind) (s.obj O.testUnit) false).okTo s h 2 o 0)) ∧
      (∀ kind u, s.testMode = false → s.inReset = false → s.phase ≠ 0 →
        (s.obj O.ijtagAccess = 1 → s.loaded = true → s.obj O.powerState ≠ 3 → s.testRefused 1 kind u = false →
          exec (.ijtagUnitSelfTest kind u) s = .next (begins 1 kind u true)) ∧
        (s.obj O.ijtagAccess ≠ 1 ∨ s.loaded = false ∨ s.obj O.powerState = 3 ∨ s.testRefused 1 kind u = true →
          exec (.ijtagUnitSelfTest kind u) s = .next (s.setIjtag 3))) ∧
      (s.takesWrite h o 1 = true → o.oid = O.portCheck → ∃ x : State, exec (.portCheck h 1) s = .next (x.okTo s h 2 o 0) ∧
        x.obj O.portCheckState = 1 ∧ x.obj O.portCheckFailed = 0 ∧ x.check = some { addr := s.obj O.portCheckAddr, ports := s.ports } ∧
        ∃ l, x.reqs = s.reqs ++ l ∧ l.map (fun r => (r.port, r.addr, r.wr, r.data)) = s.ports.map (fun n =>
          (n, s.obj O.portCheckAddr + 128 * n, true, (List.range 128).map (fun k => (n * 37 + k) % 256))))) ∧
  (∀ (s : State),
      (∀ t, s.test = some t → t.unit < 262144 → s.obj O.testState = 1 → s.testDrained t = true → ∃ x : State, exec .testDrainDone s = .next x ∧ x.obj O.testState = 2 ∧
        x.obj O.testRuns = (s.obj O.testRuns + 1) % 2 ^ 32 ∧ x.test = s.test) ∧
      (∀ t, s.test = some t → s.testMode = false → s.obj O.testState = 2 →
        (∃ x : State, exec (.selfTestDone t.kind t.unit [] false) s = .next x ∧ x.obj O.testState = 3 ∧ x.obj O.testResult = 0xFFFF) ∧
        (t.kind ∈ [5, 6] → t.unit < 262144 → t.cmd ≠ 2 → ∃ x : State, exec (.selfTestDone t.kind t.unit [] false) s = .next x ∧
          x.get (stateOid t.kind) t.unit = 0 ∧ x.test = none) ∧
        (t.kind = 1 → t.unit < 262144 → t.cmd ≠ 2 →
          let u := ((s.setTest none).setIjtag (if t.net then 2 else s.ijtag)).setUnit 1 t.unit 0
          let v := u.convResume.joinAll
          u.get (stateOid 1) t.unit = 0 ∧ exec (.selfTestDone 1 t.unit [] false) s = .next
            (((if t.cmd = 3 then v.report { code := 0x0903, unitKind := 1, unit := t.unit, payload := genPay 0 8 0 } else v).setObj O.testState 3).setObj
              O.testResult 0xFFFF)) ∧
        (t.kind ∈ [1, 5, 6] → t.unit < 262144 → ∀ e, ∃ x : State, exec (.selfTestDone t.kind t.unit [e] false) s = .next x ∧ x.obj O.testState = 4 ∧
          x.obj O.testResult = 2 ^ 24 + (if t.kind = 6 then 0xFFFF else e) ∧ x.get (stateOid t.kind) t.unit = 1)) ∧
      (∀ m code, s.hasMacro m = true → ∃ x : State, exec (.wirUpdate m code) s = .next x ∧ x = s.setWirs x.wirs ∧ x.wir m = code % 16 ∧
        ∀ n, n ≠ m → x.wir n = s.wir n))

/-- What the resets lose and keep (R373, R379, R389, R397): every reset ends what runs and leaves host memory and the waiting commands; a cold reset gives every
object its default, a warm one leaves those that are persistent or always on, TEST_MODE_STATE and PSTATE_ACK (R399). In NAP and SLEEP WARM_RST_N waits until every
domain is within tolerance (R390). A supply that falls holds the block in reset, in test mode too (R397). -/
def Obligations.ResetsKeepWhatLiesOutside : Prop :=
  ∀ (s : State),
    let empty := fun (t : State) => t.queues = [] ∧ t.routs = [] ∧ t.reqs = [] ∧ t.evbuf = [] ∧ t.bell = .none ∧ t.mem = s.mem ∧ t.pending = s.pending
    let cold := fun (t : State) => empty t ∧ t.coldHeld = true ∧ t.warmHeld = false ∧ t.objs = [] ∧ t.nv = s.nv.cut
    let warm := fun (t : State) => empty t ∧ t.coldHeld = false ∧ t.warmHeld = true ∧ t.evSeq = s.evSeq ∧ t.tb = s.tb ∧
      t.pstateAck = s.pstateAck ∧ (∀ x n, x ≠ O.bgMaster → n < 262144 → t.get x n =
        if persOf x = .nv ∨ persOf x = .always ∨ x = O.testModeState then s.get x n else odfl s.variant x n)
    (∀ p, ∃ t : State, exec (.coldReset p) s = .next t ∧ cold t ∧ t.wirs = (if p then [] else s.wirs)) ∧
    (s.inReset = false → s.warmAsk = false → s.obj O.powerState ≠ 3 → ¬(2 ≤ s.obj O.powerState ∧ s.supplied = false) →
      ∃ t : State, exec .warmReset s = .next t ∧ warm t) ∧
    (s.inReset = false → s.warmAsk = false → 2 ≤ s.obj O.powerState → s.supplied = false → exec .warmReset s = .next (s.setWarmAsk true)) ∧
    (∀ d, s.inReset = false → s.obj O.powerState < 2 → ∃ t : State, exec (.powerGoodFall d) s = .next t ∧ t.riseDue = true ∧
      (d = .lane → t.pgLane = false ∧ warm t) ∧ (d = .spire → t.pgSpire = false ∧ warm t) ∧ (d = .aon → t.pgAon = false ∧ cold t) ∧
      (d = .nv → t.pgNv = false ∧ cold t))

/-- A reset released with its supplies good and no store under way starts the block: phase 1, the cause in RESET_CAUSE, and a cycle number of 0; COLD_RST_N released
for TEST_MODE leaves it in phase 0, and in test mode no reset that ends starts it. Until then the release waits for the supply that is missing (R373, R379, R390,
R409).
NV_LOAD begins phase 2 with the dictionary loaded and the repair map applied; CORE_TEST begins phase 3 and the group formation, but a singular unit that
fails stops the block (R364, R374, R387). -/
def Obligations.StartUpRuns : Prop :=
  (∀ (s : State), s.queues = [] → s.nv.storing = false → s.obj O.powerState ≠ 3 → s.warmAsk = false →
      let starts := fun (c : Instr) (cause : Nat) => ∃ t : State, exec c s = .next t ∧ t.phase = 1 ∧ t.obj O.resetCause = cause ∧ t.cycle = 0 ∧
        t.inReset = false ∧ t.loaded = false ∧ t.riseDue = false ∧ t.mem = s.mem
      (s.coldHeld = true → s.supplied = true → starts (.coldResetRelease false) 1 ∧
        ∃ t : State, exec (.coldResetRelease true) s = .next t ∧ t.coldHeld = false ∧ t.testMode = true ∧ t.phase = s.phase) ∧
      (s.coldHeld = false → s.warmHeld = true → s.supplied = true → s.testMode = false → starts .warmResetRelease 2) ∧
      (s.coldHeld = false → s.warmHeld = true → s.supplied = true → s.testMode = true →
        exec .warmResetRelease s = .next (((s.setColdHeld false).setWarmHeld false).setRiseDue false)) ∧
      (s.coldHeld = false → s.warmHeld = true → s.supplied = false → exec .warmResetRelease s = .next (s.setRiseDue true)) ∧
      (∀ d, let t := match d with | .lane => s.setPgLane true | .spire => s.setPgSpire true | .aon => s.setPgAon true | .nv => s.setPgNv true
        (s.riseDue = false → exec (.powerGoodRise d) s = .next t) ∧
        (s.riseDue = true → t.supplied = true → s.coldHeld = true → s.testMode = false → starts (.powerGoodRise d) 1) ∧
        (s.riseDue = true → t.supplied = true → s.coldHeld = false → s.testMode = false → starts (.powerGoodRise d) 2) ∧
        (s.riseDue = true → t.supplied = true → s.testMode = true →
          exec (.powerGoodRise d) s = .next (((t.setColdHeld false).setWarmHeld false).setRiseDue false)))) ∧
  (∀ (s : State), s.inReset = false →
      (∀ n, s.phase = 1 → (∃ t : State, exec (.nvLoad n) s = .next t ∧ t.phase = 2 ∧ t.loaded = true ∧ t.mem = s.mem) ∧
        (copyVals s.nv.copies = [] → copyVals s.nv.repair = [] → s.warmStart = false → s.ports ≠ [] → exec (.nvLoad n) s = .next
          ((((((((s.setObj O.nvLoadStatus (loadStatus s.nv.copies)).setWarmStart false).setSleepStart false).setLoaded true).bump O.nvCorrected 0 32 n).setObj
            O.repairMap 0).setObj O.repairLoadStatus (loadStatus s.nv.repair)).setObj O.startupPhase 2))) ∧
      (s.phase = 2 → s.stopped = false →
        (∃ u : State, exec (.coreTest []) s = .next u.formArrive ∧ u.phase = 3 ∧ u.mem = s.mem) ∧
        (∀ r, r.kind = 8 ∨ (10 ≤ r.kind ∧ r.kind ≤ 13) → ∃ t : State, exec (.coreTest [r]) s = .next t ∧ t.obj O.blockState = 1 ∧ t.phase = 2)))

/-! The bell (R221 to R227, R375). -/

/-- A bell tolls, no earlier than it is due and than its close allows: the next bell opens at the toll, is due a period later, and a late toll is counted. The
toll of a group's member is at the stamp of its RELEASE; while it has none, nothing happens (R225, R226, R333).
F_BELL_OVERRUN is raised once, at four periods after the opening, while the close has not ended; PACE_BREAKS ends the pace wait of the queue at its turn
(R223, R226). -/
def Obligations.BellsTollOverrunAndBreak : Prop :=
  (∀ (s : State), s.bell = .formed → s.live = true →
      let opens := fun (at' : Nat) => ∃ u : State, exec .toll s = .next u.formed ∧ u.bellNo = s.bellNo + 1 ∧ u.bell = .open ∧ u.cycle = at' ∧
        u.openedAt = at' ∧ u.due = at' + s.form.period ∧ u.overrun = false ∧ u.transBell = [] ∧ (∀ a, u.byte a = s.byte a) ∧
        (s.queues = [] → u.obj O.lateTolls = if s.due < at' then (s.obj O.lateTolls + 1) % 2 ^ 32 else s.obj O.lateTolls)
      (s.group.size ≤ 1 → opens (max s.cycle (max s.due (s.closedAt + s.obj O.bellCloseCycles)))) ∧
      (1 < s.group.size → s.group.stamp = none → exec .toll s = .next s) ∧
      (∀ t, 1 < s.group.size → s.group.stamp = some t → opens (max s.cycle (s.cycleOf t)))) ∧
  (∀ (s : State), s.live = true →
      (s.overrun = false → s.bell ≠ .none →
        let lim := s.openedAt + 4 * (s.due - s.openedAt)
        let u := s.until lim
        ¬(s.bell = .formed ∧ s.closedAt + s.obj O.bellCloseCycles ≤ lim) →
        exec .fBellOverrun s = .next (((u.setOverrun true).bump O.overruns 0 32 1).report
          { code := 0x0704, payload := genPay 0 (3 * (s.due - s.openedAt)) s.bellNo })) ∧
      (∀ q t rest, s.form.waiting = some q → s.form.turn = t :: rest → t.q = q → s.form.phase = 3 →
        ∃ u : State, exec .paceBreaks s = .next u.formMore.formed ∧ u.form.turn = rest ∧ u.form.waiting = none ∧ u.cycle = max s.cycle (s.form.since + s.form.pace) ∧
          u.obj O.paceBreaks = (s.obj O.paceBreaks + 1) % 2 ^ 32 ∧ ∀ a, u.byte a = s.byte a))

/-- BELL_CLOSE waits for what holds the close. Where nothing does, and the checks on the sequencer pass or fail but once, it completes, whatever its comparators'
self-test and the central scale unit's checks give: the close applies its steps, takes the binding objects and forms the next bell, or restarts the bells where
BELL_RESET asked for it and nothing admitted is incomplete; a lasting fault of the sequencer stops the block (R225, R227, R300, R303, R380, R419). In a block with
nothing in flight it applies the sync writes and updates every slot that was fed; a comparator that fails its self-test discards the bell's feeds and freezes the
scales (R64, R80, R304). -/
def Obligations.BellsClose : Prop :=
  ∀ (s : State),
    (∀ segs cf ck sq, s.closable = false → exec (.bellClose segs ⟨cf, ck, sq⟩) s = .next s) ∧
    (∀ segs cf ck sq, s.closable = true → (∀ c i l, sq ≠ .lasting c i l) → ∃ u : State, (∀ a, u.byte a = s.byte a) ∧ u.obj O.digestBell = s.bellNo + 1 ∧
      let t := u.powerClose s.bellNo
      (exec (.bellClose segs ⟨cf, ck, sq⟩) s = .next (((t.setBell .forming).beginForm (s.bellNo + 1)).formed) ∨
        (s.obj O.bellResetState = 1 ∧ exec (.bellClose segs ⟨cf, ck, sq⟩) s = .next t.restartBells)) ∧
      (s.obj O.bellResetState = 1 → s.queues = [] → s.routs = [] → exec (.bellClose segs ⟨cf, ck, sq⟩) s = .next t.restartBells)) ∧
    (∀ segs cf ck c i l, s.closable = true → exec (.bellClose segs ⟨cf, ck, .lasting c i l⟩) s = .next (s.stop 0x0907 10 c)) ∧
    (∀ n h central, s.closable = true → s.queues = [] → s.routs = [] → s.hist = [(n, h)] → n < 16384 → h.fed = true → h.reset = false → s.frozen = false →
      s.syncWrites = [] → s.syncUpds = [] → s.obj O.bellResetState ≠ 1 → s.stage = none → s.moving = none →
      ∃ u : State, exec (.bellClose [] ⟨central, .ok, .ok⟩) s = .next ((u.setBell .forming).beginForm (s.bellNo + 1)).formed ∧
        u.obj O.digestBell = s.bellNo + 1 ∧ u.frozen = central ∧ (∀ a, u.byte a = s.byte a) ∧
        let ring := (h.curMax :: h.ring).take 16
        let fill := min (s.get O.ringFill n + 1) 16
        (central = false → SMap.look {} u.hist n = { ring := ring } ∧ u.get O.ringFill n = fill ∧
          u.get O.hmax n = maxF (ring.take (min (s.get O.histWindow n) fill))) ∧
        (central = true → SMap.look {} u.hist n = { ring := h.ring } ∧ u.get O.ringFill n = s.get O.ringFill n ∧ u.get O.hmax n = s.get O.hmax n ∧
          u.obj O.comparatorState = 1 ∧ u.obj O.comparatorFails = (s.obj O.comparatorFails + 1) % 2 ^ 32))

/-- The formation of a group ends without the members that have not come: FORMATION_TIMEOUT makes the master open bell 0 without them, and GROUP_OF_ONE makes a
member a group of one, which opens bell 0 in its own cycle (R375, R376). -/
def Obligations.GroupsFormWithoutTheAbsent : Prop :=
  ∀ (s : State), s.grouping = true →
    (s.draining = false → s.stage = none → ∃ u : State,
      exec .groupOfOne s = .next (((u.beginForm 0).setDue ((u.beginForm 0).openedAt + (u.beginForm 0).form.period)).formed) ∧
      u.bell = .open ∧ u.bellNo = 0 ∧ u.openedAt = s.cycle ∧ u.group.size = 1 ∧ u.group.self = s.obj O.instanceId ∧ u.obj O.bgLive = 1 ∧
      u.obj O.bellResetState = 0 ∧ (s.phase = 3 → u.phase = 4) ∧ ∀ a, u.byte a = s.byte a) ∧
    (s.isMaster = true → s.group.size ≤ 1 → exec .formationTimeout s = .next s.openBell0) ∧
    (s.isMaster = true → 1 < s.group.size →
      let gone := (List.range s.group.size).filter (fun r => !(r ∈ s.presentRanks))
      let stamp := (s.arrived (s.tb / 2 ^ 32)).1 + s.obj O.tollMargin * 65536
      ∃ v : State, exec .formationTimeout s = .next (v.openBell0.updGroup (fun g => { g with ownDigest := crc64 (digestBytes s.get) })) ∧
        v.group.lost = gone ∧ v.group.arrivals = [] ∧ v.obj O.bgLive = s.group.size - gone.length ∧ s.cycleOf stamp ≤ v.cycle) ∧
    (s.isMaster = false → exec .formationTimeout s = .next s)

/-- What a close ends, once nothing else holds it: a stream-side descriptor that misses tiles of its view, or has tiles that a pair of its range, which is out,
cannot deliver, stops with F_STREAM_TIMEOUT where its timeout falls, a routine whose deadline falls
ends with outcome DEADLINE, and a BELL_WAIT whose hold ends completes (R91, R107, R171, R222). That R91 speaks of the pair that is out as of the tile that is
missing is the model's reading of R107 (log 69). -/
def Obligations.ExpiriesEndWork : Prop :=
  ∀ (s : State) (q seq : Nat), s.closable = true →
    (∀ d c, s.dfind q seq = some d → streamOf d = some c → (d.phase = .admitted ∨ d.phase = .running) →
      (c.srcStream = true ∧ d.tilesIn.length < c.tiles) ∨ ((∃ i < c.segSpan, s.segOf (c.segBase + i) = none) ∧ d.tilesOk.length < c.tiles) →
      d.firstBell + d.streamT ≤ s.bellNo + 1 → exec (.fStreamTimeout q seq) s = .next (s.dupd q seq (fun d =>
        { d with phase := .done, status := 0x0202, committed := false, stopTid := c.mainTid, stopTile := 0 }))) ∧
    (∀ r, s.rfind q seq = some r → r.ended = false → r.r.deadline ≠ 0 → r.admBell + r.r.deadline ≤ s.bellNo + 1 →
      exec (.deadline q seq) s = .next ((s.endRout q seq 2 0).commitNow q seq)) ∧
    (∀ d n, s.dfind q seq = some d → d.d.malformed = false → d.noSync = false → d.d.body = .bellWait n → 0 < n → d.firstBell + n - 1 ≤ s.bellNo →
      (d.phase = .admitted ∨ d.phase = .running) →
      let u := s.dupd q seq (fun d => { d with phase := .done })
      let e := { d with phase := .done }
      exec (.bellWaitEnd q seq) s = .next (if u.workDone q e then u.commitD q e else u))

/-! Descriptors (R237, R241, R245 to R249, R259 to R263). -/

/-- Control descriptors complete at their dispatch, wherever SYNC_OWNER allows: NOP, FENCE, SIGNAL, a satisfied WAIT and a BELL_WAIT of 0; a BELL_WAIT of more
holds until its close. A malformed descriptor completes with F_DESC_MALFORMED, a WAIT whose time is over with F_WAIT_TIMEOUT, and nothing is dispatched while
the queue's next descriptor is another. -/
def Obligations.ControlDescriptorsComplete : Prop :=
  ∀ (s : State) (q : Nat) (d : DRt), s.phase = 4 → s.nextDisp q = some d →
    (∀ p ∈ ([(.nop q, 0x00), (.fence q, 0x30), (.signal q, 0x32), (.waitOp q, 0x33), (.bellWait q, 0x31)] : List (Instr × Nat)),
      d.d.malformed = false → d.d.opcode = p.2 → d.noSync = false → waitLate d = false →
        (bellWaitEnd d = none → exec p.1 s = .next (s.dupd q d.seq (fun d => { d with phase := .done }))) ∧
        (bellWaitEnd d ≠ none → exec p.1 s = .next (s.dupd q d.seq (fun d => { d with phase := .running })))) ∧
    (∀ p ∈ ([(.nop q, 0x00), (.fence q, 0x30), (.signal q, 0x32), (.waitOp q, 0x33), (.bellWait q, 0x31)] : List (Instr × Nat)),
      d.d.malformed = false → d.d.opcode = p.2 → d.noSync = true → exec p.1 s = .next (s.refuseD q d.seq 0x0106 0)) ∧
    (∀ (ks : TileChks) (k : Chk), ∀ p ∈ ([(.nop q, 0x00), (.convert ⟨q, ks⟩, 0x01), (.quant ⟨q, ks⟩, 0x02), (.dequant ⟨q, ks⟩, 0x03), (.stats ⟨q, ks⟩, 0x04), (.gram q, 0x10),
        (.rootOp q, 0x11), (.solve q, 0x12), (.precond q, 0x13), (.reduce ⟨q, k⟩, 0x20), (.fence q, 0x30), (.signal q, 0x32), (.waitOp q, 0x33), (.bellWait q, 0x31)] :
        List (Instr × Nat)), d.d.malformed = true ∨ d.d.opcode ≠ p.2 → exec p.1 s = .next s) ∧
    (d.d.malformed = true → exec (.fDescMalformed q) s = .next (s.refuseD q d.seq 0x0101 0)) ∧
    (waitLate d = true → exec (.fWaitTimeout q d.seq) s = .next (s.refuseD q d.seq 0x010C 0))

/-- A conversion at its dispatch: with nothing to do it completes; it waits while its tag is held; while its checks lack the walk of a tensor, the walk is asked
for and nothing else of it happens; refused, it performs nothing; accepted, it runs, and its reads of source, scales and side list are issued, after which every
tile that is there is converted.
The values of a tile (R50, R54, R73): CONVERT rounds each element's value once into the destination format, QUANT its quotient by the scale in force, and
DEQUANT the product of code and scale, where no escape code is met; into E4M3 the NaN of an infinity times zero has the sign of the code's value (R28). -/
def Obligations.ConversionsStartAndRoundOnce : Prop :=
  (∀ (s : State) (q : Nat) (d : DRt) (c : ConvD) (ks : TileChks), s.phase = 4 → s.nextDisp q = some d → d.d.malformed = false → d.noSync = false →
      d.d.body = .conv c → ∀ p ∈ ([(.convert ⟨q, ks⟩, 0x01), (.quant ⟨q, ks⟩, 0x02), (.dequant ⟨q, ks⟩, 0x03), (.stats ⟨q, ks⟩, 0x04)] : List (Instr × Nat)), d.d.opcode = p.2 →
        (c.rows = 0 ∨ c.rowLen = 0 → exec p.1 s = .next (s.doneD q d.seq)) ∧
        (c.rows ≠ 0 → c.rowLen ≠ 0 →
          let act := Act.desc q d.seq
          let x := (s.acting act).convRefusal q d c
          let t := x.1.did s act
          (s.dispHeld d c = true → exec p.1 s = .next s) ∧
          (∀ w, s.dispHeld d c = false → x.1.reads.want = some w → (s.ask act w).reads.res.length ≤ s.reads.res.length → exec p.1 s = .next (s.ask act w)) ∧
          (∀ code tid, s.dispHeld d c = false → x.1.reads.want = none → x.2 = .error (code, tid) →
            exec p.1 s = .next ((t.dropCapture q d.seq c).refuseD q d.seq code tid)) ∧
          (∀ e, s.dispHeld d c = false → x.1.reads.want = none → x.2 = .ok e →
            ((c.inert = true ∧ c.srcStream = false) → exec p.1 s = .next (t.doneD q d.seq)) ∧
            ((c.inert = false ∨ c.srcStream = true) →
              let rd := fun (s : State) (b : List Nat) (e : Option TmEntry) => s.readBeats (.conv q d.seq) b (attrOf e) d.tenant
              let v := (t.dupd q d.seq (fun d => { d with phase := .running, sent := true, chks := ks })).addCapture q d.seq c e
              let u := (rd (rd (rd v (convBeats c e).1 e.src) (convBeats c e).2.1 e.scale) (convBeats c e).2.2 e.side).convReady q d.seq
              exec p.1 s = .next (if c.srcStream then u.joinOrphans q d.seq c else u))))) ∧
  (∀ (c : ConvD) (env : ConvEnv) (t : Nat), c.isRequant = false → c.escEn = false →
      let x := fun (e : EltOut) => decodeVal c.sf (env.src e.row e.col)
      let into := fun (v : Val) (e : EltOut) (ovf : Bool) =>
        if c.df.isFloat then cvFloat c.df c.rm (c.rand e.idx) ovf c.strict v else cvInt c.df.width c.df.qmin c.df.qmax c.z c.rm (c.rand e.idx) v
      (c.op = .convert → c.scaleSrc = 0 → (convTile c env t).stop = 0 ∧ ∀ e ∈ (convTile c env t).elts, e.x = x e ∧ e.cv = into (x e) e c.ovf) ∧
      (c.op = .quant → c.scaleSrc = 0 → ∀ e ∈ (convTile c env t).elts, e.x = x e ∧ e.cv = into (Val.div (x e) (v32 c.scaleValue)) e c.ovf) ∧
      (c.op = .dequant → c.scaleSrc = 0 → c.sf.isFloat = true → ∀ e ∈ (convTile c env t).elts,
        let y := decodeFloat c.sf (env.src e.row e.col)
        let v := Val.mul y (v32 c.scaleValue)
        e.x = (if c.df = .e4m3 ∧ v.isNan = true ∧ y.isNan = false ∧ (v32 c.scaleValue).isNan = false then .nan y.neg? 0x400000 false else v) ∧ e.cv.code = (cvAny c.df c.rm (c.rand e.idx) c.ovf c.strict e.x).code))

/-- A routine at its dispatch: a no-op completes with outcome NOOP; while its checks lack a walk or a read, that is asked for and nothing else of it happens; one
that fails a check ends with outcome FAULT and the check's code; one that passes starts, its Lanterns at their entry words, its arrays empty, each on its unit,
and its iteration 0, but a ROOT or SOLVE with no initialised input ends with outcome 6 (R111, R139, R143, R176, R179). -/
def Obligations.RoutinesStart : Prop :=
  ∀ (s : State) (q : Nat) (d : DRt) (r : Rout), s.phase = 4 → s.nextDisp q = some d → d.d.malformed = false → d.noSync = false → s.rfind q d.seq = some r →
    ∀ p ∈ ([(.gram q, 0x10), (.rootOp q, 0x11), (.solve q, 0x12), (.precond q, 0x13)] : List (Instr × Nat)), d.d.opcode = p.2 →
      let act := Act.desc q d.seq
      let runs := fun (t : State) => t.dupd q d.seq (fun d => { d with phase := .running })
      let x := (s.acting act).checkRout r d
      let t := x.1.did s act
      (r.r.isNoop = true → exec p.1 s = .next ((runs s).endRout q d.seq 1 0)) ∧
      (r.r.isNoop = false → s.testDrains = true → exec p.1 s = .next s) ∧
      (r.r.isNoop = false → s.testDrains = false →
        (r.hdrCode ≠ 0 → exec p.1 s = .next (((runs s).blame r r.r.imageTid).faultRout q d.seq r.hdrCode)) ∧
        (∀ w, r.hdrCode = 0 → x.1.reads.want = some w → (s.ask act w).reads.res.length ≤ s.reads.res.length → exec p.1 s = .next (s.ask act w)) ∧
        (∀ code, r.hdrCode = 0 → x.1.reads.want = none → x.2 = .error code → exec p.1 s = .next (if code = waitCode then s else (runs t).faultRout q d.seq code)) ∧
        (∀ r1, r.hdrCode = 0 → x.1.reads.want = none → x.2 = .ok r1 →
          let u := (runs t).rupd q d.seq (fun _ => t.place r1 true)
          (∃ i, r1.img = some i ∧ r1.lans = (List.range i.lanterns).map (fun l => { pc := nth 0 i.entries l }) ∧
            r1.arrs = List.replicate i.arrays {} ∧ r1.phase = .loaded ∧ r1.iteration = 0 ∧ r1.lam = plusZero r.r.damp) ∧
          ((t.place r1 true).arrMap = t.mapUnits 2 t.nArr r1.arrs.length ∧ (t.place r1 true).lanMap = t.mapUnits 5 t.nLan r1.lans.length) ∧
          (((r1.r.kind = .root ∨ r1.r.kind = .solve) ∧ ∀ x ∈ r1.samples, x.init = false) → exec p.1 s = .next (u.endRout q d.seq 6 0)) ∧
          (¬((r1.r.kind = .root ∨ r1.r.kind = .solve) ∧ ∀ x ∈ r1.samples, x.init = false) → exec p.1 s = .next u)))

/-- A REDUCE at its dispatch: of no element it completes; while its checks lack the walk of a tensor, the walk is asked for and nothing else of it happens; one that
its checks refuse, whose group this instance is not in, or whose pair is held, performs nothing; one that is accepted opens its context, with the partials that
have come, meets the checks on its Lantern and issues its reads; REDUCE_TIMEOUT ends it with F_REDUCE and cause 1. Each of these gives partials that wait for a
context their turn (`redSpace`; R241, R337). -/
def Obligations.ReducesStartAndExpire : Prop :=
  ∀ (s : State) (q : Nat) (d : DRt) (r : RedD), d.d.body = .reduce r →
    (s.phase = 4 → s.nextDisp q = some d → d.d.malformed = false → d.d.opcode = 0x20 → d.noSync = false → ∀ chk,
      (r.count = 0 → exec (.reduce ⟨q, chk⟩) s = .next (s.doneD q d.seq).redSpace) ∧
      (r.count ≠ 0 →
        let act := Act.desc q d.seq
        let x := (s.acting act).redResolve q d r chk
        let t := x.1.did s act
        (∀ w, x.1.reads.want = some w → (s.ask act w).reads.res.length ≤ s.reads.res.length → exec (.reduce ⟨q, chk⟩) s = .next (s.ask act w).redSpace) ∧
        (∀ code tid, x.1.reads.want = none → x.2 = .error (code, tid) → exec (.reduce ⟨q, chk⟩) s = .next (t.refuseD q d.seq code tid).redSpace) ∧
        (∀ e, x.1.reads.want = none → x.2 = .ok e →
          let refused := fun (cause : Nat) => ((t.refuseD q d.seq 0x0803 r.dstTid).dupd q d.seq (fun d =>
            { d with evPay := some (0, 0, belPay d.seq cause 0xFF r.rgroup t.bellNo r.rtag 0) })).redSpace
          (grpRank d.grp t.group.self = none ∨ repeats d.grp.2.1 d.grp.2.2 = true → exec (.reduce ⟨q, chk⟩) s = .next (refused 3)) ∧
          (∀ k, grpRank d.grp t.group.self = some k → repeats d.grp.2.1 d.grp.2.2 = false →
            (t.pairHeld r.rgroup r.rtag = true → exec (.reduce ⟨q, chk⟩) s = .next (refused 5)) ∧
            (t.pairHeld r.rgroup r.rtag = false →
              let u := (t.setReds (t.reds.filter (fun (c : RedCtx) => !(c.group == r.rgroup && c.tag == r.rtag)) ++
                [{ group := r.rgroup, tag := r.rtag, owner := some (q, d.seq), tenant := d.tenant, rank := k, size := d.grp.2.1, grp := d.grp
                   count := r.count, rop := r.rop, pair := r.rop == 1, nodes := ((t.findRed r.rgroup r.rtag).map (·.nodes)).getD []
                   src := e.addr + 4 * e.offset }])).dupd q d.seq (fun d => { d with phase := .running, sent := true })
              exec (.reduce ⟨q, chk⟩) s = .next ((((u.redChecks q d chk).readBeats (.red q d.seq)
                (beatsOf (e.addr + 4 * e.offset) (4 * r.count * (if r.inPair then 2 else 1))) e.attr d.tenant).redReady q d.seq).redSpace)))))) ∧
    (s.live = true → s.dfind q d.seq = some d → d.phase = .running → exec (.reduceTimeout q d.seq) s = .next
      ((s.setReds (s.reds.filter (fun x => !(x.group == r.rgroup && x.tag == r.rtag && x.owner == some (q, d.seq))))).dupd q d.seq (fun d =>
        { d with phase := .done, status := 0x0803, committed := false, evPay := some (0, 0, belPay d.seq 1 0xFF r.rgroup s.bellNo r.rtag 0) })).redSpace)

/-- COMMIT waits for the descriptor's work and for its bell. RELEASED takes the record at the head of its queue: RELEASED moves past it, the interrupt is raised
when it asks for one or carries an error, and the descriptor counts (R245, R246, R259). -/
def Obligations.RecordsCommitAndRelease : Prop :=
  ∀ (s : State) (q : Nat) (d : DRt),
    (∀ seq, s.dfind q seq = some d → (s.commitReady q d = true → exec (.commit q seq) s = .next (s.commitD q d)) ∧
      (s.commitReady q d = false → exec (.commit q seq) s = .next s)) ∧
    (s.releasable q = none → exec (.released q) s = .next s) ∧
    (s.releasable q = some d → (s.queue q).resetFrom = true →
      ∃ u : State, exec (.released q) s = .next (u.endReset q) ∧ (u.queue q).infl = (s.queue q).infl.drop 1 ∧ u.objs = s.objs ∧
        (∀ a, u.byte a = s.byte a) ∧
        ((∀ r ∈ s.reqs, r.late = false → r.owner ≠ .act (.desc q d.seq) ∧ r.owner ≠ .act (.tiles q d.seq)) → u.reqs = s.reqs)) ∧
    (s.releasable q = some d → q < 262144 → (s.queue q).resetFrom = false → s.get O.queueState q = 1 → d.trapHalt = false →
      (d.status = 0 ∨ s.get O.errPolicy q ≠ 1) → s.sapling = false → d.status < 262144 →
      ∃ t : State, exec (.released q) s = .next t ∧ (t.queue q).infl = (s.queue q).infl.drop 1 ∧ t.get O.released q = (d.seq + 1) % 2 ^ 32 ∧
        t.get O.irqPending q = (if d.d.irq = true ∨ d.status ≠ 0 ∨ d.trapIrq = true then 1 else s.get O.irqPending q) ∧
        t.get O.acctDescriptors q = (s.get O.acctDescriptors q + 1) % 2 ^ 32 ∧
        (∀ r ∈ t.routs, ¬(r.q = q ∧ r.seq = d.seq)) ∧
        t.syncUpds = s.syncUpds ++ d.updates q ∧ ∀ a, t.byte a = s.byte a)

/-! Routines and arrays (R110 to R136, R168, R172, R205). -/

/-- A pre-empted routine leaves its iteration at ITER_BOUND and waits for its restart, or ends where its queue resets; ROUTINE_RESTART runs it from its last
checkpoint, read through the memory ports and placed on the units then in force, or ends it with F_NO_UNIT, F_RESTART_LIMIT or the fault of the read; the oldest
promotion of a fall-back array, its entries read from staging, is applied, written and counted (R133, R167, R168, R172, R205, R298). -/
def Obligations.RoutinesRestart : Prop :=
  ∀ (s : State) (q seq : Nat) (r : Rout), s.rfind q seq = some r → s.live = true →
    (r.preempt = true → r.phase = .loaded →
      let u := ((s.bump O.iterDiscards 0 32 1).rupd q seq (fun r => { r with itPasses := 0, itOps := 0 })).bump O.preemptions 0 32 1
      (r.preemptReset = false → exec (.iterBound q seq) s = .next
        (((u.rupd q seq (fun r => { r with phase := .restart, preempted := true, preempt := false })).forget (ofRout q seq)).letGo q seq)) ∧
      (r.preemptReset = true → exec (.iterBound q seq) s = .next (u.faultRout q seq 0x010B))) ∧
    (r.phase = .restart → s.awake = true → s.draining = false → s.testDrains = false → s.waits (.rout q seq) = false →
      (r.preempt = true ∧ r.preemptReset = true →
        exec (.routineRestart q seq) s = .next ((s.bump O.preemptions 0 32 1).faultRout q seq 0x010B)) ∧
      (¬(r.preempt = true ∧ r.preemptReset = true) →
        (s.arrOf 0 = none ∨ s.lanOf 0 = none → exec (.routineRestart q seq) s = .next (s.faultRout q seq 0x010D)) ∧
        (s.arrOf 0 ≠ none → s.lanOf 0 ≠ none →
          (r.preempted = false → s.obj O.routineRestartLimit ≤ r.restarts → exec (.routineRestart q seq) s = .next (s.faultRout q seq 0x0407)) ∧
          (r.preempted = true ∨ r.restarts < s.obj O.routineRestartLimit → ∀ i e, r.img = some i → r.ctxEnt = some e →
            let act := Act.restart q seq
            let x := (s.acting act).ckptRead r i e
            let t := x.1.did s act
            let n := if r.preempted then r.restarts else r.restarts + 1
            (∀ w, x.1.reads.want = some w → (s.ask act w).reads.res.length ≤ s.reads.res.length →
              exec (.routineRestart q seq) s = .next (s.ask act w)) ∧
            (∀ c, x.1.reads.want = none → x.2 = .error c → exec (.routineRestart q seq) s = .next (t.faultRout q seq c)) ∧
            (∀ raw, x.1.reads.want = none → x.2 = .ok raw → exec (.routineRestart q seq) s = .next
              ((((t.rupd q seq (fun r => { t.place (restored r i raw) true with restarts := n })).letGo q seq).domeBack).settle q seq)) ∧
            (r.ckptSeq = 0 → ∀ raw, (restored r i raw).lans = (List.range i.lanterns).map (fun l => { pc := nth 0 i.entries l }) ∧
              (restored r i raw).arrs = List.replicate i.arrays {} ∧ (restored r i raw).iteration = 0 ∧ (restored r i raw).lam = plusZero r.r.damp))))) ∧
    (∀ la slot a img m p l, s.serviceLan = some m → r.arrs[la]? = some a → r.img = some img → r.phase = .loaded → s.awake = true → s.lanFrozen = false →
      a.pend = p :: l → p.slot = slot → s.domeBusy r img la (promoSlot a p) 1 = false →
      let act := Act.dome q seq la
      let x := (s.acting act).domeRead r img la (promoSlot a p) 1
      let t := x.1.did s act
      let a1 := { a.applyPromo r.r.srSeed r.r.srStep p with pend := l }
      let u := (t.bump O.fallbackPromotions m 32 1).domeWrite r img a1 la (promoSlot a p) 1
      let v := match r.arrMap[la]? with
        | some k => u.bump O.intSatTiles k 32 (satCount a1 - satCount a)
        | none => u
      (∀ w, x.1.reads.want = some w → (s.ask act w).reads.res.length ≤ s.reads.res.length →
        exec (.fallbackPromotions q seq la slot) s = .next (s.ask act w)) ∧
      (∀ c, x.1.reads.want = none → x.2 = .error c → exec (.fallbackPromotions q seq la slot) s = .next (t.faultRout q seq c)) ∧
      (x.1.reads.want = none → x.2 = .ok () →
        exec (.fallbackPromotions q seq la slot) s = .next ((v.rupd q seq (fun r => r.updArr la (fun _ => a1))).settle q seq)))

/-- Array instructions: NOP only leaves the queue; FSET sets the format of its side; GOPEN opens its group on cleared tile slots; PASS fills its operands from their
streams and multiplies and accumulates them, and waits while they are not there or the promotion queue is full; GDRAIN gives the group's values to its stream,
under IPATH as the pairs of R156, and its flags to AFLG, and waits for the group's promotions. On the fall-back path the entries lie in staging. What an
instruction reads through the memory ports is asked for first, and nothing else of it happens. One that fails a check of Table 5.6 ends its routine with the
check's code, and changes no register of the array. One that completes leaves its logical array holding the unit (R111). -/
def Obligations.ArrayInstructionsComplete : Prop :=
  ∀ (s : State) (x : AIss) (r : Rout) (img : Image) (a : LArr) (u : Nat), ArrIssues s x r img a u →
    let act := arrAct x
    let at' := s.acting act
    let ends := fun (t : State) => t.did s act
    let s0 := ends at'
    let left := fun (t : State) (b : LArr) =>
      ((t.setHolds (SMap.put none (2 * 65536 + u) (some (x.q, x.seq, x.la)) t.holds)).rupd x.q x.seq (fun r => r.updArr x.la (fun _ => b.pop))).settle x.q x.seq
    let gives := fun (c : Instr) (t : State) => img.arrNext x a = some c → exec c s = .next t
    let fails := fun (c : Instr) (code : Nat) => gives c (s0.faultRout x.q x.seq code)
    let asks := fun (c : Instr) (t : State) => ∀ w, t.reads.want = some w → (s.ask act w).reads.res.length ≤ s.reads.res.length → gives c (s.ask act w)
    (ActIdle s act → s0 = s) ∧
    (gives (.arrNop x 0) (left s0 a) ∧ ∀ rsv, rsv ≠ 0 → fails (.arrNop x rsv) 0x0301) ∧
    (∀ op, 5 ≤ op → op ≤ 15 → fails (.fSpireOp x op) 0x0301) ∧
    (∀ f, (fsetFault s.variant a f ≠ 0 → fails (.fset x f) (fsetFault s.variant a f)) ∧
      (fsetFault s.variant a f = 0 → gives (.fset x f) (left s0 (if f.side = 0 then { a with fa := some f } else { a with fb := some f })))) ∧
    (∀ g, (gopenFault s.variant a g ≠ 0 → fails (.gopen x g) (gopenFault s.variant a g)) ∧
      (gopenFault s.variant a g = 0 → gives (.gopen x g)
        (left (if a.slow then ends (at'.domeWrite r img (a.gopen g) x.la g.dbase (g.dcountM1 + 1)) else s0) (a.gopen g)))) ∧
    (∀ p, (a.full p = true → gives (.pass x p) s) ∧
      (a.full p = false →
        (passFault a p ≠ 0 → fails (.pass x p) (passFault a p)) ∧
        (passFault a p = 0 →
          let y := at'.fill r a u p
          (y.2 = .ok none → gives (.pass x p) s) ∧
          (y.2 ≠ .ok none → asks (.pass x p) y.1) ∧
          (∀ c, y.1.reads.want = none → y.2 = .error c → gives (.pass x p) ((ends y.1).faultRout x.q x.seq c)) ∧
          (∀ b fa fb, y.1.reads.want = none → y.2 = .ok (some b) → a.fa = some fa → a.fb = some fb →
            let n := if fa.fmt = 0 ∨ fb.fmt = 0 then 3 else 1
            let b1 := b.pass r.r.srSeed r.r.srStep p
            let t := (((y.1.passTiming u).bump O.passes u 32 n).bump O.intSatTiles u 32 (satCount b1 - satCount a)).spend (200 * 16384 * n)
            gives (.pass x p) (left (ends (t.rupd x.q x.seq (fun r => { presented a p r with itPasses := r.itPasses + n }))) b1))))) ∧
    (∀ g, ((∃ p ∈ a.pend, p.group = g.group) ∨ r.gathers = true → gives (.gdrain x g) s) ∧
      ((∀ p ∈ a.pend, p.group ≠ g.group) → r.gathers = false →
        (gdrainFault a g ≠ 0 → fails (.gdrain x g) (gdrainFault a g)) ∧
        (∀ gr, gdrainFault a g = 0 → a.grp g.group = some gr →
          let y := if a.slow && g.form != 3 then at'.domeRead r img x.la gr.dbase gr.dcount else (at', .ok ())
          asks (.gdrain x g) y.1 ∧
          (∀ c, y.1.reads.want = none → y.2 = .error c → gives (.gdrain x g) ((ends y.1).faultRout x.q x.seq c)) ∧
          (y.1.reads.want = none → y.2 = .ok () →
            let vals := a.drain gr g.form
            let scale := v32 (((SMap.look {} s.chans r.r.captureCh).scale).getD 0)
            let words := if g.form = 1 then vals.flatMap (fun (_, _, v) => [v % 2 ^ 32, v / 2 ^ 32])
              else if r.r.ipath && g.form == 2 then vals.flatMap (fun (_, _, v) =>
                let z := Val.mul (Val.mul scale scale) (Val.ofInt (sext 32 v))
                [rne32 z, rne32 (Val.sub z (v32 (rne32 z)))])
              else vals.map (fun (_, _, v) => v)
            let flag := fun (t : State) => if gr.flagBits = 0 then t else t.rupd x.q x.seq (fun r => r.updLan a.issuer (fun l => l.setMode 14))
            let done := fun (b : LArr) =>
              let b := { b with aflg := b.aflg ||| gr.flagBits }
              if g.close then b.setGrp g.group none else b
            (words = [] → gives (.gdrain x g) (left (ends (flag y.1)) (done a))) ∧
            (∀ b e, words ≠ [] → a.bindD = some b → r.stageEnt = some e →
              let i := b.base + a.posD
              (e.extent < 4 * (i + words.length) → gives (.gdrain x g) ((ends y.1).faultRout x.q x.seq 0x0502)) ∧
              (4 * (i + words.length) ≤ e.extent →
                (y.1.overlaps r [(e.addr + 4 * i, 4 * words.length)] = true → gives (.gdrain x g) s) ∧
                (y.1.overlaps r [(e.addr + 4 * i, 4 * words.length)] = false →
                  gives (.gdrain x g) (left (ends (flag (y.1.access (.rout x.q x.seq) (e.addr + 4 * i) (4 * words.length) e.attr r.tenant
                    (some (words.flatMap (toBytes 4))) false))) (done { a with posD := a.posD + words.length })))))))))

/-- Every well-formed instruction is read back from its word, and every word from the instruction that it spells: no bit of a Lantern word is dropped, nor of
an array word whose OP is not reserved (R112, R182; Tables 5.1 to 5.5 and 7.3 to 7.6). -/
def Obligations.WordsSpellInstructions : Prop :=
  (∀ (c : Instr) (i : LIss) (w : Nat), c.wf = true → lanWord c = some (i, w) → w < 2 ^ 64 ∧ lanInstr i w = c) ∧
  (∀ (i : LIss) (w : Nat), w < 2 ^ 64 → lanWord (lanInstr i w) = some (i, w)) ∧
  (∀ (c : Instr) (x : AIss) (w : Nat), c.wf = true → arrWord c = some (x, w) → w < 2 ^ 128 ∧ arrInstr x w = c) ∧
  (∀ (x : AIss) (w : Nat), w < 5 * 2 ^ 124 → arrWord (arrInstr x w) = some (x, w))

/-- A Lantern instruction that is not what its Lantern has next in its program, and an array instruction that does not head its array's queue, change
nothing (the model's reading of R112 and R184, log 7). -/
def Obligations.OnlyTheNextInstructionActs : Prop :=
  (∀ (s : State) (c : Instr) (i : LIss) (w : Nat), lanWord c = some (i, w) → s.lanNext i ≠ some c → exec c s = .next s) ∧
  (∀ (s : State) (c : Instr) (x : AIss) (w : Nat), arrWord c = some (x, w) → s.arrNext x ≠ some c → exec c s = .next s)

/-! Lanterns (R177 to R209). Each row of the tables below gives a command, the fields that it uses, and its result from the registers before it. -/

/-- A vector instruction of Table 7.5 that writes 32-bit patterns: the result of element `e`. -/
structure IntRow where
  cmd : LIss → VF → Instr
  uses : Nat
  val : VF → Lan → Nat → Nat

def intRows : List IntRow :=
  [⟨.viadd, uA ||| uB, fun f l e => (l.vget f.a e + l.vget f.b e) % 2 ^ 32⟩,
   ⟨.visub, uA ||| uB, fun f l e => (l.vget f.a e + 2 ^ 32 - l.vget f.b e) % 2 ^ 32⟩,
   ⟨.vimul, uA ||| uB, fun f l e => l.vget f.a e * l.vget f.b e % 2 ^ 32⟩,
   ⟨.viaddsat, uA ||| uB, fun f l e => trunc2 32 (max (-2 ^ 31) (min (2 ^ 31 - 1) (sext 32 (l.vget f.a e) + sext 32 (l.vget f.b e))))⟩,
   ⟨.vand, uA ||| uB, fun f l e => l.vget f.a e &&& l.vget f.b e⟩,
   ⟨.vor, uA ||| uB, fun f l e => l.vget f.a e ||| l.vget f.b e⟩,
   ⟨.vxor, uA ||| uB, fun f l e => l.vget f.a e ^^^ l.vget f.b e⟩,
   ⟨.vshl, uA ||| uSA, fun f l e => l.vget f.a e * 2 ^ (l.sget f.sa % 32) % 2 ^ 32⟩,
   ⟨.vsra, uA ||| uSA, fun f l e => trunc2 32 (sext 32 (l.vget f.a e) / 2 ^ (l.sget f.sa % 32))⟩,
   ⟨.vsrl, uA ||| uSA, fun f l e => l.vget f.a e / 2 ^ (l.sget f.sa % 32)⟩,
   ⟨.viota, uSA, fun f l e => (l.sget f.sa + e) % 2 ^ 32⟩,
   ⟨.vmov, uA, fun f l e => l.vget f.a e⟩,
   ⟨.vbcast, uSA, fun f l _ => l.sget f.sa % 2 ^ 32⟩,
   ⟨.vabs, uA, fun f l e => l.vget f.a e % 2 ^ 31⟩,
   ⟨.vneg, uA, fun f l e => l.vget f.a e ^^^ 2 ^ 31⟩]

/-- Integer and bitwise vector instructions, moves, VABS and VNEG write their result to each active element of D, raise no flag, and leave every other
element and register of the Lantern, and everything beside its routine. -/
def Obligations.IntegerVectorsWriteActiveElements : Prop :=
  ∀ row ∈ intRows, ∀ (s : State) (i : LIss) (f : VF) (r : Rout) (img : Image) (l : Lan) (u n : Nat),
    LanIssues s i r img l u → img.lanNext i l = some (row.cmd i f) → f.ok (uD ||| uVec ||| row.uses) = true → f.count l.vl = some n →
    ∃ (t : State) (l1 : Lan), exec (row.cmd i f) s = .next t ∧ t.lanAt i = some (l1.retire img.code) ∧ OnlyRoutine s t i u ∧
      l1 = { l with v := l1.v } ∧ (∀ e < n, l.active f e = true → l1.vget f.d e = row.val f l e) ∧
      ∀ d e, e < 4096 → ¬(d = f.d ∧ e < n ∧ l.active f e = true) → l1.vget d e = l.vget d e

/-- A vector instruction of Table 7.5 on FP32 values: the operands, in the order in which a NaN among them is taken, the exact result, and whether it
divides by zero. -/
structure FpRow where
  cmd : LIss → VF → Instr
  uses : Nat
  ops : VF → Lan → Nat → List Val
  val : VF → Lan → Nat → Val
  divz : VF → Lan → Nat → Bool := fun _ _ _ => false

def fpRows : List FpRow :=
  [⟨.vadd, uA ||| uB, fun f l e => [l.fa f e, l.fb f e], fun f l e => Val.add (l.fa f e) (l.fb f e), fun _ _ _ => false⟩,
   ⟨.vsub, uA ||| uB, fun f l e => [l.fa f e, l.fb f e], fun f l e => Val.sub (l.fa f e) (l.fb f e), fun _ _ _ => false⟩,
   ⟨.vmul, uA ||| uB, fun f l e => [l.fa f e, l.fb f e], fun f l e => Val.mul (l.fa f e) (l.fb f e), fun _ _ _ => false⟩,
   ⟨.vfma, uA ||| uB ||| uC, fun f l e => [l.fa f e, l.fb f e, l.fc f e], fun f l e => Val.add (Val.mul (l.fa f e) (l.fb f e)) (l.fc f e),
    fun _ _ _ => false⟩,
   ⟨.vdiv, uA ||| uB, fun f l e => [l.fa f e, l.fb f e], fun f l e => Val.div (l.fa f e) (l.fb f e),
    fun f l e => (l.fa f e).isFin && !(l.fa f e).isZero && (l.fb f e).isZero⟩,
   ⟨.vsqrt, uA, fun f l e => [l.fa f e], fun f l e => Val.sqrt (l.fa f e), fun _ _ _ => false⟩,
   ⟨.vmin, uA ||| uB, fun f l e => [l.fa f e, l.fb f e], fun f l e => Val.min2 (l.fa f e) (l.fb f e), fun _ _ _ => false⟩,
   ⟨.vmax, uA ||| uB, fun f l e => [l.fa f e, l.fb f e], fun f l e => Val.max2 (l.fa f e) (l.fb f e), fun _ _ _ => false⟩,
   ⟨.vadds, uA ||| uSA, fun f l e => [l.fa f e, l.fs f], fun f l e => Val.add (l.fa f e) (l.fs f), fun _ _ _ => false⟩,
   ⟨.vmuls, uA ||| uSA, fun f l e => [l.fa f e, l.fs f], fun f l e => Val.mul (l.fa f e) (l.fs f), fun _ _ _ => false⟩,
   ⟨.vfmas, uA ||| uC ||| uSA, fun f l e => [l.fa f e, l.fc f e, l.fs f], fun f l e => Val.add (Val.mul (l.fa f e) (l.fs f)) (l.fc f e),
    fun _ _ _ => false⟩]

/-- The state `t` in which the instruction of Lantern `i.l` is counted, with `n` lane operations and their energy, the Lantern holds its engine, and the routine goes
on as far as its waits allow. -/
def counted (t : State) (i : LIss) (u n : Nat) : State :=
  ((((t.setHolds (SMap.put none (5 * 65536 + u) (some (i.q, i.seq, i.l)) t.holds)).bump O.instructions u 32 1).spend (3900 * n)).rupd i.q i.seq
    (fun r => { r with itOps := r.itOps + n })).settle i.q i.seq

/-- FP32 vector instructions write each active element the exact result rounded once in MODE.RND, or the NaN of R185, and OR the elements' flags into
MODE.FLAGS in strict mode; nothing else of the Lantern, and nothing beside its routine, changes. A VSQRT of a FACTOR step with an operand below SOLVE_PIVOT_MIN
is a pivot failure instead (the model's choice, log 68). -/
def Obligations.FpVectorsRoundOnce : Prop :=
  ∀ row ∈ fpRows, ∀ (s : State) (i : LIss) (f : VF) (r : Rout) (img : Image) (l : Lan) (u n : Nat),
    LanIssues s i r img l u → img.lanNext i l = some (row.cmd i f) → f.ok (uD ||| uVec ||| row.uses) = true → f.count l.vl = some n →
    let res := fun e => fpRes l.strict l.rnd (l.rand (ctxFor i r img) e) (row.ops f l e) (row.val f l e) (row.divz f l e)
    let fails := row.cmd i f = .vsqrt i f ∧ factors r l = true ∧ ∃ e < n, l.active f e = true ∧ pivotFails r.pivMin (l.vget f.a e) = true
    (¬fails → ∃ (t : State) (l1 : Lan), exec (row.cmd i f) s = .next t ∧ t.lanAt i = some (l1.retire img.code) ∧ OnlyRoutine s t i u ∧
      l1 = { l.raise ((l.actives f n).foldl (fun a e => a ||| (res e).2) 0) with v := l1.v } ∧
      (∀ e < n, l.active f e = true → l1.vget f.d e = (res e).1 % 2 ^ 32) ∧
      ∀ d e, e < 4096 → ¬(d = f.d ∧ e < n ∧ l.active f e = true) → l1.vget d e = l.vget d e) ∧
    (fails → exec (row.cmd i f) s = .next
      (counted (((s.acting (lanAct i)).pivot (r.updLan i.l (fun _ => l.retire img.code))).did s (lanAct i)) i u n))

/-- An instruction of Table 7.5 that writes bits of M[D]: its legal operands beside R183, the bit of element `e`, and whether the element signals INVALID. -/
structure MaskRow where
  cmd : LIss → VF → Instr
  uses : Nat
  legal : VF → Bool
  bit : VF → Lan → Nat → Bool
  signals : VF → Lan → Nat → Bool

def maskRows : List MaskRow :=
  [⟨.vcmp, uVec ||| uA ||| uB ||| uF1, fun f => f.d < 8 && f.f1 < 8, fun f l e => fpPred f.f1 (l.fa f e) (l.fb f e),
    fun f l e => (l.fa f e).isSnan || (l.fb f e).isSnan⟩,
   ⟨.vicmp, uVec ||| uA ||| uB ||| uF1, fun f => f.d < 8 && f.f1 < 6, fun f l e => intPred f.f1 (sext 32 (l.vget f.a e)) (sext 32 (l.vget f.b e)),
    fun _ _ _ => false⟩,
   ⟨.mand, uCNT ||| uA ||| uB, fun f => f.d < 8 && f.a < 8 && f.b < 8, fun f l e => l.mbit f.a e && l.mbit f.b e, fun _ _ _ => false⟩,
   ⟨.mor, uCNT ||| uA ||| uB, fun f => f.d < 8 && f.a < 8 && f.b < 8, fun f l e => l.mbit f.a e || l.mbit f.b e, fun _ _ _ => false⟩,
   ⟨.mnot, uCNT ||| uA, fun f => f.d < 8 && f.a < 8 && f.b < 8, fun f l e => !l.mbit f.a e, fun _ _ _ => false⟩]

/-- Comparisons and mask operations write the bit of each active element of M[D] and no other bit of any M register; MANY writes every bit of M[D] with
the OR of the active bits of M[A]. Only a signalling NaN raises a flag. -/
def Obligations.MaskInstructionsWriteActiveBits : Prop :=
  ∀ (s : State) (i : LIss) (f : VF) (r : Rout) (img : Image) (l : Lan) (u n : Nat), LanIssues s i r img l u → f.count l.vl = some n →
    (∀ row ∈ maskRows, img.lanNext i l = some (row.cmd i f) → f.ok (uD ||| row.uses) = true → row.legal f = true →
      ∃ (t : State) (l1 : Lan), exec (row.cmd i f) s = .next t ∧ t.lanAt i = some (l1.retire img.code) ∧ OnlyRoutine s t i u ∧
        l1 = { l.raise (if (l.actives f n).any (row.signals f l) then flInvalid else 0) with m := l1.m } ∧
        ∀ k e, e < 4096 → l1.mbit k e = if k = f.d ∧ e < n ∧ l.active f e = true then row.bit f l e else l.mbit k e) ∧
    (img.lanNext i l = some (.many i f) → f.ok (uD ||| uA ||| uVec) = true → f.d < 8 → f.a < 8 → 0 < n →
      ∃ (t : State) (l1 : Lan), exec (.many i f) s = .next t ∧ t.lanAt i = some (l1.retire img.code) ∧ OnlyRoutine s t i u ∧
        l1 = { l with m := l1.m } ∧
        ∀ k e, e < 4096 → l1.mbit k e = if k = f.d then (l.actives f n).any (l.mbit f.a) else l.mbit k e)

/-- The active leaves of a reduction over elements below `n`. -/
def leavesOf {α : Type} (l : Lan) (f : VF) (n : Nat) (leaf : Nat → α) : List (Option α) :=
  (List.range n).map (fun e => if l.active f e then some (leaf e) else none)

/-- Reductions write S[SA] with the value of TREE over the active elements (R193), or its empty value, OR the flags of its nodes into MODE.FLAGS in strict
mode, and change nothing else of the Lantern; VRISUM is the exact sum. -/
def Obligations.ReductionsWriteTheTree : Prop :=
  ∀ (s : State) (i : LIss) (f : VF) (r : Rout) (img : Image) (l : Lan) (u n : Nat), LanIssues s i r img l u → f.count l.vl = some n → 0 < n →
    let writes := fun (c : Instr) (x fl : Nat) => img.lanNext i l = some c → ∃ (t : State) (l1 : Lan), exec c s = .next t ∧ t.lanAt i = some (l1.retire img.code) ∧
      OnlyRoutine s t i u ∧ l1 = { l.raise fl with s := l1.s } ∧ l1.sget f.sa = x % 2 ^ 64 ∧ ∀ k, k ≠ f.sa → l1.sget k = l.sget k
    (f.ok (uSA ||| uVec ||| uA) = true →
      (∀ p ∈ ([(.vrsum i f, addNode l.strict, 0), (.vrmax i f, maxNode l.strict, 0xFF800000), (.vrmin i f, minNode l.strict, 0x7F800000)] :
          List (Instr × (Nat × Nat → Nat × Nat → Nat × Nat) × Nat)),
        let x := (tree p.2.1 (leavesOf l f n (fun e => (l.vget f.a e, 0)))).getD (p.2.2, 0)
        writes p.1 x.1 x.2) ∧
      writes (.vrisum i f) (trunc2 64 ((l.actives f n).foldl (fun a e => a + sext 32 (l.vget f.a e)) 0)) 0) ∧
    (f.ok (uSA ||| uVec ||| uA ||| uB) = true →
      let x := (tree pairNode (leavesOf l f n (fun e => ((l.vget f.a e, l.vget f.b e), 0)))).getD ((0, 0), 0)
      writes (.vrcsum i f) (x.1.1 + x.1.2 * 2 ^ 32) x.2)

/-- VSEL takes A or B by the bit of M[MS], on every element below n; VCVT converts each active element from format F1 to format F2; VPADD adds the
compensated pairs (A, A+1) and (B, B+1) into (D, D+1). Nothing else of the Lantern changes but flags in strict mode. -/
def Obligations.SelectionsAndConversionsWriteElements : Prop :=
  ∀ (s : State) (i : LIss) (f : VF) (r : Rout) (img : Image) (l : Lan) (u n : Nat), LanIssues s i r img l u → f.count l.vl = some n →
    (img.lanNext i l = some (.vsel i f) → f.ok (uD ||| uA ||| uB ||| uMS ||| uCNT) = true →
      ∃ (t : State) (l1 : Lan), exec (.vsel i f) s = .next t ∧ t.lanAt i = some (l1.retire img.code) ∧ OnlyRoutine s t i u ∧
        l1 = { l with v := l1.v } ∧
        ∀ d e, e < 4096 → l1.vget d e = if d = f.d ∧ e < n then (if l.mbit f.ms e then l.vget f.a e else l.vget f.b e) else l.vget d e) ∧
    (∀ f1 f2 : Fmt, img.lanNext i l = some (.vcvt i f) → f.ok (uD ||| uA ||| uVec ||| uF1 ||| uF2 ||| uOVF) = true → Fmt.ofCode f.f1 = some f1 → Fmt.ofCode f.f2 = some f2 →
      let res := fun e => cvAny f2 l.rnd (l.rand (ctxFor i r img) e) (f.ovf == 1) l.strict (decodeVal f1 (l.vget f.a e % 2 ^ f1.width))
      ∃ (t : State) (l1 : Lan), exec (.vcvt i f) s = .next t ∧ t.lanAt i = some (l1.retire img.code) ∧ OnlyRoutine s t i u ∧
        l1 = { l.raise ((l.actives f n).foldl (fun a e => a ||| (res e).flags) 0) with v := l1.v } ∧
        ∀ d e, e < 4096 → l1.vget d e = if d = f.d ∧ e < n ∧ l.active f e = true then (res e).code % 2 ^ 32 else l.vget d e) ∧
    (img.lanNext i l = some (.vpadd i f) → f.ok (uD ||| uA ||| uB ||| uVec) = true → f.d % 2 = 0 → f.a % 2 = 0 → f.b % 2 = 0 →
      let x := fun e => (l.vget f.a e, l.vget (f.a + 1) e)
      let y := fun e => (l.vget f.b e, l.vget (f.b + 1) e)
      ∃ (t : State) (l1 : Lan), exec (.vpadd i f) s = .next t ∧ t.lanAt i = some (l1.retire img.code) ∧ OnlyRoutine s t i u ∧
        l1 = { l.raise ((l.actives f n).foldl (fun a e => a ||| pairFlags (x e) (y e)) 0) with v := l1.v } ∧
        ∀ d e, e < 4096 → l1.vget d e =
          if e < n ∧ l.active f e = true ∧ d = f.d then (pairAdd (x e) (y e)).1 % 2 ^ 32
          else if e < n ∧ l.active f e = true ∧ d = f.d + 1 then (pairAdd (x e) (y e)).2 % 2 ^ 32
          else l.vget d e)

/-- A scalar instruction of Table 7.6 that writes SD: the fields that it uses, and the value. -/
structure ScaRow where
  cmd : LIss → SF → Instr
  uses : Nat
  val : SF → Lan → Nat

def scaRows : List ScaRow :=
  [⟨.sli, vI, fun f _ => trunc2 64 (sext 32 f.imm)⟩,
   ⟨.slih, vI, fun f l => l.sget f.sd % 2 ^ 32 + f.imm * 2 ^ 32⟩,
   ⟨.saddi, vA ||| vI, fun f l => (l.sget f.sa + trunc2 64 (sext 32 f.imm)) % 2 ^ 64⟩,
   ⟨.sadd, vA ||| vB, fun f l => (l.sget f.sa + l.sget f.sb) % 2 ^ 64⟩,
   ⟨.ssub, vA ||| vB, fun f l => (l.sget f.sa + 2 ^ 64 - l.sget f.sb) % 2 ^ 64⟩,
   ⟨.smul, vA ||| vB, fun f l => l.sget f.sa * l.sget f.sb % 2 ^ 64⟩,
   ⟨.sshl, vA ||| vI, fun f l => l.sget f.sa * 2 ^ (f.imm % 64) % 2 ^ 64⟩,
   ⟨.sshr, vA ||| vI, fun f l => l.sget f.sa / 2 ^ (f.imm % 64)⟩,
   ⟨.ssel, vA ||| vB ||| vMS, fun f l => if l.mbit f.ms 0 then l.sget f.sa else l.sget f.sb⟩,
   ⟨.moder, 0, fun _ l => l.mode.toNat⟩]

/-- A scalar FP32 instruction of Table 7.6. -/
structure ScaFpRow where
  cmd : LIss → SF → Instr
  uses : Nat
  ops : SF → Lan → List Val
  val : SF → Lan → Val
  divz : SF → Lan → Bool

def scaFpRows : List ScaFpRow :=
  [⟨.sfadd, vA ||| vB, fun f l => [l.sfa f, l.sfb f], fun f l => Val.add (l.sfa f) (l.sfb f), fun _ _ => false⟩,
   ⟨.sfsub, vA ||| vB, fun f l => [l.sfa f, l.sfb f], fun f l => Val.sub (l.sfa f) (l.sfb f), fun _ _ => false⟩,
   ⟨.sfmul, vA ||| vB, fun f l => [l.sfa f, l.sfb f], fun f l => Val.mul (l.sfa f) (l.sfb f), fun _ _ => false⟩,
   ⟨.sfdiv, vA ||| vB, fun f l => [l.sfa f, l.sfb f], fun f l => Val.div (l.sfa f) (l.sfb f),
    fun f l => (l.sfa f).isFin && !(l.sfa f).isZero && (l.sfb f).isZero⟩,
   ⟨.sfsqrt, vA, fun f l => [l.sfa f], fun f l => Val.sqrt (l.sfa f), fun _ _ => false⟩]

/-- Scalar instructions write SD and retire, and change nothing else of the Lantern but flags in strict mode, and nothing beside its routine; an SFSQRT of a FACTOR
step with an operand below SOLVE_PIVOT_MIN is a pivot failure instead (the model's choice, log 68).
SCMPM writes every bit of M[MS]; SETVL and SETVLI write VL, at most 4,096; NOP only retires; RDP writes SD with a routine parameter, or with the
sampled bank of the result object that SA names. -/
def Obligations.ScalarInstructionsAct : Prop :=
  (∀ (s : State) (i : LIss) (f : SF) (r : Rout) (img : Image) (l : Lan) (u : Nat), LanIssues s i r img l u →
      (∀ row ∈ scaRows, img.lanNext i l = some (row.cmd i f) → f.ok (vD ||| row.uses) = true →
        ∃ t : State, exec (row.cmd i f) s = .next t ∧ t.lanAt i = some ((l.sput f.sd (row.val f l)).retire img.code) ∧ OnlyRoutine s t i u) ∧
      (∀ row ∈ scaFpRows, img.lanNext i l = some (row.cmd i f) → f.ok (vD ||| row.uses) = true →
        let res := fpRes l.strict l.rnd (l.rand (ctxFor i r img) 0) (row.ops f l) (row.val f l) (row.divz f l)
        let fails := row.cmd i f = .sfsqrt i f ∧ factors r l = true ∧ pivotFails r.pivMin (l.sget f.sa % 2 ^ 32) = true
        (¬fails → ∃ t : State, exec (row.cmd i f) s = .next t ∧ t.lanAt i = some (((l.sput f.sd res.1).raise res.2).retire img.code) ∧
          OnlyRoutine s t i u) ∧
        (fails → exec (row.cmd i f) s = .next
          (counted (((s.acting (lanAct i)).pivot (r.updLan i.l (fun _ => l.retire img.code))).did s (lanAct i)) i u 1))) ∧
      (∀ x k, (l.sput f.sd x).sget k = if k = f.sd then x % 2 ^ 64 else l.sget k)) ∧
  (∀ (s : State) (i : LIss) (f : SF) (r : Rout) (img : Image) (l : Lan) (u : Nat), LanIssues s i r img l u →
      let gives := fun (c : Instr) (l1 : Lan) => img.lanNext i l = some c →
        ∃ t : State, exec c s = .next t ∧ t.lanAt i = some (l1.retire img.code) ∧ OnlyRoutine s t i u
      (f.ok (vA ||| vB ||| vMS ||| vI) = true → gives (.scmpm i f)
        ((l.mput f.ms (if fpPred (f.imm % 8) (l.sfa f) (l.sfb f) then BitVec.allOnes 4096 else 0)).raise
          (if (l.sfa f).isSnan || (l.sfb f).isSnan then flInvalid else 0))) ∧
      (f.ok vA = true → l.sget f.sa ≤ 4096 → gives (.setvl i f) { l with vl := l.sget f.sa }) ∧
      (f.ok vI = true → f.imm ≤ 4096 → gives (.setvli i f) { l with vl := f.imm }) ∧
      (f.ok 0 = true → gives (.lnNop i f) l) ∧
      (∀ x, f.ok (vD ||| vI) = true → f.imm % 256 ≠ 28 → r.param img i.l (f.imm % 256) = some x → gives (.rdp i f) (l.sput f.sd x)) ∧
      (∀ x, f.ok (vD ||| vA ||| vI) = true → f.imm % 256 = 28 → r.samples.find? (fun y => y.tid == l.sget f.sa % 2 ^ 32 && l.sget f.sa % 2 ^ 32 != 0) = some x →
        gives (.rdp i f) (l.sput f.sd (if x.init then (4096 + x.bank * x.span) / 4 else 2 ^ 64 - 1))))

/-- MODEW writes the MODE fields that IMM[3:0] selects, from the same bits of SA, and no other bit of MODE; a written RND of 3, a reserved MFMT, or a
bit of IMM above the fourth makes it illegal, and MODE does not change. -/
def Obligations.ModewWritesSelectedFields : Prop :=
  ∀ (s : State) (i : LIss) (f : SF) (r : Rout) (img : Image) (l : Lan) (u : Nat), LanIssues s i r img l u → img.lanNext i l = some (.modew i f) →
    f.ok (vA ||| vI) = true →
    let x := l.sget f.sa
    let bad := 16 ≤ f.imm ∨ (f.imm.testBit 0 = true ∧ x % 4 = 3) ∨ (f.imm.testBit 3 = true ∧ 10 ≤ x / 2 ^ 8 % 32)
    (bad → exec (.modew i f) s = .next (s.lanExc r l i.l u 1 0 0x0501)) ∧
    (¬bad → ∃ (t : State) (m : W32), exec (.modew i f) s = .next t ∧ t.lanAt i = some ({ l with mode := m }.retire img.code) ∧
      OnlyRoutine s t i u ∧
      ∀ k, m.getLsbD k =
        if (k < 2 ∧ f.imm.testBit 0 = true) ∨ (k = 2 ∧ f.imm.testBit 1 = true) ∨ (3 ≤ k ∧ k < 8 ∧ f.imm.testBit 2 = true) ∨
          (8 ≤ k ∧ k < 13 ∧ f.imm.testBit 3 = true)
        then x.testBit k else l.mode.getLsbD k)

/-- An instruction that retires counts in DCOUNT and steps the innermost loop whose last instruction it is: its counter goes down by one; the loop repeats from
START while the counter is not zero, and otherwise ends after its ENDLOOP. No other register changes (R198). -/
def Obligations.RetirementStepsLoops : Prop :=
  ∀ (l : Lan) (code : List Nat),
    let t := l.retire code
    t.v = l.v ∧ t.m = l.m ∧ t.vl = l.vl ∧ t.mode = l.mode ∧ t.wait = l.wait ∧ t.dcount = (l.dcount + 1) % 2 ^ 28 ∧
    (∀ k, (∀ lv ∈ l.loops, lv.creg ≠ k) → t.sget k = l.sget k) ∧
    let last := fun (lv : LoopLvl) => lastBefore code lv.endw = some l.pc ∧ lv.start ≤ l.pc
    ((∀ lv ∈ l.loops, ¬last lv) → t.pc = l.pc + 1 ∧ t.s = l.s ∧ t.loops = l.loops) ∧
    (∀ inner lv outer, l.loops = inner ++ lv :: outer → (∀ x ∈ inner, ¬last x) → last lv →
      (l.sget lv.creg ≠ 1 → t.sget lv.creg = (l.sget lv.creg + 2 ^ 64 - 1) % 2 ^ 64 ∧ t.pc = lv.start ∧ t.loops = l.loops) ∧
      (l.sget lv.creg = 1 → (∀ x ∈ outer, ¬last x) → t.sget lv.creg = 0 ∧ t.pc = lv.endw + 1 ∧ t.loops = inner ++ outer))

/-- LOOP pushes a level, or skips its body when SA reads 0, and is illegal with a short body, no ENDLOOP at its end, or four loops active already; an
ENDLOOP that control reaches is illegal (R198). BRK with bit 0 of M[MS] set pops the innermost loop as it stands and goes on after its ENDLOOP, and an
enclosing loop whose last instruction it is then steps; with the bit clear it only retires; with no loop active it is illegal (R199). -/
def Obligations.LoopsOpenAndBreak : Prop :=
  (∀ (s : State) (i : LIss) (f : SF) (r : Rout) (img : Image) (l : Lan) (u : Nat), LanIssues s i r img l u →
    let e := l.pc + f.imm % 2 ^ 24
    let opens := 2 ≤ f.imm % 2 ^ 24 ∧ nth 0 img.code e / 2 ^ 56 = 0x55 ∧ l.loops.length ≤ 3
    let gives := fun (c : Instr) (l1 : Lan) => img.lanNext i l = some c → ∃ t : State, exec c s = .next t ∧ t.lanAt i = some l1 ∧ OnlyRoutine s t i u
    (f.ok (vA ||| vI) = true → opens →
      (l.sget f.sa = 0 → gives (.loop i f) { l with pc := e + 1, dcount := (l.dcount + 1) % 2 ^ 28 }) ∧
      (l.sget f.sa ≠ 0 → gives (.loop i f) { l with
        pc := l.pc + 1, dcount := (l.dcount + 1) % 2 ^ 28, loops := { creg := f.sa, endw := e, start := l.pc + 1 } :: l.loops })) ∧
    (¬opens → img.lanNext i l = some (.loop i f) → exec (.loop i f) s = .next (s.lanExc r l i.l u 1 0 0x0501)) ∧
    (img.lanNext i l = some (.endloop i f) → exec (.endloop i f) s = .next (s.lanExc r l i.l u 1 0 0x0501))) ∧
  (∀ (s : State) (i : LIss) (f : SF) (r : Rout) (img : Image) (l : Lan) (u : Nat), LanIssues s i r img l u → img.lanNext i l = some (.brk i f) → f.ok vMS = true →
    let gives := fun (l1 : Lan) => ∃ t : State, exec (.brk i f) s = .next t ∧ t.lanAt i = some l1 ∧ OnlyRoutine s t i u
    let dc := (l.dcount + 1) % 2 ^ 28
    (l.loops = [] → exec (.brk i f) s = .next (s.lanExc r l i.l u 1 0 0x0501)) ∧
    (l.loops ≠ [] → l.mbit f.ms 0 = false → gives (l.retire img.code)) ∧
    let last := fun (lv : LoopLvl) => lastBefore img.code lv.endw = some l.pc ∧ lv.start ≤ l.pc
    (∀ lv rest, l.loops = lv :: rest → l.mbit f.ms 0 = true → (∀ x ∈ rest, ¬last x) → gives { l with pc := lv.endw + 1, dcount := dc, loops := rest }) ∧
    (∀ lv inner lv2 outer, l.loops = lv :: (inner ++ lv2 :: outer) → l.mbit f.ms 0 = true → (∀ x ∈ inner, ¬last x) → last lv2 →
      (l.sget lv2.creg ≠ 1 → gives { l.sput lv2.creg (l.sget lv2.creg + 2 ^ 64 - 1) with pc := lv2.start, dcount := dc, loops := inner ++ lv2 :: outer }) ∧
      (l.sget lv2.creg = 1 → (∀ x ∈ outer, ¬last x) → gives { l.sput lv2.creg 0 with pc := lv2.endw + 1, dcount := dc, loops := inner ++ outer })))

/-- The state in which Lantern `i.l` has been left as `l1`, its instruction counted, as far as its routine's waits then allow. -/
def issuedAs (s : State) (i : LIss) (l1 : Lan) (u : Nat) : State := counted (s.rupd i.q i.seq (fun r => r.updLan i.l (fun _ => l1))) i u 1

/-- BAR, BOUNDARY, STOP, END, AWAIT, SCHED, RET and AISS leave their Lantern waiting: for the other Lanterns, the arrays, the schedule, or room in an
array's queue; the routine then goes on as far as its waits allow.
When every Lantern of a routine that has not stopped waits at a BAR, all of them go on, and nothing else changes. -/
def Obligations.WaitsAndBarriers : Prop :=
  (∀ (s : State) (i : LIss) (f : SF) (r : Rout) (img : Image) (l : Lan) (u : Nat), LanIssues s i r img l u →
      let waits := fun (c : Instr) (w : LWait) => img.lanNext i l = some c → exec c s = .next (issuedAs s i { l.retire img.code with wait := w } u)
      (f.ok 0 = true → waits (.bar i f) .bar ∧ waits (.boundary i f) .boundary ∧ (i.l ≠ 0 → waits (.lnStop i f) .stopped)) ∧
      (f.ok vA = true → i.l = 0 → (l.sget f.sa % 16 ∈ [0, 4, 5, 7] ∨ (l.sget f.sa % 16 = 9 ∧ r.r.kind = .precond)) →
        waits (.lnEnd i f) (.ended (l.sget f.sa % 16))) ∧
      (f.ok vI = true → (f.imm % 256 = 255 → waits (.await i f) (.await none)) ∧
        (f.imm % 256 ≠ 255 → f.imm % 256 < img.arrays → waits (.await i f) (.await (some (f.imm % 256))))) ∧
      (f.ok 0 = true → r.r.kind = .solve → l.loops = [] → l.inHandler = false → img.lanNext i l = some (.sched i f) →
        exec (.sched i f) s = .next (issuedAs s i { l with wait := .sched } u)) ∧
      (f.ok 0 = true → l.inHandler = true → img.lanNext i l = some (.lnRet i f) →
        exec (.lnRet i f) s = .next (issuedAs s i { l.retire img.code with wait := .retd, inHandler := false } u)) ∧
      (f.ok (vA ||| vB ||| vI) = true → f.imm % 256 < img.arrays → l.sget f.sb ≠ 0 → l.sget f.sa + l.sget f.sb ≤ img.arrWords →
        waits (.aiss i f) (.issue (f.imm % 256) (l.sget f.sa) (l.sget f.sb)))) ∧
  (∀ (s : State) (q seq : Nat) (r : Rout) (img : Image), s.rfind q seq = some r → r.img = some img → r.phase = .loaded → r.running ≠ [] →
      (∀ l ∈ r.lans, l.wait = .stopped ∨ l.wait = .bar) →
      s.settleOne q seq = some (s.rupd q seq (fun _ => { r with lans := r.lans.map (fun l => if l.wait = .bar then { l with wait := .run } else l) })))

/-- ASTR leaves its binding waiting for room in the array's queue, with its tensor resolved where it names one, for which it waits while that lacks a walk; AFLG gives
SD[3:0] the array's flags and clears them.
PIVF retires; with bit 0 of M[MS] set it reports a pivot failure, which starts the schedule again with ten times the damping, its arrays empty and its work so far
not charged again, and ends the routine with outcome 3 when λ is 0 or four attempts have failed (R162, R203, R204, R218). -/
def Obligations.ArrayBindingsAndPivots : Prop :=
  (∀ (s : State) (i : LIss) (f : SF) (r : Rout) (img : Image) (l : Lan) (u : Nat), LanReady s i r img l u →
      ∀ j side base kg0 kgm1 runM1, img.lanNext i l = some (.astr i f) → f.ok vA = true → f.sa ≤ 12 → j < 256 → j < img.arrays → base < 2 ^ 40 → kg0 < 2 ^ 20 → kgm1 < 2 ^ 20 →
        kg0 + kgm1 ≤ 1048575 → runM1 < 32 → l.sget (f.sa + 1) = base → l.sget (f.sa + 3) = kg0 + kgm1 * 2 ^ 20 + runM1 * 2 ^ 40 →
        let ks := l.sget (f.sa + 2) / 2 ^ 32
        let xs := l.sget (f.sa + 2) % 2 ^ 32
        let act := lanAct i
        (l.sget f.sa = j + 2 * 2 ^ 30 → ActIdle s act →
          exec (.astr i f) s = .next (issuedAs s i { l.retire img.code with wait := .bindw j 0 2 0 base ks xs runM1 kgm1 kg0 } u)) ∧
        (side < 2 → r.r.kind = .gram → l.sget f.sa = j + 2 ^ 29 + side * 2 ^ 30 → ActIdle s act →
          exec (.astr i f) s = .next (issuedAs s i { l.retire img.code with wait := .bindw j 0 side 1 base ks xs runM1 kgm1 kg0 } u)) ∧
        (∀ tid, side < 2 → tid < 2 ^ 32 → l.sget f.sa = j + side * 2 ^ 30 + tid * 2 ^ 32 →
          let x := (s.acting act).resolve 2 (nth j r.arrMap j) r.tenant tid
          let last := base + (16 * (kgm1 + 1) - 1) * ks + (if side = 0 then 127 else 8 * runM1 + 7) * xs
          (∀ w, x.1.reads.want = some w → (s.ask act w).reads.res.length ≤ s.reads.res.length → exec (.astr i f) s = .next (s.ask act w)) ∧
          (∀ e, x.1.reads.want = none → x.2 = .ok e →
            (∀ fm, (r.arrs[j]?).bind (fun a => lastFset img a side) = some fm → e.holds last (fmtNib fm) = true) →
            exec (.astr i f) s = .next (counted ((x.1.rupd i.q i.seq (fun r => r.updLan i.l (fun _ =>
              { l.retire img.code with wait := .bindw j tid side 0 base ks xs runM1 kgm1 kg0 }))).did s act) i u 1)))) ∧
  (∀ (s : State) (i : LIss) (f : SF) (r : Rout) (img : Image) (l : Lan) (u : Nat), LanIssues s i r img l u →
      (∀ a, img.lanNext i l = some (.aflg i f) → f.ok (vD ||| vI) = true → f.imm % 256 < img.arrays → r.arrs[f.imm % 256]? = some a →
        ∃ t : State, exec (.aflg i f) s = .next t ∧
          t.lanAt i = some ((l.sput f.sd (l.sget f.sd / 16 * 16 + a.aflg % 16)).retire img.code) ∧ OnlyRoutine s t i u)) ∧
  (∀ (s : State) (i : LIss) (f : SF) (r : Rout) (img : Image) (l : Lan) (u : Nat), LanIssues s i r img l u → img.lanNext i l = some (.pivf i f) → f.ok vMS = true →
      r.r.kind = .solve → r.inSched = true →
      let ends := fun (x : State) => counted (x.did s (lanAct i)) i u 1
      let s1 := (s.acting (lanAct i)).rupd i.q i.seq (fun _ => r.updLan i.l (fun _ => l.retire img.code))
      (l.mbit f.ms 0 = false → ∃ t : State, exec (.pivf i f) s = .next t ∧ t.lanAt i = some (l.retire img.code) ∧ OnlyRoutine s t i u) ∧
      (l.mbit f.ms 0 = true → (r.lam = 0 ∨ 4 ≤ r.retry) → exec (.pivf i f) s = .next (ends (s1.endRout i.q i.seq 3 0))) ∧
      (l.mbit f.ms 0 = true → r.lam ≠ 0 → r.retry < 4 → exec (.pivf i f) s = .next (ends (((s1.bump O.dampRetries 0 32 1).rupd i.q i.seq (fun r => { r with
        lam := mul32 r.lam 0x41200000, retry := r.retry + 1, cursor := 0, redo := r.redo + r.attempt, attempt := 0
        arrs := r.arrs.map LArr.drop
        lans := r.lans.zipIdx.map (fun (l, k) =>
          if l.wait == .stopped then l else { l with wait := .sched, inHandler := false, loops := [], pc := nth 0 r.schedPcs k }) })).settle i.q i.seq)))) ∧
  (∀ a : LArr, a.drop.queued = [] ∧ a.drop.groups = [] ∧ a.drop.dome = [] ∧ a.drop.wins = [] ∧ a.drop.pend = [] ∧ a.drop.bindA = a.bindA ∧ a.drop.fa = a.fa)

/-- An illegal Lantern word (an opcode of no table, an unused field that is not 0, an illegal CNT) raises the illegal-instruction exception: it is counted on its physical Lantern, and its routine ends with outcome FAULT (8), code F_LANTERN_ILLEGAL (0x0501) and the report of Table 7.13. -/
def Obligations.IllegalWordsEndTheRoutine : Prop :=
  ∀ (s : State) (i : LIss) (r : Rout) (img : Image) (l : Lan) (u : Nat), LanIssues s i r img l u →
    (∀ word, img.code[l.pc]? = some word → lanOpcode (word / 2 ^ 56 % 256) = false → exec (.fLanternIllegal i word) s = .next (s.lanExc r l i.l u 1 0 0x0501)) ∧
    (∀ row ∈ intRows, ∀ f : VF, f.ok (uD ||| uVec ||| row.uses) = false ∨ f.count l.vl = none → img.lanNext i l = some (row.cmd i f) →
      exec (row.cmd i f) s = .next (s.lanExc r l i.l u 1 0 0x0501)) ∧
    (∀ row ∈ fpRows, ∀ f : VF, f.ok (uD ||| uVec ||| row.uses) = false ∨ f.count l.vl = none → img.lanNext i l = some (row.cmd i f) →
      exec (row.cmd i f) s = .next (s.lanExc r l i.l u 1 0 0x0501)) ∧
    (∀ row ∈ scaRows, ∀ f : SF, f.ok (vD ||| row.uses) = false → img.lanNext i l = some (row.cmd i f) →
      exec (row.cmd i f) s = .next (s.lanExc r l i.l u 1 0 0x0501)) ∧
    (∀ row ∈ scaFpRows, ∀ f : SF, f.ok (vD ||| row.uses) = false → img.lanNext i l = some (row.cmd i f) →
      exec (row.cmd i f) s = .next (s.lanExc r l i.l u 1 0 0x0501)) ∧
    ((s.rfind i.q i.seq).map (·.ended) = some false → ∀ r', (s.lanExc r l i.l u 1 0 0x0501).rfind i.q i.seq = some r' →
      r'.ended = true ∧ r'.outcome = 8 ∧ r'.code = 0x0501)

/-- CNT gives the element count: itself up to 4,096, VL when all its bits are set, and no other value is legal; an instruction with n = 0 only retires. -/
def Obligations.CntGivesTheElementCount : Prop :=
  ∀ (s : State) (i : LIss) (f : VF) (r : Rout) (img : Image) (l : Lan) (u : Nat), LanIssues s i r img l u →
    (f.cnt ≤ 4096 → f.count l.vl = some f.cnt) ∧ (f.cnt = 0x1FFF → l.vl ≤ 4096 → f.count l.vl = some l.vl) ∧
    (4096 < f.cnt → f.cnt ≠ 0x1FFF →
      ∀ c ∈ ([.vadd i f, .vsub i f, .vmul i f, .vfma i f, .vdiv i f, .vsqrt i f, .vmin i f, .vmax i f, .vabs i f, .vneg i f, .vadds i f, .vmuls i f,
        .vfmas i f, .vpadd i f, .viadd i f, .visub i f, .vimul i f, .viaddsat i f, .vand i f, .vor i f, .vxor i f, .vshl i f, .vsra i f, .vsrl i f,
        .viota i f, .vmov i f, .vbcast i f, .vcmp i f, .vicmp i f, .vsel i f, .mand i f, .mor i f, .mnot i f, .many i f, .vrsum i f, .vrmax i f,
        .vrmin i f, .vrcsum i f, .vrisum i f, .vcvt i f, .vld i f, .vst i f] : List Instr),
        img.lanNext i l = some c → exec c s = .next (s.lanExc r l i.l u 1 0 0x0501)) ∧
    (f.count l.vl = some 0 →
      let noOp := fun (c : Instr) => img.lanNext i l = some c → ∃ t : State, exec c s = .next t ∧ t.lanAt i = some (l.retire img.code) ∧ OnlyRoutine s t i u
      (∀ row ∈ intRows, f.ok (uD ||| uVec ||| row.uses) = true → noOp (row.cmd i f)) ∧
      (∀ row ∈ fpRows, f.ok (uD ||| uVec ||| row.uses) = true → noOp (row.cmd i f)) ∧
      (∀ row ∈ maskRows, f.ok (uD ||| row.uses) = true → row.legal f = true → noOp (row.cmd i f)) ∧
      (∀ p ∈ ([(.vrsum i f, uSA ||| uVec ||| uA), (.vrisum i f, uSA ||| uVec ||| uA), (.vrmax i f, uSA ||| uVec ||| uA),
          (.vrmin i f, uSA ||| uVec ||| uA), (.vrcsum i f, uSA ||| uVec ||| uA ||| uB), (.vsel i f, uD ||| uA ||| uB ||| uMS ||| uCNT)] :
          List (Instr × Nat)), f.ok p.2 = true → noOp p.1) ∧
      (f.ok (uD ||| uA ||| uB ||| uVec) = true → f.d % 2 = 0 → f.a % 2 = 0 → f.b % 2 = 0 → noOp (.vpadd i f)) ∧
      (f.ok (uD ||| uA ||| uVec) = true → f.d < 8 → f.a < 8 → noOp (.many i f)) ∧
      (f.ok (uD ||| uA ||| uVec ||| uF1 ||| uF2 ||| uOVF) = true → (Fmt.ofCode f.f1).isSome = true → (Fmt.ofCode f.f2).isSome = true → noOp (.vcvt i f)) ∧
      (f.ok (uD ||| uA ||| uB ||| uC ||| uVec) = true → f.a < 16 → f.b < 16 → f.c < 16 →
        noOp (.vld i f) ∧ noOp (.vst i f)))

/-- A VLD or VST of `n` elements has legal fields and registers, and a count that is not 0. -/
structure Accesses (l : Lan) (f : VF) (n : Nat) : Prop where
  fields : f.ok (uD ||| uA ||| uB ||| uC ||| uVec) = true
  regs : f.a < 16 ∧ f.b < 16 ∧ f.c < 16
  count : f.count l.vl = some n
  positive : 0 < n

/-- What it touches passes the checks of R188: a tensor that resolves, and indices inside it. -/
structure Reaches (s s1 : State) (i : LIss) (r : Rout) (l : Lan) (f : VF) (n : Nat) (e : TmEntry) : Prop extends Accesses l f n where
  entry : (s.acting (lanAct i)).wres r.tenant (l.sget f.a % 2 ^ 32) = (s1, .ok e)
  int4 : l.mfmt = 7 → l.sget f.c = 1 ∧ l.sget f.b % 2 ^ 40 % 2 = 0 ∧ (n % 2 = 0 ∨ l.sget f.b % 2 ^ 40 + n - 1 = lastElem e 1)
  inside : ∀ x ∈ l.accessIdx f n, ∃ k, x.2 = some k ∧ e.holds k (fmtNib l.mfmt) = true

/-- VLD and VST wait while their tensor lacks a walk, for their routine's own writes to what they touch, and a VLD for the beats that it has not read, which it asks for.
VLD then writes each active element with the element of host memory that its index names, or of the copy that R248 keeps of a PRECOND's list; VST issues the writes
of its active elements, and changes memory only when they are answered; a GRAM that gathers its tokens writes nothing yet (R154, R188, R189). -/
def Obligations.LoadsAndStoresReachTensors : Prop :=
  (∀ (s : State) (i : LIss) (f : VF) (r : Rout) (img : Image) (l : Lan) (u n : Nat), LanReady s i r img l u → Accesses l f n →
    let x := (s.acting (lanAct i)).wres r.tenant (l.sget f.a % 2 ^ 32)
    (img.lanNext i l = some (.vst i f) → r.gathers = true → exec (.vst i f) s = .next s) ∧
    (∀ w, x.1.reads.want = some w → (s.ask (lanAct i) w).reads.res.length ≤ s.reads.res.length →
      (img.lanNext i l = some (.vld i f) → exec (.vld i f) s = .next (s.ask (lanAct i) w)) ∧
      (img.lanNext i l = some (.vst i f) → r.gathers = false → exec (.vst i f) s = .next (s.ask (lanAct i) w)))) ∧
  (∀ (s s1 : State) (i : LIss) (f : VF) (r : Rout) (img : Image) (l : Lan) (u n : Nat) (e : TmEntry), LanReady s i r img l u → Reaches s s1 i r l f n e →
    let nib := fmtNib l.mfmt
    let es := (l.accessIdx f n).map (fun x => (x.1, x.2.getD 0))
    let rng := fun (x : Nat × Nat) => e.at x.2 nib
    let cp := s1.listCopy r (l.sget f.a % 2 ^ 32) e
    let mem := es.filter (fun x => !(decide (cp.2.1 ≤ (rng x).1) && decide ((rng x).1 + (rng x).2 ≤ cp.2.1 + cp.2.2)))
    let lack := ((mem.map rng).flatMap (fun (a, k) => beatsOf a k)).filter (fun b => !s1.hasBeat b)
    (img.lanNext i l = some (.vld i f) →
      (s1.overlaps r (mem.map rng) = true → exec (.vld i f) s = .next s) ∧
      (s1.overlaps r (mem.map rng) = false → (∀ x ∈ mem, s1.inWindow (rng x).1 (rng x).2 = false) →
        (lack ≠ [] → exec (.vld i f) s = .next (s.ask (lanAct i) (.beats lack e.attr r.tenant))) ∧
        (lack = [] → (∀ x ∈ mem, s1.rangeBad (rng x).1 (rng x).2 = 0) →
          ∃ (t : State) (l1 : Lan), exec (.vld i f) s = .next t ∧ t.lanAt i = some (l1.retire img.code) ∧ l1 = { l with v := l1.v } ∧
            (∀ x ∈ es, l1.vget f.d x.1 = e.read (s1.copyRd cp) x.2 nib % 2 ^ 32) ∧
            (∀ d k, k < 4096 → (d ≠ f.d ∨ n ≤ k ∨ l.active f k = false) → l1.vget d k = l.vget d k) ∧ ∀ a, t.byte a = s.byte a))) ∧
    (r.gathers = false → (∀ x ∈ es, meets (rng x).1 (rng x).2 r.guarded = false) → l.sget f.a % 2 ^ 32 ≠ r.r.imageTid → l.sget f.a % 2 ^ 32 ≠ r.r.ctxTid →
      e.base ≠ r.imgBase → (∀ x, r.ctxEnt = some x → x.base ≠ e.base) → (∀ x ∈ es, s1.inWindow (rng x).1 (rng x).2 = false) →
      img.lanNext i l = some (.vst i f) →
      (s1.overlaps r (es.map rng) = true → exec (.vst i f) s = .next s) ∧
      (s1.overlaps r (es.map rng) = false →
        ∃ (t : State) (l1 : Lan), exec (.vst i f) s = .next t ∧ t.lanAt i = some (l1.retire img.code) ∧ (l1 = l ∨ l1 = l.setMode 13) ∧
          t.reqs = ((s1.writeSet (.rout i.q i.seq) (e.writes s1.rdN nib (· == lastElem e nib)
            (es.map (fun x => (x.2, l.vget f.d x.1 % 2 ^ ((Fmt.ofCode l.mfmt).getD .fp32).width)))) e.attr r.tenant false).did s (lanAct i)).reqs ∧
          ∀ a, t.byte a = s.byte a)))

/-! The Belfry (R324 to R343, R403). -/

/-- A frame that port `p` takes in order (R327, R328, R403): the port has lock and is in service, and the frame is next in order. -/
structure Taken (s : State) (p : Nat) (f : Frame) : Prop where
  port : p < 48
  live : s.live = true
  lock : (s.bport p).lock = true
  inService : s.get O.bportState p ≠ 1 ∧ s.get O.bportState p ≠ 2
  order : f.ftype = 1 ∨ ((s.bport p).trained = true ∧ f.lseq = ((s.bport p).lastRx + 1) % 2 ^ 24)

/-- TRAIN puts its port into service and starts its calibration; CAL_REQ is answered at once; CAL_RSP gives the delay, and a member whose time parent answered its
offset and time base, which steps at the first calibration of all and never again (log 71); ALIVE does nothing; a frame for another instance goes on with one hop more, unless it has made 15 or has no route; and what a frame
acknowledges is no longer kept (R327 to R330). What a frame frees lets REDUCE frames that wait for a context be taken (R337). -/
def Obligations.LinkFramesAct : Prop :=
  ∀ (s : State) (p : Nat) (f : Frame), Taken s p f → f.illegal = false →
    let s1 := s.linkTake p f
    (f.ftype = 1 → ∃ u : State, exec (.train p f) s = .next ((u.calibrate p).formArrive).redSpace ∧ (u.bport p).trained = true ∧ (u.bport p).lostLock = false ∧
      u.get O.bportPeer p = f.src * 65536 + f.arg0 % 64 ∧ (s1.get O.bportState p = 3 → u.get O.bportState p = 0) ∧ u.mem = s.mem) ∧
    (f.ftype = 2 → exec (.calReq p f) s = .next (s1.sendOn p (s1.frame 3 f.src s1.stamp s1.stamp [f.arg0])).redSpace) ∧
    (f.ftype = 3 → ∀ t1, (s1.bport p).calT1 = some t1 →
      (f.payload.head? ≠ some t1 → exec (.calRsp p f) s = .next s1.redSpace) ∧
      (f.payload.head? = some t1 →
        let sub := fun (a b : Nat) => sext 64 (a + 2 ^ 64 - b)
        let s2 := (s1.updBport p (fun b => { b with calT1 := none })).put O.bportDelay p (trunc2 32 ((sub s1.stamp t1 - sub f.arg1 f.arg0) / 2))
        let th := (sub f.arg0 t1 + sub f.arg1 s1.stamp) / 2
        (s2.timePort ≠ some p → exec (.calRsp p f) s = .next s2.redSpace) ∧
        (s2.timePort = some p → s1.get O.bportAsym p = 0 →
          let s3 := (s2.updBport p (fun b => { b with stepped := true })).setObj O.timeOffset (trunc2 32 (sat32 th))
          (s1.bports.any (fun x => x.2.stepped) = false →
            exec (.calRsp p f) s = .next ((s3.setTb (((s3.tb : Int) + th * 2 ^ 32).toNat % 2 ^ 112)).setRate 0).redSpace) ∧
          (s1.bports.any (fun x => x.2.stepped) = true →
            let s4 := s3.setRate (th * 2 ^ 32 / (s3.obj O.calPeriod : Int))
            (th.natAbs ≤ 98304 → exec (.calRsp p f) s = .next s4.redSpace) ∧
            (98304 < th.natAbs → exec (.calRsp p f) s = .next (s4.linkEvent 3 p (s4.peerOf p)).redSpace))))) ∧
    (f.ftype = 9 → f.dst = s1.group.self → exec (.alive p f) s = .next s1.redSpace) ∧
    (4 ≤ f.ftype → f.dst ≠ s1.group.self →
      (∀ r, f.hops < 15 → s1.route f.dst = some r → exec (.frameForward p f) s = .next (s1.sendOn r { f with hops := f.hops + 1 }).redSpace) ∧
      (f.hops = 15 ∨ s1.route f.dst = none → exec (.frameForward p f) s = .next (s1.linkEvent 6 0xFF f.dst).redSpace)) ∧
    (∀ done x left, (s.bport p).unacked = done ++ x :: left → x.lseq = f.ack → x.again = false → (∀ y ∈ done, y.lseq ≠ f.ack ∧ y.again = false) →
      (s.bport p).waiting = [] → s1 = s.updBport p (fun b => { b with lastRx := f.lseq, unacked := left, credit := f.credit - left.length }))

/-- Words that make no frame with a good CRC, or that come with a receive error, are discarded in silence, and an illegal one with an event; a frame not acknowledged in time is sent again once, and
then fences its port; a calibration exchange starts each CAL_PERIOD; a port that loses its lock is down, one whose lock rises trains, and one whose lock is not
cured in time is fenced (R327, R328, R330, R403). -/
def Obligations.LinkEventsAct : Prop :=
  ∀ (s : State) (p : Nat), p < 48 →
    (∀ ws rxErr, Frame.ofWords ws = none ∨ rxErr = true → exec (.belfryFrameDiscard p ⟨ws, rxErr⟩) s = .next s) ∧
    (∀ ws f, Frame.ofWords ws = some f → Taken s p f → f.illegal = true →
      let s1 := s.linkTake p f
      exec (.belfryFrameDiscard p ⟨ws, false⟩) s = .next (s1.linkEvent 7 p (s1.peerOf p))) ∧
    (∀ x l, s.live = true → (s.bport p).trained = true → (s.bport p).unacked = x :: l →
      (x.again = false → exec (.bportRetransmits p) s = .next
        ((s.updBport p (fun b => { b with unacked := { x with again := true } :: l })).setBtx (s.btx ++ [(p, x.frame)]))) ∧
      (x.again = true →
        let u := s.fence 7 p 6 0 {}
        exec (.bportRetransmits p) s = .next (u.linkEvent 1 p (s.peerOf p)) ∧ u.get O.bportState p = 1)) ∧
    (s.live = true → (s.bport p).trained = true → s.get O.bportState p = 0 → exec (.calPeriod p) s = .next
      (let u := s.updBport p (fun b => { b with calT1 := some s.stamp })
       u.sendOn p (u.frame 2 0 s.stamp 0 []))) ∧
    ((s.bport p).lock = true → ∃ t : State, exec (.lockFall p) s = .next t ∧ (t.bport p).lock = false ∧ (t.bport p).trained = false ∧
      ((s.bport p).trained = true → (t.bport p).lostLock = true) ∧ (s.get O.bportState p = 0 → t.get O.bportState p = 3) ∧ t.mem = s.mem) ∧
    ((s.bport p).lock = false →
      let u := s.updBport p (fun b => { b with lock := true })
      (s.live = true → 3 ≤ s.phase → s.get O.bportState p = 3 → exec (.lockRise p) s = .next (u.trainPort p)) ∧
      (s.live = false ∨ s.phase < 3 ∨ s.get O.bportState p ≠ 3 → exec (.lockRise p) s = .next u)) ∧
    (s.live = true → (s.bport p).lostLock = true → s.get O.bportState p = 3 →
      let u := (s.updBport p (fun b => { b with lostLock := false })).fence 7 p 6 0 {}
      exec (.retrainTimeout p) s = .next (u.linkEvent 1 p (s.peerOf p)) ∧ u.get O.bportState p = 1)

/-- A node joins the nodes of a reduce context: its elements join those of its rank, whose error it keeps. -/
def withNode (x : RedNode) (l : List RedNode) : List RedNode :=
  if l.any (fun y => y.rank == x.rank) then
    l.map (fun y => if y.rank = x.rank then { y with elems := y.elems ++ x.elems, err := y.err || x.err } else y)
  else l ++ [x]

/-- The frames and the silences of the bell group (R332 to R337): ARRIVE is kept and may complete the toll, RELEASE sets the stamp and goes on down the tree, the
REDUCE frames combine and return, LOST and a silent member are taken from the tree of the next bell, told to the master and by the master once to the tree, and a member that has sent nothing sends ALIVE. -/
def Obligations.GroupFramesAct : Prop :=
  (∀ (s : State) (p : Nat) (f : Frame), Taken s p f → f.illegal = false →
    let s1 := s.linkTake p f
    let g := s1.group
    let now := s1.tb / 2 ^ 32
    let tag := bits f.arg0 0 32
    let n := bits f.arg0 32 32
    let first := bits f.arg1 0 40
    let elems := fun (pair : Bool) (n : Nat) => (redElems pair (n - first) f.payload).zipIdx.map (fun (a, i) => (first + i, a.1, a.2))
    let node := fun (k : Nat) => ({ rank := k, count := n, rop := bits f.arg1 44 4, pair := f.arg1.testBit 43, err := f.arg1.testBit 63
                                    elems := elems (f.arg1.testBit 43) n } : RedNode)
    f.dst = g.self →
    (f.ftype = 4 → g.base ≤ f.src → f.src - g.base ∈ childrenOf g.live s1.ownRank → (∀ a ∈ g.arrivals, a.rank ≠ f.src - g.base) →
      let w := f.payload.headD 0
      let s2 := s1.updGroup (fun g => { g with arrivals := g.arrivals ++
        [{ rank := f.src - g.base, ready := nearStamp now f.arg1, low := bits w 16 16, count := bits w 0 16 }] })
      (f.arg0 = s1.bellNo → f.arg0 ≠ allOnes → s1.bell ≠ .none → exec (.arrive p f) s = .next s2.tryToll.redSpace) ∧
      (f.arg0 = allOnes → s1.grouping = true → s2.isMaster = false ∨ s2.childrenIn = false → exec (.arrive p f) s = .next s2.formArrive.redSpace) ∧
      (f.arg0 = allOnes → s1.grouping = true → s2.isMaster = true → s2.childrenIn = true → exec (.arrive p f) s = .next s2.releaseGroup.redSpace)) ∧
    (f.ftype = 5 → s1.isMaster = false → 1 < g.size → f.arg0 = s1.bellNo → f.arg0 ≠ allOnes → s1.bell = .formed → now ≤ nearStamp now f.arg1 →
      let w := nth 0 f.payload 1
      exec (.release p f) s = .next ((s1.toChildren 5 f.arg0 f.arg1 f.payload).updGroup (fun g => { g with
        stamp := some (nearStamp now f.arg1), nextDigest := f.payload.headD 0, sum := (bits w 16 16, bits w 0 16) })).redSpace) ∧
    (f.ftype = 6 → ∀ k,
      (s1.findRed f.group tag = none → grpRank (s1.redGroup f.group) f.src = some k → s1.rxCredit ≠ 0 →
        exec (.reduceUp p f) s = .next (s1.setReds (s1.reds ++ [{ group := f.group, tag := tag, nodes := [node k] }])).redSpace) ∧
      (s1.findRed f.group tag = none → grpRank (s1.redGroup f.group) f.src = some k → s1.rxCredit = 0 →
        exec (.reduceUp p f) s = .next (s1.updBport p (fun b => { b with held := b.held ++ [f] })).redSpace) ∧
      (∀ c, s1.findRed f.group tag = some c → grpRank (if c.owner.isSome then c.grp else s1.redGroup f.group) f.src = some k →
        exec (.reduceUp p f) s = .next ((s1.updRed f.group tag (fun c => { c with nodes := withNode (node k) c.nodes })).climb f.group tag 40).redSpace)) ∧
    (f.ftype = 7 → ∀ c q seq r, s1.findRed f.group tag = some c → c.owner = some (q, seq) → s1.redOf c.owner = some r → c.sent = true → c.result = none →
      let kids := (List.range c.level).filterMap (fun l => if c.rank + 2 ^ l < c.size then some (grpInst c.grp (c.rank + 2 ^ l)) else none)
      let s2 := kids.foldl (fun s k => s.sendTo { s.frame 7 k f.arg0 f.arg1 f.payload with group := f.group }) s1
      let down := c.down ++ elems c.pair c.count
      let s3 := s2.updRed f.group tag (fun c => { c with down := down })
      let got := ({ rank := 0, count := c.count, rop := c.rop, pair := c.pair, err := false, elems := down } : RedNode).whole c.count
      (f.arg1.testBit 63 = true → exec (.reduceDown p f) s = .next (s2.failRed q seq f.group tag 2).redSpace) ∧
      (f.arg1.testBit 63 = false → (∃ k ∈ kids, s2.route k = none) → exec (.reduceDown p f) s = .next (s2.failRed q seq f.group tag 4).redSpace) ∧
      (f.arg1.testBit 63 = false → (∀ k ∈ kids, s2.route k ≠ none) →
        (got = none → exec (.reduceDown p f) s = .next s3.redSpace) ∧
        (∀ l, got = some l → exec (.reduceDown p f) s = .next
          ((s3.updRed f.group tag (fun c => { c with result := some l, sent := true })).redWrite q seq).redSpace))) ∧
    (f.ftype = 8 →
      let r := f.arg0 % 65536
      r < g.size → ¬(r ∈ g.told) → r ≠ s1.ownRank →
        let s2 := (s1.loseRank r).updGroup (fun g => { g with told := g.told ++ [r] })
        exec (.lost p f) s = .next (((s2.toChildren 8 r (f.arg1 % 4) []).tryToll).redLosses).redSpace ∧
        (¬(r ∈ g.lost) → ¬(r ∈ g.lostNext) →
          (s1.loseRank r).group.lostNext = g.lostNext ++ [r] ∧ (s1.loseRank r).obj O.bgLive = s1.obj O.bgLive - 1))) ∧
  (∀ (s : State), s.live = true → 1 < s.group.size → s.bell ≠ .none →
    (∀ r, r < s.group.size → ¬(r ∈ s.group.lost) → ¬(r ∈ s.group.lostNext) → ¬(r ∈ s.group.told) → r ≠ s.ownRank →
      let u := s.loseRank r
      (u.isMaster = true →
        exec (.tollTimeout r) s = .next ((((u.updGroup (fun g => { g with told := g.told ++ [r] })).toChildren 8 r 2 []).tryToll).redLosses)) ∧
      (∀ m, u.isMaster = false → u.group.up.head? = some m →
        exec (.tollTimeout r) s = .next (((u.sendTo (u.frame 8 (s.group.base + m) r 2 [])).tryToll).redLosses))) ∧
    (s.isMaster = false →
      (s.group.heardSent = true → exec .aliveInterval s = .next (s.updGroup (fun g => { g with heardSent := false }))) ∧
      (∀ m, s.group.heardSent = false → parentOf s.group.live s.ownRank = some m → exec .aliveInterval s = .next
        ((s.sendTo (s.frame 9 (s.group.base + m) s.bellNo 0 [])).updGroup (fun g => { g with heardSent := false })))))

/-! The reduction order (R193, R194). -/

/-- The TREE of a list is the TREE of the values of TREE over its consecutive chunks of 4096, whatever the node operation, with a chunk that has no active
element absent. -/
def Obligations.TreesOfChunksAgree : Prop :=
  ∀ (α : Type) (op : α → α → α) (l : List (Option α)),
    tree op l = tree op ((List.range (ceilDiv l.length 4096)).map (fun i => tree op ((l.drop (4096 * i)).take 4096)))
end

