-- ==== Sys2Proof/Laws/State.lean ====
section
/-! SUPPORT. One lemma per setter and field that statements read, and per reader of the state: what the setter writes, and what it leaves. The
named updates `setObj`, `bump`, `updQueue`, `dupd` and `rupd` unfold to `put`, `setQueue` and `updRouts` first. -/

namespace Sys2Proof.Machine

theorem State.setObj_eq (s : State) (oid v : Nat) : s.setObj oid v = s.put oid 0 v := rfl
theorem State.bump_eq (s : State) (oid sel w n : Nat) : s.bump oid sel w n = s.put oid sel ((s.get oid sel + n) % 2 ^ w) := rfl
theorem State.updQueue_eq (s : State) (q : Nat) (f : QRt → QRt) : s.updQueue q f = s.setQueue q (f (s.queue q)) := rfl
theorem State.dupd_eq (s : State) (q seq : Nat) (f : DRt → DRt) :
    s.dupd q seq f = s.updQueue q (fun x => { x with infl := mapIf (fun d => d.seq == seq) f x.infl }) := rfl
theorem State.rupd_eq (s : State) (q seq : Nat) (f : Rout → Rout) : s.rupd q seq f = s.updRouts (fun r => r.q == q && r.seq == seq) f := rfl

@[simp] theorem State.setObjs_objs (s : State) (x : SMap Nat) : (s.setObjs x).objs = x := rfl
@[simp] theorem State.setObjs_variant (s : State) (x : SMap Nat) : (s.setObjs x).variant = s.variant := rfl
@[simp] theorem State.setObjs_reads (s : State) (x : SMap Nat) : (s.setObjs x).reads = s.reads := rfl
@[simp] theorem State.setObjs_holds (s : State) (x : SMap Nat) : (s.setObjs x).holds = s.holds := rfl
@[simp] theorem State.setObjs_gov (s : State) (x : SMap Nat) : (s.setObjs x).gov = s.gov := rfl
@[simp] theorem State.setObjs_pending (s : State) (x : SMap Nat) : (s.setObjs x).pending = s.pending := rfl
@[simp] theorem State.setObjs_digest (s : State) (x : SMap Nat) : (s.setObjs x).digest = s.digest := rfl
@[simp] theorem State.setObjs_cycle (s : State) (x : SMap Nat) : (s.setObjs x).cycle = s.cycle := rfl
@[simp] theorem State.setObjs_freeCtr (s : State) (x : SMap Nat) : (s.setObjs x).freeCtr = s.freeCtr := rfl
@[simp] theorem State.setObjs_mem (s : State) (x : SMap Nat) : (s.setObjs x).mem = s.mem := rfl
@[simp] theorem State.setObjs_reqs (s : State) (x : SMap Nat) : (s.setObjs x).reqs = s.reqs := rfl
@[simp] theorem State.setObjs_queues (s : State) (x : SMap Nat) : (s.setObjs x).queues = s.queues := rfl
@[simp] theorem State.setObjs_bell (s : State) (x : SMap Nat) : (s.setObjs x).bell = s.bell := rfl
@[simp] theorem State.setObjs_form (s : State) (x : SMap Nat) : (s.setObjs x).form = s.form := rfl
@[simp] theorem State.setObjs_hist (s : State) (x : SMap Nat) : (s.setObjs x).hist = s.hist := rfl
@[simp] theorem State.setObjs_soOut (s : State) (x : SMap Nat) : (s.setObjs x).soOut = s.soOut := rfl
@[simp] theorem State.setObjs_chans (s : State) (x : SMap Nat) : (s.setObjs x).chans = s.chans := rfl
@[simp] theorem State.setObjs_routs (s : State) (x : SMap Nat) : (s.setObjs x).routs = s.routs := rfl
@[simp] theorem State.setObjs_evbuf (s : State) (x : SMap Nat) : (s.setObjs x).evbuf = s.evbuf := rfl
@[simp] theorem State.setObjs_segs (s : State) (x : SMap Nat) : (s.setObjs x).segs = s.segs := rfl
@[simp] theorem State.setObjs_stage (s : State) (x : SMap Nat) : (s.setObjs x).stage = s.stage := rfl
@[simp] theorem State.setObjs_moOut (s : State) (x : SMap Nat) : (s.setObjs x).moOut = s.moOut := rfl
@[simp] theorem State.setObjs_nv (s : State) (x : SMap Nat) : (s.setObjs x).nv = s.nv := rfl
@[simp] theorem State.setObjs_bports (s : State) (x : SMap Nat) : (s.setObjs x).bports = s.bports := rfl
@[simp] theorem State.setObjs_group (s : State) (x : SMap Nat) : (s.setObjs x).group = s.group := rfl
@[simp] theorem State.setObjs_reds (s : State) (x : SMap Nat) : (s.setObjs x).reds = s.reds := rfl
@[simp] theorem State.setObjs_btx (s : State) (x : SMap Nat) : (s.setObjs x).btx = s.btx := rfl
@[simp] theorem State.setObjs_test (s : State) (x : SMap Nat) : (s.setObjs x).test = s.test := rfl
@[simp] theorem State.setObjs_check (s : State) (x : SMap Nat) : (s.setObjs x).check = s.check := rfl
@[simp] theorem State.setObjs_coldHeld (s : State) (x : SMap Nat) : (s.setObjs x).coldHeld = s.coldHeld := rfl
@[simp] theorem State.setObjs_warmHeld (s : State) (x : SMap Nat) : (s.setObjs x).warmHeld = s.warmHeld := rfl
@[simp] theorem State.setObjs_loaded (s : State) (x : SMap Nat) : (s.setObjs x).loaded = s.loaded := rfl
@[simp] theorem State.setObjs_invals (s : State) (x : SMap Nat) : (s.setObjs x).invals = s.invals := rfl
@[simp] theorem State.setObjs_evSeq (s : State) (x : SMap Nat) : (s.setObjs x).evSeq = s.evSeq := rfl
@[simp] theorem State.setObjs_byte (s : State) (x : SMap Nat) (a : Nat) : (s.setObjs x).byte a = s.byte a := rfl
@[simp] theorem State.setObjs_queue (s : State) (x : SMap Nat) (q : Nat) : (s.setObjs x).queue q = s.queue q := rfl
@[simp] theorem State.setObjs_dfind (s : State) (x : SMap Nat) (q n : Nat) : (s.setObjs x).dfind q n = s.dfind q n := rfl
@[simp] theorem State.setObjs_rfind (s : State) (x : SMap Nat) (q n : Nat) : (s.setObjs x).rfind q n = s.rfind q n := rfl
@[simp] theorem State.setObjs_bport (s : State) (x : SMap Nat) (p : Nat) : (s.setObjs x).bport p = s.bport p := rfl

@[simp] theorem State.setDigest_digest (s : State) (x : Option (SMap Nat)) : (s.setDigest x).digest = x := rfl
@[simp] theorem State.setDigest_variant (s : State) (x : Option (SMap Nat)) : (s.setDigest x).variant = s.variant := rfl
@[simp] theorem State.setDigest_reads (s : State) (x : Option (SMap Nat)) : (s.setDigest x).reads = s.reads := rfl
@[simp] theorem State.setDigest_holds (s : State) (x : Option (SMap Nat)) : (s.setDigest x).holds = s.holds := rfl
@[simp] theorem State.setDigest_gov (s : State) (x : Option (SMap Nat)) : (s.setDigest x).gov = s.gov := rfl
@[simp] theorem State.setDigest_pending (s : State) (x : Option (SMap Nat)) : (s.setDigest x).pending = s.pending := rfl
@[simp] theorem State.setDigest_objs (s : State) (x : Option (SMap Nat)) : (s.setDigest x).objs = s.objs := rfl
@[simp] theorem State.setDigest_cycle (s : State) (x : Option (SMap Nat)) : (s.setDigest x).cycle = s.cycle := rfl
@[simp] theorem State.setDigest_freeCtr (s : State) (x : Option (SMap Nat)) : (s.setDigest x).freeCtr = s.freeCtr := rfl
@[simp] theorem State.setDigest_mem (s : State) (x : Option (SMap Nat)) : (s.setDigest x).mem = s.mem := rfl
@[simp] theorem State.setDigest_reqs (s : State) (x : Option (SMap Nat)) : (s.setDigest x).reqs = s.reqs := rfl
@[simp] theorem State.setDigest_queues (s : State) (x : Option (SMap Nat)) : (s.setDigest x).queues = s.queues := rfl
@[simp] theorem State.setDigest_bell (s : State) (x : Option (SMap Nat)) : (s.setDigest x).bell = s.bell := rfl
@[simp] theorem State.setDigest_form (s : State) (x : Option (SMap Nat)) : (s.setDigest x).form = s.form := rfl
@[simp] theorem State.setDigest_hist (s : State) (x : Option (SMap Nat)) : (s.setDigest x).hist = s.hist := rfl
@[simp] theorem State.setDigest_soOut (s : State) (x : Option (SMap Nat)) : (s.setDigest x).soOut = s.soOut := rfl
@[simp] theorem State.setDigest_chans (s : State) (x : Option (SMap Nat)) : (s.setDigest x).chans = s.chans := rfl
@[simp] theorem State.setDigest_routs (s : State) (x : Option (SMap Nat)) : (s.setDigest x).routs = s.routs := rfl
@[simp] theorem State.setDigest_evbuf (s : State) (x : Option (SMap Nat)) : (s.setDigest x).evbuf = s.evbuf := rfl
@[simp] theorem State.setDigest_segs (s : State) (x : Option (SMap Nat)) : (s.setDigest x).segs = s.segs := rfl
@[simp] theorem State.setDigest_stage (s : State) (x : Option (SMap Nat)) : (s.setDigest x).stage = s.stage := rfl
@[simp] theorem State.setDigest_moOut (s : State) (x : Option (SMap Nat)) : (s.setDigest x).moOut = s.moOut := rfl
@[simp] theorem State.setDigest_nv (s : State) (x : Option (SMap Nat)) : (s.setDigest x).nv = s.nv := rfl
@[simp] theorem State.setDigest_bports (s : State) (x : Option (SMap Nat)) : (s.setDigest x).bports = s.bports := rfl
@[simp] theorem State.setDigest_group (s : State) (x : Option (SMap Nat)) : (s.setDigest x).group = s.group := rfl
@[simp] theorem State.setDigest_reds (s : State) (x : Option (SMap Nat)) : (s.setDigest x).reds = s.reds := rfl
@[simp] theorem State.setDigest_btx (s : State) (x : Option (SMap Nat)) : (s.setDigest x).btx = s.btx := rfl
@[simp] theorem State.setDigest_test (s : State) (x : Option (SMap Nat)) : (s.setDigest x).test = s.test := rfl
@[simp] theorem State.setDigest_check (s : State) (x : Option (SMap Nat)) : (s.setDigest x).check = s.check := rfl
@[simp] theorem State.setDigest_coldHeld (s : State) (x : Option (SMap Nat)) : (s.setDigest x).coldHeld = s.coldHeld := rfl
@[simp] theorem State.setDigest_warmHeld (s : State) (x : Option (SMap Nat)) : (s.setDigest x).warmHeld = s.warmHeld := rfl
@[simp] theorem State.setDigest_loaded (s : State) (x : Option (SMap Nat)) : (s.setDigest x).loaded = s.loaded := rfl
@[simp] theorem State.setDigest_invals (s : State) (x : Option (SMap Nat)) : (s.setDigest x).invals = s.invals := rfl
@[simp] theorem State.setDigest_evSeq (s : State) (x : Option (SMap Nat)) : (s.setDigest x).evSeq = s.evSeq := rfl
@[simp] theorem State.setDigest_get (s : State) (x : Option (SMap Nat)) (o n : Nat) : (s.setDigest x).get o n = s.get o n := rfl
@[simp] theorem State.setDigest_obj (s : State) (x : Option (SMap Nat)) (o : Nat) : (s.setDigest x).obj o = s.obj o := rfl
@[simp] theorem State.setDigest_byte (s : State) (x : Option (SMap Nat)) (a : Nat) : (s.setDigest x).byte a = s.byte a := rfl
@[simp] theorem State.setDigest_queue (s : State) (x : Option (SMap Nat)) (q : Nat) : (s.setDigest x).queue q = s.queue q := rfl
@[simp] theorem State.setDigest_dfind (s : State) (x : Option (SMap Nat)) (q n : Nat) : (s.setDigest x).dfind q n = s.dfind q n := rfl
@[simp] theorem State.setDigest_rfind (s : State) (x : Option (SMap Nat)) (q n : Nat) : (s.setDigest x).rfind q n = s.rfind q n := rfl
@[simp] theorem State.setDigest_bport (s : State) (x : Option (SMap Nat)) (p : Nat) : (s.setDigest x).bport p = s.bport p := rfl

@[simp] theorem State.setMasterDig_masterDig (s : State) (x : Option Nat) : (s.setMasterDig x).masterDig = x := rfl
@[simp] theorem State.setMasterDig_variant (s : State) (x : Option Nat) : (s.setMasterDig x).variant = s.variant := rfl
@[simp] theorem State.setMasterDig_reads (s : State) (x : Option Nat) : (s.setMasterDig x).reads = s.reads := rfl
@[simp] theorem State.setMasterDig_holds (s : State) (x : Option Nat) : (s.setMasterDig x).holds = s.holds := rfl
@[simp] theorem State.setMasterDig_gov (s : State) (x : Option Nat) : (s.setMasterDig x).gov = s.gov := rfl
@[simp] theorem State.setMasterDig_pending (s : State) (x : Option Nat) : (s.setMasterDig x).pending = s.pending := rfl
@[simp] theorem State.setMasterDig_objs (s : State) (x : Option Nat) : (s.setMasterDig x).objs = s.objs := rfl
@[simp] theorem State.setMasterDig_digest (s : State) (x : Option Nat) : (s.setMasterDig x).digest = s.digest := rfl
@[simp] theorem State.setMasterDig_cycle (s : State) (x : Option Nat) : (s.setMasterDig x).cycle = s.cycle := rfl
@[simp] theorem State.setMasterDig_freeCtr (s : State) (x : Option Nat) : (s.setMasterDig x).freeCtr = s.freeCtr := rfl
@[simp] theorem State.setMasterDig_mem (s : State) (x : Option Nat) : (s.setMasterDig x).mem = s.mem := rfl
@[simp] theorem State.setMasterDig_reqs (s : State) (x : Option Nat) : (s.setMasterDig x).reqs = s.reqs := rfl
@[simp] theorem State.setMasterDig_queues (s : State) (x : Option Nat) : (s.setMasterDig x).queues = s.queues := rfl
@[simp] theorem State.setMasterDig_bell (s : State) (x : Option Nat) : (s.setMasterDig x).bell = s.bell := rfl
@[simp] theorem State.setMasterDig_form (s : State) (x : Option Nat) : (s.setMasterDig x).form = s.form := rfl
@[simp] theorem State.setMasterDig_hist (s : State) (x : Option Nat) : (s.setMasterDig x).hist = s.hist := rfl
@[simp] theorem State.setMasterDig_soOut (s : State) (x : Option Nat) : (s.setMasterDig x).soOut = s.soOut := rfl
@[simp] theorem State.setMasterDig_chans (s : State) (x : Option Nat) : (s.setMasterDig x).chans = s.chans := rfl
@[simp] theorem State.setMasterDig_routs (s : State) (x : Option Nat) : (s.setMasterDig x).routs = s.routs := rfl
@[simp] theorem State.setMasterDig_evbuf (s : State) (x : Option Nat) : (s.setMasterDig x).evbuf = s.evbuf := rfl
@[simp] theorem State.setMasterDig_segs (s : State) (x : Option Nat) : (s.setMasterDig x).segs = s.segs := rfl
@[simp] theorem State.setMasterDig_stage (s : State) (x : Option Nat) : (s.setMasterDig x).stage = s.stage := rfl
@[simp] theorem State.setMasterDig_moOut (s : State) (x : Option Nat) : (s.setMasterDig x).moOut = s.moOut := rfl
@[simp] theorem State.setMasterDig_nv (s : State) (x : Option Nat) : (s.setMasterDig x).nv = s.nv := rfl
@[simp] theorem State.setMasterDig_bports (s : State) (x : Option Nat) : (s.setMasterDig x).bports = s.bports := rfl
@[simp] theorem State.setMasterDig_group (s : State) (x : Option Nat) : (s.setMasterDig x).group = s.group := rfl
@[simp] theorem State.setMasterDig_reds (s : State) (x : Option Nat) : (s.setMasterDig x).reds = s.reds := rfl
@[simp] theorem State.setMasterDig_btx (s : State) (x : Option Nat) : (s.setMasterDig x).btx = s.btx := rfl
@[simp] theorem State.setMasterDig_test (s : State) (x : Option Nat) : (s.setMasterDig x).test = s.test := rfl
@[simp] theorem State.setMasterDig_check (s : State) (x : Option Nat) : (s.setMasterDig x).check = s.check := rfl
@[simp] theorem State.setMasterDig_coldHeld (s : State) (x : Option Nat) : (s.setMasterDig x).coldHeld = s.coldHeld := rfl
@[simp] theorem State.setMasterDig_warmHeld (s : State) (x : Option Nat) : (s.setMasterDig x).warmHeld = s.warmHeld := rfl
@[simp] theorem State.setMasterDig_loaded (s : State) (x : Option Nat) : (s.setMasterDig x).loaded = s.loaded := rfl
@[simp] theorem State.setMasterDig_invals (s : State) (x : Option Nat) : (s.setMasterDig x).invals = s.invals := rfl
@[simp] theorem State.setMasterDig_evSeq (s : State) (x : Option Nat) : (s.setMasterDig x).evSeq = s.evSeq := rfl
@[simp] theorem State.setMasterDig_get (s : State) (x : Option Nat) (o n : Nat) : (s.setMasterDig x).get o n = s.get o n := rfl
@[simp] theorem State.setMasterDig_obj (s : State) (x : Option Nat) (o : Nat) : (s.setMasterDig x).obj o = s.obj o := rfl
@[simp] theorem State.setMasterDig_byte (s : State) (x : Option Nat) (a : Nat) : (s.setMasterDig x).byte a = s.byte a := rfl
@[simp] theorem State.setMasterDig_queue (s : State) (x : Option Nat) (q : Nat) : (s.setMasterDig x).queue q = s.queue q := rfl
@[simp] theorem State.setMasterDig_dfind (s : State) (x : Option Nat) (q n : Nat) : (s.setMasterDig x).dfind q n = s.dfind q n := rfl
@[simp] theorem State.setMasterDig_rfind (s : State) (x : Option Nat) (q n : Nat) : (s.setMasterDig x).rfind q n = s.rfind q n := rfl
@[simp] theorem State.setMasterDig_bport (s : State) (x : Option Nat) (p : Nat) : (s.setMasterDig x).bport p = s.bport p := rfl

@[simp] theorem State.setCycle_cycle (s : State) (x : Nat) : (s.setCycle x).cycle = x := rfl
@[simp] theorem State.setCycle_variant (s : State) (x : Nat) : (s.setCycle x).variant = s.variant := rfl
@[simp] theorem State.setCycle_reads (s : State) (x : Nat) : (s.setCycle x).reads = s.reads := rfl
@[simp] theorem State.setCycle_holds (s : State) (x : Nat) : (s.setCycle x).holds = s.holds := rfl
@[simp] theorem State.setCycle_gov (s : State) (x : Nat) : (s.setCycle x).gov = s.gov := rfl
@[simp] theorem State.setCycle_pending (s : State) (x : Nat) : (s.setCycle x).pending = s.pending := rfl
@[simp] theorem State.setCycle_objs (s : State) (x : Nat) : (s.setCycle x).objs = s.objs := rfl
@[simp] theorem State.setCycle_digest (s : State) (x : Nat) : (s.setCycle x).digest = s.digest := rfl
@[simp] theorem State.setCycle_freeCtr (s : State) (x : Nat) : (s.setCycle x).freeCtr = s.freeCtr := rfl
@[simp] theorem State.setCycle_mem (s : State) (x : Nat) : (s.setCycle x).mem = s.mem := rfl
@[simp] theorem State.setCycle_reqs (s : State) (x : Nat) : (s.setCycle x).reqs = s.reqs := rfl
@[simp] theorem State.setCycle_queues (s : State) (x : Nat) : (s.setCycle x).queues = s.queues := rfl
@[simp] theorem State.setCycle_bell (s : State) (x : Nat) : (s.setCycle x).bell = s.bell := rfl
@[simp] theorem State.setCycle_form (s : State) (x : Nat) : (s.setCycle x).form = s.form := rfl
@[simp] theorem State.setCycle_hist (s : State) (x : Nat) : (s.setCycle x).hist = s.hist := rfl
@[simp] theorem State.setCycle_soOut (s : State) (x : Nat) : (s.setCycle x).soOut = s.soOut := rfl
@[simp] theorem State.setCycle_chans (s : State) (x : Nat) : (s.setCycle x).chans = s.chans := rfl
@[simp] theorem State.setCycle_routs (s : State) (x : Nat) : (s.setCycle x).routs = s.routs := rfl
@[simp] theorem State.setCycle_evbuf (s : State) (x : Nat) : (s.setCycle x).evbuf = s.evbuf := rfl
@[simp] theorem State.setCycle_segs (s : State) (x : Nat) : (s.setCycle x).segs = s.segs := rfl
@[simp] theorem State.setCycle_stage (s : State) (x : Nat) : (s.setCycle x).stage = s.stage := rfl
@[simp] theorem State.setCycle_moOut (s : State) (x : Nat) : (s.setCycle x).moOut = s.moOut := rfl
@[simp] theorem State.setCycle_nv (s : State) (x : Nat) : (s.setCycle x).nv = s.nv := rfl
@[simp] theorem State.setCycle_bports (s : State) (x : Nat) : (s.setCycle x).bports = s.bports := rfl
@[simp] theorem State.setCycle_group (s : State) (x : Nat) : (s.setCycle x).group = s.group := rfl
@[simp] theorem State.setCycle_reds (s : State) (x : Nat) : (s.setCycle x).reds = s.reds := rfl
@[simp] theorem State.setCycle_btx (s : State) (x : Nat) : (s.setCycle x).btx = s.btx := rfl
@[simp] theorem State.setCycle_test (s : State) (x : Nat) : (s.setCycle x).test = s.test := rfl
@[simp] theorem State.setCycle_check (s : State) (x : Nat) : (s.setCycle x).check = s.check := rfl
@[simp] theorem State.setCycle_coldHeld (s : State) (x : Nat) : (s.setCycle x).coldHeld = s.coldHeld := rfl
@[simp] theorem State.setCycle_warmHeld (s : State) (x : Nat) : (s.setCycle x).warmHeld = s.warmHeld := rfl
@[simp] theorem State.setCycle_loaded (s : State) (x : Nat) : (s.setCycle x).loaded = s.loaded := rfl
@[simp] theorem State.setCycle_invals (s : State) (x : Nat) : (s.setCycle x).invals = s.invals := rfl
@[simp] theorem State.setCycle_evSeq (s : State) (x : Nat) : (s.setCycle x).evSeq = s.evSeq := rfl
@[simp] theorem State.setCycle_get (s : State) (x : Nat) (o n : Nat) : (s.setCycle x).get o n = s.get o n := rfl
@[simp] theorem State.setCycle_obj (s : State) (x : Nat) (o : Nat) : (s.setCycle x).obj o = s.obj o := rfl
@[simp] theorem State.setCycle_byte (s : State) (x : Nat) (a : Nat) : (s.setCycle x).byte a = s.byte a := rfl
@[simp] theorem State.setCycle_queue (s : State) (x : Nat) (q : Nat) : (s.setCycle x).queue q = s.queue q := rfl
@[simp] theorem State.setCycle_dfind (s : State) (x : Nat) (q n : Nat) : (s.setCycle x).dfind q n = s.dfind q n := rfl
@[simp] theorem State.setCycle_rfind (s : State) (x : Nat) (q n : Nat) : (s.setCycle x).rfind q n = s.rfind q n := rfl
@[simp] theorem State.setCycle_bport (s : State) (x : Nat) (p : Nat) : (s.setCycle x).bport p = s.bport p := rfl

@[simp] theorem State.setTb_tb (s : State) (x : Nat) : (s.setTb x).tb = x := rfl
@[simp] theorem State.setTb_variant (s : State) (x : Nat) : (s.setTb x).variant = s.variant := rfl
@[simp] theorem State.setTb_reads (s : State) (x : Nat) : (s.setTb x).reads = s.reads := rfl
@[simp] theorem State.setTb_holds (s : State) (x : Nat) : (s.setTb x).holds = s.holds := rfl
@[simp] theorem State.setTb_gov (s : State) (x : Nat) : (s.setTb x).gov = s.gov := rfl
@[simp] theorem State.setTb_pending (s : State) (x : Nat) : (s.setTb x).pending = s.pending := rfl
@[simp] theorem State.setTb_objs (s : State) (x : Nat) : (s.setTb x).objs = s.objs := rfl
@[simp] theorem State.setTb_digest (s : State) (x : Nat) : (s.setTb x).digest = s.digest := rfl
@[simp] theorem State.setTb_cycle (s : State) (x : Nat) : (s.setTb x).cycle = s.cycle := rfl
@[simp] theorem State.setTb_freeCtr (s : State) (x : Nat) : (s.setTb x).freeCtr = s.freeCtr := rfl
@[simp] theorem State.setTb_mem (s : State) (x : Nat) : (s.setTb x).mem = s.mem := rfl
@[simp] theorem State.setTb_reqs (s : State) (x : Nat) : (s.setTb x).reqs = s.reqs := rfl
@[simp] theorem State.setTb_queues (s : State) (x : Nat) : (s.setTb x).queues = s.queues := rfl
@[simp] theorem State.setTb_bell (s : State) (x : Nat) : (s.setTb x).bell = s.bell := rfl
@[simp] theorem State.setTb_form (s : State) (x : Nat) : (s.setTb x).form = s.form := rfl
@[simp] theorem State.setTb_hist (s : State) (x : Nat) : (s.setTb x).hist = s.hist := rfl
@[simp] theorem State.setTb_soOut (s : State) (x : Nat) : (s.setTb x).soOut = s.soOut := rfl
@[simp] theorem State.setTb_chans (s : State) (x : Nat) : (s.setTb x).chans = s.chans := rfl
@[simp] theorem State.setTb_routs (s : State) (x : Nat) : (s.setTb x).routs = s.routs := rfl
@[simp] theorem State.setTb_evbuf (s : State) (x : Nat) : (s.setTb x).evbuf = s.evbuf := rfl
@[simp] theorem State.setTb_segs (s : State) (x : Nat) : (s.setTb x).segs = s.segs := rfl
@[simp] theorem State.setTb_stage (s : State) (x : Nat) : (s.setTb x).stage = s.stage := rfl
@[simp] theorem State.setTb_moOut (s : State) (x : Nat) : (s.setTb x).moOut = s.moOut := rfl
@[simp] theorem State.setTb_nv (s : State) (x : Nat) : (s.setTb x).nv = s.nv := rfl
@[simp] theorem State.setTb_bports (s : State) (x : Nat) : (s.setTb x).bports = s.bports := rfl
@[simp] theorem State.setTb_group (s : State) (x : Nat) : (s.setTb x).group = s.group := rfl
@[simp] theorem State.setTb_reds (s : State) (x : Nat) : (s.setTb x).reds = s.reds := rfl
@[simp] theorem State.setTb_btx (s : State) (x : Nat) : (s.setTb x).btx = s.btx := rfl
@[simp] theorem State.setTb_test (s : State) (x : Nat) : (s.setTb x).test = s.test := rfl
@[simp] theorem State.setTb_check (s : State) (x : Nat) : (s.setTb x).check = s.check := rfl
@[simp] theorem State.setTb_coldHeld (s : State) (x : Nat) : (s.setTb x).coldHeld = s.coldHeld := rfl
@[simp] theorem State.setTb_warmHeld (s : State) (x : Nat) : (s.setTb x).warmHeld = s.warmHeld := rfl
@[simp] theorem State.setTb_loaded (s : State) (x : Nat) : (s.setTb x).loaded = s.loaded := rfl
@[simp] theorem State.setTb_invals (s : State) (x : Nat) : (s.setTb x).invals = s.invals := rfl
@[simp] theorem State.setTb_evSeq (s : State) (x : Nat) : (s.setTb x).evSeq = s.evSeq := rfl
@[simp] theorem State.setTb_get (s : State) (x : Nat) (o n : Nat) : (s.setTb x).get o n = s.get o n := rfl
@[simp] theorem State.setTb_obj (s : State) (x : Nat) (o : Nat) : (s.setTb x).obj o = s.obj o := rfl
@[simp] theorem State.setTb_byte (s : State) (x : Nat) (a : Nat) : (s.setTb x).byte a = s.byte a := rfl
@[simp] theorem State.setTb_queue (s : State) (x : Nat) (q : Nat) : (s.setTb x).queue q = s.queue q := rfl
@[simp] theorem State.setTb_dfind (s : State) (x : Nat) (q n : Nat) : (s.setTb x).dfind q n = s.dfind q n := rfl
@[simp] theorem State.setTb_rfind (s : State) (x : Nat) (q n : Nat) : (s.setTb x).rfind q n = s.rfind q n := rfl
@[simp] theorem State.setTb_bport (s : State) (x : Nat) (p : Nat) : (s.setTb x).bport p = s.bport p := rfl

@[simp] theorem State.setRate_rate (s : State) (x : Int) : (s.setRate x).rate = x := rfl
@[simp] theorem State.setRate_variant (s : State) (x : Int) : (s.setRate x).variant = s.variant := rfl
@[simp] theorem State.setRate_reads (s : State) (x : Int) : (s.setRate x).reads = s.reads := rfl
@[simp] theorem State.setRate_holds (s : State) (x : Int) : (s.setRate x).holds = s.holds := rfl
@[simp] theorem State.setRate_gov (s : State) (x : Int) : (s.setRate x).gov = s.gov := rfl
@[simp] theorem State.setRate_pending (s : State) (x : Int) : (s.setRate x).pending = s.pending := rfl
@[simp] theorem State.setRate_objs (s : State) (x : Int) : (s.setRate x).objs = s.objs := rfl
@[simp] theorem State.setRate_digest (s : State) (x : Int) : (s.setRate x).digest = s.digest := rfl
@[simp] theorem State.setRate_cycle (s : State) (x : Int) : (s.setRate x).cycle = s.cycle := rfl
@[simp] theorem State.setRate_freeCtr (s : State) (x : Int) : (s.setRate x).freeCtr = s.freeCtr := rfl
@[simp] theorem State.setRate_mem (s : State) (x : Int) : (s.setRate x).mem = s.mem := rfl
@[simp] theorem State.setRate_reqs (s : State) (x : Int) : (s.setRate x).reqs = s.reqs := rfl
@[simp] theorem State.setRate_queues (s : State) (x : Int) : (s.setRate x).queues = s.queues := rfl
@[simp] theorem State.setRate_bell (s : State) (x : Int) : (s.setRate x).bell = s.bell := rfl
@[simp] theorem State.setRate_form (s : State) (x : Int) : (s.setRate x).form = s.form := rfl
@[simp] theorem State.setRate_hist (s : State) (x : Int) : (s.setRate x).hist = s.hist := rfl
@[simp] theorem State.setRate_soOut (s : State) (x : Int) : (s.setRate x).soOut = s.soOut := rfl
@[simp] theorem State.setRate_chans (s : State) (x : Int) : (s.setRate x).chans = s.chans := rfl
@[simp] theorem State.setRate_routs (s : State) (x : Int) : (s.setRate x).routs = s.routs := rfl
@[simp] theorem State.setRate_evbuf (s : State) (x : Int) : (s.setRate x).evbuf = s.evbuf := rfl
@[simp] theorem State.setRate_segs (s : State) (x : Int) : (s.setRate x).segs = s.segs := rfl
@[simp] theorem State.setRate_stage (s : State) (x : Int) : (s.setRate x).stage = s.stage := rfl
@[simp] theorem State.setRate_moOut (s : State) (x : Int) : (s.setRate x).moOut = s.moOut := rfl
@[simp] theorem State.setRate_nv (s : State) (x : Int) : (s.setRate x).nv = s.nv := rfl
@[simp] theorem State.setRate_bports (s : State) (x : Int) : (s.setRate x).bports = s.bports := rfl
@[simp] theorem State.setRate_group (s : State) (x : Int) : (s.setRate x).group = s.group := rfl
@[simp] theorem State.setRate_reds (s : State) (x : Int) : (s.setRate x).reds = s.reds := rfl
@[simp] theorem State.setRate_btx (s : State) (x : Int) : (s.setRate x).btx = s.btx := rfl
@[simp] theorem State.setRate_test (s : State) (x : Int) : (s.setRate x).test = s.test := rfl
@[simp] theorem State.setRate_check (s : State) (x : Int) : (s.setRate x).check = s.check := rfl
@[simp] theorem State.setRate_coldHeld (s : State) (x : Int) : (s.setRate x).coldHeld = s.coldHeld := rfl
@[simp] theorem State.setRate_warmHeld (s : State) (x : Int) : (s.setRate x).warmHeld = s.warmHeld := rfl
@[simp] theorem State.setRate_loaded (s : State) (x : Int) : (s.setRate x).loaded = s.loaded := rfl
@[simp] theorem State.setRate_invals (s : State) (x : Int) : (s.setRate x).invals = s.invals := rfl
@[simp] theorem State.setRate_evSeq (s : State) (x : Int) : (s.setRate x).evSeq = s.evSeq := rfl
@[simp] theorem State.setRate_get (s : State) (x : Int) (o n : Nat) : (s.setRate x).get o n = s.get o n := rfl
@[simp] theorem State.setRate_obj (s : State) (x : Int) (o : Nat) : (s.setRate x).obj o = s.obj o := rfl
@[simp] theorem State.setRate_byte (s : State) (x : Int) (a : Nat) : (s.setRate x).byte a = s.byte a := rfl
@[simp] theorem State.setRate_queue (s : State) (x : Int) (q : Nat) : (s.setRate x).queue q = s.queue q := rfl
@[simp] theorem State.setRate_dfind (s : State) (x : Int) (q n : Nat) : (s.setRate x).dfind q n = s.dfind q n := rfl
@[simp] theorem State.setRate_rfind (s : State) (x : Int) (q n : Nat) : (s.setRate x).rfind q n = s.rfind q n := rfl
@[simp] theorem State.setRate_bport (s : State) (x : Int) (p : Nat) : (s.setRate x).bport p = s.bport p := rfl

@[simp] theorem State.setFreeCtr_freeCtr (s : State) (x : Nat) : (s.setFreeCtr x).freeCtr = x := rfl
@[simp] theorem State.setFreeCtr_variant (s : State) (x : Nat) : (s.setFreeCtr x).variant = s.variant := rfl
@[simp] theorem State.setFreeCtr_reads (s : State) (x : Nat) : (s.setFreeCtr x).reads = s.reads := rfl
@[simp] theorem State.setFreeCtr_holds (s : State) (x : Nat) : (s.setFreeCtr x).holds = s.holds := rfl
@[simp] theorem State.setFreeCtr_gov (s : State) (x : Nat) : (s.setFreeCtr x).gov = s.gov := rfl
@[simp] theorem State.setFreeCtr_pending (s : State) (x : Nat) : (s.setFreeCtr x).pending = s.pending := rfl
@[simp] theorem State.setFreeCtr_objs (s : State) (x : Nat) : (s.setFreeCtr x).objs = s.objs := rfl
@[simp] theorem State.setFreeCtr_digest (s : State) (x : Nat) : (s.setFreeCtr x).digest = s.digest := rfl
@[simp] theorem State.setFreeCtr_cycle (s : State) (x : Nat) : (s.setFreeCtr x).cycle = s.cycle := rfl
@[simp] theorem State.setFreeCtr_mem (s : State) (x : Nat) : (s.setFreeCtr x).mem = s.mem := rfl
@[simp] theorem State.setFreeCtr_reqs (s : State) (x : Nat) : (s.setFreeCtr x).reqs = s.reqs := rfl
@[simp] theorem State.setFreeCtr_queues (s : State) (x : Nat) : (s.setFreeCtr x).queues = s.queues := rfl
@[simp] theorem State.setFreeCtr_bell (s : State) (x : Nat) : (s.setFreeCtr x).bell = s.bell := rfl
@[simp] theorem State.setFreeCtr_form (s : State) (x : Nat) : (s.setFreeCtr x).form = s.form := rfl
@[simp] theorem State.setFreeCtr_hist (s : State) (x : Nat) : (s.setFreeCtr x).hist = s.hist := rfl
@[simp] theorem State.setFreeCtr_soOut (s : State) (x : Nat) : (s.setFreeCtr x).soOut = s.soOut := rfl
@[simp] theorem State.setFreeCtr_chans (s : State) (x : Nat) : (s.setFreeCtr x).chans = s.chans := rfl
@[simp] theorem State.setFreeCtr_routs (s : State) (x : Nat) : (s.setFreeCtr x).routs = s.routs := rfl
@[simp] theorem State.setFreeCtr_evbuf (s : State) (x : Nat) : (s.setFreeCtr x).evbuf = s.evbuf := rfl
@[simp] theorem State.setFreeCtr_segs (s : State) (x : Nat) : (s.setFreeCtr x).segs = s.segs := rfl
@[simp] theorem State.setFreeCtr_stage (s : State) (x : Nat) : (s.setFreeCtr x).stage = s.stage := rfl
@[simp] theorem State.setFreeCtr_moOut (s : State) (x : Nat) : (s.setFreeCtr x).moOut = s.moOut := rfl
@[simp] theorem State.setFreeCtr_nv (s : State) (x : Nat) : (s.setFreeCtr x).nv = s.nv := rfl
@[simp] theorem State.setFreeCtr_bports (s : State) (x : Nat) : (s.setFreeCtr x).bports = s.bports := rfl
@[simp] theorem State.setFreeCtr_group (s : State) (x : Nat) : (s.setFreeCtr x).group = s.group := rfl
@[simp] theorem State.setFreeCtr_reds (s : State) (x : Nat) : (s.setFreeCtr x).reds = s.reds := rfl
@[simp] theorem State.setFreeCtr_btx (s : State) (x : Nat) : (s.setFreeCtr x).btx = s.btx := rfl
@[simp] theorem State.setFreeCtr_test (s : State) (x : Nat) : (s.setFreeCtr x).test = s.test := rfl
@[simp] theorem State.setFreeCtr_check (s : State) (x : Nat) : (s.setFreeCtr x).check = s.check := rfl
@[simp] theorem State.setFreeCtr_coldHeld (s : State) (x : Nat) : (s.setFreeCtr x).coldHeld = s.coldHeld := rfl
@[simp] theorem State.setFreeCtr_warmHeld (s : State) (x : Nat) : (s.setFreeCtr x).warmHeld = s.warmHeld := rfl
@[simp] theorem State.setFreeCtr_loaded (s : State) (x : Nat) : (s.setFreeCtr x).loaded = s.loaded := rfl
@[simp] theorem State.setFreeCtr_invals (s : State) (x : Nat) : (s.setFreeCtr x).invals = s.invals := rfl
@[simp] theorem State.setFreeCtr_evSeq (s : State) (x : Nat) : (s.setFreeCtr x).evSeq = s.evSeq := rfl
@[simp] theorem State.setFreeCtr_get (s : State) (x : Nat) (o n : Nat) : (s.setFreeCtr x).get o n = s.get o n := rfl
@[simp] theorem State.setFreeCtr_obj (s : State) (x : Nat) (o : Nat) : (s.setFreeCtr x).obj o = s.obj o := rfl
@[simp] theorem State.setFreeCtr_byte (s : State) (x : Nat) (a : Nat) : (s.setFreeCtr x).byte a = s.byte a := rfl
@[simp] theorem State.setFreeCtr_queue (s : State) (x : Nat) (q : Nat) : (s.setFreeCtr x).queue q = s.queue q := rfl
@[simp] theorem State.setFreeCtr_dfind (s : State) (x : Nat) (q n : Nat) : (s.setFreeCtr x).dfind q n = s.dfind q n := rfl
@[simp] theorem State.setFreeCtr_rfind (s : State) (x : Nat) (q n : Nat) : (s.setFreeCtr x).rfind q n = s.rfind q n := rfl
@[simp] theorem State.setFreeCtr_bport (s : State) (x : Nat) (p : Nat) : (s.setFreeCtr x).bport p = s.bport p := rfl

@[simp] theorem State.setMem_mem (s : State) (x : Memory) : (s.setMem x).mem = x := rfl
@[simp] theorem State.setMem_variant (s : State) (x : Memory) : (s.setMem x).variant = s.variant := rfl
@[simp] theorem State.setMem_reads (s : State) (x : Memory) : (s.setMem x).reads = s.reads := rfl
@[simp] theorem State.setMem_holds (s : State) (x : Memory) : (s.setMem x).holds = s.holds := rfl
@[simp] theorem State.setMem_gov (s : State) (x : Memory) : (s.setMem x).gov = s.gov := rfl
@[simp] theorem State.setMem_pending (s : State) (x : Memory) : (s.setMem x).pending = s.pending := rfl
@[simp] theorem State.setMem_objs (s : State) (x : Memory) : (s.setMem x).objs = s.objs := rfl
@[simp] theorem State.setMem_digest (s : State) (x : Memory) : (s.setMem x).digest = s.digest := rfl
@[simp] theorem State.setMem_cycle (s : State) (x : Memory) : (s.setMem x).cycle = s.cycle := rfl
@[simp] theorem State.setMem_freeCtr (s : State) (x : Memory) : (s.setMem x).freeCtr = s.freeCtr := rfl
@[simp] theorem State.setMem_reqs (s : State) (x : Memory) : (s.setMem x).reqs = s.reqs := rfl
@[simp] theorem State.setMem_queues (s : State) (x : Memory) : (s.setMem x).queues = s.queues := rfl
@[simp] theorem State.setMem_bell (s : State) (x : Memory) : (s.setMem x).bell = s.bell := rfl
@[simp] theorem State.setMem_form (s : State) (x : Memory) : (s.setMem x).form = s.form := rfl
@[simp] theorem State.setMem_hist (s : State) (x : Memory) : (s.setMem x).hist = s.hist := rfl
@[simp] theorem State.setMem_soOut (s : State) (x : Memory) : (s.setMem x).soOut = s.soOut := rfl
@[simp] theorem State.setMem_chans (s : State) (x : Memory) : (s.setMem x).chans = s.chans := rfl
@[simp] theorem State.setMem_routs (s : State) (x : Memory) : (s.setMem x).routs = s.routs := rfl
@[simp] theorem State.setMem_evbuf (s : State) (x : Memory) : (s.setMem x).evbuf = s.evbuf := rfl
@[simp] theorem State.setMem_segs (s : State) (x : Memory) : (s.setMem x).segs = s.segs := rfl
@[simp] theorem State.setMem_stage (s : State) (x : Memory) : (s.setMem x).stage = s.stage := rfl
@[simp] theorem State.setMem_moOut (s : State) (x : Memory) : (s.setMem x).moOut = s.moOut := rfl
@[simp] theorem State.setMem_nv (s : State) (x : Memory) : (s.setMem x).nv = s.nv := rfl
@[simp] theorem State.setMem_bports (s : State) (x : Memory) : (s.setMem x).bports = s.bports := rfl
@[simp] theorem State.setMem_group (s : State) (x : Memory) : (s.setMem x).group = s.group := rfl
@[simp] theorem State.setMem_reds (s : State) (x : Memory) : (s.setMem x).reds = s.reds := rfl
@[simp] theorem State.setMem_btx (s : State) (x : Memory) : (s.setMem x).btx = s.btx := rfl
@[simp] theorem State.setMem_test (s : State) (x : Memory) : (s.setMem x).test = s.test := rfl
@[simp] theorem State.setMem_check (s : State) (x : Memory) : (s.setMem x).check = s.check := rfl
@[simp] theorem State.setMem_coldHeld (s : State) (x : Memory) : (s.setMem x).coldHeld = s.coldHeld := rfl
@[simp] theorem State.setMem_warmHeld (s : State) (x : Memory) : (s.setMem x).warmHeld = s.warmHeld := rfl
@[simp] theorem State.setMem_loaded (s : State) (x : Memory) : (s.setMem x).loaded = s.loaded := rfl
@[simp] theorem State.setMem_invals (s : State) (x : Memory) : (s.setMem x).invals = s.invals := rfl
@[simp] theorem State.setMem_evSeq (s : State) (x : Memory) : (s.setMem x).evSeq = s.evSeq := rfl
@[simp] theorem State.setMem_get (s : State) (x : Memory) (o n : Nat) : (s.setMem x).get o n = s.get o n := rfl
@[simp] theorem State.setMem_obj (s : State) (x : Memory) (o : Nat) : (s.setMem x).obj o = s.obj o := rfl
@[simp] theorem State.setMem_queue (s : State) (x : Memory) (q : Nat) : (s.setMem x).queue q = s.queue q := rfl
@[simp] theorem State.setMem_dfind (s : State) (x : Memory) (q n : Nat) : (s.setMem x).dfind q n = s.dfind q n := rfl
@[simp] theorem State.setMem_rfind (s : State) (x : Memory) (q n : Nat) : (s.setMem x).rfind q n = s.rfind q n := rfl
@[simp] theorem State.setMem_bport (s : State) (x : Memory) (p : Nat) : (s.setMem x).bport p = s.bport p := rfl

@[simp] theorem State.setPoison_poison (s : State) (x : SMap Bool) : (s.setPoison x).poison = x := rfl
@[simp] theorem State.setPoison_variant (s : State) (x : SMap Bool) : (s.setPoison x).variant = s.variant := rfl
@[simp] theorem State.setPoison_reads (s : State) (x : SMap Bool) : (s.setPoison x).reads = s.reads := rfl
@[simp] theorem State.setPoison_holds (s : State) (x : SMap Bool) : (s.setPoison x).holds = s.holds := rfl
@[simp] theorem State.setPoison_gov (s : State) (x : SMap Bool) : (s.setPoison x).gov = s.gov := rfl
@[simp] theorem State.setPoison_pending (s : State) (x : SMap Bool) : (s.setPoison x).pending = s.pending := rfl
@[simp] theorem State.setPoison_objs (s : State) (x : SMap Bool) : (s.setPoison x).objs = s.objs := rfl
@[simp] theorem State.setPoison_digest (s : State) (x : SMap Bool) : (s.setPoison x).digest = s.digest := rfl
@[simp] theorem State.setPoison_cycle (s : State) (x : SMap Bool) : (s.setPoison x).cycle = s.cycle := rfl
@[simp] theorem State.setPoison_freeCtr (s : State) (x : SMap Bool) : (s.setPoison x).freeCtr = s.freeCtr := rfl
@[simp] theorem State.setPoison_mem (s : State) (x : SMap Bool) : (s.setPoison x).mem = s.mem := rfl
@[simp] theorem State.setPoison_reqs (s : State) (x : SMap Bool) : (s.setPoison x).reqs = s.reqs := rfl
@[simp] theorem State.setPoison_queues (s : State) (x : SMap Bool) : (s.setPoison x).queues = s.queues := rfl
@[simp] theorem State.setPoison_bell (s : State) (x : SMap Bool) : (s.setPoison x).bell = s.bell := rfl
@[simp] theorem State.setPoison_form (s : State) (x : SMap Bool) : (s.setPoison x).form = s.form := rfl
@[simp] theorem State.setPoison_hist (s : State) (x : SMap Bool) : (s.setPoison x).hist = s.hist := rfl
@[simp] theorem State.setPoison_soOut (s : State) (x : SMap Bool) : (s.setPoison x).soOut = s.soOut := rfl
@[simp] theorem State.setPoison_chans (s : State) (x : SMap Bool) : (s.setPoison x).chans = s.chans := rfl
@[simp] theorem State.setPoison_routs (s : State) (x : SMap Bool) : (s.setPoison x).routs = s.routs := rfl
@[simp] theorem State.setPoison_evbuf (s : State) (x : SMap Bool) : (s.setPoison x).evbuf = s.evbuf := rfl
@[simp] theorem State.setPoison_segs (s : State) (x : SMap Bool) : (s.setPoison x).segs = s.segs := rfl
@[simp] theorem State.setPoison_stage (s : State) (x : SMap Bool) : (s.setPoison x).stage = s.stage := rfl
@[simp] theorem State.setPoison_moOut (s : State) (x : SMap Bool) : (s.setPoison x).moOut = s.moOut := rfl
@[simp] theorem State.setPoison_nv (s : State) (x : SMap Bool) : (s.setPoison x).nv = s.nv := rfl
@[simp] theorem State.setPoison_bports (s : State) (x : SMap Bool) : (s.setPoison x).bports = s.bports := rfl
@[simp] theorem State.setPoison_group (s : State) (x : SMap Bool) : (s.setPoison x).group = s.group := rfl
@[simp] theorem State.setPoison_reds (s : State) (x : SMap Bool) : (s.setPoison x).reds = s.reds := rfl
@[simp] theorem State.setPoison_btx (s : State) (x : SMap Bool) : (s.setPoison x).btx = s.btx := rfl
@[simp] theorem State.setPoison_test (s : State) (x : SMap Bool) : (s.setPoison x).test = s.test := rfl
@[simp] theorem State.setPoison_check (s : State) (x : SMap Bool) : (s.setPoison x).check = s.check := rfl
@[simp] theorem State.setPoison_coldHeld (s : State) (x : SMap Bool) : (s.setPoison x).coldHeld = s.coldHeld := rfl
@[simp] theorem State.setPoison_warmHeld (s : State) (x : SMap Bool) : (s.setPoison x).warmHeld = s.warmHeld := rfl
@[simp] theorem State.setPoison_loaded (s : State) (x : SMap Bool) : (s.setPoison x).loaded = s.loaded := rfl
@[simp] theorem State.setPoison_invals (s : State) (x : SMap Bool) : (s.setPoison x).invals = s.invals := rfl
@[simp] theorem State.setPoison_evSeq (s : State) (x : SMap Bool) : (s.setPoison x).evSeq = s.evSeq := rfl
@[simp] theorem State.setPoison_get (s : State) (x : SMap Bool) (o n : Nat) : (s.setPoison x).get o n = s.get o n := rfl
@[simp] theorem State.setPoison_obj (s : State) (x : SMap Bool) (o : Nat) : (s.setPoison x).obj o = s.obj o := rfl
@[simp] theorem State.setPoison_byte (s : State) (x : SMap Bool) (a : Nat) : (s.setPoison x).byte a = s.byte a := rfl
@[simp] theorem State.setPoison_queue (s : State) (x : SMap Bool) (q : Nat) : (s.setPoison x).queue q = s.queue q := rfl
@[simp] theorem State.setPoison_dfind (s : State) (x : SMap Bool) (q n : Nat) : (s.setPoison x).dfind q n = s.dfind q n := rfl
@[simp] theorem State.setPoison_rfind (s : State) (x : SMap Bool) (q n : Nat) : (s.setPoison x).rfind q n = s.rfind q n := rfl
@[simp] theorem State.setPoison_bport (s : State) (x : SMap Bool) (p : Nat) : (s.setPoison x).bport p = s.bport p := rfl

@[simp] theorem State.setMemErr_memErr (s : State) (x : SMap Nat) : (s.setMemErr x).memErr = x := rfl
@[simp] theorem State.setMemErr_variant (s : State) (x : SMap Nat) : (s.setMemErr x).variant = s.variant := rfl
@[simp] theorem State.setMemErr_reads (s : State) (x : SMap Nat) : (s.setMemErr x).reads = s.reads := rfl
@[simp] theorem State.setMemErr_holds (s : State) (x : SMap Nat) : (s.setMemErr x).holds = s.holds := rfl
@[simp] theorem State.setMemErr_gov (s : State) (x : SMap Nat) : (s.setMemErr x).gov = s.gov := rfl
@[simp] theorem State.setMemErr_pending (s : State) (x : SMap Nat) : (s.setMemErr x).pending = s.pending := rfl
@[simp] theorem State.setMemErr_objs (s : State) (x : SMap Nat) : (s.setMemErr x).objs = s.objs := rfl
@[simp] theorem State.setMemErr_digest (s : State) (x : SMap Nat) : (s.setMemErr x).digest = s.digest := rfl
@[simp] theorem State.setMemErr_cycle (s : State) (x : SMap Nat) : (s.setMemErr x).cycle = s.cycle := rfl
@[simp] theorem State.setMemErr_freeCtr (s : State) (x : SMap Nat) : (s.setMemErr x).freeCtr = s.freeCtr := rfl
@[simp] theorem State.setMemErr_mem (s : State) (x : SMap Nat) : (s.setMemErr x).mem = s.mem := rfl
@[simp] theorem State.setMemErr_reqs (s : State) (x : SMap Nat) : (s.setMemErr x).reqs = s.reqs := rfl
@[simp] theorem State.setMemErr_queues (s : State) (x : SMap Nat) : (s.setMemErr x).queues = s.queues := rfl
@[simp] theorem State.setMemErr_bell (s : State) (x : SMap Nat) : (s.setMemErr x).bell = s.bell := rfl
@[simp] theorem State.setMemErr_form (s : State) (x : SMap Nat) : (s.setMemErr x).form = s.form := rfl
@[simp] theorem State.setMemErr_hist (s : State) (x : SMap Nat) : (s.setMemErr x).hist = s.hist := rfl
@[simp] theorem State.setMemErr_soOut (s : State) (x : SMap Nat) : (s.setMemErr x).soOut = s.soOut := rfl
@[simp] theorem State.setMemErr_chans (s : State) (x : SMap Nat) : (s.setMemErr x).chans = s.chans := rfl
@[simp] theorem State.setMemErr_routs (s : State) (x : SMap Nat) : (s.setMemErr x).routs = s.routs := rfl
@[simp] theorem State.setMemErr_evbuf (s : State) (x : SMap Nat) : (s.setMemErr x).evbuf = s.evbuf := rfl
@[simp] theorem State.setMemErr_segs (s : State) (x : SMap Nat) : (s.setMemErr x).segs = s.segs := rfl
@[simp] theorem State.setMemErr_stage (s : State) (x : SMap Nat) : (s.setMemErr x).stage = s.stage := rfl
@[simp] theorem State.setMemErr_moOut (s : State) (x : SMap Nat) : (s.setMemErr x).moOut = s.moOut := rfl
@[simp] theorem State.setMemErr_nv (s : State) (x : SMap Nat) : (s.setMemErr x).nv = s.nv := rfl
@[simp] theorem State.setMemErr_bports (s : State) (x : SMap Nat) : (s.setMemErr x).bports = s.bports := rfl
@[simp] theorem State.setMemErr_group (s : State) (x : SMap Nat) : (s.setMemErr x).group = s.group := rfl
@[simp] theorem State.setMemErr_reds (s : State) (x : SMap Nat) : (s.setMemErr x).reds = s.reds := rfl
@[simp] theorem State.setMemErr_btx (s : State) (x : SMap Nat) : (s.setMemErr x).btx = s.btx := rfl
@[simp] theorem State.setMemErr_test (s : State) (x : SMap Nat) : (s.setMemErr x).test = s.test := rfl
@[simp] theorem State.setMemErr_check (s : State) (x : SMap Nat) : (s.setMemErr x).check = s.check := rfl
@[simp] theorem State.setMemErr_coldHeld (s : State) (x : SMap Nat) : (s.setMemErr x).coldHeld = s.coldHeld := rfl
@[simp] theorem State.setMemErr_warmHeld (s : State) (x : SMap Nat) : (s.setMemErr x).warmHeld = s.warmHeld := rfl
@[simp] theorem State.setMemErr_loaded (s : State) (x : SMap Nat) : (s.setMemErr x).loaded = s.loaded := rfl
@[simp] theorem State.setMemErr_invals (s : State) (x : SMap Nat) : (s.setMemErr x).invals = s.invals := rfl
@[simp] theorem State.setMemErr_evSeq (s : State) (x : SMap Nat) : (s.setMemErr x).evSeq = s.evSeq := rfl
@[simp] theorem State.setMemErr_get (s : State) (x : SMap Nat) (o n : Nat) : (s.setMemErr x).get o n = s.get o n := rfl
@[simp] theorem State.setMemErr_obj (s : State) (x : SMap Nat) (o : Nat) : (s.setMemErr x).obj o = s.obj o := rfl
@[simp] theorem State.setMemErr_byte (s : State) (x : SMap Nat) (a : Nat) : (s.setMemErr x).byte a = s.byte a := rfl
@[simp] theorem State.setMemErr_queue (s : State) (x : SMap Nat) (q : Nat) : (s.setMemErr x).queue q = s.queue q := rfl
@[simp] theorem State.setMemErr_dfind (s : State) (x : SMap Nat) (q n : Nat) : (s.setMemErr x).dfind q n = s.dfind q n := rfl
@[simp] theorem State.setMemErr_rfind (s : State) (x : SMap Nat) (q n : Nat) : (s.setMemErr x).rfind q n = s.rfind q n := rfl
@[simp] theorem State.setMemErr_bport (s : State) (x : SMap Nat) (p : Nat) : (s.setMemErr x).bport p = s.bport p := rfl

@[simp] theorem State.setReqs_reqs (s : State) (x : List MemReq) : (s.setReqs x).reqs = x := rfl
@[simp] theorem State.setReqs_variant (s : State) (x : List MemReq) : (s.setReqs x).variant = s.variant := rfl
@[simp] theorem State.setReqs_reads (s : State) (x : List MemReq) : (s.setReqs x).reads = s.reads := rfl
@[simp] theorem State.setReqs_holds (s : State) (x : List MemReq) : (s.setReqs x).holds = s.holds := rfl
@[simp] theorem State.setReqs_gov (s : State) (x : List MemReq) : (s.setReqs x).gov = s.gov := rfl
@[simp] theorem State.setReqs_pending (s : State) (x : List MemReq) : (s.setReqs x).pending = s.pending := rfl
@[simp] theorem State.setReqs_objs (s : State) (x : List MemReq) : (s.setReqs x).objs = s.objs := rfl
@[simp] theorem State.setReqs_digest (s : State) (x : List MemReq) : (s.setReqs x).digest = s.digest := rfl
@[simp] theorem State.setReqs_cycle (s : State) (x : List MemReq) : (s.setReqs x).cycle = s.cycle := rfl
@[simp] theorem State.setReqs_freeCtr (s : State) (x : List MemReq) : (s.setReqs x).freeCtr = s.freeCtr := rfl
@[simp] theorem State.setReqs_mem (s : State) (x : List MemReq) : (s.setReqs x).mem = s.mem := rfl
@[simp] theorem State.setReqs_queues (s : State) (x : List MemReq) : (s.setReqs x).queues = s.queues := rfl
@[simp] theorem State.setReqs_bell (s : State) (x : List MemReq) : (s.setReqs x).bell = s.bell := rfl
@[simp] theorem State.setReqs_form (s : State) (x : List MemReq) : (s.setReqs x).form = s.form := rfl
@[simp] theorem State.setReqs_hist (s : State) (x : List MemReq) : (s.setReqs x).hist = s.hist := rfl
@[simp] theorem State.setReqs_soOut (s : State) (x : List MemReq) : (s.setReqs x).soOut = s.soOut := rfl
@[simp] theorem State.setReqs_chans (s : State) (x : List MemReq) : (s.setReqs x).chans = s.chans := rfl
@[simp] theorem State.setReqs_routs (s : State) (x : List MemReq) : (s.setReqs x).routs = s.routs := rfl
@[simp] theorem State.setReqs_evbuf (s : State) (x : List MemReq) : (s.setReqs x).evbuf = s.evbuf := rfl
@[simp] theorem State.setReqs_segs (s : State) (x : List MemReq) : (s.setReqs x).segs = s.segs := rfl
@[simp] theorem State.setReqs_stage (s : State) (x : List MemReq) : (s.setReqs x).stage = s.stage := rfl
@[simp] theorem State.setReqs_moOut (s : State) (x : List MemReq) : (s.setReqs x).moOut = s.moOut := rfl
@[simp] theorem State.setReqs_nv (s : State) (x : List MemReq) : (s.setReqs x).nv = s.nv := rfl
@[simp] theorem State.setReqs_bports (s : State) (x : List MemReq) : (s.setReqs x).bports = s.bports := rfl
@[simp] theorem State.setReqs_group (s : State) (x : List MemReq) : (s.setReqs x).group = s.group := rfl
@[simp] theorem State.setReqs_reds (s : State) (x : List MemReq) : (s.setReqs x).reds = s.reds := rfl
@[simp] theorem State.setReqs_btx (s : State) (x : List MemReq) : (s.setReqs x).btx = s.btx := rfl
@[simp] theorem State.setReqs_test (s : State) (x : List MemReq) : (s.setReqs x).test = s.test := rfl
@[simp] theorem State.setReqs_check (s : State) (x : List MemReq) : (s.setReqs x).check = s.check := rfl
@[simp] theorem State.setReqs_coldHeld (s : State) (x : List MemReq) : (s.setReqs x).coldHeld = s.coldHeld := rfl
@[simp] theorem State.setReqs_warmHeld (s : State) (x : List MemReq) : (s.setReqs x).warmHeld = s.warmHeld := rfl
@[simp] theorem State.setReqs_loaded (s : State) (x : List MemReq) : (s.setReqs x).loaded = s.loaded := rfl
@[simp] theorem State.setReqs_invals (s : State) (x : List MemReq) : (s.setReqs x).invals = s.invals := rfl
@[simp] theorem State.setReqs_evSeq (s : State) (x : List MemReq) : (s.setReqs x).evSeq = s.evSeq := rfl
@[simp] theorem State.setReqs_get (s : State) (x : List MemReq) (o n : Nat) : (s.setReqs x).get o n = s.get o n := rfl
@[simp] theorem State.setReqs_obj (s : State) (x : List MemReq) (o : Nat) : (s.setReqs x).obj o = s.obj o := rfl
@[simp] theorem State.setReqs_byte (s : State) (x : List MemReq) (a : Nat) : (s.setReqs x).byte a = s.byte a := rfl
@[simp] theorem State.setReqs_queue (s : State) (x : List MemReq) (q : Nat) : (s.setReqs x).queue q = s.queue q := rfl
@[simp] theorem State.setReqs_dfind (s : State) (x : List MemReq) (q n : Nat) : (s.setReqs x).dfind q n = s.dfind q n := rfl
@[simp] theorem State.setReqs_rfind (s : State) (x : List MemReq) (q n : Nat) : (s.setReqs x).rfind q n = s.rfind q n := rfl
@[simp] theorem State.setReqs_bport (s : State) (x : List MemReq) (p : Nat) : (s.setReqs x).bport p = s.bport p := rfl

@[simp] theorem State.setRuns_runs (s : State) (x : SMap PortRun) : (s.setRuns x).runs = x := rfl
@[simp] theorem State.setRuns_variant (s : State) (x : SMap PortRun) : (s.setRuns x).variant = s.variant := rfl
@[simp] theorem State.setRuns_reads (s : State) (x : SMap PortRun) : (s.setRuns x).reads = s.reads := rfl
@[simp] theorem State.setRuns_holds (s : State) (x : SMap PortRun) : (s.setRuns x).holds = s.holds := rfl
@[simp] theorem State.setRuns_gov (s : State) (x : SMap PortRun) : (s.setRuns x).gov = s.gov := rfl
@[simp] theorem State.setRuns_pending (s : State) (x : SMap PortRun) : (s.setRuns x).pending = s.pending := rfl
@[simp] theorem State.setRuns_objs (s : State) (x : SMap PortRun) : (s.setRuns x).objs = s.objs := rfl
@[simp] theorem State.setRuns_digest (s : State) (x : SMap PortRun) : (s.setRuns x).digest = s.digest := rfl
@[simp] theorem State.setRuns_cycle (s : State) (x : SMap PortRun) : (s.setRuns x).cycle = s.cycle := rfl
@[simp] theorem State.setRuns_freeCtr (s : State) (x : SMap PortRun) : (s.setRuns x).freeCtr = s.freeCtr := rfl
@[simp] theorem State.setRuns_mem (s : State) (x : SMap PortRun) : (s.setRuns x).mem = s.mem := rfl
@[simp] theorem State.setRuns_reqs (s : State) (x : SMap PortRun) : (s.setRuns x).reqs = s.reqs := rfl
@[simp] theorem State.setRuns_queues (s : State) (x : SMap PortRun) : (s.setRuns x).queues = s.queues := rfl
@[simp] theorem State.setRuns_bell (s : State) (x : SMap PortRun) : (s.setRuns x).bell = s.bell := rfl
@[simp] theorem State.setRuns_form (s : State) (x : SMap PortRun) : (s.setRuns x).form = s.form := rfl
@[simp] theorem State.setRuns_hist (s : State) (x : SMap PortRun) : (s.setRuns x).hist = s.hist := rfl
@[simp] theorem State.setRuns_soOut (s : State) (x : SMap PortRun) : (s.setRuns x).soOut = s.soOut := rfl
@[simp] theorem State.setRuns_chans (s : State) (x : SMap PortRun) : (s.setRuns x).chans = s.chans := rfl
@[simp] theorem State.setRuns_routs (s : State) (x : SMap PortRun) : (s.setRuns x).routs = s.routs := rfl
@[simp] theorem State.setRuns_evbuf (s : State) (x : SMap PortRun) : (s.setRuns x).evbuf = s.evbuf := rfl
@[simp] theorem State.setRuns_segs (s : State) (x : SMap PortRun) : (s.setRuns x).segs = s.segs := rfl
@[simp] theorem State.setRuns_stage (s : State) (x : SMap PortRun) : (s.setRuns x).stage = s.stage := rfl
@[simp] theorem State.setRuns_moOut (s : State) (x : SMap PortRun) : (s.setRuns x).moOut = s.moOut := rfl
@[simp] theorem State.setRuns_nv (s : State) (x : SMap PortRun) : (s.setRuns x).nv = s.nv := rfl
@[simp] theorem State.setRuns_bports (s : State) (x : SMap PortRun) : (s.setRuns x).bports = s.bports := rfl
@[simp] theorem State.setRuns_group (s : State) (x : SMap PortRun) : (s.setRuns x).group = s.group := rfl
@[simp] theorem State.setRuns_reds (s : State) (x : SMap PortRun) : (s.setRuns x).reds = s.reds := rfl
@[simp] theorem State.setRuns_btx (s : State) (x : SMap PortRun) : (s.setRuns x).btx = s.btx := rfl
@[simp] theorem State.setRuns_test (s : State) (x : SMap PortRun) : (s.setRuns x).test = s.test := rfl
@[simp] theorem State.setRuns_check (s : State) (x : SMap PortRun) : (s.setRuns x).check = s.check := rfl
@[simp] theorem State.setRuns_coldHeld (s : State) (x : SMap PortRun) : (s.setRuns x).coldHeld = s.coldHeld := rfl
@[simp] theorem State.setRuns_warmHeld (s : State) (x : SMap PortRun) : (s.setRuns x).warmHeld = s.warmHeld := rfl
@[simp] theorem State.setRuns_loaded (s : State) (x : SMap PortRun) : (s.setRuns x).loaded = s.loaded := rfl
@[simp] theorem State.setRuns_invals (s : State) (x : SMap PortRun) : (s.setRuns x).invals = s.invals := rfl
@[simp] theorem State.setRuns_evSeq (s : State) (x : SMap PortRun) : (s.setRuns x).evSeq = s.evSeq := rfl
@[simp] theorem State.setRuns_get (s : State) (x : SMap PortRun) (o n : Nat) : (s.setRuns x).get o n = s.get o n := rfl
@[simp] theorem State.setRuns_obj (s : State) (x : SMap PortRun) (o : Nat) : (s.setRuns x).obj o = s.obj o := rfl
@[simp] theorem State.setRuns_byte (s : State) (x : SMap PortRun) (a : Nat) : (s.setRuns x).byte a = s.byte a := rfl
@[simp] theorem State.setRuns_queue (s : State) (x : SMap PortRun) (q : Nat) : (s.setRuns x).queue q = s.queue q := rfl
@[simp] theorem State.setRuns_dfind (s : State) (x : SMap PortRun) (q n : Nat) : (s.setRuns x).dfind q n = s.dfind q n := rfl
@[simp] theorem State.setRuns_rfind (s : State) (x : SMap PortRun) (q n : Nat) : (s.setRuns x).rfind q n = s.rfind q n := rfl
@[simp] theorem State.setRuns_bport (s : State) (x : SMap PortRun) (p : Nat) : (s.setRuns x).bport p = s.bport p := rfl

@[simp] theorem State.setTwigs_twigs (s : State) (x : List TwigEntry) : (s.setTwigs x).twigs = x := rfl
@[simp] theorem State.setTwigs_variant (s : State) (x : List TwigEntry) : (s.setTwigs x).variant = s.variant := rfl
@[simp] theorem State.setTwigs_reads (s : State) (x : List TwigEntry) : (s.setTwigs x).reads = s.reads := rfl
@[simp] theorem State.setTwigs_holds (s : State) (x : List TwigEntry) : (s.setTwigs x).holds = s.holds := rfl
@[simp] theorem State.setTwigs_gov (s : State) (x : List TwigEntry) : (s.setTwigs x).gov = s.gov := rfl
@[simp] theorem State.setTwigs_pending (s : State) (x : List TwigEntry) : (s.setTwigs x).pending = s.pending := rfl
@[simp] theorem State.setTwigs_objs (s : State) (x : List TwigEntry) : (s.setTwigs x).objs = s.objs := rfl
@[simp] theorem State.setTwigs_digest (s : State) (x : List TwigEntry) : (s.setTwigs x).digest = s.digest := rfl
@[simp] theorem State.setTwigs_cycle (s : State) (x : List TwigEntry) : (s.setTwigs x).cycle = s.cycle := rfl
@[simp] theorem State.setTwigs_freeCtr (s : State) (x : List TwigEntry) : (s.setTwigs x).freeCtr = s.freeCtr := rfl
@[simp] theorem State.setTwigs_mem (s : State) (x : List TwigEntry) : (s.setTwigs x).mem = s.mem := rfl
@[simp] theorem State.setTwigs_reqs (s : State) (x : List TwigEntry) : (s.setTwigs x).reqs = s.reqs := rfl
@[simp] theorem State.setTwigs_queues (s : State) (x : List TwigEntry) : (s.setTwigs x).queues = s.queues := rfl
@[simp] theorem State.setTwigs_bell (s : State) (x : List TwigEntry) : (s.setTwigs x).bell = s.bell := rfl
@[simp] theorem State.setTwigs_form (s : State) (x : List TwigEntry) : (s.setTwigs x).form = s.form := rfl
@[simp] theorem State.setTwigs_hist (s : State) (x : List TwigEntry) : (s.setTwigs x).hist = s.hist := rfl
@[simp] theorem State.setTwigs_soOut (s : State) (x : List TwigEntry) : (s.setTwigs x).soOut = s.soOut := rfl
@[simp] theorem State.setTwigs_chans (s : State) (x : List TwigEntry) : (s.setTwigs x).chans = s.chans := rfl
@[simp] theorem State.setTwigs_routs (s : State) (x : List TwigEntry) : (s.setTwigs x).routs = s.routs := rfl
@[simp] theorem State.setTwigs_evbuf (s : State) (x : List TwigEntry) : (s.setTwigs x).evbuf = s.evbuf := rfl
@[simp] theorem State.setTwigs_segs (s : State) (x : List TwigEntry) : (s.setTwigs x).segs = s.segs := rfl
@[simp] theorem State.setTwigs_stage (s : State) (x : List TwigEntry) : (s.setTwigs x).stage = s.stage := rfl
@[simp] theorem State.setTwigs_moOut (s : State) (x : List TwigEntry) : (s.setTwigs x).moOut = s.moOut := rfl
@[simp] theorem State.setTwigs_nv (s : State) (x : List TwigEntry) : (s.setTwigs x).nv = s.nv := rfl
@[simp] theorem State.setTwigs_bports (s : State) (x : List TwigEntry) : (s.setTwigs x).bports = s.bports := rfl
@[simp] theorem State.setTwigs_group (s : State) (x : List TwigEntry) : (s.setTwigs x).group = s.group := rfl
@[simp] theorem State.setTwigs_reds (s : State) (x : List TwigEntry) : (s.setTwigs x).reds = s.reds := rfl
@[simp] theorem State.setTwigs_btx (s : State) (x : List TwigEntry) : (s.setTwigs x).btx = s.btx := rfl
@[simp] theorem State.setTwigs_test (s : State) (x : List TwigEntry) : (s.setTwigs x).test = s.test := rfl
@[simp] theorem State.setTwigs_check (s : State) (x : List TwigEntry) : (s.setTwigs x).check = s.check := rfl
@[simp] theorem State.setTwigs_coldHeld (s : State) (x : List TwigEntry) : (s.setTwigs x).coldHeld = s.coldHeld := rfl
@[simp] theorem State.setTwigs_warmHeld (s : State) (x : List TwigEntry) : (s.setTwigs x).warmHeld = s.warmHeld := rfl
@[simp] theorem State.setTwigs_loaded (s : State) (x : List TwigEntry) : (s.setTwigs x).loaded = s.loaded := rfl
@[simp] theorem State.setTwigs_invals (s : State) (x : List TwigEntry) : (s.setTwigs x).invals = s.invals := rfl
@[simp] theorem State.setTwigs_evSeq (s : State) (x : List TwigEntry) : (s.setTwigs x).evSeq = s.evSeq := rfl
@[simp] theorem State.setTwigs_get (s : State) (x : List TwigEntry) (o n : Nat) : (s.setTwigs x).get o n = s.get o n := rfl
@[simp] theorem State.setTwigs_obj (s : State) (x : List TwigEntry) (o : Nat) : (s.setTwigs x).obj o = s.obj o := rfl
@[simp] theorem State.setTwigs_byte (s : State) (x : List TwigEntry) (a : Nat) : (s.setTwigs x).byte a = s.byte a := rfl
@[simp] theorem State.setTwigs_queue (s : State) (x : List TwigEntry) (q : Nat) : (s.setTwigs x).queue q = s.queue q := rfl
@[simp] theorem State.setTwigs_dfind (s : State) (x : List TwigEntry) (q n : Nat) : (s.setTwigs x).dfind q n = s.dfind q n := rfl
@[simp] theorem State.setTwigs_rfind (s : State) (x : List TwigEntry) (q n : Nat) : (s.setTwigs x).rfind q n = s.rfind q n := rfl
@[simp] theorem State.setTwigs_bport (s : State) (x : List TwigEntry) (p : Nat) : (s.setTwigs x).bport p = s.bport p := rfl

@[simp] theorem State.setInvals_invals (s : State) (x : List Inval) : (s.setInvals x).invals = x := rfl
@[simp] theorem State.setInvals_variant (s : State) (x : List Inval) : (s.setInvals x).variant = s.variant := rfl
@[simp] theorem State.setInvals_reads (s : State) (x : List Inval) : (s.setInvals x).reads = s.reads := rfl
@[simp] theorem State.setInvals_holds (s : State) (x : List Inval) : (s.setInvals x).holds = s.holds := rfl
@[simp] theorem State.setInvals_gov (s : State) (x : List Inval) : (s.setInvals x).gov = s.gov := rfl
@[simp] theorem State.setInvals_pending (s : State) (x : List Inval) : (s.setInvals x).pending = s.pending := rfl
@[simp] theorem State.setInvals_objs (s : State) (x : List Inval) : (s.setInvals x).objs = s.objs := rfl
@[simp] theorem State.setInvals_digest (s : State) (x : List Inval) : (s.setInvals x).digest = s.digest := rfl
@[simp] theorem State.setInvals_cycle (s : State) (x : List Inval) : (s.setInvals x).cycle = s.cycle := rfl
@[simp] theorem State.setInvals_freeCtr (s : State) (x : List Inval) : (s.setInvals x).freeCtr = s.freeCtr := rfl
@[simp] theorem State.setInvals_mem (s : State) (x : List Inval) : (s.setInvals x).mem = s.mem := rfl
@[simp] theorem State.setInvals_reqs (s : State) (x : List Inval) : (s.setInvals x).reqs = s.reqs := rfl
@[simp] theorem State.setInvals_queues (s : State) (x : List Inval) : (s.setInvals x).queues = s.queues := rfl
@[simp] theorem State.setInvals_bell (s : State) (x : List Inval) : (s.setInvals x).bell = s.bell := rfl
@[simp] theorem State.setInvals_form (s : State) (x : List Inval) : (s.setInvals x).form = s.form := rfl
@[simp] theorem State.setInvals_hist (s : State) (x : List Inval) : (s.setInvals x).hist = s.hist := rfl
@[simp] theorem State.setInvals_soOut (s : State) (x : List Inval) : (s.setInvals x).soOut = s.soOut := rfl
@[simp] theorem State.setInvals_chans (s : State) (x : List Inval) : (s.setInvals x).chans = s.chans := rfl
@[simp] theorem State.setInvals_routs (s : State) (x : List Inval) : (s.setInvals x).routs = s.routs := rfl
@[simp] theorem State.setInvals_evbuf (s : State) (x : List Inval) : (s.setInvals x).evbuf = s.evbuf := rfl
@[simp] theorem State.setInvals_segs (s : State) (x : List Inval) : (s.setInvals x).segs = s.segs := rfl
@[simp] theorem State.setInvals_stage (s : State) (x : List Inval) : (s.setInvals x).stage = s.stage := rfl
@[simp] theorem State.setInvals_moOut (s : State) (x : List Inval) : (s.setInvals x).moOut = s.moOut := rfl
@[simp] theorem State.setInvals_nv (s : State) (x : List Inval) : (s.setInvals x).nv = s.nv := rfl
@[simp] theorem State.setInvals_bports (s : State) (x : List Inval) : (s.setInvals x).bports = s.bports := rfl
@[simp] theorem State.setInvals_group (s : State) (x : List Inval) : (s.setInvals x).group = s.group := rfl
@[simp] theorem State.setInvals_reds (s : State) (x : List Inval) : (s.setInvals x).reds = s.reds := rfl
@[simp] theorem State.setInvals_btx (s : State) (x : List Inval) : (s.setInvals x).btx = s.btx := rfl
@[simp] theorem State.setInvals_test (s : State) (x : List Inval) : (s.setInvals x).test = s.test := rfl
@[simp] theorem State.setInvals_check (s : State) (x : List Inval) : (s.setInvals x).check = s.check := rfl
@[simp] theorem State.setInvals_coldHeld (s : State) (x : List Inval) : (s.setInvals x).coldHeld = s.coldHeld := rfl
@[simp] theorem State.setInvals_warmHeld (s : State) (x : List Inval) : (s.setInvals x).warmHeld = s.warmHeld := rfl
@[simp] theorem State.setInvals_loaded (s : State) (x : List Inval) : (s.setInvals x).loaded = s.loaded := rfl
@[simp] theorem State.setInvals_evSeq (s : State) (x : List Inval) : (s.setInvals x).evSeq = s.evSeq := rfl
@[simp] theorem State.setInvals_get (s : State) (x : List Inval) (o n : Nat) : (s.setInvals x).get o n = s.get o n := rfl
@[simp] theorem State.setInvals_obj (s : State) (x : List Inval) (o : Nat) : (s.setInvals x).obj o = s.obj o := rfl
@[simp] theorem State.setInvals_byte (s : State) (x : List Inval) (a : Nat) : (s.setInvals x).byte a = s.byte a := rfl
@[simp] theorem State.setInvals_queue (s : State) (x : List Inval) (q : Nat) : (s.setInvals x).queue q = s.queue q := rfl
@[simp] theorem State.setInvals_dfind (s : State) (x : List Inval) (q n : Nat) : (s.setInvals x).dfind q n = s.dfind q n := rfl
@[simp] theorem State.setInvals_rfind (s : State) (x : List Inval) (q n : Nat) : (s.setInvals x).rfind q n = s.rfind q n := rfl
@[simp] theorem State.setInvals_bport (s : State) (x : List Inval) (p : Nat) : (s.setInvals x).bport p = s.bport p := rfl

@[simp] theorem State.setQueues_queues (s : State) (x : SMap QRt) : (s.setQueues x).queues = x := rfl
@[simp] theorem State.setQueues_variant (s : State) (x : SMap QRt) : (s.setQueues x).variant = s.variant := rfl
@[simp] theorem State.setQueues_reads (s : State) (x : SMap QRt) : (s.setQueues x).reads = s.reads := rfl
@[simp] theorem State.setQueues_holds (s : State) (x : SMap QRt) : (s.setQueues x).holds = s.holds := rfl
@[simp] theorem State.setQueues_gov (s : State) (x : SMap QRt) : (s.setQueues x).gov = s.gov := rfl
@[simp] theorem State.setQueues_pending (s : State) (x : SMap QRt) : (s.setQueues x).pending = s.pending := rfl
@[simp] theorem State.setQueues_objs (s : State) (x : SMap QRt) : (s.setQueues x).objs = s.objs := rfl
@[simp] theorem State.setQueues_digest (s : State) (x : SMap QRt) : (s.setQueues x).digest = s.digest := rfl
@[simp] theorem State.setQueues_cycle (s : State) (x : SMap QRt) : (s.setQueues x).cycle = s.cycle := rfl
@[simp] theorem State.setQueues_freeCtr (s : State) (x : SMap QRt) : (s.setQueues x).freeCtr = s.freeCtr := rfl
@[simp] theorem State.setQueues_mem (s : State) (x : SMap QRt) : (s.setQueues x).mem = s.mem := rfl
@[simp] theorem State.setQueues_reqs (s : State) (x : SMap QRt) : (s.setQueues x).reqs = s.reqs := rfl
@[simp] theorem State.setQueues_bell (s : State) (x : SMap QRt) : (s.setQueues x).bell = s.bell := rfl
@[simp] theorem State.setQueues_form (s : State) (x : SMap QRt) : (s.setQueues x).form = s.form := rfl
@[simp] theorem State.setQueues_hist (s : State) (x : SMap QRt) : (s.setQueues x).hist = s.hist := rfl
@[simp] theorem State.setQueues_soOut (s : State) (x : SMap QRt) : (s.setQueues x).soOut = s.soOut := rfl
@[simp] theorem State.setQueues_chans (s : State) (x : SMap QRt) : (s.setQueues x).chans = s.chans := rfl
@[simp] theorem State.setQueues_routs (s : State) (x : SMap QRt) : (s.setQueues x).routs = s.routs := rfl
@[simp] theorem State.setQueues_evbuf (s : State) (x : SMap QRt) : (s.setQueues x).evbuf = s.evbuf := rfl
@[simp] theorem State.setQueues_segs (s : State) (x : SMap QRt) : (s.setQueues x).segs = s.segs := rfl
@[simp] theorem State.setQueues_stage (s : State) (x : SMap QRt) : (s.setQueues x).stage = s.stage := rfl
@[simp] theorem State.setQueues_moOut (s : State) (x : SMap QRt) : (s.setQueues x).moOut = s.moOut := rfl
@[simp] theorem State.setQueues_nv (s : State) (x : SMap QRt) : (s.setQueues x).nv = s.nv := rfl
@[simp] theorem State.setQueues_bports (s : State) (x : SMap QRt) : (s.setQueues x).bports = s.bports := rfl
@[simp] theorem State.setQueues_group (s : State) (x : SMap QRt) : (s.setQueues x).group = s.group := rfl
@[simp] theorem State.setQueues_reds (s : State) (x : SMap QRt) : (s.setQueues x).reds = s.reds := rfl
@[simp] theorem State.setQueues_btx (s : State) (x : SMap QRt) : (s.setQueues x).btx = s.btx := rfl
@[simp] theorem State.setQueues_test (s : State) (x : SMap QRt) : (s.setQueues x).test = s.test := rfl
@[simp] theorem State.setQueues_check (s : State) (x : SMap QRt) : (s.setQueues x).check = s.check := rfl
@[simp] theorem State.setQueues_coldHeld (s : State) (x : SMap QRt) : (s.setQueues x).coldHeld = s.coldHeld := rfl
@[simp] theorem State.setQueues_warmHeld (s : State) (x : SMap QRt) : (s.setQueues x).warmHeld = s.warmHeld := rfl
@[simp] theorem State.setQueues_loaded (s : State) (x : SMap QRt) : (s.setQueues x).loaded = s.loaded := rfl
@[simp] theorem State.setQueues_invals (s : State) (x : SMap QRt) : (s.setQueues x).invals = s.invals := rfl
@[simp] theorem State.setQueues_evSeq (s : State) (x : SMap QRt) : (s.setQueues x).evSeq = s.evSeq := rfl
@[simp] theorem State.setQueues_get (s : State) (x : SMap QRt) (o n : Nat) : (s.setQueues x).get o n = s.get o n := rfl
@[simp] theorem State.setQueues_obj (s : State) (x : SMap QRt) (o : Nat) : (s.setQueues x).obj o = s.obj o := rfl
@[simp] theorem State.setQueues_byte (s : State) (x : SMap QRt) (a : Nat) : (s.setQueues x).byte a = s.byte a := rfl
@[simp] theorem State.setQueues_rfind (s : State) (x : SMap QRt) (q n : Nat) : (s.setQueues x).rfind q n = s.rfind q n := rfl
@[simp] theorem State.setQueues_bport (s : State) (x : SMap QRt) (p : Nat) : (s.setQueues x).bport p = s.bport p := rfl

@[simp] theorem State.setSyncWrites_syncWrites (s : State) (x : List (Nat × Nat)) : (s.setSyncWrites x).syncWrites = x := rfl
@[simp] theorem State.setSyncWrites_variant (s : State) (x : List (Nat × Nat)) : (s.setSyncWrites x).variant = s.variant := rfl
@[simp] theorem State.setSyncWrites_reads (s : State) (x : List (Nat × Nat)) : (s.setSyncWrites x).reads = s.reads := rfl
@[simp] theorem State.setSyncWrites_holds (s : State) (x : List (Nat × Nat)) : (s.setSyncWrites x).holds = s.holds := rfl
@[simp] theorem State.setSyncWrites_gov (s : State) (x : List (Nat × Nat)) : (s.setSyncWrites x).gov = s.gov := rfl
@[simp] theorem State.setSyncWrites_pending (s : State) (x : List (Nat × Nat)) : (s.setSyncWrites x).pending = s.pending := rfl
@[simp] theorem State.setSyncWrites_objs (s : State) (x : List (Nat × Nat)) : (s.setSyncWrites x).objs = s.objs := rfl
@[simp] theorem State.setSyncWrites_digest (s : State) (x : List (Nat × Nat)) : (s.setSyncWrites x).digest = s.digest := rfl
@[simp] theorem State.setSyncWrites_cycle (s : State) (x : List (Nat × Nat)) : (s.setSyncWrites x).cycle = s.cycle := rfl
@[simp] theorem State.setSyncWrites_freeCtr (s : State) (x : List (Nat × Nat)) : (s.setSyncWrites x).freeCtr = s.freeCtr := rfl
@[simp] theorem State.setSyncWrites_mem (s : State) (x : List (Nat × Nat)) : (s.setSyncWrites x).mem = s.mem := rfl
@[simp] theorem State.setSyncWrites_reqs (s : State) (x : List (Nat × Nat)) : (s.setSyncWrites x).reqs = s.reqs := rfl
@[simp] theorem State.setSyncWrites_queues (s : State) (x : List (Nat × Nat)) : (s.setSyncWrites x).queues = s.queues := rfl
@[simp] theorem State.setSyncWrites_bell (s : State) (x : List (Nat × Nat)) : (s.setSyncWrites x).bell = s.bell := rfl
@[simp] theorem State.setSyncWrites_form (s : State) (x : List (Nat × Nat)) : (s.setSyncWrites x).form = s.form := rfl
@[simp] theorem State.setSyncWrites_hist (s : State) (x : List (Nat × Nat)) : (s.setSyncWrites x).hist = s.hist := rfl
@[simp] theorem State.setSyncWrites_soOut (s : State) (x : List (Nat × Nat)) : (s.setSyncWrites x).soOut = s.soOut := rfl
@[simp] theorem State.setSyncWrites_chans (s : State) (x : List (Nat × Nat)) : (s.setSyncWrites x).chans = s.chans := rfl
@[simp] theorem State.setSyncWrites_routs (s : State) (x : List (Nat × Nat)) : (s.setSyncWrites x).routs = s.routs := rfl
@[simp] theorem State.setSyncWrites_evbuf (s : State) (x : List (Nat × Nat)) : (s.setSyncWrites x).evbuf = s.evbuf := rfl
@[simp] theorem State.setSyncWrites_segs (s : State) (x : List (Nat × Nat)) : (s.setSyncWrites x).segs = s.segs := rfl
@[simp] theorem State.setSyncWrites_stage (s : State) (x : List (Nat × Nat)) : (s.setSyncWrites x).stage = s.stage := rfl
@[simp] theorem State.setSyncWrites_moOut (s : State) (x : List (Nat × Nat)) : (s.setSyncWrites x).moOut = s.moOut := rfl
@[simp] theorem State.setSyncWrites_nv (s : State) (x : List (Nat × Nat)) : (s.setSyncWrites x).nv = s.nv := rfl
@[simp] theorem State.setSyncWrites_bports (s : State) (x : List (Nat × Nat)) : (s.setSyncWrites x).bports = s.bports := rfl
@[simp] theorem State.setSyncWrites_group (s : State) (x : List (Nat × Nat)) : (s.setSyncWrites x).group = s.group := rfl
@[simp] theorem State.setSyncWrites_reds (s : State) (x : List (Nat × Nat)) : (s.setSyncWrites x).reds = s.reds := rfl
@[simp] theorem State.setSyncWrites_btx (s : State) (x : List (Nat × Nat)) : (s.setSyncWrites x).btx = s.btx := rfl
@[simp] theorem State.setSyncWrites_test (s : State) (x : List (Nat × Nat)) : (s.setSyncWrites x).test = s.test := rfl
@[simp] theorem State.setSyncWrites_check (s : State) (x : List (Nat × Nat)) : (s.setSyncWrites x).check = s.check := rfl
@[simp] theorem State.setSyncWrites_coldHeld (s : State) (x : List (Nat × Nat)) : (s.setSyncWrites x).coldHeld = s.coldHeld := rfl
@[simp] theorem State.setSyncWrites_warmHeld (s : State) (x : List (Nat × Nat)) : (s.setSyncWrites x).warmHeld = s.warmHeld := rfl
@[simp] theorem State.setSyncWrites_loaded (s : State) (x : List (Nat × Nat)) : (s.setSyncWrites x).loaded = s.loaded := rfl
@[simp] theorem State.setSyncWrites_invals (s : State) (x : List (Nat × Nat)) : (s.setSyncWrites x).invals = s.invals := rfl
@[simp] theorem State.setSyncWrites_evSeq (s : State) (x : List (Nat × Nat)) : (s.setSyncWrites x).evSeq = s.evSeq := rfl
@[simp] theorem State.setSyncWrites_get (s : State) (x : List (Nat × Nat)) (o n : Nat) : (s.setSyncWrites x).get o n = s.get o n := rfl
@[simp] theorem State.setSyncWrites_obj (s : State) (x : List (Nat × Nat)) (o : Nat) : (s.setSyncWrites x).obj o = s.obj o := rfl
@[simp] theorem State.setSyncWrites_byte (s : State) (x : List (Nat × Nat)) (a : Nat) : (s.setSyncWrites x).byte a = s.byte a := rfl
@[simp] theorem State.setSyncWrites_queue (s : State) (x : List (Nat × Nat)) (q : Nat) : (s.setSyncWrites x).queue q = s.queue q := rfl
@[simp] theorem State.setSyncWrites_dfind (s : State) (x : List (Nat × Nat)) (q n : Nat) : (s.setSyncWrites x).dfind q n = s.dfind q n := rfl
@[simp] theorem State.setSyncWrites_rfind (s : State) (x : List (Nat × Nat)) (q n : Nat) : (s.setSyncWrites x).rfind q n = s.rfind q n := rfl
@[simp] theorem State.setSyncWrites_bport (s : State) (x : List (Nat × Nat)) (p : Nat) : (s.setSyncWrites x).bport p = s.bport p := rfl

@[simp] theorem State.setSyncUpds_syncUpds (s : State) (x : List SyncUpd) : (s.setSyncUpds x).syncUpds = x := rfl
@[simp] theorem State.setSyncUpds_variant (s : State) (x : List SyncUpd) : (s.setSyncUpds x).variant = s.variant := rfl
@[simp] theorem State.setSyncUpds_reads (s : State) (x : List SyncUpd) : (s.setSyncUpds x).reads = s.reads := rfl
@[simp] theorem State.setSyncUpds_holds (s : State) (x : List SyncUpd) : (s.setSyncUpds x).holds = s.holds := rfl
@[simp] theorem State.setSyncUpds_gov (s : State) (x : List SyncUpd) : (s.setSyncUpds x).gov = s.gov := rfl
@[simp] theorem State.setSyncUpds_pending (s : State) (x : List SyncUpd) : (s.setSyncUpds x).pending = s.pending := rfl
@[simp] theorem State.setSyncUpds_objs (s : State) (x : List SyncUpd) : (s.setSyncUpds x).objs = s.objs := rfl
@[simp] theorem State.setSyncUpds_digest (s : State) (x : List SyncUpd) : (s.setSyncUpds x).digest = s.digest := rfl
@[simp] theorem State.setSyncUpds_cycle (s : State) (x : List SyncUpd) : (s.setSyncUpds x).cycle = s.cycle := rfl
@[simp] theorem State.setSyncUpds_freeCtr (s : State) (x : List SyncUpd) : (s.setSyncUpds x).freeCtr = s.freeCtr := rfl
@[simp] theorem State.setSyncUpds_mem (s : State) (x : List SyncUpd) : (s.setSyncUpds x).mem = s.mem := rfl
@[simp] theorem State.setSyncUpds_reqs (s : State) (x : List SyncUpd) : (s.setSyncUpds x).reqs = s.reqs := rfl
@[simp] theorem State.setSyncUpds_queues (s : State) (x : List SyncUpd) : (s.setSyncUpds x).queues = s.queues := rfl
@[simp] theorem State.setSyncUpds_bell (s : State) (x : List SyncUpd) : (s.setSyncUpds x).bell = s.bell := rfl
@[simp] theorem State.setSyncUpds_form (s : State) (x : List SyncUpd) : (s.setSyncUpds x).form = s.form := rfl
@[simp] theorem State.setSyncUpds_hist (s : State) (x : List SyncUpd) : (s.setSyncUpds x).hist = s.hist := rfl
@[simp] theorem State.setSyncUpds_soOut (s : State) (x : List SyncUpd) : (s.setSyncUpds x).soOut = s.soOut := rfl
@[simp] theorem State.setSyncUpds_chans (s : State) (x : List SyncUpd) : (s.setSyncUpds x).chans = s.chans := rfl
@[simp] theorem State.setSyncUpds_routs (s : State) (x : List SyncUpd) : (s.setSyncUpds x).routs = s.routs := rfl
@[simp] theorem State.setSyncUpds_evbuf (s : State) (x : List SyncUpd) : (s.setSyncUpds x).evbuf = s.evbuf := rfl
@[simp] theorem State.setSyncUpds_segs (s : State) (x : List SyncUpd) : (s.setSyncUpds x).segs = s.segs := rfl
@[simp] theorem State.setSyncUpds_stage (s : State) (x : List SyncUpd) : (s.setSyncUpds x).stage = s.stage := rfl
@[simp] theorem State.setSyncUpds_moOut (s : State) (x : List SyncUpd) : (s.setSyncUpds x).moOut = s.moOut := rfl
@[simp] theorem State.setSyncUpds_nv (s : State) (x : List SyncUpd) : (s.setSyncUpds x).nv = s.nv := rfl
@[simp] theorem State.setSyncUpds_bports (s : State) (x : List SyncUpd) : (s.setSyncUpds x).bports = s.bports := rfl
@[simp] theorem State.setSyncUpds_group (s : State) (x : List SyncUpd) : (s.setSyncUpds x).group = s.group := rfl
@[simp] theorem State.setSyncUpds_reds (s : State) (x : List SyncUpd) : (s.setSyncUpds x).reds = s.reds := rfl
@[simp] theorem State.setSyncUpds_btx (s : State) (x : List SyncUpd) : (s.setSyncUpds x).btx = s.btx := rfl
@[simp] theorem State.setSyncUpds_test (s : State) (x : List SyncUpd) : (s.setSyncUpds x).test = s.test := rfl
@[simp] theorem State.setSyncUpds_check (s : State) (x : List SyncUpd) : (s.setSyncUpds x).check = s.check := rfl
@[simp] theorem State.setSyncUpds_coldHeld (s : State) (x : List SyncUpd) : (s.setSyncUpds x).coldHeld = s.coldHeld := rfl
@[simp] theorem State.setSyncUpds_warmHeld (s : State) (x : List SyncUpd) : (s.setSyncUpds x).warmHeld = s.warmHeld := rfl
@[simp] theorem State.setSyncUpds_loaded (s : State) (x : List SyncUpd) : (s.setSyncUpds x).loaded = s.loaded := rfl
@[simp] theorem State.setSyncUpds_invals (s : State) (x : List SyncUpd) : (s.setSyncUpds x).invals = s.invals := rfl
@[simp] theorem State.setSyncUpds_evSeq (s : State) (x : List SyncUpd) : (s.setSyncUpds x).evSeq = s.evSeq := rfl
@[simp] theorem State.setSyncUpds_get (s : State) (x : List SyncUpd) (o n : Nat) : (s.setSyncUpds x).get o n = s.get o n := rfl
@[simp] theorem State.setSyncUpds_obj (s : State) (x : List SyncUpd) (o : Nat) : (s.setSyncUpds x).obj o = s.obj o := rfl
@[simp] theorem State.setSyncUpds_byte (s : State) (x : List SyncUpd) (a : Nat) : (s.setSyncUpds x).byte a = s.byte a := rfl
@[simp] theorem State.setSyncUpds_queue (s : State) (x : List SyncUpd) (q : Nat) : (s.setSyncUpds x).queue q = s.queue q := rfl
@[simp] theorem State.setSyncUpds_dfind (s : State) (x : List SyncUpd) (q n : Nat) : (s.setSyncUpds x).dfind q n = s.dfind q n := rfl
@[simp] theorem State.setSyncUpds_rfind (s : State) (x : List SyncUpd) (q n : Nat) : (s.setSyncUpds x).rfind q n = s.rfind q n := rfl
@[simp] theorem State.setSyncUpds_bport (s : State) (x : List SyncUpd) (p : Nat) : (s.setSyncUpds x).bport p = s.bport p := rfl

@[simp] theorem State.setSapTurn_sapTurn (s : State) (x : Nat) : (s.setSapTurn x).sapTurn = x := rfl
@[simp] theorem State.setSapTurn_variant (s : State) (x : Nat) : (s.setSapTurn x).variant = s.variant := rfl
@[simp] theorem State.setSapTurn_reads (s : State) (x : Nat) : (s.setSapTurn x).reads = s.reads := rfl
@[simp] theorem State.setSapTurn_holds (s : State) (x : Nat) : (s.setSapTurn x).holds = s.holds := rfl
@[simp] theorem State.setSapTurn_gov (s : State) (x : Nat) : (s.setSapTurn x).gov = s.gov := rfl
@[simp] theorem State.setSapTurn_pending (s : State) (x : Nat) : (s.setSapTurn x).pending = s.pending := rfl
@[simp] theorem State.setSapTurn_objs (s : State) (x : Nat) : (s.setSapTurn x).objs = s.objs := rfl
@[simp] theorem State.setSapTurn_digest (s : State) (x : Nat) : (s.setSapTurn x).digest = s.digest := rfl
@[simp] theorem State.setSapTurn_cycle (s : State) (x : Nat) : (s.setSapTurn x).cycle = s.cycle := rfl
@[simp] theorem State.setSapTurn_freeCtr (s : State) (x : Nat) : (s.setSapTurn x).freeCtr = s.freeCtr := rfl
@[simp] theorem State.setSapTurn_mem (s : State) (x : Nat) : (s.setSapTurn x).mem = s.mem := rfl
@[simp] theorem State.setSapTurn_reqs (s : State) (x : Nat) : (s.setSapTurn x).reqs = s.reqs := rfl
@[simp] theorem State.setSapTurn_queues (s : State) (x : Nat) : (s.setSapTurn x).queues = s.queues := rfl
@[simp] theorem State.setSapTurn_bell (s : State) (x : Nat) : (s.setSapTurn x).bell = s.bell := rfl
@[simp] theorem State.setSapTurn_form (s : State) (x : Nat) : (s.setSapTurn x).form = s.form := rfl
@[simp] theorem State.setSapTurn_hist (s : State) (x : Nat) : (s.setSapTurn x).hist = s.hist := rfl
@[simp] theorem State.setSapTurn_soOut (s : State) (x : Nat) : (s.setSapTurn x).soOut = s.soOut := rfl
@[simp] theorem State.setSapTurn_chans (s : State) (x : Nat) : (s.setSapTurn x).chans = s.chans := rfl
@[simp] theorem State.setSapTurn_routs (s : State) (x : Nat) : (s.setSapTurn x).routs = s.routs := rfl
@[simp] theorem State.setSapTurn_evbuf (s : State) (x : Nat) : (s.setSapTurn x).evbuf = s.evbuf := rfl
@[simp] theorem State.setSapTurn_segs (s : State) (x : Nat) : (s.setSapTurn x).segs = s.segs := rfl
@[simp] theorem State.setSapTurn_stage (s : State) (x : Nat) : (s.setSapTurn x).stage = s.stage := rfl
@[simp] theorem State.setSapTurn_moOut (s : State) (x : Nat) : (s.setSapTurn x).moOut = s.moOut := rfl
@[simp] theorem State.setSapTurn_nv (s : State) (x : Nat) : (s.setSapTurn x).nv = s.nv := rfl
@[simp] theorem State.setSapTurn_bports (s : State) (x : Nat) : (s.setSapTurn x).bports = s.bports := rfl
@[simp] theorem State.setSapTurn_group (s : State) (x : Nat) : (s.setSapTurn x).group = s.group := rfl
@[simp] theorem State.setSapTurn_reds (s : State) (x : Nat) : (s.setSapTurn x).reds = s.reds := rfl
@[simp] theorem State.setSapTurn_btx (s : State) (x : Nat) : (s.setSapTurn x).btx = s.btx := rfl
@[simp] theorem State.setSapTurn_test (s : State) (x : Nat) : (s.setSapTurn x).test = s.test := rfl
@[simp] theorem State.setSapTurn_check (s : State) (x : Nat) : (s.setSapTurn x).check = s.check := rfl
@[simp] theorem State.setSapTurn_coldHeld (s : State) (x : Nat) : (s.setSapTurn x).coldHeld = s.coldHeld := rfl
@[simp] theorem State.setSapTurn_warmHeld (s : State) (x : Nat) : (s.setSapTurn x).warmHeld = s.warmHeld := rfl
@[simp] theorem State.setSapTurn_loaded (s : State) (x : Nat) : (s.setSapTurn x).loaded = s.loaded := rfl
@[simp] theorem State.setSapTurn_invals (s : State) (x : Nat) : (s.setSapTurn x).invals = s.invals := rfl
@[simp] theorem State.setSapTurn_evSeq (s : State) (x : Nat) : (s.setSapTurn x).evSeq = s.evSeq := rfl
@[simp] theorem State.setSapTurn_get (s : State) (x : Nat) (o n : Nat) : (s.setSapTurn x).get o n = s.get o n := rfl
@[simp] theorem State.setSapTurn_obj (s : State) (x : Nat) (o : Nat) : (s.setSapTurn x).obj o = s.obj o := rfl
@[simp] theorem State.setSapTurn_byte (s : State) (x : Nat) (a : Nat) : (s.setSapTurn x).byte a = s.byte a := rfl
@[simp] theorem State.setSapTurn_queue (s : State) (x : Nat) (q : Nat) : (s.setSapTurn x).queue q = s.queue q := rfl
@[simp] theorem State.setSapTurn_dfind (s : State) (x : Nat) (q n : Nat) : (s.setSapTurn x).dfind q n = s.dfind q n := rfl
@[simp] theorem State.setSapTurn_rfind (s : State) (x : Nat) (q n : Nat) : (s.setSapTurn x).rfind q n = s.rfind q n := rfl
@[simp] theorem State.setSapTurn_bport (s : State) (x : Nat) (p : Nat) : (s.setSapTurn x).bport p = s.bport p := rfl

@[simp] theorem State.setBell_bell (s : State) (x : BellSt) : (s.setBell x).bell = x := rfl
@[simp] theorem State.setBell_variant (s : State) (x : BellSt) : (s.setBell x).variant = s.variant := rfl
@[simp] theorem State.setBell_reads (s : State) (x : BellSt) : (s.setBell x).reads = s.reads := rfl
@[simp] theorem State.setBell_holds (s : State) (x : BellSt) : (s.setBell x).holds = s.holds := rfl
@[simp] theorem State.setBell_gov (s : State) (x : BellSt) : (s.setBell x).gov = s.gov := rfl
@[simp] theorem State.setBell_pending (s : State) (x : BellSt) : (s.setBell x).pending = s.pending := rfl
@[simp] theorem State.setBell_objs (s : State) (x : BellSt) : (s.setBell x).objs = s.objs := rfl
@[simp] theorem State.setBell_digest (s : State) (x : BellSt) : (s.setBell x).digest = s.digest := rfl
@[simp] theorem State.setBell_cycle (s : State) (x : BellSt) : (s.setBell x).cycle = s.cycle := rfl
@[simp] theorem State.setBell_freeCtr (s : State) (x : BellSt) : (s.setBell x).freeCtr = s.freeCtr := rfl
@[simp] theorem State.setBell_mem (s : State) (x : BellSt) : (s.setBell x).mem = s.mem := rfl
@[simp] theorem State.setBell_reqs (s : State) (x : BellSt) : (s.setBell x).reqs = s.reqs := rfl
@[simp] theorem State.setBell_queues (s : State) (x : BellSt) : (s.setBell x).queues = s.queues := rfl
@[simp] theorem State.setBell_form (s : State) (x : BellSt) : (s.setBell x).form = s.form := rfl
@[simp] theorem State.setBell_hist (s : State) (x : BellSt) : (s.setBell x).hist = s.hist := rfl
@[simp] theorem State.setBell_soOut (s : State) (x : BellSt) : (s.setBell x).soOut = s.soOut := rfl
@[simp] theorem State.setBell_chans (s : State) (x : BellSt) : (s.setBell x).chans = s.chans := rfl
@[simp] theorem State.setBell_routs (s : State) (x : BellSt) : (s.setBell x).routs = s.routs := rfl
@[simp] theorem State.setBell_evbuf (s : State) (x : BellSt) : (s.setBell x).evbuf = s.evbuf := rfl
@[simp] theorem State.setBell_segs (s : State) (x : BellSt) : (s.setBell x).segs = s.segs := rfl
@[simp] theorem State.setBell_stage (s : State) (x : BellSt) : (s.setBell x).stage = s.stage := rfl
@[simp] theorem State.setBell_moOut (s : State) (x : BellSt) : (s.setBell x).moOut = s.moOut := rfl
@[simp] theorem State.setBell_nv (s : State) (x : BellSt) : (s.setBell x).nv = s.nv := rfl
@[simp] theorem State.setBell_bports (s : State) (x : BellSt) : (s.setBell x).bports = s.bports := rfl
@[simp] theorem State.setBell_group (s : State) (x : BellSt) : (s.setBell x).group = s.group := rfl
@[simp] theorem State.setBell_reds (s : State) (x : BellSt) : (s.setBell x).reds = s.reds := rfl
@[simp] theorem State.setBell_btx (s : State) (x : BellSt) : (s.setBell x).btx = s.btx := rfl
@[simp] theorem State.setBell_test (s : State) (x : BellSt) : (s.setBell x).test = s.test := rfl
@[simp] theorem State.setBell_check (s : State) (x : BellSt) : (s.setBell x).check = s.check := rfl
@[simp] theorem State.setBell_coldHeld (s : State) (x : BellSt) : (s.setBell x).coldHeld = s.coldHeld := rfl
@[simp] theorem State.setBell_warmHeld (s : State) (x : BellSt) : (s.setBell x).warmHeld = s.warmHeld := rfl
@[simp] theorem State.setBell_loaded (s : State) (x : BellSt) : (s.setBell x).loaded = s.loaded := rfl
@[simp] theorem State.setBell_invals (s : State) (x : BellSt) : (s.setBell x).invals = s.invals := rfl
@[simp] theorem State.setBell_evSeq (s : State) (x : BellSt) : (s.setBell x).evSeq = s.evSeq := rfl
@[simp] theorem State.setBell_get (s : State) (x : BellSt) (o n : Nat) : (s.setBell x).get o n = s.get o n := rfl
@[simp] theorem State.setBell_obj (s : State) (x : BellSt) (o : Nat) : (s.setBell x).obj o = s.obj o := rfl
@[simp] theorem State.setBell_byte (s : State) (x : BellSt) (a : Nat) : (s.setBell x).byte a = s.byte a := rfl
@[simp] theorem State.setBell_queue (s : State) (x : BellSt) (q : Nat) : (s.setBell x).queue q = s.queue q := rfl
@[simp] theorem State.setBell_dfind (s : State) (x : BellSt) (q n : Nat) : (s.setBell x).dfind q n = s.dfind q n := rfl
@[simp] theorem State.setBell_rfind (s : State) (x : BellSt) (q n : Nat) : (s.setBell x).rfind q n = s.rfind q n := rfl
@[simp] theorem State.setBell_bport (s : State) (x : BellSt) (p : Nat) : (s.setBell x).bport p = s.bport p := rfl

@[simp] theorem State.setForm_form (s : State) (x : Form) : (s.setForm x).form = x := rfl
@[simp] theorem State.setForm_variant (s : State) (x : Form) : (s.setForm x).variant = s.variant := rfl
@[simp] theorem State.setForm_reads (s : State) (x : Form) : (s.setForm x).reads = s.reads := rfl
@[simp] theorem State.setForm_holds (s : State) (x : Form) : (s.setForm x).holds = s.holds := rfl
@[simp] theorem State.setForm_gov (s : State) (x : Form) : (s.setForm x).gov = s.gov := rfl
@[simp] theorem State.setForm_pending (s : State) (x : Form) : (s.setForm x).pending = s.pending := rfl
@[simp] theorem State.setForm_objs (s : State) (x : Form) : (s.setForm x).objs = s.objs := rfl
@[simp] theorem State.setForm_digest (s : State) (x : Form) : (s.setForm x).digest = s.digest := rfl
@[simp] theorem State.setForm_cycle (s : State) (x : Form) : (s.setForm x).cycle = s.cycle := rfl
@[simp] theorem State.setForm_freeCtr (s : State) (x : Form) : (s.setForm x).freeCtr = s.freeCtr := rfl
@[simp] theorem State.setForm_mem (s : State) (x : Form) : (s.setForm x).mem = s.mem := rfl
@[simp] theorem State.setForm_reqs (s : State) (x : Form) : (s.setForm x).reqs = s.reqs := rfl
@[simp] theorem State.setForm_queues (s : State) (x : Form) : (s.setForm x).queues = s.queues := rfl
@[simp] theorem State.setForm_bell (s : State) (x : Form) : (s.setForm x).bell = s.bell := rfl
@[simp] theorem State.setForm_hist (s : State) (x : Form) : (s.setForm x).hist = s.hist := rfl
@[simp] theorem State.setForm_soOut (s : State) (x : Form) : (s.setForm x).soOut = s.soOut := rfl
@[simp] theorem State.setForm_chans (s : State) (x : Form) : (s.setForm x).chans = s.chans := rfl
@[simp] theorem State.setForm_routs (s : State) (x : Form) : (s.setForm x).routs = s.routs := rfl
@[simp] theorem State.setForm_evbuf (s : State) (x : Form) : (s.setForm x).evbuf = s.evbuf := rfl
@[simp] theorem State.setForm_segs (s : State) (x : Form) : (s.setForm x).segs = s.segs := rfl
@[simp] theorem State.setForm_stage (s : State) (x : Form) : (s.setForm x).stage = s.stage := rfl
@[simp] theorem State.setForm_moOut (s : State) (x : Form) : (s.setForm x).moOut = s.moOut := rfl
@[simp] theorem State.setForm_nv (s : State) (x : Form) : (s.setForm x).nv = s.nv := rfl
@[simp] theorem State.setForm_bports (s : State) (x : Form) : (s.setForm x).bports = s.bports := rfl
@[simp] theorem State.setForm_group (s : State) (x : Form) : (s.setForm x).group = s.group := rfl
@[simp] theorem State.setForm_reds (s : State) (x : Form) : (s.setForm x).reds = s.reds := rfl
@[simp] theorem State.setForm_btx (s : State) (x : Form) : (s.setForm x).btx = s.btx := rfl
@[simp] theorem State.setForm_test (s : State) (x : Form) : (s.setForm x).test = s.test := rfl
@[simp] theorem State.setForm_check (s : State) (x : Form) : (s.setForm x).check = s.check := rfl
@[simp] theorem State.setForm_coldHeld (s : State) (x : Form) : (s.setForm x).coldHeld = s.coldHeld := rfl
@[simp] theorem State.setForm_warmHeld (s : State) (x : Form) : (s.setForm x).warmHeld = s.warmHeld := rfl
@[simp] theorem State.setForm_loaded (s : State) (x : Form) : (s.setForm x).loaded = s.loaded := rfl
@[simp] theorem State.setForm_invals (s : State) (x : Form) : (s.setForm x).invals = s.invals := rfl
@[simp] theorem State.setForm_evSeq (s : State) (x : Form) : (s.setForm x).evSeq = s.evSeq := rfl
@[simp] theorem State.setForm_get (s : State) (x : Form) (o n : Nat) : (s.setForm x).get o n = s.get o n := rfl
@[simp] theorem State.setForm_obj (s : State) (x : Form) (o : Nat) : (s.setForm x).obj o = s.obj o := rfl
@[simp] theorem State.setForm_byte (s : State) (x : Form) (a : Nat) : (s.setForm x).byte a = s.byte a := rfl
@[simp] theorem State.setForm_queue (s : State) (x : Form) (q : Nat) : (s.setForm x).queue q = s.queue q := rfl
@[simp] theorem State.setForm_dfind (s : State) (x : Form) (q n : Nat) : (s.setForm x).dfind q n = s.dfind q n := rfl
@[simp] theorem State.setForm_rfind (s : State) (x : Form) (q n : Nat) : (s.setForm x).rfind q n = s.rfind q n := rfl
@[simp] theorem State.setForm_bport (s : State) (x : Form) (p : Nat) : (s.setForm x).bport p = s.bport p := rfl

@[simp] theorem State.setOpenedAt_openedAt (s : State) (x : Nat) : (s.setOpenedAt x).openedAt = x := rfl
@[simp] theorem State.setOpenedAt_variant (s : State) (x : Nat) : (s.setOpenedAt x).variant = s.variant := rfl
@[simp] theorem State.setOpenedAt_reads (s : State) (x : Nat) : (s.setOpenedAt x).reads = s.reads := rfl
@[simp] theorem State.setOpenedAt_holds (s : State) (x : Nat) : (s.setOpenedAt x).holds = s.holds := rfl
@[simp] theorem State.setOpenedAt_gov (s : State) (x : Nat) : (s.setOpenedAt x).gov = s.gov := rfl
@[simp] theorem State.setOpenedAt_pending (s : State) (x : Nat) : (s.setOpenedAt x).pending = s.pending := rfl
@[simp] theorem State.setOpenedAt_objs (s : State) (x : Nat) : (s.setOpenedAt x).objs = s.objs := rfl
@[simp] theorem State.setOpenedAt_digest (s : State) (x : Nat) : (s.setOpenedAt x).digest = s.digest := rfl
@[simp] theorem State.setOpenedAt_cycle (s : State) (x : Nat) : (s.setOpenedAt x).cycle = s.cycle := rfl
@[simp] theorem State.setOpenedAt_freeCtr (s : State) (x : Nat) : (s.setOpenedAt x).freeCtr = s.freeCtr := rfl
@[simp] theorem State.setOpenedAt_mem (s : State) (x : Nat) : (s.setOpenedAt x).mem = s.mem := rfl
@[simp] theorem State.setOpenedAt_reqs (s : State) (x : Nat) : (s.setOpenedAt x).reqs = s.reqs := rfl
@[simp] theorem State.setOpenedAt_queues (s : State) (x : Nat) : (s.setOpenedAt x).queues = s.queues := rfl
@[simp] theorem State.setOpenedAt_bell (s : State) (x : Nat) : (s.setOpenedAt x).bell = s.bell := rfl
@[simp] theorem State.setOpenedAt_form (s : State) (x : Nat) : (s.setOpenedAt x).form = s.form := rfl
@[simp] theorem State.setOpenedAt_hist (s : State) (x : Nat) : (s.setOpenedAt x).hist = s.hist := rfl
@[simp] theorem State.setOpenedAt_soOut (s : State) (x : Nat) : (s.setOpenedAt x).soOut = s.soOut := rfl
@[simp] theorem State.setOpenedAt_chans (s : State) (x : Nat) : (s.setOpenedAt x).chans = s.chans := rfl
@[simp] theorem State.setOpenedAt_routs (s : State) (x : Nat) : (s.setOpenedAt x).routs = s.routs := rfl
@[simp] theorem State.setOpenedAt_evbuf (s : State) (x : Nat) : (s.setOpenedAt x).evbuf = s.evbuf := rfl
@[simp] theorem State.setOpenedAt_segs (s : State) (x : Nat) : (s.setOpenedAt x).segs = s.segs := rfl
@[simp] theorem State.setOpenedAt_stage (s : State) (x : Nat) : (s.setOpenedAt x).stage = s.stage := rfl
@[simp] theorem State.setOpenedAt_moOut (s : State) (x : Nat) : (s.setOpenedAt x).moOut = s.moOut := rfl
@[simp] theorem State.setOpenedAt_nv (s : State) (x : Nat) : (s.setOpenedAt x).nv = s.nv := rfl
@[simp] theorem State.setOpenedAt_bports (s : State) (x : Nat) : (s.setOpenedAt x).bports = s.bports := rfl
@[simp] theorem State.setOpenedAt_group (s : State) (x : Nat) : (s.setOpenedAt x).group = s.group := rfl
@[simp] theorem State.setOpenedAt_reds (s : State) (x : Nat) : (s.setOpenedAt x).reds = s.reds := rfl
@[simp] theorem State.setOpenedAt_btx (s : State) (x : Nat) : (s.setOpenedAt x).btx = s.btx := rfl
@[simp] theorem State.setOpenedAt_test (s : State) (x : Nat) : (s.setOpenedAt x).test = s.test := rfl
@[simp] theorem State.setOpenedAt_check (s : State) (x : Nat) : (s.setOpenedAt x).check = s.check := rfl
@[simp] theorem State.setOpenedAt_coldHeld (s : State) (x : Nat) : (s.setOpenedAt x).coldHeld = s.coldHeld := rfl
@[simp] theorem State.setOpenedAt_warmHeld (s : State) (x : Nat) : (s.setOpenedAt x).warmHeld = s.warmHeld := rfl
@[simp] theorem State.setOpenedAt_loaded (s : State) (x : Nat) : (s.setOpenedAt x).loaded = s.loaded := rfl
@[simp] theorem State.setOpenedAt_invals (s : State) (x : Nat) : (s.setOpenedAt x).invals = s.invals := rfl
@[simp] theorem State.setOpenedAt_evSeq (s : State) (x : Nat) : (s.setOpenedAt x).evSeq = s.evSeq := rfl
@[simp] theorem State.setOpenedAt_get (s : State) (x : Nat) (o n : Nat) : (s.setOpenedAt x).get o n = s.get o n := rfl
@[simp] theorem State.setOpenedAt_obj (s : State) (x : Nat) (o : Nat) : (s.setOpenedAt x).obj o = s.obj o := rfl
@[simp] theorem State.setOpenedAt_byte (s : State) (x : Nat) (a : Nat) : (s.setOpenedAt x).byte a = s.byte a := rfl
@[simp] theorem State.setOpenedAt_queue (s : State) (x : Nat) (q : Nat) : (s.setOpenedAt x).queue q = s.queue q := rfl
@[simp] theorem State.setOpenedAt_dfind (s : State) (x : Nat) (q n : Nat) : (s.setOpenedAt x).dfind q n = s.dfind q n := rfl
@[simp] theorem State.setOpenedAt_rfind (s : State) (x : Nat) (q n : Nat) : (s.setOpenedAt x).rfind q n = s.rfind q n := rfl
@[simp] theorem State.setOpenedAt_bport (s : State) (x : Nat) (p : Nat) : (s.setOpenedAt x).bport p = s.bport p := rfl

@[simp] theorem State.setDue_due (s : State) (x : Nat) : (s.setDue x).due = x := rfl
@[simp] theorem State.setDue_variant (s : State) (x : Nat) : (s.setDue x).variant = s.variant := rfl
@[simp] theorem State.setDue_reads (s : State) (x : Nat) : (s.setDue x).reads = s.reads := rfl
@[simp] theorem State.setDue_holds (s : State) (x : Nat) : (s.setDue x).holds = s.holds := rfl
@[simp] theorem State.setDue_gov (s : State) (x : Nat) : (s.setDue x).gov = s.gov := rfl
@[simp] theorem State.setDue_pending (s : State) (x : Nat) : (s.setDue x).pending = s.pending := rfl
@[simp] theorem State.setDue_objs (s : State) (x : Nat) : (s.setDue x).objs = s.objs := rfl
@[simp] theorem State.setDue_digest (s : State) (x : Nat) : (s.setDue x).digest = s.digest := rfl
@[simp] theorem State.setDue_cycle (s : State) (x : Nat) : (s.setDue x).cycle = s.cycle := rfl
@[simp] theorem State.setDue_freeCtr (s : State) (x : Nat) : (s.setDue x).freeCtr = s.freeCtr := rfl
@[simp] theorem State.setDue_mem (s : State) (x : Nat) : (s.setDue x).mem = s.mem := rfl
@[simp] theorem State.setDue_reqs (s : State) (x : Nat) : (s.setDue x).reqs = s.reqs := rfl
@[simp] theorem State.setDue_queues (s : State) (x : Nat) : (s.setDue x).queues = s.queues := rfl
@[simp] theorem State.setDue_bell (s : State) (x : Nat) : (s.setDue x).bell = s.bell := rfl
@[simp] theorem State.setDue_form (s : State) (x : Nat) : (s.setDue x).form = s.form := rfl
@[simp] theorem State.setDue_hist (s : State) (x : Nat) : (s.setDue x).hist = s.hist := rfl
@[simp] theorem State.setDue_soOut (s : State) (x : Nat) : (s.setDue x).soOut = s.soOut := rfl
@[simp] theorem State.setDue_chans (s : State) (x : Nat) : (s.setDue x).chans = s.chans := rfl
@[simp] theorem State.setDue_routs (s : State) (x : Nat) : (s.setDue x).routs = s.routs := rfl
@[simp] theorem State.setDue_evbuf (s : State) (x : Nat) : (s.setDue x).evbuf = s.evbuf := rfl
@[simp] theorem State.setDue_segs (s : State) (x : Nat) : (s.setDue x).segs = s.segs := rfl
@[simp] theorem State.setDue_stage (s : State) (x : Nat) : (s.setDue x).stage = s.stage := rfl
@[simp] theorem State.setDue_moOut (s : State) (x : Nat) : (s.setDue x).moOut = s.moOut := rfl
@[simp] theorem State.setDue_nv (s : State) (x : Nat) : (s.setDue x).nv = s.nv := rfl
@[simp] theorem State.setDue_bports (s : State) (x : Nat) : (s.setDue x).bports = s.bports := rfl
@[simp] theorem State.setDue_group (s : State) (x : Nat) : (s.setDue x).group = s.group := rfl
@[simp] theorem State.setDue_reds (s : State) (x : Nat) : (s.setDue x).reds = s.reds := rfl
@[simp] theorem State.setDue_btx (s : State) (x : Nat) : (s.setDue x).btx = s.btx := rfl
@[simp] theorem State.setDue_test (s : State) (x : Nat) : (s.setDue x).test = s.test := rfl
@[simp] theorem State.setDue_check (s : State) (x : Nat) : (s.setDue x).check = s.check := rfl
@[simp] theorem State.setDue_coldHeld (s : State) (x : Nat) : (s.setDue x).coldHeld = s.coldHeld := rfl
@[simp] theorem State.setDue_warmHeld (s : State) (x : Nat) : (s.setDue x).warmHeld = s.warmHeld := rfl
@[simp] theorem State.setDue_loaded (s : State) (x : Nat) : (s.setDue x).loaded = s.loaded := rfl
@[simp] theorem State.setDue_invals (s : State) (x : Nat) : (s.setDue x).invals = s.invals := rfl
@[simp] theorem State.setDue_evSeq (s : State) (x : Nat) : (s.setDue x).evSeq = s.evSeq := rfl
@[simp] theorem State.setDue_get (s : State) (x : Nat) (o n : Nat) : (s.setDue x).get o n = s.get o n := rfl
@[simp] theorem State.setDue_obj (s : State) (x : Nat) (o : Nat) : (s.setDue x).obj o = s.obj o := rfl
@[simp] theorem State.setDue_byte (s : State) (x : Nat) (a : Nat) : (s.setDue x).byte a = s.byte a := rfl
@[simp] theorem State.setDue_queue (s : State) (x : Nat) (q : Nat) : (s.setDue x).queue q = s.queue q := rfl
@[simp] theorem State.setDue_dfind (s : State) (x : Nat) (q n : Nat) : (s.setDue x).dfind q n = s.dfind q n := rfl
@[simp] theorem State.setDue_rfind (s : State) (x : Nat) (q n : Nat) : (s.setDue x).rfind q n = s.rfind q n := rfl
@[simp] theorem State.setDue_bport (s : State) (x : Nat) (p : Nat) : (s.setDue x).bport p = s.bport p := rfl

@[simp] theorem State.setClosedAt_closedAt (s : State) (x : Nat) : (s.setClosedAt x).closedAt = x := rfl
@[simp] theorem State.setClosedAt_variant (s : State) (x : Nat) : (s.setClosedAt x).variant = s.variant := rfl
@[simp] theorem State.setClosedAt_reads (s : State) (x : Nat) : (s.setClosedAt x).reads = s.reads := rfl
@[simp] theorem State.setClosedAt_holds (s : State) (x : Nat) : (s.setClosedAt x).holds = s.holds := rfl
@[simp] theorem State.setClosedAt_gov (s : State) (x : Nat) : (s.setClosedAt x).gov = s.gov := rfl
@[simp] theorem State.setClosedAt_pending (s : State) (x : Nat) : (s.setClosedAt x).pending = s.pending := rfl
@[simp] theorem State.setClosedAt_objs (s : State) (x : Nat) : (s.setClosedAt x).objs = s.objs := rfl
@[simp] theorem State.setClosedAt_digest (s : State) (x : Nat) : (s.setClosedAt x).digest = s.digest := rfl
@[simp] theorem State.setClosedAt_cycle (s : State) (x : Nat) : (s.setClosedAt x).cycle = s.cycle := rfl
@[simp] theorem State.setClosedAt_freeCtr (s : State) (x : Nat) : (s.setClosedAt x).freeCtr = s.freeCtr := rfl
@[simp] theorem State.setClosedAt_mem (s : State) (x : Nat) : (s.setClosedAt x).mem = s.mem := rfl
@[simp] theorem State.setClosedAt_reqs (s : State) (x : Nat) : (s.setClosedAt x).reqs = s.reqs := rfl
@[simp] theorem State.setClosedAt_queues (s : State) (x : Nat) : (s.setClosedAt x).queues = s.queues := rfl
@[simp] theorem State.setClosedAt_bell (s : State) (x : Nat) : (s.setClosedAt x).bell = s.bell := rfl
@[simp] theorem State.setClosedAt_form (s : State) (x : Nat) : (s.setClosedAt x).form = s.form := rfl
@[simp] theorem State.setClosedAt_hist (s : State) (x : Nat) : (s.setClosedAt x).hist = s.hist := rfl
@[simp] theorem State.setClosedAt_soOut (s : State) (x : Nat) : (s.setClosedAt x).soOut = s.soOut := rfl
@[simp] theorem State.setClosedAt_chans (s : State) (x : Nat) : (s.setClosedAt x).chans = s.chans := rfl
@[simp] theorem State.setClosedAt_routs (s : State) (x : Nat) : (s.setClosedAt x).routs = s.routs := rfl
@[simp] theorem State.setClosedAt_evbuf (s : State) (x : Nat) : (s.setClosedAt x).evbuf = s.evbuf := rfl
@[simp] theorem State.setClosedAt_segs (s : State) (x : Nat) : (s.setClosedAt x).segs = s.segs := rfl
@[simp] theorem State.setClosedAt_stage (s : State) (x : Nat) : (s.setClosedAt x).stage = s.stage := rfl
@[simp] theorem State.setClosedAt_moOut (s : State) (x : Nat) : (s.setClosedAt x).moOut = s.moOut := rfl
@[simp] theorem State.setClosedAt_nv (s : State) (x : Nat) : (s.setClosedAt x).nv = s.nv := rfl
@[simp] theorem State.setClosedAt_bports (s : State) (x : Nat) : (s.setClosedAt x).bports = s.bports := rfl
@[simp] theorem State.setClosedAt_group (s : State) (x : Nat) : (s.setClosedAt x).group = s.group := rfl
@[simp] theorem State.setClosedAt_reds (s : State) (x : Nat) : (s.setClosedAt x).reds = s.reds := rfl
@[simp] theorem State.setClosedAt_btx (s : State) (x : Nat) : (s.setClosedAt x).btx = s.btx := rfl
@[simp] theorem State.setClosedAt_test (s : State) (x : Nat) : (s.setClosedAt x).test = s.test := rfl
@[simp] theorem State.setClosedAt_check (s : State) (x : Nat) : (s.setClosedAt x).check = s.check := rfl
@[simp] theorem State.setClosedAt_coldHeld (s : State) (x : Nat) : (s.setClosedAt x).coldHeld = s.coldHeld := rfl
@[simp] theorem State.setClosedAt_warmHeld (s : State) (x : Nat) : (s.setClosedAt x).warmHeld = s.warmHeld := rfl
@[simp] theorem State.setClosedAt_loaded (s : State) (x : Nat) : (s.setClosedAt x).loaded = s.loaded := rfl
@[simp] theorem State.setClosedAt_invals (s : State) (x : Nat) : (s.setClosedAt x).invals = s.invals := rfl
@[simp] theorem State.setClosedAt_evSeq (s : State) (x : Nat) : (s.setClosedAt x).evSeq = s.evSeq := rfl
@[simp] theorem State.setClosedAt_get (s : State) (x : Nat) (o n : Nat) : (s.setClosedAt x).get o n = s.get o n := rfl
@[simp] theorem State.setClosedAt_obj (s : State) (x : Nat) (o : Nat) : (s.setClosedAt x).obj o = s.obj o := rfl
@[simp] theorem State.setClosedAt_byte (s : State) (x : Nat) (a : Nat) : (s.setClosedAt x).byte a = s.byte a := rfl
@[simp] theorem State.setClosedAt_queue (s : State) (x : Nat) (q : Nat) : (s.setClosedAt x).queue q = s.queue q := rfl
@[simp] theorem State.setClosedAt_dfind (s : State) (x : Nat) (q n : Nat) : (s.setClosedAt x).dfind q n = s.dfind q n := rfl
@[simp] theorem State.setClosedAt_rfind (s : State) (x : Nat) (q n : Nat) : (s.setClosedAt x).rfind q n = s.rfind q n := rfl
@[simp] theorem State.setClosedAt_bport (s : State) (x : Nat) (p : Nat) : (s.setClosedAt x).bport p = s.bport p := rfl

@[simp] theorem State.setOverrun_overrun (s : State) (x : Bool) : (s.setOverrun x).overrun = x := rfl
@[simp] theorem State.setOverrun_variant (s : State) (x : Bool) : (s.setOverrun x).variant = s.variant := rfl
@[simp] theorem State.setOverrun_reads (s : State) (x : Bool) : (s.setOverrun x).reads = s.reads := rfl
@[simp] theorem State.setOverrun_holds (s : State) (x : Bool) : (s.setOverrun x).holds = s.holds := rfl
@[simp] theorem State.setOverrun_gov (s : State) (x : Bool) : (s.setOverrun x).gov = s.gov := rfl
@[simp] theorem State.setOverrun_pending (s : State) (x : Bool) : (s.setOverrun x).pending = s.pending := rfl
@[simp] theorem State.setOverrun_objs (s : State) (x : Bool) : (s.setOverrun x).objs = s.objs := rfl
@[simp] theorem State.setOverrun_digest (s : State) (x : Bool) : (s.setOverrun x).digest = s.digest := rfl
@[simp] theorem State.setOverrun_cycle (s : State) (x : Bool) : (s.setOverrun x).cycle = s.cycle := rfl
@[simp] theorem State.setOverrun_freeCtr (s : State) (x : Bool) : (s.setOverrun x).freeCtr = s.freeCtr := rfl
@[simp] theorem State.setOverrun_mem (s : State) (x : Bool) : (s.setOverrun x).mem = s.mem := rfl
@[simp] theorem State.setOverrun_reqs (s : State) (x : Bool) : (s.setOverrun x).reqs = s.reqs := rfl
@[simp] theorem State.setOverrun_queues (s : State) (x : Bool) : (s.setOverrun x).queues = s.queues := rfl
@[simp] theorem State.setOverrun_bell (s : State) (x : Bool) : (s.setOverrun x).bell = s.bell := rfl
@[simp] theorem State.setOverrun_form (s : State) (x : Bool) : (s.setOverrun x).form = s.form := rfl
@[simp] theorem State.setOverrun_hist (s : State) (x : Bool) : (s.setOverrun x).hist = s.hist := rfl
@[simp] theorem State.setOverrun_soOut (s : State) (x : Bool) : (s.setOverrun x).soOut = s.soOut := rfl
@[simp] theorem State.setOverrun_chans (s : State) (x : Bool) : (s.setOverrun x).chans = s.chans := rfl
@[simp] theorem State.setOverrun_routs (s : State) (x : Bool) : (s.setOverrun x).routs = s.routs := rfl
@[simp] theorem State.setOverrun_evbuf (s : State) (x : Bool) : (s.setOverrun x).evbuf = s.evbuf := rfl
@[simp] theorem State.setOverrun_segs (s : State) (x : Bool) : (s.setOverrun x).segs = s.segs := rfl
@[simp] theorem State.setOverrun_stage (s : State) (x : Bool) : (s.setOverrun x).stage = s.stage := rfl
@[simp] theorem State.setOverrun_moOut (s : State) (x : Bool) : (s.setOverrun x).moOut = s.moOut := rfl
@[simp] theorem State.setOverrun_nv (s : State) (x : Bool) : (s.setOverrun x).nv = s.nv := rfl
@[simp] theorem State.setOverrun_bports (s : State) (x : Bool) : (s.setOverrun x).bports = s.bports := rfl
@[simp] theorem State.setOverrun_group (s : State) (x : Bool) : (s.setOverrun x).group = s.group := rfl
@[simp] theorem State.setOverrun_reds (s : State) (x : Bool) : (s.setOverrun x).reds = s.reds := rfl
@[simp] theorem State.setOverrun_btx (s : State) (x : Bool) : (s.setOverrun x).btx = s.btx := rfl
@[simp] theorem State.setOverrun_test (s : State) (x : Bool) : (s.setOverrun x).test = s.test := rfl
@[simp] theorem State.setOverrun_check (s : State) (x : Bool) : (s.setOverrun x).check = s.check := rfl
@[simp] theorem State.setOverrun_coldHeld (s : State) (x : Bool) : (s.setOverrun x).coldHeld = s.coldHeld := rfl
@[simp] theorem State.setOverrun_warmHeld (s : State) (x : Bool) : (s.setOverrun x).warmHeld = s.warmHeld := rfl
@[simp] theorem State.setOverrun_loaded (s : State) (x : Bool) : (s.setOverrun x).loaded = s.loaded := rfl
@[simp] theorem State.setOverrun_invals (s : State) (x : Bool) : (s.setOverrun x).invals = s.invals := rfl
@[simp] theorem State.setOverrun_evSeq (s : State) (x : Bool) : (s.setOverrun x).evSeq = s.evSeq := rfl
@[simp] theorem State.setOverrun_get (s : State) (x : Bool) (o n : Nat) : (s.setOverrun x).get o n = s.get o n := rfl
@[simp] theorem State.setOverrun_obj (s : State) (x : Bool) (o : Nat) : (s.setOverrun x).obj o = s.obj o := rfl
@[simp] theorem State.setOverrun_byte (s : State) (x : Bool) (a : Nat) : (s.setOverrun x).byte a = s.byte a := rfl
@[simp] theorem State.setOverrun_queue (s : State) (x : Bool) (q : Nat) : (s.setOverrun x).queue q = s.queue q := rfl
@[simp] theorem State.setOverrun_dfind (s : State) (x : Bool) (q n : Nat) : (s.setOverrun x).dfind q n = s.dfind q n := rfl
@[simp] theorem State.setOverrun_rfind (s : State) (x : Bool) (q n : Nat) : (s.setOverrun x).rfind q n = s.rfind q n := rfl
@[simp] theorem State.setOverrun_bport (s : State) (x : Bool) (p : Nat) : (s.setOverrun x).bport p = s.bport p := rfl

@[simp] theorem State.setFrozen_frozen (s : State) (x : Bool) : (s.setFrozen x).frozen = x := rfl
@[simp] theorem State.setFrozen_variant (s : State) (x : Bool) : (s.setFrozen x).variant = s.variant := rfl
@[simp] theorem State.setFrozen_reads (s : State) (x : Bool) : (s.setFrozen x).reads = s.reads := rfl
@[simp] theorem State.setFrozen_holds (s : State) (x : Bool) : (s.setFrozen x).holds = s.holds := rfl
@[simp] theorem State.setFrozen_gov (s : State) (x : Bool) : (s.setFrozen x).gov = s.gov := rfl
@[simp] theorem State.setFrozen_pending (s : State) (x : Bool) : (s.setFrozen x).pending = s.pending := rfl
@[simp] theorem State.setFrozen_objs (s : State) (x : Bool) : (s.setFrozen x).objs = s.objs := rfl
@[simp] theorem State.setFrozen_digest (s : State) (x : Bool) : (s.setFrozen x).digest = s.digest := rfl
@[simp] theorem State.setFrozen_cycle (s : State) (x : Bool) : (s.setFrozen x).cycle = s.cycle := rfl
@[simp] theorem State.setFrozen_freeCtr (s : State) (x : Bool) : (s.setFrozen x).freeCtr = s.freeCtr := rfl
@[simp] theorem State.setFrozen_mem (s : State) (x : Bool) : (s.setFrozen x).mem = s.mem := rfl
@[simp] theorem State.setFrozen_reqs (s : State) (x : Bool) : (s.setFrozen x).reqs = s.reqs := rfl
@[simp] theorem State.setFrozen_queues (s : State) (x : Bool) : (s.setFrozen x).queues = s.queues := rfl
@[simp] theorem State.setFrozen_bell (s : State) (x : Bool) : (s.setFrozen x).bell = s.bell := rfl
@[simp] theorem State.setFrozen_form (s : State) (x : Bool) : (s.setFrozen x).form = s.form := rfl
@[simp] theorem State.setFrozen_hist (s : State) (x : Bool) : (s.setFrozen x).hist = s.hist := rfl
@[simp] theorem State.setFrozen_soOut (s : State) (x : Bool) : (s.setFrozen x).soOut = s.soOut := rfl
@[simp] theorem State.setFrozen_chans (s : State) (x : Bool) : (s.setFrozen x).chans = s.chans := rfl
@[simp] theorem State.setFrozen_routs (s : State) (x : Bool) : (s.setFrozen x).routs = s.routs := rfl
@[simp] theorem State.setFrozen_evbuf (s : State) (x : Bool) : (s.setFrozen x).evbuf = s.evbuf := rfl
@[simp] theorem State.setFrozen_segs (s : State) (x : Bool) : (s.setFrozen x).segs = s.segs := rfl
@[simp] theorem State.setFrozen_stage (s : State) (x : Bool) : (s.setFrozen x).stage = s.stage := rfl
@[simp] theorem State.setFrozen_moOut (s : State) (x : Bool) : (s.setFrozen x).moOut = s.moOut := rfl
@[simp] theorem State.setFrozen_nv (s : State) (x : Bool) : (s.setFrozen x).nv = s.nv := rfl
@[simp] theorem State.setFrozen_bports (s : State) (x : Bool) : (s.setFrozen x).bports = s.bports := rfl
@[simp] theorem State.setFrozen_group (s : State) (x : Bool) : (s.setFrozen x).group = s.group := rfl
@[simp] theorem State.setFrozen_reds (s : State) (x : Bool) : (s.setFrozen x).reds = s.reds := rfl
@[simp] theorem State.setFrozen_btx (s : State) (x : Bool) : (s.setFrozen x).btx = s.btx := rfl
@[simp] theorem State.setFrozen_test (s : State) (x : Bool) : (s.setFrozen x).test = s.test := rfl
@[simp] theorem State.setFrozen_check (s : State) (x : Bool) : (s.setFrozen x).check = s.check := rfl
@[simp] theorem State.setFrozen_coldHeld (s : State) (x : Bool) : (s.setFrozen x).coldHeld = s.coldHeld := rfl
@[simp] theorem State.setFrozen_warmHeld (s : State) (x : Bool) : (s.setFrozen x).warmHeld = s.warmHeld := rfl
@[simp] theorem State.setFrozen_loaded (s : State) (x : Bool) : (s.setFrozen x).loaded = s.loaded := rfl
@[simp] theorem State.setFrozen_invals (s : State) (x : Bool) : (s.setFrozen x).invals = s.invals := rfl
@[simp] theorem State.setFrozen_evSeq (s : State) (x : Bool) : (s.setFrozen x).evSeq = s.evSeq := rfl
@[simp] theorem State.setFrozen_get (s : State) (x : Bool) (o n : Nat) : (s.setFrozen x).get o n = s.get o n := rfl
@[simp] theorem State.setFrozen_obj (s : State) (x : Bool) (o : Nat) : (s.setFrozen x).obj o = s.obj o := rfl
@[simp] theorem State.setFrozen_byte (s : State) (x : Bool) (a : Nat) : (s.setFrozen x).byte a = s.byte a := rfl
@[simp] theorem State.setFrozen_queue (s : State) (x : Bool) (q : Nat) : (s.setFrozen x).queue q = s.queue q := rfl
@[simp] theorem State.setFrozen_dfind (s : State) (x : Bool) (q n : Nat) : (s.setFrozen x).dfind q n = s.dfind q n := rfl
@[simp] theorem State.setFrozen_rfind (s : State) (x : Bool) (q n : Nat) : (s.setFrozen x).rfind q n = s.rfind q n := rfl
@[simp] theorem State.setFrozen_bport (s : State) (x : Bool) (p : Nat) : (s.setFrozen x).bport p = s.bport p := rfl

@[simp] theorem State.setHist_hist (s : State) (x : SMap HistRt) : (s.setHist x).hist = x := rfl
@[simp] theorem State.setHist_variant (s : State) (x : SMap HistRt) : (s.setHist x).variant = s.variant := rfl
@[simp] theorem State.setHist_reads (s : State) (x : SMap HistRt) : (s.setHist x).reads = s.reads := rfl
@[simp] theorem State.setHist_holds (s : State) (x : SMap HistRt) : (s.setHist x).holds = s.holds := rfl
@[simp] theorem State.setHist_gov (s : State) (x : SMap HistRt) : (s.setHist x).gov = s.gov := rfl
@[simp] theorem State.setHist_pending (s : State) (x : SMap HistRt) : (s.setHist x).pending = s.pending := rfl
@[simp] theorem State.setHist_objs (s : State) (x : SMap HistRt) : (s.setHist x).objs = s.objs := rfl
@[simp] theorem State.setHist_digest (s : State) (x : SMap HistRt) : (s.setHist x).digest = s.digest := rfl
@[simp] theorem State.setHist_cycle (s : State) (x : SMap HistRt) : (s.setHist x).cycle = s.cycle := rfl
@[simp] theorem State.setHist_freeCtr (s : State) (x : SMap HistRt) : (s.setHist x).freeCtr = s.freeCtr := rfl
@[simp] theorem State.setHist_mem (s : State) (x : SMap HistRt) : (s.setHist x).mem = s.mem := rfl
@[simp] theorem State.setHist_reqs (s : State) (x : SMap HistRt) : (s.setHist x).reqs = s.reqs := rfl
@[simp] theorem State.setHist_queues (s : State) (x : SMap HistRt) : (s.setHist x).queues = s.queues := rfl
@[simp] theorem State.setHist_bell (s : State) (x : SMap HistRt) : (s.setHist x).bell = s.bell := rfl
@[simp] theorem State.setHist_form (s : State) (x : SMap HistRt) : (s.setHist x).form = s.form := rfl
@[simp] theorem State.setHist_soOut (s : State) (x : SMap HistRt) : (s.setHist x).soOut = s.soOut := rfl
@[simp] theorem State.setHist_chans (s : State) (x : SMap HistRt) : (s.setHist x).chans = s.chans := rfl
@[simp] theorem State.setHist_routs (s : State) (x : SMap HistRt) : (s.setHist x).routs = s.routs := rfl
@[simp] theorem State.setHist_evbuf (s : State) (x : SMap HistRt) : (s.setHist x).evbuf = s.evbuf := rfl
@[simp] theorem State.setHist_segs (s : State) (x : SMap HistRt) : (s.setHist x).segs = s.segs := rfl
@[simp] theorem State.setHist_stage (s : State) (x : SMap HistRt) : (s.setHist x).stage = s.stage := rfl
@[simp] theorem State.setHist_moOut (s : State) (x : SMap HistRt) : (s.setHist x).moOut = s.moOut := rfl
@[simp] theorem State.setHist_nv (s : State) (x : SMap HistRt) : (s.setHist x).nv = s.nv := rfl
@[simp] theorem State.setHist_bports (s : State) (x : SMap HistRt) : (s.setHist x).bports = s.bports := rfl
@[simp] theorem State.setHist_group (s : State) (x : SMap HistRt) : (s.setHist x).group = s.group := rfl
@[simp] theorem State.setHist_reds (s : State) (x : SMap HistRt) : (s.setHist x).reds = s.reds := rfl
@[simp] theorem State.setHist_btx (s : State) (x : SMap HistRt) : (s.setHist x).btx = s.btx := rfl
@[simp] theorem State.setHist_test (s : State) (x : SMap HistRt) : (s.setHist x).test = s.test := rfl
@[simp] theorem State.setHist_check (s : State) (x : SMap HistRt) : (s.setHist x).check = s.check := rfl
@[simp] theorem State.setHist_coldHeld (s : State) (x : SMap HistRt) : (s.setHist x).coldHeld = s.coldHeld := rfl
@[simp] theorem State.setHist_warmHeld (s : State) (x : SMap HistRt) : (s.setHist x).warmHeld = s.warmHeld := rfl
@[simp] theorem State.setHist_loaded (s : State) (x : SMap HistRt) : (s.setHist x).loaded = s.loaded := rfl
@[simp] theorem State.setHist_invals (s : State) (x : SMap HistRt) : (s.setHist x).invals = s.invals := rfl
@[simp] theorem State.setHist_evSeq (s : State) (x : SMap HistRt) : (s.setHist x).evSeq = s.evSeq := rfl
@[simp] theorem State.setHist_get (s : State) (x : SMap HistRt) (o n : Nat) : (s.setHist x).get o n = s.get o n := rfl
@[simp] theorem State.setHist_obj (s : State) (x : SMap HistRt) (o : Nat) : (s.setHist x).obj o = s.obj o := rfl
@[simp] theorem State.setHist_byte (s : State) (x : SMap HistRt) (a : Nat) : (s.setHist x).byte a = s.byte a := rfl
@[simp] theorem State.setHist_queue (s : State) (x : SMap HistRt) (q : Nat) : (s.setHist x).queue q = s.queue q := rfl
@[simp] theorem State.setHist_dfind (s : State) (x : SMap HistRt) (q n : Nat) : (s.setHist x).dfind q n = s.dfind q n := rfl
@[simp] theorem State.setHist_rfind (s : State) (x : SMap HistRt) (q n : Nat) : (s.setHist x).rfind q n = s.rfind q n := rfl
@[simp] theorem State.setHist_bport (s : State) (x : SMap HistRt) (p : Nat) : (s.setHist x).bport p = s.bport p := rfl

@[simp] theorem State.setWaitTiles_waitTiles (s : State) (x : SMap (Option (Tile × Chk))) : (s.setWaitTiles x).waitTiles = x := rfl
@[simp] theorem State.setWaitTiles_variant (s : State) (x : SMap (Option (Tile × Chk))) : (s.setWaitTiles x).variant = s.variant := rfl
@[simp] theorem State.setWaitTiles_reads (s : State) (x : SMap (Option (Tile × Chk))) : (s.setWaitTiles x).reads = s.reads := rfl
@[simp] theorem State.setWaitTiles_holds (s : State) (x : SMap (Option (Tile × Chk))) : (s.setWaitTiles x).holds = s.holds := rfl
@[simp] theorem State.setWaitTiles_gov (s : State) (x : SMap (Option (Tile × Chk))) : (s.setWaitTiles x).gov = s.gov := rfl
@[simp] theorem State.setWaitTiles_pending (s : State) (x : SMap (Option (Tile × Chk))) : (s.setWaitTiles x).pending = s.pending := rfl
@[simp] theorem State.setWaitTiles_objs (s : State) (x : SMap (Option (Tile × Chk))) : (s.setWaitTiles x).objs = s.objs := rfl
@[simp] theorem State.setWaitTiles_digest (s : State) (x : SMap (Option (Tile × Chk))) : (s.setWaitTiles x).digest = s.digest := rfl
@[simp] theorem State.setWaitTiles_cycle (s : State) (x : SMap (Option (Tile × Chk))) : (s.setWaitTiles x).cycle = s.cycle := rfl
@[simp] theorem State.setWaitTiles_freeCtr (s : State) (x : SMap (Option (Tile × Chk))) : (s.setWaitTiles x).freeCtr = s.freeCtr := rfl
@[simp] theorem State.setWaitTiles_mem (s : State) (x : SMap (Option (Tile × Chk))) : (s.setWaitTiles x).mem = s.mem := rfl
@[simp] theorem State.setWaitTiles_reqs (s : State) (x : SMap (Option (Tile × Chk))) : (s.setWaitTiles x).reqs = s.reqs := rfl
@[simp] theorem State.setWaitTiles_queues (s : State) (x : SMap (Option (Tile × Chk))) : (s.setWaitTiles x).queues = s.queues := rfl
@[simp] theorem State.setWaitTiles_bell (s : State) (x : SMap (Option (Tile × Chk))) : (s.setWaitTiles x).bell = s.bell := rfl
@[simp] theorem State.setWaitTiles_form (s : State) (x : SMap (Option (Tile × Chk))) : (s.setWaitTiles x).form = s.form := rfl
@[simp] theorem State.setWaitTiles_hist (s : State) (x : SMap (Option (Tile × Chk))) : (s.setWaitTiles x).hist = s.hist := rfl
@[simp] theorem State.setWaitTiles_soOut (s : State) (x : SMap (Option (Tile × Chk))) : (s.setWaitTiles x).soOut = s.soOut := rfl
@[simp] theorem State.setWaitTiles_chans (s : State) (x : SMap (Option (Tile × Chk))) : (s.setWaitTiles x).chans = s.chans := rfl
@[simp] theorem State.setWaitTiles_routs (s : State) (x : SMap (Option (Tile × Chk))) : (s.setWaitTiles x).routs = s.routs := rfl
@[simp] theorem State.setWaitTiles_evbuf (s : State) (x : SMap (Option (Tile × Chk))) : (s.setWaitTiles x).evbuf = s.evbuf := rfl
@[simp] theorem State.setWaitTiles_segs (s : State) (x : SMap (Option (Tile × Chk))) : (s.setWaitTiles x).segs = s.segs := rfl
@[simp] theorem State.setWaitTiles_stage (s : State) (x : SMap (Option (Tile × Chk))) : (s.setWaitTiles x).stage = s.stage := rfl
@[simp] theorem State.setWaitTiles_moOut (s : State) (x : SMap (Option (Tile × Chk))) : (s.setWaitTiles x).moOut = s.moOut := rfl
@[simp] theorem State.setWaitTiles_nv (s : State) (x : SMap (Option (Tile × Chk))) : (s.setWaitTiles x).nv = s.nv := rfl
@[simp] theorem State.setWaitTiles_bports (s : State) (x : SMap (Option (Tile × Chk))) : (s.setWaitTiles x).bports = s.bports := rfl
@[simp] theorem State.setWaitTiles_group (s : State) (x : SMap (Option (Tile × Chk))) : (s.setWaitTiles x).group = s.group := rfl
@[simp] theorem State.setWaitTiles_reds (s : State) (x : SMap (Option (Tile × Chk))) : (s.setWaitTiles x).reds = s.reds := rfl
@[simp] theorem State.setWaitTiles_btx (s : State) (x : SMap (Option (Tile × Chk))) : (s.setWaitTiles x).btx = s.btx := rfl
@[simp] theorem State.setWaitTiles_test (s : State) (x : SMap (Option (Tile × Chk))) : (s.setWaitTiles x).test = s.test := rfl
@[simp] theorem State.setWaitTiles_check (s : State) (x : SMap (Option (Tile × Chk))) : (s.setWaitTiles x).check = s.check := rfl
@[simp] theorem State.setWaitTiles_coldHeld (s : State) (x : SMap (Option (Tile × Chk))) : (s.setWaitTiles x).coldHeld = s.coldHeld := rfl
@[simp] theorem State.setWaitTiles_warmHeld (s : State) (x : SMap (Option (Tile × Chk))) : (s.setWaitTiles x).warmHeld = s.warmHeld := rfl
@[simp] theorem State.setWaitTiles_loaded (s : State) (x : SMap (Option (Tile × Chk))) : (s.setWaitTiles x).loaded = s.loaded := rfl
@[simp] theorem State.setWaitTiles_invals (s : State) (x : SMap (Option (Tile × Chk))) : (s.setWaitTiles x).invals = s.invals := rfl
@[simp] theorem State.setWaitTiles_evSeq (s : State) (x : SMap (Option (Tile × Chk))) : (s.setWaitTiles x).evSeq = s.evSeq := rfl
@[simp] theorem State.setWaitTiles_get (s : State) (x : SMap (Option (Tile × Chk))) (o n : Nat) : (s.setWaitTiles x).get o n = s.get o n := rfl
@[simp] theorem State.setWaitTiles_obj (s : State) (x : SMap (Option (Tile × Chk))) (o : Nat) : (s.setWaitTiles x).obj o = s.obj o := rfl
@[simp] theorem State.setWaitTiles_byte (s : State) (x : SMap (Option (Tile × Chk))) (a : Nat) : (s.setWaitTiles x).byte a = s.byte a := rfl
@[simp] theorem State.setWaitTiles_queue (s : State) (x : SMap (Option (Tile × Chk))) (q : Nat) : (s.setWaitTiles x).queue q = s.queue q := rfl
@[simp] theorem State.setWaitTiles_dfind (s : State) (x : SMap (Option (Tile × Chk))) (q n : Nat) : (s.setWaitTiles x).dfind q n = s.dfind q n := rfl
@[simp] theorem State.setWaitTiles_rfind (s : State) (x : SMap (Option (Tile × Chk))) (q n : Nat) : (s.setWaitTiles x).rfind q n = s.rfind q n := rfl
@[simp] theorem State.setWaitTiles_bport (s : State) (x : SMap (Option (Tile × Chk))) (p : Nat) : (s.setWaitTiles x).bport p = s.bport p := rfl

@[simp] theorem State.setSoOut_soOut (s : State) (x : List OutTile) : (s.setSoOut x).soOut = x := rfl
@[simp] theorem State.setSoOut_variant (s : State) (x : List OutTile) : (s.setSoOut x).variant = s.variant := rfl
@[simp] theorem State.setSoOut_reads (s : State) (x : List OutTile) : (s.setSoOut x).reads = s.reads := rfl
@[simp] theorem State.setSoOut_holds (s : State) (x : List OutTile) : (s.setSoOut x).holds = s.holds := rfl
@[simp] theorem State.setSoOut_gov (s : State) (x : List OutTile) : (s.setSoOut x).gov = s.gov := rfl
@[simp] theorem State.setSoOut_pending (s : State) (x : List OutTile) : (s.setSoOut x).pending = s.pending := rfl
@[simp] theorem State.setSoOut_objs (s : State) (x : List OutTile) : (s.setSoOut x).objs = s.objs := rfl
@[simp] theorem State.setSoOut_digest (s : State) (x : List OutTile) : (s.setSoOut x).digest = s.digest := rfl
@[simp] theorem State.setSoOut_cycle (s : State) (x : List OutTile) : (s.setSoOut x).cycle = s.cycle := rfl
@[simp] theorem State.setSoOut_freeCtr (s : State) (x : List OutTile) : (s.setSoOut x).freeCtr = s.freeCtr := rfl
@[simp] theorem State.setSoOut_mem (s : State) (x : List OutTile) : (s.setSoOut x).mem = s.mem := rfl
@[simp] theorem State.setSoOut_reqs (s : State) (x : List OutTile) : (s.setSoOut x).reqs = s.reqs := rfl
@[simp] theorem State.setSoOut_queues (s : State) (x : List OutTile) : (s.setSoOut x).queues = s.queues := rfl
@[simp] theorem State.setSoOut_bell (s : State) (x : List OutTile) : (s.setSoOut x).bell = s.bell := rfl
@[simp] theorem State.setSoOut_form (s : State) (x : List OutTile) : (s.setSoOut x).form = s.form := rfl
@[simp] theorem State.setSoOut_hist (s : State) (x : List OutTile) : (s.setSoOut x).hist = s.hist := rfl
@[simp] theorem State.setSoOut_chans (s : State) (x : List OutTile) : (s.setSoOut x).chans = s.chans := rfl
@[simp] theorem State.setSoOut_routs (s : State) (x : List OutTile) : (s.setSoOut x).routs = s.routs := rfl
@[simp] theorem State.setSoOut_evbuf (s : State) (x : List OutTile) : (s.setSoOut x).evbuf = s.evbuf := rfl
@[simp] theorem State.setSoOut_segs (s : State) (x : List OutTile) : (s.setSoOut x).segs = s.segs := rfl
@[simp] theorem State.setSoOut_stage (s : State) (x : List OutTile) : (s.setSoOut x).stage = s.stage := rfl
@[simp] theorem State.setSoOut_moOut (s : State) (x : List OutTile) : (s.setSoOut x).moOut = s.moOut := rfl
@[simp] theorem State.setSoOut_nv (s : State) (x : List OutTile) : (s.setSoOut x).nv = s.nv := rfl
@[simp] theorem State.setSoOut_bports (s : State) (x : List OutTile) : (s.setSoOut x).bports = s.bports := rfl
@[simp] theorem State.setSoOut_group (s : State) (x : List OutTile) : (s.setSoOut x).group = s.group := rfl
@[simp] theorem State.setSoOut_reds (s : State) (x : List OutTile) : (s.setSoOut x).reds = s.reds := rfl
@[simp] theorem State.setSoOut_btx (s : State) (x : List OutTile) : (s.setSoOut x).btx = s.btx := rfl
@[simp] theorem State.setSoOut_test (s : State) (x : List OutTile) : (s.setSoOut x).test = s.test := rfl
@[simp] theorem State.setSoOut_check (s : State) (x : List OutTile) : (s.setSoOut x).check = s.check := rfl
@[simp] theorem State.setSoOut_coldHeld (s : State) (x : List OutTile) : (s.setSoOut x).coldHeld = s.coldHeld := rfl
@[simp] theorem State.setSoOut_warmHeld (s : State) (x : List OutTile) : (s.setSoOut x).warmHeld = s.warmHeld := rfl
@[simp] theorem State.setSoOut_loaded (s : State) (x : List OutTile) : (s.setSoOut x).loaded = s.loaded := rfl
@[simp] theorem State.setSoOut_invals (s : State) (x : List OutTile) : (s.setSoOut x).invals = s.invals := rfl
@[simp] theorem State.setSoOut_evSeq (s : State) (x : List OutTile) : (s.setSoOut x).evSeq = s.evSeq := rfl
@[simp] theorem State.setSoOut_get (s : State) (x : List OutTile) (o n : Nat) : (s.setSoOut x).get o n = s.get o n := rfl
@[simp] theorem State.setSoOut_obj (s : State) (x : List OutTile) (o : Nat) : (s.setSoOut x).obj o = s.obj o := rfl
@[simp] theorem State.setSoOut_byte (s : State) (x : List OutTile) (a : Nat) : (s.setSoOut x).byte a = s.byte a := rfl
@[simp] theorem State.setSoOut_queue (s : State) (x : List OutTile) (q : Nat) : (s.setSoOut x).queue q = s.queue q := rfl
@[simp] theorem State.setSoOut_dfind (s : State) (x : List OutTile) (q n : Nat) : (s.setSoOut x).dfind q n = s.dfind q n := rfl
@[simp] theorem State.setSoOut_rfind (s : State) (x : List OutTile) (q n : Nat) : (s.setSoOut x).rfind q n = s.rfind q n := rfl
@[simp] theorem State.setSoOut_bport (s : State) (x : List OutTile) (p : Nat) : (s.setSoOut x).bport p = s.bport p := rfl

@[simp] theorem State.setRing_ring (s : State) (x : List Captured) : (s.setRing x).ring = x := rfl
@[simp] theorem State.setRing_variant (s : State) (x : List Captured) : (s.setRing x).variant = s.variant := rfl
@[simp] theorem State.setRing_reads (s : State) (x : List Captured) : (s.setRing x).reads = s.reads := rfl
@[simp] theorem State.setRing_holds (s : State) (x : List Captured) : (s.setRing x).holds = s.holds := rfl
@[simp] theorem State.setRing_gov (s : State) (x : List Captured) : (s.setRing x).gov = s.gov := rfl
@[simp] theorem State.setRing_pending (s : State) (x : List Captured) : (s.setRing x).pending = s.pending := rfl
@[simp] theorem State.setRing_objs (s : State) (x : List Captured) : (s.setRing x).objs = s.objs := rfl
@[simp] theorem State.setRing_digest (s : State) (x : List Captured) : (s.setRing x).digest = s.digest := rfl
@[simp] theorem State.setRing_cycle (s : State) (x : List Captured) : (s.setRing x).cycle = s.cycle := rfl
@[simp] theorem State.setRing_freeCtr (s : State) (x : List Captured) : (s.setRing x).freeCtr = s.freeCtr := rfl
@[simp] theorem State.setRing_mem (s : State) (x : List Captured) : (s.setRing x).mem = s.mem := rfl
@[simp] theorem State.setRing_reqs (s : State) (x : List Captured) : (s.setRing x).reqs = s.reqs := rfl
@[simp] theorem State.setRing_queues (s : State) (x : List Captured) : (s.setRing x).queues = s.queues := rfl
@[simp] theorem State.setRing_bell (s : State) (x : List Captured) : (s.setRing x).bell = s.bell := rfl
@[simp] theorem State.setRing_form (s : State) (x : List Captured) : (s.setRing x).form = s.form := rfl
@[simp] theorem State.setRing_hist (s : State) (x : List Captured) : (s.setRing x).hist = s.hist := rfl
@[simp] theorem State.setRing_soOut (s : State) (x : List Captured) : (s.setRing x).soOut = s.soOut := rfl
@[simp] theorem State.setRing_chans (s : State) (x : List Captured) : (s.setRing x).chans = s.chans := rfl
@[simp] theorem State.setRing_routs (s : State) (x : List Captured) : (s.setRing x).routs = s.routs := rfl
@[simp] theorem State.setRing_evbuf (s : State) (x : List Captured) : (s.setRing x).evbuf = s.evbuf := rfl
@[simp] theorem State.setRing_segs (s : State) (x : List Captured) : (s.setRing x).segs = s.segs := rfl
@[simp] theorem State.setRing_stage (s : State) (x : List Captured) : (s.setRing x).stage = s.stage := rfl
@[simp] theorem State.setRing_moOut (s : State) (x : List Captured) : (s.setRing x).moOut = s.moOut := rfl
@[simp] theorem State.setRing_nv (s : State) (x : List Captured) : (s.setRing x).nv = s.nv := rfl
@[simp] theorem State.setRing_bports (s : State) (x : List Captured) : (s.setRing x).bports = s.bports := rfl
@[simp] theorem State.setRing_group (s : State) (x : List Captured) : (s.setRing x).group = s.group := rfl
@[simp] theorem State.setRing_reds (s : State) (x : List Captured) : (s.setRing x).reds = s.reds := rfl
@[simp] theorem State.setRing_btx (s : State) (x : List Captured) : (s.setRing x).btx = s.btx := rfl
@[simp] theorem State.setRing_test (s : State) (x : List Captured) : (s.setRing x).test = s.test := rfl
@[simp] theorem State.setRing_check (s : State) (x : List Captured) : (s.setRing x).check = s.check := rfl
@[simp] theorem State.setRing_coldHeld (s : State) (x : List Captured) : (s.setRing x).coldHeld = s.coldHeld := rfl
@[simp] theorem State.setRing_warmHeld (s : State) (x : List Captured) : (s.setRing x).warmHeld = s.warmHeld := rfl
@[simp] theorem State.setRing_loaded (s : State) (x : List Captured) : (s.setRing x).loaded = s.loaded := rfl
@[simp] theorem State.setRing_invals (s : State) (x : List Captured) : (s.setRing x).invals = s.invals := rfl
@[simp] theorem State.setRing_evSeq (s : State) (x : List Captured) : (s.setRing x).evSeq = s.evSeq := rfl
@[simp] theorem State.setRing_get (s : State) (x : List Captured) (o n : Nat) : (s.setRing x).get o n = s.get o n := rfl
@[simp] theorem State.setRing_obj (s : State) (x : List Captured) (o : Nat) : (s.setRing x).obj o = s.obj o := rfl
@[simp] theorem State.setRing_byte (s : State) (x : List Captured) (a : Nat) : (s.setRing x).byte a = s.byte a := rfl
@[simp] theorem State.setRing_queue (s : State) (x : List Captured) (q : Nat) : (s.setRing x).queue q = s.queue q := rfl
@[simp] theorem State.setRing_dfind (s : State) (x : List Captured) (q n : Nat) : (s.setRing x).dfind q n = s.dfind q n := rfl
@[simp] theorem State.setRing_rfind (s : State) (x : List Captured) (q n : Nat) : (s.setRing x).rfind q n = s.rfind q n := rfl
@[simp] theorem State.setRing_bport (s : State) (x : List Captured) (p : Nat) : (s.setRing x).bport p = s.bport p := rfl

@[simp] theorem State.setChans_chans (s : State) (x : SMap Chan) : (s.setChans x).chans = x := rfl
@[simp] theorem State.setChans_variant (s : State) (x : SMap Chan) : (s.setChans x).variant = s.variant := rfl
@[simp] theorem State.setChans_reads (s : State) (x : SMap Chan) : (s.setChans x).reads = s.reads := rfl
@[simp] theorem State.setChans_holds (s : State) (x : SMap Chan) : (s.setChans x).holds = s.holds := rfl
@[simp] theorem State.setChans_gov (s : State) (x : SMap Chan) : (s.setChans x).gov = s.gov := rfl
@[simp] theorem State.setChans_pending (s : State) (x : SMap Chan) : (s.setChans x).pending = s.pending := rfl
@[simp] theorem State.setChans_objs (s : State) (x : SMap Chan) : (s.setChans x).objs = s.objs := rfl
@[simp] theorem State.setChans_digest (s : State) (x : SMap Chan) : (s.setChans x).digest = s.digest := rfl
@[simp] theorem State.setChans_cycle (s : State) (x : SMap Chan) : (s.setChans x).cycle = s.cycle := rfl
@[simp] theorem State.setChans_freeCtr (s : State) (x : SMap Chan) : (s.setChans x).freeCtr = s.freeCtr := rfl
@[simp] theorem State.setChans_mem (s : State) (x : SMap Chan) : (s.setChans x).mem = s.mem := rfl
@[simp] theorem State.setChans_reqs (s : State) (x : SMap Chan) : (s.setChans x).reqs = s.reqs := rfl
@[simp] theorem State.setChans_queues (s : State) (x : SMap Chan) : (s.setChans x).queues = s.queues := rfl
@[simp] theorem State.setChans_bell (s : State) (x : SMap Chan) : (s.setChans x).bell = s.bell := rfl
@[simp] theorem State.setChans_form (s : State) (x : SMap Chan) : (s.setChans x).form = s.form := rfl
@[simp] theorem State.setChans_hist (s : State) (x : SMap Chan) : (s.setChans x).hist = s.hist := rfl
@[simp] theorem State.setChans_soOut (s : State) (x : SMap Chan) : (s.setChans x).soOut = s.soOut := rfl
@[simp] theorem State.setChans_routs (s : State) (x : SMap Chan) : (s.setChans x).routs = s.routs := rfl
@[simp] theorem State.setChans_evbuf (s : State) (x : SMap Chan) : (s.setChans x).evbuf = s.evbuf := rfl
@[simp] theorem State.setChans_segs (s : State) (x : SMap Chan) : (s.setChans x).segs = s.segs := rfl
@[simp] theorem State.setChans_stage (s : State) (x : SMap Chan) : (s.setChans x).stage = s.stage := rfl
@[simp] theorem State.setChans_moOut (s : State) (x : SMap Chan) : (s.setChans x).moOut = s.moOut := rfl
@[simp] theorem State.setChans_nv (s : State) (x : SMap Chan) : (s.setChans x).nv = s.nv := rfl
@[simp] theorem State.setChans_bports (s : State) (x : SMap Chan) : (s.setChans x).bports = s.bports := rfl
@[simp] theorem State.setChans_group (s : State) (x : SMap Chan) : (s.setChans x).group = s.group := rfl
@[simp] theorem State.setChans_reds (s : State) (x : SMap Chan) : (s.setChans x).reds = s.reds := rfl
@[simp] theorem State.setChans_btx (s : State) (x : SMap Chan) : (s.setChans x).btx = s.btx := rfl
@[simp] theorem State.setChans_test (s : State) (x : SMap Chan) : (s.setChans x).test = s.test := rfl
@[simp] theorem State.setChans_check (s : State) (x : SMap Chan) : (s.setChans x).check = s.check := rfl
@[simp] theorem State.setChans_coldHeld (s : State) (x : SMap Chan) : (s.setChans x).coldHeld = s.coldHeld := rfl
@[simp] theorem State.setChans_warmHeld (s : State) (x : SMap Chan) : (s.setChans x).warmHeld = s.warmHeld := rfl
@[simp] theorem State.setChans_loaded (s : State) (x : SMap Chan) : (s.setChans x).loaded = s.loaded := rfl
@[simp] theorem State.setChans_invals (s : State) (x : SMap Chan) : (s.setChans x).invals = s.invals := rfl
@[simp] theorem State.setChans_evSeq (s : State) (x : SMap Chan) : (s.setChans x).evSeq = s.evSeq := rfl
@[simp] theorem State.setChans_get (s : State) (x : SMap Chan) (o n : Nat) : (s.setChans x).get o n = s.get o n := rfl
@[simp] theorem State.setChans_obj (s : State) (x : SMap Chan) (o : Nat) : (s.setChans x).obj o = s.obj o := rfl
@[simp] theorem State.setChans_byte (s : State) (x : SMap Chan) (a : Nat) : (s.setChans x).byte a = s.byte a := rfl
@[simp] theorem State.setChans_queue (s : State) (x : SMap Chan) (q : Nat) : (s.setChans x).queue q = s.queue q := rfl
@[simp] theorem State.setChans_dfind (s : State) (x : SMap Chan) (q n : Nat) : (s.setChans x).dfind q n = s.dfind q n := rfl
@[simp] theorem State.setChans_rfind (s : State) (x : SMap Chan) (q n : Nat) : (s.setChans x).rfind q n = s.rfind q n := rfl
@[simp] theorem State.setChans_bport (s : State) (x : SMap Chan) (p : Nat) : (s.setChans x).bport p = s.bport p := rfl

@[simp] theorem State.setLinks_links (s : State) (x : List Nat) : (s.setLinks x).links = x := rfl
@[simp] theorem State.setLinks_variant (s : State) (x : List Nat) : (s.setLinks x).variant = s.variant := rfl
@[simp] theorem State.setLinks_reads (s : State) (x : List Nat) : (s.setLinks x).reads = s.reads := rfl
@[simp] theorem State.setLinks_holds (s : State) (x : List Nat) : (s.setLinks x).holds = s.holds := rfl
@[simp] theorem State.setLinks_gov (s : State) (x : List Nat) : (s.setLinks x).gov = s.gov := rfl
@[simp] theorem State.setLinks_pending (s : State) (x : List Nat) : (s.setLinks x).pending = s.pending := rfl
@[simp] theorem State.setLinks_objs (s : State) (x : List Nat) : (s.setLinks x).objs = s.objs := rfl
@[simp] theorem State.setLinks_digest (s : State) (x : List Nat) : (s.setLinks x).digest = s.digest := rfl
@[simp] theorem State.setLinks_cycle (s : State) (x : List Nat) : (s.setLinks x).cycle = s.cycle := rfl
@[simp] theorem State.setLinks_freeCtr (s : State) (x : List Nat) : (s.setLinks x).freeCtr = s.freeCtr := rfl
@[simp] theorem State.setLinks_mem (s : State) (x : List Nat) : (s.setLinks x).mem = s.mem := rfl
@[simp] theorem State.setLinks_reqs (s : State) (x : List Nat) : (s.setLinks x).reqs = s.reqs := rfl
@[simp] theorem State.setLinks_queues (s : State) (x : List Nat) : (s.setLinks x).queues = s.queues := rfl
@[simp] theorem State.setLinks_bell (s : State) (x : List Nat) : (s.setLinks x).bell = s.bell := rfl
@[simp] theorem State.setLinks_form (s : State) (x : List Nat) : (s.setLinks x).form = s.form := rfl
@[simp] theorem State.setLinks_hist (s : State) (x : List Nat) : (s.setLinks x).hist = s.hist := rfl
@[simp] theorem State.setLinks_soOut (s : State) (x : List Nat) : (s.setLinks x).soOut = s.soOut := rfl
@[simp] theorem State.setLinks_chans (s : State) (x : List Nat) : (s.setLinks x).chans = s.chans := rfl
@[simp] theorem State.setLinks_routs (s : State) (x : List Nat) : (s.setLinks x).routs = s.routs := rfl
@[simp] theorem State.setLinks_evbuf (s : State) (x : List Nat) : (s.setLinks x).evbuf = s.evbuf := rfl
@[simp] theorem State.setLinks_segs (s : State) (x : List Nat) : (s.setLinks x).segs = s.segs := rfl
@[simp] theorem State.setLinks_stage (s : State) (x : List Nat) : (s.setLinks x).stage = s.stage := rfl
@[simp] theorem State.setLinks_moOut (s : State) (x : List Nat) : (s.setLinks x).moOut = s.moOut := rfl
@[simp] theorem State.setLinks_nv (s : State) (x : List Nat) : (s.setLinks x).nv = s.nv := rfl
@[simp] theorem State.setLinks_bports (s : State) (x : List Nat) : (s.setLinks x).bports = s.bports := rfl
@[simp] theorem State.setLinks_group (s : State) (x : List Nat) : (s.setLinks x).group = s.group := rfl
@[simp] theorem State.setLinks_reds (s : State) (x : List Nat) : (s.setLinks x).reds = s.reds := rfl
@[simp] theorem State.setLinks_btx (s : State) (x : List Nat) : (s.setLinks x).btx = s.btx := rfl
@[simp] theorem State.setLinks_test (s : State) (x : List Nat) : (s.setLinks x).test = s.test := rfl
@[simp] theorem State.setLinks_check (s : State) (x : List Nat) : (s.setLinks x).check = s.check := rfl
@[simp] theorem State.setLinks_coldHeld (s : State) (x : List Nat) : (s.setLinks x).coldHeld = s.coldHeld := rfl
@[simp] theorem State.setLinks_warmHeld (s : State) (x : List Nat) : (s.setLinks x).warmHeld = s.warmHeld := rfl
@[simp] theorem State.setLinks_loaded (s : State) (x : List Nat) : (s.setLinks x).loaded = s.loaded := rfl
@[simp] theorem State.setLinks_invals (s : State) (x : List Nat) : (s.setLinks x).invals = s.invals := rfl
@[simp] theorem State.setLinks_evSeq (s : State) (x : List Nat) : (s.setLinks x).evSeq = s.evSeq := rfl
@[simp] theorem State.setLinks_get (s : State) (x : List Nat) (o n : Nat) : (s.setLinks x).get o n = s.get o n := rfl
@[simp] theorem State.setLinks_obj (s : State) (x : List Nat) (o : Nat) : (s.setLinks x).obj o = s.obj o := rfl
@[simp] theorem State.setLinks_byte (s : State) (x : List Nat) (a : Nat) : (s.setLinks x).byte a = s.byte a := rfl
@[simp] theorem State.setLinks_queue (s : State) (x : List Nat) (q : Nat) : (s.setLinks x).queue q = s.queue q := rfl
@[simp] theorem State.setLinks_dfind (s : State) (x : List Nat) (q n : Nat) : (s.setLinks x).dfind q n = s.dfind q n := rfl
@[simp] theorem State.setLinks_rfind (s : State) (x : List Nat) (q n : Nat) : (s.setLinks x).rfind q n = s.rfind q n := rfl
@[simp] theorem State.setLinks_bport (s : State) (x : List Nat) (p : Nat) : (s.setLinks x).bport p = s.bport p := rfl

@[simp] theorem State.setRouts_routs (s : State) (x : List Rout) : (s.setRouts x).routs = x := rfl
@[simp] theorem State.setRouts_variant (s : State) (x : List Rout) : (s.setRouts x).variant = s.variant := rfl
@[simp] theorem State.setRouts_reads (s : State) (x : List Rout) : (s.setRouts x).reads = s.reads := rfl
@[simp] theorem State.setRouts_holds (s : State) (x : List Rout) : (s.setRouts x).holds = s.holds := rfl
@[simp] theorem State.setRouts_gov (s : State) (x : List Rout) : (s.setRouts x).gov = s.gov := rfl
@[simp] theorem State.setRouts_pending (s : State) (x : List Rout) : (s.setRouts x).pending = s.pending := rfl
@[simp] theorem State.setRouts_objs (s : State) (x : List Rout) : (s.setRouts x).objs = s.objs := rfl
@[simp] theorem State.setRouts_digest (s : State) (x : List Rout) : (s.setRouts x).digest = s.digest := rfl
@[simp] theorem State.setRouts_cycle (s : State) (x : List Rout) : (s.setRouts x).cycle = s.cycle := rfl
@[simp] theorem State.setRouts_freeCtr (s : State) (x : List Rout) : (s.setRouts x).freeCtr = s.freeCtr := rfl
@[simp] theorem State.setRouts_mem (s : State) (x : List Rout) : (s.setRouts x).mem = s.mem := rfl
@[simp] theorem State.setRouts_reqs (s : State) (x : List Rout) : (s.setRouts x).reqs = s.reqs := rfl
@[simp] theorem State.setRouts_queues (s : State) (x : List Rout) : (s.setRouts x).queues = s.queues := rfl
@[simp] theorem State.setRouts_bell (s : State) (x : List Rout) : (s.setRouts x).bell = s.bell := rfl
@[simp] theorem State.setRouts_form (s : State) (x : List Rout) : (s.setRouts x).form = s.form := rfl
@[simp] theorem State.setRouts_hist (s : State) (x : List Rout) : (s.setRouts x).hist = s.hist := rfl
@[simp] theorem State.setRouts_soOut (s : State) (x : List Rout) : (s.setRouts x).soOut = s.soOut := rfl
@[simp] theorem State.setRouts_chans (s : State) (x : List Rout) : (s.setRouts x).chans = s.chans := rfl
@[simp] theorem State.setRouts_evbuf (s : State) (x : List Rout) : (s.setRouts x).evbuf = s.evbuf := rfl
@[simp] theorem State.setRouts_segs (s : State) (x : List Rout) : (s.setRouts x).segs = s.segs := rfl
@[simp] theorem State.setRouts_stage (s : State) (x : List Rout) : (s.setRouts x).stage = s.stage := rfl
@[simp] theorem State.setRouts_moOut (s : State) (x : List Rout) : (s.setRouts x).moOut = s.moOut := rfl
@[simp] theorem State.setRouts_nv (s : State) (x : List Rout) : (s.setRouts x).nv = s.nv := rfl
@[simp] theorem State.setRouts_bports (s : State) (x : List Rout) : (s.setRouts x).bports = s.bports := rfl
@[simp] theorem State.setRouts_group (s : State) (x : List Rout) : (s.setRouts x).group = s.group := rfl
@[simp] theorem State.setRouts_reds (s : State) (x : List Rout) : (s.setRouts x).reds = s.reds := rfl
@[simp] theorem State.setRouts_btx (s : State) (x : List Rout) : (s.setRouts x).btx = s.btx := rfl
@[simp] theorem State.setRouts_test (s : State) (x : List Rout) : (s.setRouts x).test = s.test := rfl
@[simp] theorem State.setRouts_check (s : State) (x : List Rout) : (s.setRouts x).check = s.check := rfl
@[simp] theorem State.setRouts_coldHeld (s : State) (x : List Rout) : (s.setRouts x).coldHeld = s.coldHeld := rfl
@[simp] theorem State.setRouts_warmHeld (s : State) (x : List Rout) : (s.setRouts x).warmHeld = s.warmHeld := rfl
@[simp] theorem State.setRouts_loaded (s : State) (x : List Rout) : (s.setRouts x).loaded = s.loaded := rfl
@[simp] theorem State.setRouts_invals (s : State) (x : List Rout) : (s.setRouts x).invals = s.invals := rfl
@[simp] theorem State.setRouts_evSeq (s : State) (x : List Rout) : (s.setRouts x).evSeq = s.evSeq := rfl
@[simp] theorem State.setRouts_get (s : State) (x : List Rout) (o n : Nat) : (s.setRouts x).get o n = s.get o n := rfl
@[simp] theorem State.setRouts_obj (s : State) (x : List Rout) (o : Nat) : (s.setRouts x).obj o = s.obj o := rfl
@[simp] theorem State.setRouts_byte (s : State) (x : List Rout) (a : Nat) : (s.setRouts x).byte a = s.byte a := rfl
@[simp] theorem State.setRouts_queue (s : State) (x : List Rout) (q : Nat) : (s.setRouts x).queue q = s.queue q := rfl
@[simp] theorem State.setRouts_dfind (s : State) (x : List Rout) (q n : Nat) : (s.setRouts x).dfind q n = s.dfind q n := rfl
@[simp] theorem State.setRouts_bport (s : State) (x : List Rout) (p : Nat) : (s.setRouts x).bport p = s.bport p := rfl

@[simp] theorem State.setStore_store (s : State) (x : List StoreEnt) : (s.setStore x).store = x := rfl
@[simp] theorem State.setStore_variant (s : State) (x : List StoreEnt) : (s.setStore x).variant = s.variant := rfl
@[simp] theorem State.setStore_reads (s : State) (x : List StoreEnt) : (s.setStore x).reads = s.reads := rfl
@[simp] theorem State.setStore_holds (s : State) (x : List StoreEnt) : (s.setStore x).holds = s.holds := rfl
@[simp] theorem State.setStore_gov (s : State) (x : List StoreEnt) : (s.setStore x).gov = s.gov := rfl
@[simp] theorem State.setStore_pending (s : State) (x : List StoreEnt) : (s.setStore x).pending = s.pending := rfl
@[simp] theorem State.setStore_objs (s : State) (x : List StoreEnt) : (s.setStore x).objs = s.objs := rfl
@[simp] theorem State.setStore_digest (s : State) (x : List StoreEnt) : (s.setStore x).digest = s.digest := rfl
@[simp] theorem State.setStore_cycle (s : State) (x : List StoreEnt) : (s.setStore x).cycle = s.cycle := rfl
@[simp] theorem State.setStore_freeCtr (s : State) (x : List StoreEnt) : (s.setStore x).freeCtr = s.freeCtr := rfl
@[simp] theorem State.setStore_mem (s : State) (x : List StoreEnt) : (s.setStore x).mem = s.mem := rfl
@[simp] theorem State.setStore_reqs (s : State) (x : List StoreEnt) : (s.setStore x).reqs = s.reqs := rfl
@[simp] theorem State.setStore_queues (s : State) (x : List StoreEnt) : (s.setStore x).queues = s.queues := rfl
@[simp] theorem State.setStore_bell (s : State) (x : List StoreEnt) : (s.setStore x).bell = s.bell := rfl
@[simp] theorem State.setStore_form (s : State) (x : List StoreEnt) : (s.setStore x).form = s.form := rfl
@[simp] theorem State.setStore_hist (s : State) (x : List StoreEnt) : (s.setStore x).hist = s.hist := rfl
@[simp] theorem State.setStore_soOut (s : State) (x : List StoreEnt) : (s.setStore x).soOut = s.soOut := rfl
@[simp] theorem State.setStore_chans (s : State) (x : List StoreEnt) : (s.setStore x).chans = s.chans := rfl
@[simp] theorem State.setStore_routs (s : State) (x : List StoreEnt) : (s.setStore x).routs = s.routs := rfl
@[simp] theorem State.setStore_evbuf (s : State) (x : List StoreEnt) : (s.setStore x).evbuf = s.evbuf := rfl
@[simp] theorem State.setStore_segs (s : State) (x : List StoreEnt) : (s.setStore x).segs = s.segs := rfl
@[simp] theorem State.setStore_stage (s : State) (x : List StoreEnt) : (s.setStore x).stage = s.stage := rfl
@[simp] theorem State.setStore_moOut (s : State) (x : List StoreEnt) : (s.setStore x).moOut = s.moOut := rfl
@[simp] theorem State.setStore_nv (s : State) (x : List StoreEnt) : (s.setStore x).nv = s.nv := rfl
@[simp] theorem State.setStore_bports (s : State) (x : List StoreEnt) : (s.setStore x).bports = s.bports := rfl
@[simp] theorem State.setStore_group (s : State) (x : List StoreEnt) : (s.setStore x).group = s.group := rfl
@[simp] theorem State.setStore_reds (s : State) (x : List StoreEnt) : (s.setStore x).reds = s.reds := rfl
@[simp] theorem State.setStore_btx (s : State) (x : List StoreEnt) : (s.setStore x).btx = s.btx := rfl
@[simp] theorem State.setStore_test (s : State) (x : List StoreEnt) : (s.setStore x).test = s.test := rfl
@[simp] theorem State.setStore_check (s : State) (x : List StoreEnt) : (s.setStore x).check = s.check := rfl
@[simp] theorem State.setStore_coldHeld (s : State) (x : List StoreEnt) : (s.setStore x).coldHeld = s.coldHeld := rfl
@[simp] theorem State.setStore_warmHeld (s : State) (x : List StoreEnt) : (s.setStore x).warmHeld = s.warmHeld := rfl
@[simp] theorem State.setStore_loaded (s : State) (x : List StoreEnt) : (s.setStore x).loaded = s.loaded := rfl
@[simp] theorem State.setStore_invals (s : State) (x : List StoreEnt) : (s.setStore x).invals = s.invals := rfl
@[simp] theorem State.setStore_evSeq (s : State) (x : List StoreEnt) : (s.setStore x).evSeq = s.evSeq := rfl
@[simp] theorem State.setStore_get (s : State) (x : List StoreEnt) (o n : Nat) : (s.setStore x).get o n = s.get o n := rfl
@[simp] theorem State.setStore_obj (s : State) (x : List StoreEnt) (o : Nat) : (s.setStore x).obj o = s.obj o := rfl
@[simp] theorem State.setStore_byte (s : State) (x : List StoreEnt) (a : Nat) : (s.setStore x).byte a = s.byte a := rfl
@[simp] theorem State.setStore_queue (s : State) (x : List StoreEnt) (q : Nat) : (s.setStore x).queue q = s.queue q := rfl
@[simp] theorem State.setStore_dfind (s : State) (x : List StoreEnt) (q n : Nat) : (s.setStore x).dfind q n = s.dfind q n := rfl
@[simp] theorem State.setStore_rfind (s : State) (x : List StoreEnt) (q n : Nat) : (s.setStore x).rfind q n = s.rfind q n := rfl
@[simp] theorem State.setStore_bport (s : State) (x : List StoreEnt) (p : Nat) : (s.setStore x).bport p = s.bport p := rfl

@[simp] theorem State.setEvbuf_evbuf (s : State) (x : List Ev) : (s.setEvbuf x).evbuf = x := rfl
@[simp] theorem State.setEvbuf_variant (s : State) (x : List Ev) : (s.setEvbuf x).variant = s.variant := rfl
@[simp] theorem State.setEvbuf_reads (s : State) (x : List Ev) : (s.setEvbuf x).reads = s.reads := rfl
@[simp] theorem State.setEvbuf_holds (s : State) (x : List Ev) : (s.setEvbuf x).holds = s.holds := rfl
@[simp] theorem State.setEvbuf_gov (s : State) (x : List Ev) : (s.setEvbuf x).gov = s.gov := rfl
@[simp] theorem State.setEvbuf_pending (s : State) (x : List Ev) : (s.setEvbuf x).pending = s.pending := rfl
@[simp] theorem State.setEvbuf_objs (s : State) (x : List Ev) : (s.setEvbuf x).objs = s.objs := rfl
@[simp] theorem State.setEvbuf_digest (s : State) (x : List Ev) : (s.setEvbuf x).digest = s.digest := rfl
@[simp] theorem State.setEvbuf_cycle (s : State) (x : List Ev) : (s.setEvbuf x).cycle = s.cycle := rfl
@[simp] theorem State.setEvbuf_freeCtr (s : State) (x : List Ev) : (s.setEvbuf x).freeCtr = s.freeCtr := rfl
@[simp] theorem State.setEvbuf_mem (s : State) (x : List Ev) : (s.setEvbuf x).mem = s.mem := rfl
@[simp] theorem State.setEvbuf_reqs (s : State) (x : List Ev) : (s.setEvbuf x).reqs = s.reqs := rfl
@[simp] theorem State.setEvbuf_queues (s : State) (x : List Ev) : (s.setEvbuf x).queues = s.queues := rfl
@[simp] theorem State.setEvbuf_bell (s : State) (x : List Ev) : (s.setEvbuf x).bell = s.bell := rfl
@[simp] theorem State.setEvbuf_form (s : State) (x : List Ev) : (s.setEvbuf x).form = s.form := rfl
@[simp] theorem State.setEvbuf_hist (s : State) (x : List Ev) : (s.setEvbuf x).hist = s.hist := rfl
@[simp] theorem State.setEvbuf_soOut (s : State) (x : List Ev) : (s.setEvbuf x).soOut = s.soOut := rfl
@[simp] theorem State.setEvbuf_chans (s : State) (x : List Ev) : (s.setEvbuf x).chans = s.chans := rfl
@[simp] theorem State.setEvbuf_routs (s : State) (x : List Ev) : (s.setEvbuf x).routs = s.routs := rfl
@[simp] theorem State.setEvbuf_segs (s : State) (x : List Ev) : (s.setEvbuf x).segs = s.segs := rfl
@[simp] theorem State.setEvbuf_stage (s : State) (x : List Ev) : (s.setEvbuf x).stage = s.stage := rfl
@[simp] theorem State.setEvbuf_moOut (s : State) (x : List Ev) : (s.setEvbuf x).moOut = s.moOut := rfl
@[simp] theorem State.setEvbuf_nv (s : State) (x : List Ev) : (s.setEvbuf x).nv = s.nv := rfl
@[simp] theorem State.setEvbuf_bports (s : State) (x : List Ev) : (s.setEvbuf x).bports = s.bports := rfl
@[simp] theorem State.setEvbuf_group (s : State) (x : List Ev) : (s.setEvbuf x).group = s.group := rfl
@[simp] theorem State.setEvbuf_reds (s : State) (x : List Ev) : (s.setEvbuf x).reds = s.reds := rfl
@[simp] theorem State.setEvbuf_btx (s : State) (x : List Ev) : (s.setEvbuf x).btx = s.btx := rfl
@[simp] theorem State.setEvbuf_test (s : State) (x : List Ev) : (s.setEvbuf x).test = s.test := rfl
@[simp] theorem State.setEvbuf_check (s : State) (x : List Ev) : (s.setEvbuf x).check = s.check := rfl
@[simp] theorem State.setEvbuf_coldHeld (s : State) (x : List Ev) : (s.setEvbuf x).coldHeld = s.coldHeld := rfl
@[simp] theorem State.setEvbuf_warmHeld (s : State) (x : List Ev) : (s.setEvbuf x).warmHeld = s.warmHeld := rfl
@[simp] theorem State.setEvbuf_loaded (s : State) (x : List Ev) : (s.setEvbuf x).loaded = s.loaded := rfl
@[simp] theorem State.setEvbuf_invals (s : State) (x : List Ev) : (s.setEvbuf x).invals = s.invals := rfl
@[simp] theorem State.setEvbuf_evSeq (s : State) (x : List Ev) : (s.setEvbuf x).evSeq = s.evSeq := rfl
@[simp] theorem State.setEvbuf_get (s : State) (x : List Ev) (o n : Nat) : (s.setEvbuf x).get o n = s.get o n := rfl
@[simp] theorem State.setEvbuf_obj (s : State) (x : List Ev) (o : Nat) : (s.setEvbuf x).obj o = s.obj o := rfl
@[simp] theorem State.setEvbuf_byte (s : State) (x : List Ev) (a : Nat) : (s.setEvbuf x).byte a = s.byte a := rfl
@[simp] theorem State.setEvbuf_queue (s : State) (x : List Ev) (q : Nat) : (s.setEvbuf x).queue q = s.queue q := rfl
@[simp] theorem State.setEvbuf_dfind (s : State) (x : List Ev) (q n : Nat) : (s.setEvbuf x).dfind q n = s.dfind q n := rfl
@[simp] theorem State.setEvbuf_rfind (s : State) (x : List Ev) (q n : Nat) : (s.setEvbuf x).rfind q n = s.rfind q n := rfl
@[simp] theorem State.setEvbuf_bport (s : State) (x : List Ev) (p : Nat) : (s.setEvbuf x).bport p = s.bport p := rfl

@[simp] theorem State.setEvOut_evOut (s : State) (x : Option Ev) : (s.setEvOut x).evOut = x := rfl
@[simp] theorem State.setEvOut_variant (s : State) (x : Option Ev) : (s.setEvOut x).variant = s.variant := rfl
@[simp] theorem State.setEvOut_reads (s : State) (x : Option Ev) : (s.setEvOut x).reads = s.reads := rfl
@[simp] theorem State.setEvOut_holds (s : State) (x : Option Ev) : (s.setEvOut x).holds = s.holds := rfl
@[simp] theorem State.setEvOut_gov (s : State) (x : Option Ev) : (s.setEvOut x).gov = s.gov := rfl
@[simp] theorem State.setEvOut_pending (s : State) (x : Option Ev) : (s.setEvOut x).pending = s.pending := rfl
@[simp] theorem State.setEvOut_objs (s : State) (x : Option Ev) : (s.setEvOut x).objs = s.objs := rfl
@[simp] theorem State.setEvOut_digest (s : State) (x : Option Ev) : (s.setEvOut x).digest = s.digest := rfl
@[simp] theorem State.setEvOut_cycle (s : State) (x : Option Ev) : (s.setEvOut x).cycle = s.cycle := rfl
@[simp] theorem State.setEvOut_freeCtr (s : State) (x : Option Ev) : (s.setEvOut x).freeCtr = s.freeCtr := rfl
@[simp] theorem State.setEvOut_mem (s : State) (x : Option Ev) : (s.setEvOut x).mem = s.mem := rfl
@[simp] theorem State.setEvOut_reqs (s : State) (x : Option Ev) : (s.setEvOut x).reqs = s.reqs := rfl
@[simp] theorem State.setEvOut_queues (s : State) (x : Option Ev) : (s.setEvOut x).queues = s.queues := rfl
@[simp] theorem State.setEvOut_bell (s : State) (x : Option Ev) : (s.setEvOut x).bell = s.bell := rfl
@[simp] theorem State.setEvOut_form (s : State) (x : Option Ev) : (s.setEvOut x).form = s.form := rfl
@[simp] theorem State.setEvOut_hist (s : State) (x : Option Ev) : (s.setEvOut x).hist = s.hist := rfl
@[simp] theorem State.setEvOut_soOut (s : State) (x : Option Ev) : (s.setEvOut x).soOut = s.soOut := rfl
@[simp] theorem State.setEvOut_chans (s : State) (x : Option Ev) : (s.setEvOut x).chans = s.chans := rfl
@[simp] theorem State.setEvOut_routs (s : State) (x : Option Ev) : (s.setEvOut x).routs = s.routs := rfl
@[simp] theorem State.setEvOut_evbuf (s : State) (x : Option Ev) : (s.setEvOut x).evbuf = s.evbuf := rfl
@[simp] theorem State.setEvOut_segs (s : State) (x : Option Ev) : (s.setEvOut x).segs = s.segs := rfl
@[simp] theorem State.setEvOut_stage (s : State) (x : Option Ev) : (s.setEvOut x).stage = s.stage := rfl
@[simp] theorem State.setEvOut_moOut (s : State) (x : Option Ev) : (s.setEvOut x).moOut = s.moOut := rfl
@[simp] theorem State.setEvOut_nv (s : State) (x : Option Ev) : (s.setEvOut x).nv = s.nv := rfl
@[simp] theorem State.setEvOut_bports (s : State) (x : Option Ev) : (s.setEvOut x).bports = s.bports := rfl
@[simp] theorem State.setEvOut_group (s : State) (x : Option Ev) : (s.setEvOut x).group = s.group := rfl
@[simp] theorem State.setEvOut_reds (s : State) (x : Option Ev) : (s.setEvOut x).reds = s.reds := rfl
@[simp] theorem State.setEvOut_btx (s : State) (x : Option Ev) : (s.setEvOut x).btx = s.btx := rfl
@[simp] theorem State.setEvOut_test (s : State) (x : Option Ev) : (s.setEvOut x).test = s.test := rfl
@[simp] theorem State.setEvOut_check (s : State) (x : Option Ev) : (s.setEvOut x).check = s.check := rfl
@[simp] theorem State.setEvOut_coldHeld (s : State) (x : Option Ev) : (s.setEvOut x).coldHeld = s.coldHeld := rfl
@[simp] theorem State.setEvOut_warmHeld (s : State) (x : Option Ev) : (s.setEvOut x).warmHeld = s.warmHeld := rfl
@[simp] theorem State.setEvOut_loaded (s : State) (x : Option Ev) : (s.setEvOut x).loaded = s.loaded := rfl
@[simp] theorem State.setEvOut_invals (s : State) (x : Option Ev) : (s.setEvOut x).invals = s.invals := rfl
@[simp] theorem State.setEvOut_evSeq (s : State) (x : Option Ev) : (s.setEvOut x).evSeq = s.evSeq := rfl
@[simp] theorem State.setEvOut_get (s : State) (x : Option Ev) (o n : Nat) : (s.setEvOut x).get o n = s.get o n := rfl
@[simp] theorem State.setEvOut_obj (s : State) (x : Option Ev) (o : Nat) : (s.setEvOut x).obj o = s.obj o := rfl
@[simp] theorem State.setEvOut_byte (s : State) (x : Option Ev) (a : Nat) : (s.setEvOut x).byte a = s.byte a := rfl
@[simp] theorem State.setEvOut_queue (s : State) (x : Option Ev) (q : Nat) : (s.setEvOut x).queue q = s.queue q := rfl
@[simp] theorem State.setEvOut_dfind (s : State) (x : Option Ev) (q n : Nat) : (s.setEvOut x).dfind q n = s.dfind q n := rfl
@[simp] theorem State.setEvOut_rfind (s : State) (x : Option Ev) (q n : Nat) : (s.setEvOut x).rfind q n = s.rfind q n := rfl
@[simp] theorem State.setEvOut_bport (s : State) (x : Option Ev) (p : Nat) : (s.setEvOut x).bport p = s.bport p := rfl

@[simp] theorem State.setEvSeq_evSeq (s : State) (x : Nat) : (s.setEvSeq x).evSeq = x := rfl
@[simp] theorem State.setEvSeq_variant (s : State) (x : Nat) : (s.setEvSeq x).variant = s.variant := rfl
@[simp] theorem State.setEvSeq_reads (s : State) (x : Nat) : (s.setEvSeq x).reads = s.reads := rfl
@[simp] theorem State.setEvSeq_holds (s : State) (x : Nat) : (s.setEvSeq x).holds = s.holds := rfl
@[simp] theorem State.setEvSeq_gov (s : State) (x : Nat) : (s.setEvSeq x).gov = s.gov := rfl
@[simp] theorem State.setEvSeq_pending (s : State) (x : Nat) : (s.setEvSeq x).pending = s.pending := rfl
@[simp] theorem State.setEvSeq_objs (s : State) (x : Nat) : (s.setEvSeq x).objs = s.objs := rfl
@[simp] theorem State.setEvSeq_digest (s : State) (x : Nat) : (s.setEvSeq x).digest = s.digest := rfl
@[simp] theorem State.setEvSeq_cycle (s : State) (x : Nat) : (s.setEvSeq x).cycle = s.cycle := rfl
@[simp] theorem State.setEvSeq_freeCtr (s : State) (x : Nat) : (s.setEvSeq x).freeCtr = s.freeCtr := rfl
@[simp] theorem State.setEvSeq_mem (s : State) (x : Nat) : (s.setEvSeq x).mem = s.mem := rfl
@[simp] theorem State.setEvSeq_reqs (s : State) (x : Nat) : (s.setEvSeq x).reqs = s.reqs := rfl
@[simp] theorem State.setEvSeq_queues (s : State) (x : Nat) : (s.setEvSeq x).queues = s.queues := rfl
@[simp] theorem State.setEvSeq_bell (s : State) (x : Nat) : (s.setEvSeq x).bell = s.bell := rfl
@[simp] theorem State.setEvSeq_form (s : State) (x : Nat) : (s.setEvSeq x).form = s.form := rfl
@[simp] theorem State.setEvSeq_hist (s : State) (x : Nat) : (s.setEvSeq x).hist = s.hist := rfl
@[simp] theorem State.setEvSeq_soOut (s : State) (x : Nat) : (s.setEvSeq x).soOut = s.soOut := rfl
@[simp] theorem State.setEvSeq_chans (s : State) (x : Nat) : (s.setEvSeq x).chans = s.chans := rfl
@[simp] theorem State.setEvSeq_routs (s : State) (x : Nat) : (s.setEvSeq x).routs = s.routs := rfl
@[simp] theorem State.setEvSeq_evbuf (s : State) (x : Nat) : (s.setEvSeq x).evbuf = s.evbuf := rfl
@[simp] theorem State.setEvSeq_segs (s : State) (x : Nat) : (s.setEvSeq x).segs = s.segs := rfl
@[simp] theorem State.setEvSeq_stage (s : State) (x : Nat) : (s.setEvSeq x).stage = s.stage := rfl
@[simp] theorem State.setEvSeq_moOut (s : State) (x : Nat) : (s.setEvSeq x).moOut = s.moOut := rfl
@[simp] theorem State.setEvSeq_nv (s : State) (x : Nat) : (s.setEvSeq x).nv = s.nv := rfl
@[simp] theorem State.setEvSeq_bports (s : State) (x : Nat) : (s.setEvSeq x).bports = s.bports := rfl
@[simp] theorem State.setEvSeq_group (s : State) (x : Nat) : (s.setEvSeq x).group = s.group := rfl
@[simp] theorem State.setEvSeq_reds (s : State) (x : Nat) : (s.setEvSeq x).reds = s.reds := rfl
@[simp] theorem State.setEvSeq_btx (s : State) (x : Nat) : (s.setEvSeq x).btx = s.btx := rfl
@[simp] theorem State.setEvSeq_test (s : State) (x : Nat) : (s.setEvSeq x).test = s.test := rfl
@[simp] theorem State.setEvSeq_check (s : State) (x : Nat) : (s.setEvSeq x).check = s.check := rfl
@[simp] theorem State.setEvSeq_coldHeld (s : State) (x : Nat) : (s.setEvSeq x).coldHeld = s.coldHeld := rfl
@[simp] theorem State.setEvSeq_warmHeld (s : State) (x : Nat) : (s.setEvSeq x).warmHeld = s.warmHeld := rfl
@[simp] theorem State.setEvSeq_loaded (s : State) (x : Nat) : (s.setEvSeq x).loaded = s.loaded := rfl
@[simp] theorem State.setEvSeq_invals (s : State) (x : Nat) : (s.setEvSeq x).invals = s.invals := rfl
@[simp] theorem State.setEvSeq_get (s : State) (x : Nat) (o n : Nat) : (s.setEvSeq x).get o n = s.get o n := rfl
@[simp] theorem State.setEvSeq_obj (s : State) (x : Nat) (o : Nat) : (s.setEvSeq x).obj o = s.obj o := rfl
@[simp] theorem State.setEvSeq_byte (s : State) (x : Nat) (a : Nat) : (s.setEvSeq x).byte a = s.byte a := rfl
@[simp] theorem State.setEvSeq_queue (s : State) (x : Nat) (q : Nat) : (s.setEvSeq x).queue q = s.queue q := rfl
@[simp] theorem State.setEvSeq_dfind (s : State) (x : Nat) (q n : Nat) : (s.setEvSeq x).dfind q n = s.dfind q n := rfl
@[simp] theorem State.setEvSeq_rfind (s : State) (x : Nat) (q n : Nat) : (s.setEvSeq x).rfind q n = s.rfind q n := rfl
@[simp] theorem State.setEvSeq_bport (s : State) (x : Nat) (p : Nat) : (s.setEvSeq x).bport p = s.bport p := rfl

@[simp] theorem State.setFatalRaised_fatalRaised (s : State) (x : List Nat) : (s.setFatalRaised x).fatalRaised = x := rfl
@[simp] theorem State.setFatalRaised_variant (s : State) (x : List Nat) : (s.setFatalRaised x).variant = s.variant := rfl
@[simp] theorem State.setFatalRaised_reads (s : State) (x : List Nat) : (s.setFatalRaised x).reads = s.reads := rfl
@[simp] theorem State.setFatalRaised_holds (s : State) (x : List Nat) : (s.setFatalRaised x).holds = s.holds := rfl
@[simp] theorem State.setFatalRaised_gov (s : State) (x : List Nat) : (s.setFatalRaised x).gov = s.gov := rfl
@[simp] theorem State.setFatalRaised_pending (s : State) (x : List Nat) : (s.setFatalRaised x).pending = s.pending := rfl
@[simp] theorem State.setFatalRaised_objs (s : State) (x : List Nat) : (s.setFatalRaised x).objs = s.objs := rfl
@[simp] theorem State.setFatalRaised_digest (s : State) (x : List Nat) : (s.setFatalRaised x).digest = s.digest := rfl
@[simp] theorem State.setFatalRaised_cycle (s : State) (x : List Nat) : (s.setFatalRaised x).cycle = s.cycle := rfl
@[simp] theorem State.setFatalRaised_freeCtr (s : State) (x : List Nat) : (s.setFatalRaised x).freeCtr = s.freeCtr := rfl
@[simp] theorem State.setFatalRaised_mem (s : State) (x : List Nat) : (s.setFatalRaised x).mem = s.mem := rfl
@[simp] theorem State.setFatalRaised_reqs (s : State) (x : List Nat) : (s.setFatalRaised x).reqs = s.reqs := rfl
@[simp] theorem State.setFatalRaised_queues (s : State) (x : List Nat) : (s.setFatalRaised x).queues = s.queues := rfl
@[simp] theorem State.setFatalRaised_bell (s : State) (x : List Nat) : (s.setFatalRaised x).bell = s.bell := rfl
@[simp] theorem State.setFatalRaised_form (s : State) (x : List Nat) : (s.setFatalRaised x).form = s.form := rfl
@[simp] theorem State.setFatalRaised_hist (s : State) (x : List Nat) : (s.setFatalRaised x).hist = s.hist := rfl
@[simp] theorem State.setFatalRaised_soOut (s : State) (x : List Nat) : (s.setFatalRaised x).soOut = s.soOut := rfl
@[simp] theorem State.setFatalRaised_chans (s : State) (x : List Nat) : (s.setFatalRaised x).chans = s.chans := rfl
@[simp] theorem State.setFatalRaised_routs (s : State) (x : List Nat) : (s.setFatalRaised x).routs = s.routs := rfl
@[simp] theorem State.setFatalRaised_evbuf (s : State) (x : List Nat) : (s.setFatalRaised x).evbuf = s.evbuf := rfl
@[simp] theorem State.setFatalRaised_segs (s : State) (x : List Nat) : (s.setFatalRaised x).segs = s.segs := rfl
@[simp] theorem State.setFatalRaised_stage (s : State) (x : List Nat) : (s.setFatalRaised x).stage = s.stage := rfl
@[simp] theorem State.setFatalRaised_moOut (s : State) (x : List Nat) : (s.setFatalRaised x).moOut = s.moOut := rfl
@[simp] theorem State.setFatalRaised_nv (s : State) (x : List Nat) : (s.setFatalRaised x).nv = s.nv := rfl
@[simp] theorem State.setFatalRaised_bports (s : State) (x : List Nat) : (s.setFatalRaised x).bports = s.bports := rfl
@[simp] theorem State.setFatalRaised_group (s : State) (x : List Nat) : (s.setFatalRaised x).group = s.group := rfl
@[simp] theorem State.setFatalRaised_reds (s : State) (x : List Nat) : (s.setFatalRaised x).reds = s.reds := rfl
@[simp] theorem State.setFatalRaised_btx (s : State) (x : List Nat) : (s.setFatalRaised x).btx = s.btx := rfl
@[simp] theorem State.setFatalRaised_test (s : State) (x : List Nat) : (s.setFatalRaised x).test = s.test := rfl
@[simp] theorem State.setFatalRaised_check (s : State) (x : List Nat) : (s.setFatalRaised x).check = s.check := rfl
@[simp] theorem State.setFatalRaised_coldHeld (s : State) (x : List Nat) : (s.setFatalRaised x).coldHeld = s.coldHeld := rfl
@[simp] theorem State.setFatalRaised_warmHeld (s : State) (x : List Nat) : (s.setFatalRaised x).warmHeld = s.warmHeld := rfl
@[simp] theorem State.setFatalRaised_loaded (s : State) (x : List Nat) : (s.setFatalRaised x).loaded = s.loaded := rfl
@[simp] theorem State.setFatalRaised_invals (s : State) (x : List Nat) : (s.setFatalRaised x).invals = s.invals := rfl
@[simp] theorem State.setFatalRaised_evSeq (s : State) (x : List Nat) : (s.setFatalRaised x).evSeq = s.evSeq := rfl
@[simp] theorem State.setFatalRaised_get (s : State) (x : List Nat) (o n : Nat) : (s.setFatalRaised x).get o n = s.get o n := rfl
@[simp] theorem State.setFatalRaised_obj (s : State) (x : List Nat) (o : Nat) : (s.setFatalRaised x).obj o = s.obj o := rfl
@[simp] theorem State.setFatalRaised_byte (s : State) (x : List Nat) (a : Nat) : (s.setFatalRaised x).byte a = s.byte a := rfl
@[simp] theorem State.setFatalRaised_queue (s : State) (x : List Nat) (q : Nat) : (s.setFatalRaised x).queue q = s.queue q := rfl
@[simp] theorem State.setFatalRaised_dfind (s : State) (x : List Nat) (q n : Nat) : (s.setFatalRaised x).dfind q n = s.dfind q n := rfl
@[simp] theorem State.setFatalRaised_rfind (s : State) (x : List Nat) (q n : Nat) : (s.setFatalRaised x).rfind q n = s.rfind q n := rfl
@[simp] theorem State.setFatalRaised_bport (s : State) (x : List Nat) (p : Nat) : (s.setFatalRaised x).bport p = s.bport p := rfl

@[simp] theorem State.setTransBell_transBell (s : State) (x : SMap Nat) : (s.setTransBell x).transBell = x := rfl
@[simp] theorem State.setTransBell_variant (s : State) (x : SMap Nat) : (s.setTransBell x).variant = s.variant := rfl
@[simp] theorem State.setTransBell_reads (s : State) (x : SMap Nat) : (s.setTransBell x).reads = s.reads := rfl
@[simp] theorem State.setTransBell_holds (s : State) (x : SMap Nat) : (s.setTransBell x).holds = s.holds := rfl
@[simp] theorem State.setTransBell_gov (s : State) (x : SMap Nat) : (s.setTransBell x).gov = s.gov := rfl
@[simp] theorem State.setTransBell_pending (s : State) (x : SMap Nat) : (s.setTransBell x).pending = s.pending := rfl
@[simp] theorem State.setTransBell_objs (s : State) (x : SMap Nat) : (s.setTransBell x).objs = s.objs := rfl
@[simp] theorem State.setTransBell_digest (s : State) (x : SMap Nat) : (s.setTransBell x).digest = s.digest := rfl
@[simp] theorem State.setTransBell_cycle (s : State) (x : SMap Nat) : (s.setTransBell x).cycle = s.cycle := rfl
@[simp] theorem State.setTransBell_freeCtr (s : State) (x : SMap Nat) : (s.setTransBell x).freeCtr = s.freeCtr := rfl
@[simp] theorem State.setTransBell_mem (s : State) (x : SMap Nat) : (s.setTransBell x).mem = s.mem := rfl
@[simp] theorem State.setTransBell_reqs (s : State) (x : SMap Nat) : (s.setTransBell x).reqs = s.reqs := rfl
@[simp] theorem State.setTransBell_queues (s : State) (x : SMap Nat) : (s.setTransBell x).queues = s.queues := rfl
@[simp] theorem State.setTransBell_bell (s : State) (x : SMap Nat) : (s.setTransBell x).bell = s.bell := rfl
@[simp] theorem State.setTransBell_form (s : State) (x : SMap Nat) : (s.setTransBell x).form = s.form := rfl
@[simp] theorem State.setTransBell_hist (s : State) (x : SMap Nat) : (s.setTransBell x).hist = s.hist := rfl
@[simp] theorem State.setTransBell_soOut (s : State) (x : SMap Nat) : (s.setTransBell x).soOut = s.soOut := rfl
@[simp] theorem State.setTransBell_chans (s : State) (x : SMap Nat) : (s.setTransBell x).chans = s.chans := rfl
@[simp] theorem State.setTransBell_routs (s : State) (x : SMap Nat) : (s.setTransBell x).routs = s.routs := rfl
@[simp] theorem State.setTransBell_evbuf (s : State) (x : SMap Nat) : (s.setTransBell x).evbuf = s.evbuf := rfl
@[simp] theorem State.setTransBell_segs (s : State) (x : SMap Nat) : (s.setTransBell x).segs = s.segs := rfl
@[simp] theorem State.setTransBell_stage (s : State) (x : SMap Nat) : (s.setTransBell x).stage = s.stage := rfl
@[simp] theorem State.setTransBell_moOut (s : State) (x : SMap Nat) : (s.setTransBell x).moOut = s.moOut := rfl
@[simp] theorem State.setTransBell_nv (s : State) (x : SMap Nat) : (s.setTransBell x).nv = s.nv := rfl
@[simp] theorem State.setTransBell_bports (s : State) (x : SMap Nat) : (s.setTransBell x).bports = s.bports := rfl
@[simp] theorem State.setTransBell_group (s : State) (x : SMap Nat) : (s.setTransBell x).group = s.group := rfl
@[simp] theorem State.setTransBell_reds (s : State) (x : SMap Nat) : (s.setTransBell x).reds = s.reds := rfl
@[simp] theorem State.setTransBell_btx (s : State) (x : SMap Nat) : (s.setTransBell x).btx = s.btx := rfl
@[simp] theorem State.setTransBell_test (s : State) (x : SMap Nat) : (s.setTransBell x).test = s.test := rfl
@[simp] theorem State.setTransBell_check (s : State) (x : SMap Nat) : (s.setTransBell x).check = s.check := rfl
@[simp] theorem State.setTransBell_coldHeld (s : State) (x : SMap Nat) : (s.setTransBell x).coldHeld = s.coldHeld := rfl
@[simp] theorem State.setTransBell_warmHeld (s : State) (x : SMap Nat) : (s.setTransBell x).warmHeld = s.warmHeld := rfl
@[simp] theorem State.setTransBell_loaded (s : State) (x : SMap Nat) : (s.setTransBell x).loaded = s.loaded := rfl
@[simp] theorem State.setTransBell_invals (s : State) (x : SMap Nat) : (s.setTransBell x).invals = s.invals := rfl
@[simp] theorem State.setTransBell_evSeq (s : State) (x : SMap Nat) : (s.setTransBell x).evSeq = s.evSeq := rfl
@[simp] theorem State.setTransBell_get (s : State) (x : SMap Nat) (o n : Nat) : (s.setTransBell x).get o n = s.get o n := rfl
@[simp] theorem State.setTransBell_obj (s : State) (x : SMap Nat) (o : Nat) : (s.setTransBell x).obj o = s.obj o := rfl
@[simp] theorem State.setTransBell_byte (s : State) (x : SMap Nat) (a : Nat) : (s.setTransBell x).byte a = s.byte a := rfl
@[simp] theorem State.setTransBell_queue (s : State) (x : SMap Nat) (q : Nat) : (s.setTransBell x).queue q = s.queue q := rfl
@[simp] theorem State.setTransBell_dfind (s : State) (x : SMap Nat) (q n : Nat) : (s.setTransBell x).dfind q n = s.dfind q n := rfl
@[simp] theorem State.setTransBell_rfind (s : State) (x : SMap Nat) (q n : Nat) : (s.setTransBell x).rfind q n = s.rfind q n := rfl
@[simp] theorem State.setTransBell_bport (s : State) (x : SMap Nat) (p : Nat) : (s.setTransBell x).bport p = s.bport p := rfl

@[simp] theorem State.setMapped_mapped (s : State) (x : List UnitRef) : (s.setMapped x).mapped = x := rfl
@[simp] theorem State.setMapped_variant (s : State) (x : List UnitRef) : (s.setMapped x).variant = s.variant := rfl
@[simp] theorem State.setMapped_reads (s : State) (x : List UnitRef) : (s.setMapped x).reads = s.reads := rfl
@[simp] theorem State.setMapped_holds (s : State) (x : List UnitRef) : (s.setMapped x).holds = s.holds := rfl
@[simp] theorem State.setMapped_gov (s : State) (x : List UnitRef) : (s.setMapped x).gov = s.gov := rfl
@[simp] theorem State.setMapped_pending (s : State) (x : List UnitRef) : (s.setMapped x).pending = s.pending := rfl
@[simp] theorem State.setMapped_objs (s : State) (x : List UnitRef) : (s.setMapped x).objs = s.objs := rfl
@[simp] theorem State.setMapped_digest (s : State) (x : List UnitRef) : (s.setMapped x).digest = s.digest := rfl
@[simp] theorem State.setMapped_cycle (s : State) (x : List UnitRef) : (s.setMapped x).cycle = s.cycle := rfl
@[simp] theorem State.setMapped_freeCtr (s : State) (x : List UnitRef) : (s.setMapped x).freeCtr = s.freeCtr := rfl
@[simp] theorem State.setMapped_mem (s : State) (x : List UnitRef) : (s.setMapped x).mem = s.mem := rfl
@[simp] theorem State.setMapped_reqs (s : State) (x : List UnitRef) : (s.setMapped x).reqs = s.reqs := rfl
@[simp] theorem State.setMapped_queues (s : State) (x : List UnitRef) : (s.setMapped x).queues = s.queues := rfl
@[simp] theorem State.setMapped_bell (s : State) (x : List UnitRef) : (s.setMapped x).bell = s.bell := rfl
@[simp] theorem State.setMapped_form (s : State) (x : List UnitRef) : (s.setMapped x).form = s.form := rfl
@[simp] theorem State.setMapped_hist (s : State) (x : List UnitRef) : (s.setMapped x).hist = s.hist := rfl
@[simp] theorem State.setMapped_soOut (s : State) (x : List UnitRef) : (s.setMapped x).soOut = s.soOut := rfl
@[simp] theorem State.setMapped_chans (s : State) (x : List UnitRef) : (s.setMapped x).chans = s.chans := rfl
@[simp] theorem State.setMapped_routs (s : State) (x : List UnitRef) : (s.setMapped x).routs = s.routs := rfl
@[simp] theorem State.setMapped_evbuf (s : State) (x : List UnitRef) : (s.setMapped x).evbuf = s.evbuf := rfl
@[simp] theorem State.setMapped_segs (s : State) (x : List UnitRef) : (s.setMapped x).segs = s.segs := rfl
@[simp] theorem State.setMapped_stage (s : State) (x : List UnitRef) : (s.setMapped x).stage = s.stage := rfl
@[simp] theorem State.setMapped_moOut (s : State) (x : List UnitRef) : (s.setMapped x).moOut = s.moOut := rfl
@[simp] theorem State.setMapped_nv (s : State) (x : List UnitRef) : (s.setMapped x).nv = s.nv := rfl
@[simp] theorem State.setMapped_bports (s : State) (x : List UnitRef) : (s.setMapped x).bports = s.bports := rfl
@[simp] theorem State.setMapped_group (s : State) (x : List UnitRef) : (s.setMapped x).group = s.group := rfl
@[simp] theorem State.setMapped_reds (s : State) (x : List UnitRef) : (s.setMapped x).reds = s.reds := rfl
@[simp] theorem State.setMapped_btx (s : State) (x : List UnitRef) : (s.setMapped x).btx = s.btx := rfl
@[simp] theorem State.setMapped_test (s : State) (x : List UnitRef) : (s.setMapped x).test = s.test := rfl
@[simp] theorem State.setMapped_check (s : State) (x : List UnitRef) : (s.setMapped x).check = s.check := rfl
@[simp] theorem State.setMapped_coldHeld (s : State) (x : List UnitRef) : (s.setMapped x).coldHeld = s.coldHeld := rfl
@[simp] theorem State.setMapped_warmHeld (s : State) (x : List UnitRef) : (s.setMapped x).warmHeld = s.warmHeld := rfl
@[simp] theorem State.setMapped_loaded (s : State) (x : List UnitRef) : (s.setMapped x).loaded = s.loaded := rfl
@[simp] theorem State.setMapped_invals (s : State) (x : List UnitRef) : (s.setMapped x).invals = s.invals := rfl
@[simp] theorem State.setMapped_evSeq (s : State) (x : List UnitRef) : (s.setMapped x).evSeq = s.evSeq := rfl
@[simp] theorem State.setMapped_get (s : State) (x : List UnitRef) (o n : Nat) : (s.setMapped x).get o n = s.get o n := rfl
@[simp] theorem State.setMapped_obj (s : State) (x : List UnitRef) (o : Nat) : (s.setMapped x).obj o = s.obj o := rfl
@[simp] theorem State.setMapped_byte (s : State) (x : List UnitRef) (a : Nat) : (s.setMapped x).byte a = s.byte a := rfl
@[simp] theorem State.setMapped_queue (s : State) (x : List UnitRef) (q : Nat) : (s.setMapped x).queue q = s.queue q := rfl
@[simp] theorem State.setMapped_dfind (s : State) (x : List UnitRef) (q n : Nat) : (s.setMapped x).dfind q n = s.dfind q n := rfl
@[simp] theorem State.setMapped_rfind (s : State) (x : List UnitRef) (q n : Nat) : (s.setMapped x).rfind q n = s.rfind q n := rfl
@[simp] theorem State.setMapped_bport (s : State) (x : List UnitRef) (p : Nat) : (s.setMapped x).bport p = s.bport p := rfl

@[simp] theorem State.setSegs_segs (s : State) (x : List SegCtx) : (s.setSegs x).segs = x := rfl
@[simp] theorem State.setSegs_variant (s : State) (x : List SegCtx) : (s.setSegs x).variant = s.variant := rfl
@[simp] theorem State.setSegs_reads (s : State) (x : List SegCtx) : (s.setSegs x).reads = s.reads := rfl
@[simp] theorem State.setSegs_holds (s : State) (x : List SegCtx) : (s.setSegs x).holds = s.holds := rfl
@[simp] theorem State.setSegs_gov (s : State) (x : List SegCtx) : (s.setSegs x).gov = s.gov := rfl
@[simp] theorem State.setSegs_pending (s : State) (x : List SegCtx) : (s.setSegs x).pending = s.pending := rfl
@[simp] theorem State.setSegs_objs (s : State) (x : List SegCtx) : (s.setSegs x).objs = s.objs := rfl
@[simp] theorem State.setSegs_digest (s : State) (x : List SegCtx) : (s.setSegs x).digest = s.digest := rfl
@[simp] theorem State.setSegs_cycle (s : State) (x : List SegCtx) : (s.setSegs x).cycle = s.cycle := rfl
@[simp] theorem State.setSegs_freeCtr (s : State) (x : List SegCtx) : (s.setSegs x).freeCtr = s.freeCtr := rfl
@[simp] theorem State.setSegs_mem (s : State) (x : List SegCtx) : (s.setSegs x).mem = s.mem := rfl
@[simp] theorem State.setSegs_reqs (s : State) (x : List SegCtx) : (s.setSegs x).reqs = s.reqs := rfl
@[simp] theorem State.setSegs_queues (s : State) (x : List SegCtx) : (s.setSegs x).queues = s.queues := rfl
@[simp] theorem State.setSegs_bell (s : State) (x : List SegCtx) : (s.setSegs x).bell = s.bell := rfl
@[simp] theorem State.setSegs_form (s : State) (x : List SegCtx) : (s.setSegs x).form = s.form := rfl
@[simp] theorem State.setSegs_hist (s : State) (x : List SegCtx) : (s.setSegs x).hist = s.hist := rfl
@[simp] theorem State.setSegs_soOut (s : State) (x : List SegCtx) : (s.setSegs x).soOut = s.soOut := rfl
@[simp] theorem State.setSegs_chans (s : State) (x : List SegCtx) : (s.setSegs x).chans = s.chans := rfl
@[simp] theorem State.setSegs_routs (s : State) (x : List SegCtx) : (s.setSegs x).routs = s.routs := rfl
@[simp] theorem State.setSegs_evbuf (s : State) (x : List SegCtx) : (s.setSegs x).evbuf = s.evbuf := rfl
@[simp] theorem State.setSegs_stage (s : State) (x : List SegCtx) : (s.setSegs x).stage = s.stage := rfl
@[simp] theorem State.setSegs_moOut (s : State) (x : List SegCtx) : (s.setSegs x).moOut = s.moOut := rfl
@[simp] theorem State.setSegs_nv (s : State) (x : List SegCtx) : (s.setSegs x).nv = s.nv := rfl
@[simp] theorem State.setSegs_bports (s : State) (x : List SegCtx) : (s.setSegs x).bports = s.bports := rfl
@[simp] theorem State.setSegs_group (s : State) (x : List SegCtx) : (s.setSegs x).group = s.group := rfl
@[simp] theorem State.setSegs_reds (s : State) (x : List SegCtx) : (s.setSegs x).reds = s.reds := rfl
@[simp] theorem State.setSegs_btx (s : State) (x : List SegCtx) : (s.setSegs x).btx = s.btx := rfl
@[simp] theorem State.setSegs_test (s : State) (x : List SegCtx) : (s.setSegs x).test = s.test := rfl
@[simp] theorem State.setSegs_check (s : State) (x : List SegCtx) : (s.setSegs x).check = s.check := rfl
@[simp] theorem State.setSegs_coldHeld (s : State) (x : List SegCtx) : (s.setSegs x).coldHeld = s.coldHeld := rfl
@[simp] theorem State.setSegs_warmHeld (s : State) (x : List SegCtx) : (s.setSegs x).warmHeld = s.warmHeld := rfl
@[simp] theorem State.setSegs_loaded (s : State) (x : List SegCtx) : (s.setSegs x).loaded = s.loaded := rfl
@[simp] theorem State.setSegs_invals (s : State) (x : List SegCtx) : (s.setSegs x).invals = s.invals := rfl
@[simp] theorem State.setSegs_evSeq (s : State) (x : List SegCtx) : (s.setSegs x).evSeq = s.evSeq := rfl
@[simp] theorem State.setSegs_get (s : State) (x : List SegCtx) (o n : Nat) : (s.setSegs x).get o n = s.get o n := rfl
@[simp] theorem State.setSegs_obj (s : State) (x : List SegCtx) (o : Nat) : (s.setSegs x).obj o = s.obj o := rfl
@[simp] theorem State.setSegs_byte (s : State) (x : List SegCtx) (a : Nat) : (s.setSegs x).byte a = s.byte a := rfl
@[simp] theorem State.setSegs_queue (s : State) (x : List SegCtx) (q : Nat) : (s.setSegs x).queue q = s.queue q := rfl
@[simp] theorem State.setSegs_dfind (s : State) (x : List SegCtx) (q n : Nat) : (s.setSegs x).dfind q n = s.dfind q n := rfl
@[simp] theorem State.setSegs_rfind (s : State) (x : List SegCtx) (q n : Nat) : (s.setSegs x).rfind q n = s.rfind q n := rfl
@[simp] theorem State.setSegs_bport (s : State) (x : List SegCtx) (p : Nat) : (s.setSegs x).bport p = s.bport p := rfl

@[simp] theorem State.setStage_stage (s : State) (x : Option Stage) : (s.setStage x).stage = x := rfl
@[simp] theorem State.setStage_variant (s : State) (x : Option Stage) : (s.setStage x).variant = s.variant := rfl
@[simp] theorem State.setStage_reads (s : State) (x : Option Stage) : (s.setStage x).reads = s.reads := rfl
@[simp] theorem State.setStage_holds (s : State) (x : Option Stage) : (s.setStage x).holds = s.holds := rfl
@[simp] theorem State.setStage_gov (s : State) (x : Option Stage) : (s.setStage x).gov = s.gov := rfl
@[simp] theorem State.setStage_pending (s : State) (x : Option Stage) : (s.setStage x).pending = s.pending := rfl
@[simp] theorem State.setStage_objs (s : State) (x : Option Stage) : (s.setStage x).objs = s.objs := rfl
@[simp] theorem State.setStage_digest (s : State) (x : Option Stage) : (s.setStage x).digest = s.digest := rfl
@[simp] theorem State.setStage_cycle (s : State) (x : Option Stage) : (s.setStage x).cycle = s.cycle := rfl
@[simp] theorem State.setStage_freeCtr (s : State) (x : Option Stage) : (s.setStage x).freeCtr = s.freeCtr := rfl
@[simp] theorem State.setStage_mem (s : State) (x : Option Stage) : (s.setStage x).mem = s.mem := rfl
@[simp] theorem State.setStage_reqs (s : State) (x : Option Stage) : (s.setStage x).reqs = s.reqs := rfl
@[simp] theorem State.setStage_queues (s : State) (x : Option Stage) : (s.setStage x).queues = s.queues := rfl
@[simp] theorem State.setStage_bell (s : State) (x : Option Stage) : (s.setStage x).bell = s.bell := rfl
@[simp] theorem State.setStage_form (s : State) (x : Option Stage) : (s.setStage x).form = s.form := rfl
@[simp] theorem State.setStage_hist (s : State) (x : Option Stage) : (s.setStage x).hist = s.hist := rfl
@[simp] theorem State.setStage_soOut (s : State) (x : Option Stage) : (s.setStage x).soOut = s.soOut := rfl
@[simp] theorem State.setStage_chans (s : State) (x : Option Stage) : (s.setStage x).chans = s.chans := rfl
@[simp] theorem State.setStage_routs (s : State) (x : Option Stage) : (s.setStage x).routs = s.routs := rfl
@[simp] theorem State.setStage_evbuf (s : State) (x : Option Stage) : (s.setStage x).evbuf = s.evbuf := rfl
@[simp] theorem State.setStage_segs (s : State) (x : Option Stage) : (s.setStage x).segs = s.segs := rfl
@[simp] theorem State.setStage_moOut (s : State) (x : Option Stage) : (s.setStage x).moOut = s.moOut := rfl
@[simp] theorem State.setStage_nv (s : State) (x : Option Stage) : (s.setStage x).nv = s.nv := rfl
@[simp] theorem State.setStage_bports (s : State) (x : Option Stage) : (s.setStage x).bports = s.bports := rfl
@[simp] theorem State.setStage_group (s : State) (x : Option Stage) : (s.setStage x).group = s.group := rfl
@[simp] theorem State.setStage_reds (s : State) (x : Option Stage) : (s.setStage x).reds = s.reds := rfl
@[simp] theorem State.setStage_btx (s : State) (x : Option Stage) : (s.setStage x).btx = s.btx := rfl
@[simp] theorem State.setStage_test (s : State) (x : Option Stage) : (s.setStage x).test = s.test := rfl
@[simp] theorem State.setStage_check (s : State) (x : Option Stage) : (s.setStage x).check = s.check := rfl
@[simp] theorem State.setStage_coldHeld (s : State) (x : Option Stage) : (s.setStage x).coldHeld = s.coldHeld := rfl
@[simp] theorem State.setStage_warmHeld (s : State) (x : Option Stage) : (s.setStage x).warmHeld = s.warmHeld := rfl
@[simp] theorem State.setStage_loaded (s : State) (x : Option Stage) : (s.setStage x).loaded = s.loaded := rfl
@[simp] theorem State.setStage_invals (s : State) (x : Option Stage) : (s.setStage x).invals = s.invals := rfl
@[simp] theorem State.setStage_evSeq (s : State) (x : Option Stage) : (s.setStage x).evSeq = s.evSeq := rfl
@[simp] theorem State.setStage_get (s : State) (x : Option Stage) (o n : Nat) : (s.setStage x).get o n = s.get o n := rfl
@[simp] theorem State.setStage_obj (s : State) (x : Option Stage) (o : Nat) : (s.setStage x).obj o = s.obj o := rfl
@[simp] theorem State.setStage_byte (s : State) (x : Option Stage) (a : Nat) : (s.setStage x).byte a = s.byte a := rfl
@[simp] theorem State.setStage_queue (s : State) (x : Option Stage) (q : Nat) : (s.setStage x).queue q = s.queue q := rfl
@[simp] theorem State.setStage_dfind (s : State) (x : Option Stage) (q n : Nat) : (s.setStage x).dfind q n = s.dfind q n := rfl
@[simp] theorem State.setStage_rfind (s : State) (x : Option Stage) (q n : Nat) : (s.setStage x).rfind q n = s.rfind q n := rfl
@[simp] theorem State.setStage_bport (s : State) (x : Option Stage) (p : Nat) : (s.setStage x).bport p = s.bport p := rfl

@[simp] theorem State.setMoOut_moOut (s : State) (x : List FinfaResp) : (s.setMoOut x).moOut = x := rfl
@[simp] theorem State.setMoOut_variant (s : State) (x : List FinfaResp) : (s.setMoOut x).variant = s.variant := rfl
@[simp] theorem State.setMoOut_reads (s : State) (x : List FinfaResp) : (s.setMoOut x).reads = s.reads := rfl
@[simp] theorem State.setMoOut_holds (s : State) (x : List FinfaResp) : (s.setMoOut x).holds = s.holds := rfl
@[simp] theorem State.setMoOut_gov (s : State) (x : List FinfaResp) : (s.setMoOut x).gov = s.gov := rfl
@[simp] theorem State.setMoOut_pending (s : State) (x : List FinfaResp) : (s.setMoOut x).pending = s.pending := rfl
@[simp] theorem State.setMoOut_objs (s : State) (x : List FinfaResp) : (s.setMoOut x).objs = s.objs := rfl
@[simp] theorem State.setMoOut_digest (s : State) (x : List FinfaResp) : (s.setMoOut x).digest = s.digest := rfl
@[simp] theorem State.setMoOut_cycle (s : State) (x : List FinfaResp) : (s.setMoOut x).cycle = s.cycle := rfl
@[simp] theorem State.setMoOut_freeCtr (s : State) (x : List FinfaResp) : (s.setMoOut x).freeCtr = s.freeCtr := rfl
@[simp] theorem State.setMoOut_mem (s : State) (x : List FinfaResp) : (s.setMoOut x).mem = s.mem := rfl
@[simp] theorem State.setMoOut_reqs (s : State) (x : List FinfaResp) : (s.setMoOut x).reqs = s.reqs := rfl
@[simp] theorem State.setMoOut_queues (s : State) (x : List FinfaResp) : (s.setMoOut x).queues = s.queues := rfl
@[simp] theorem State.setMoOut_bell (s : State) (x : List FinfaResp) : (s.setMoOut x).bell = s.bell := rfl
@[simp] theorem State.setMoOut_form (s : State) (x : List FinfaResp) : (s.setMoOut x).form = s.form := rfl
@[simp] theorem State.setMoOut_hist (s : State) (x : List FinfaResp) : (s.setMoOut x).hist = s.hist := rfl
@[simp] theorem State.setMoOut_soOut (s : State) (x : List FinfaResp) : (s.setMoOut x).soOut = s.soOut := rfl
@[simp] theorem State.setMoOut_chans (s : State) (x : List FinfaResp) : (s.setMoOut x).chans = s.chans := rfl
@[simp] theorem State.setMoOut_routs (s : State) (x : List FinfaResp) : (s.setMoOut x).routs = s.routs := rfl
@[simp] theorem State.setMoOut_evbuf (s : State) (x : List FinfaResp) : (s.setMoOut x).evbuf = s.evbuf := rfl
@[simp] theorem State.setMoOut_segs (s : State) (x : List FinfaResp) : (s.setMoOut x).segs = s.segs := rfl
@[simp] theorem State.setMoOut_stage (s : State) (x : List FinfaResp) : (s.setMoOut x).stage = s.stage := rfl
@[simp] theorem State.setMoOut_nv (s : State) (x : List FinfaResp) : (s.setMoOut x).nv = s.nv := rfl
@[simp] theorem State.setMoOut_bports (s : State) (x : List FinfaResp) : (s.setMoOut x).bports = s.bports := rfl
@[simp] theorem State.setMoOut_group (s : State) (x : List FinfaResp) : (s.setMoOut x).group = s.group := rfl
@[simp] theorem State.setMoOut_reds (s : State) (x : List FinfaResp) : (s.setMoOut x).reds = s.reds := rfl
@[simp] theorem State.setMoOut_btx (s : State) (x : List FinfaResp) : (s.setMoOut x).btx = s.btx := rfl
@[simp] theorem State.setMoOut_test (s : State) (x : List FinfaResp) : (s.setMoOut x).test = s.test := rfl
@[simp] theorem State.setMoOut_check (s : State) (x : List FinfaResp) : (s.setMoOut x).check = s.check := rfl
@[simp] theorem State.setMoOut_coldHeld (s : State) (x : List FinfaResp) : (s.setMoOut x).coldHeld = s.coldHeld := rfl
@[simp] theorem State.setMoOut_warmHeld (s : State) (x : List FinfaResp) : (s.setMoOut x).warmHeld = s.warmHeld := rfl
@[simp] theorem State.setMoOut_loaded (s : State) (x : List FinfaResp) : (s.setMoOut x).loaded = s.loaded := rfl
@[simp] theorem State.setMoOut_invals (s : State) (x : List FinfaResp) : (s.setMoOut x).invals = s.invals := rfl
@[simp] theorem State.setMoOut_evSeq (s : State) (x : List FinfaResp) : (s.setMoOut x).evSeq = s.evSeq := rfl
@[simp] theorem State.setMoOut_get (s : State) (x : List FinfaResp) (o n : Nat) : (s.setMoOut x).get o n = s.get o n := rfl
@[simp] theorem State.setMoOut_obj (s : State) (x : List FinfaResp) (o : Nat) : (s.setMoOut x).obj o = s.obj o := rfl
@[simp] theorem State.setMoOut_byte (s : State) (x : List FinfaResp) (a : Nat) : (s.setMoOut x).byte a = s.byte a := rfl
@[simp] theorem State.setMoOut_queue (s : State) (x : List FinfaResp) (q : Nat) : (s.setMoOut x).queue q = s.queue q := rfl
@[simp] theorem State.setMoOut_dfind (s : State) (x : List FinfaResp) (q n : Nat) : (s.setMoOut x).dfind q n = s.dfind q n := rfl
@[simp] theorem State.setMoOut_rfind (s : State) (x : List FinfaResp) (q n : Nat) : (s.setMoOut x).rfind q n = s.rfind q n := rfl
@[simp] theorem State.setMoOut_bport (s : State) (x : List FinfaResp) (p : Nat) : (s.setMoOut x).bport p = s.bport p := rfl

@[simp] theorem State.setNv_nv (s : State) (x : Nv) : (s.setNv x).nv = x := rfl
@[simp] theorem State.setNv_variant (s : State) (x : Nv) : (s.setNv x).variant = s.variant := rfl
@[simp] theorem State.setNv_reads (s : State) (x : Nv) : (s.setNv x).reads = s.reads := rfl
@[simp] theorem State.setNv_holds (s : State) (x : Nv) : (s.setNv x).holds = s.holds := rfl
@[simp] theorem State.setNv_gov (s : State) (x : Nv) : (s.setNv x).gov = s.gov := rfl
@[simp] theorem State.setNv_pending (s : State) (x : Nv) : (s.setNv x).pending = s.pending := rfl
@[simp] theorem State.setNv_objs (s : State) (x : Nv) : (s.setNv x).objs = s.objs := rfl
@[simp] theorem State.setNv_digest (s : State) (x : Nv) : (s.setNv x).digest = s.digest := rfl
@[simp] theorem State.setNv_cycle (s : State) (x : Nv) : (s.setNv x).cycle = s.cycle := rfl
@[simp] theorem State.setNv_freeCtr (s : State) (x : Nv) : (s.setNv x).freeCtr = s.freeCtr := rfl
@[simp] theorem State.setNv_mem (s : State) (x : Nv) : (s.setNv x).mem = s.mem := rfl
@[simp] theorem State.setNv_reqs (s : State) (x : Nv) : (s.setNv x).reqs = s.reqs := rfl
@[simp] theorem State.setNv_queues (s : State) (x : Nv) : (s.setNv x).queues = s.queues := rfl
@[simp] theorem State.setNv_bell (s : State) (x : Nv) : (s.setNv x).bell = s.bell := rfl
@[simp] theorem State.setNv_form (s : State) (x : Nv) : (s.setNv x).form = s.form := rfl
@[simp] theorem State.setNv_hist (s : State) (x : Nv) : (s.setNv x).hist = s.hist := rfl
@[simp] theorem State.setNv_soOut (s : State) (x : Nv) : (s.setNv x).soOut = s.soOut := rfl
@[simp] theorem State.setNv_chans (s : State) (x : Nv) : (s.setNv x).chans = s.chans := rfl
@[simp] theorem State.setNv_routs (s : State) (x : Nv) : (s.setNv x).routs = s.routs := rfl
@[simp] theorem State.setNv_evbuf (s : State) (x : Nv) : (s.setNv x).evbuf = s.evbuf := rfl
@[simp] theorem State.setNv_segs (s : State) (x : Nv) : (s.setNv x).segs = s.segs := rfl
@[simp] theorem State.setNv_stage (s : State) (x : Nv) : (s.setNv x).stage = s.stage := rfl
@[simp] theorem State.setNv_moOut (s : State) (x : Nv) : (s.setNv x).moOut = s.moOut := rfl
@[simp] theorem State.setNv_bports (s : State) (x : Nv) : (s.setNv x).bports = s.bports := rfl
@[simp] theorem State.setNv_group (s : State) (x : Nv) : (s.setNv x).group = s.group := rfl
@[simp] theorem State.setNv_reds (s : State) (x : Nv) : (s.setNv x).reds = s.reds := rfl
@[simp] theorem State.setNv_btx (s : State) (x : Nv) : (s.setNv x).btx = s.btx := rfl
@[simp] theorem State.setNv_test (s : State) (x : Nv) : (s.setNv x).test = s.test := rfl
@[simp] theorem State.setNv_check (s : State) (x : Nv) : (s.setNv x).check = s.check := rfl
@[simp] theorem State.setNv_coldHeld (s : State) (x : Nv) : (s.setNv x).coldHeld = s.coldHeld := rfl
@[simp] theorem State.setNv_warmHeld (s : State) (x : Nv) : (s.setNv x).warmHeld = s.warmHeld := rfl
@[simp] theorem State.setNv_loaded (s : State) (x : Nv) : (s.setNv x).loaded = s.loaded := rfl
@[simp] theorem State.setNv_invals (s : State) (x : Nv) : (s.setNv x).invals = s.invals := rfl
@[simp] theorem State.setNv_evSeq (s : State) (x : Nv) : (s.setNv x).evSeq = s.evSeq := rfl
@[simp] theorem State.setNv_get (s : State) (x : Nv) (o n : Nat) : (s.setNv x).get o n = s.get o n := rfl
@[simp] theorem State.setNv_obj (s : State) (x : Nv) (o : Nat) : (s.setNv x).obj o = s.obj o := rfl
@[simp] theorem State.setNv_byte (s : State) (x : Nv) (a : Nat) : (s.setNv x).byte a = s.byte a := rfl
@[simp] theorem State.setNv_queue (s : State) (x : Nv) (q : Nat) : (s.setNv x).queue q = s.queue q := rfl
@[simp] theorem State.setNv_dfind (s : State) (x : Nv) (q n : Nat) : (s.setNv x).dfind q n = s.dfind q n := rfl
@[simp] theorem State.setNv_rfind (s : State) (x : Nv) (q n : Nat) : (s.setNv x).rfind q n = s.rfind q n := rfl
@[simp] theorem State.setNv_bport (s : State) (x : Nv) (p : Nat) : (s.setNv x).bport p = s.bport p := rfl

@[simp] theorem State.setLoaded_loaded (s : State) (x : Bool) : (s.setLoaded x).loaded = x := rfl
@[simp] theorem State.setLoaded_variant (s : State) (x : Bool) : (s.setLoaded x).variant = s.variant := rfl
@[simp] theorem State.setLoaded_reads (s : State) (x : Bool) : (s.setLoaded x).reads = s.reads := rfl
@[simp] theorem State.setLoaded_holds (s : State) (x : Bool) : (s.setLoaded x).holds = s.holds := rfl
@[simp] theorem State.setLoaded_gov (s : State) (x : Bool) : (s.setLoaded x).gov = s.gov := rfl
@[simp] theorem State.setLoaded_pending (s : State) (x : Bool) : (s.setLoaded x).pending = s.pending := rfl
@[simp] theorem State.setLoaded_objs (s : State) (x : Bool) : (s.setLoaded x).objs = s.objs := rfl
@[simp] theorem State.setLoaded_digest (s : State) (x : Bool) : (s.setLoaded x).digest = s.digest := rfl
@[simp] theorem State.setLoaded_cycle (s : State) (x : Bool) : (s.setLoaded x).cycle = s.cycle := rfl
@[simp] theorem State.setLoaded_freeCtr (s : State) (x : Bool) : (s.setLoaded x).freeCtr = s.freeCtr := rfl
@[simp] theorem State.setLoaded_mem (s : State) (x : Bool) : (s.setLoaded x).mem = s.mem := rfl
@[simp] theorem State.setLoaded_reqs (s : State) (x : Bool) : (s.setLoaded x).reqs = s.reqs := rfl
@[simp] theorem State.setLoaded_queues (s : State) (x : Bool) : (s.setLoaded x).queues = s.queues := rfl
@[simp] theorem State.setLoaded_bell (s : State) (x : Bool) : (s.setLoaded x).bell = s.bell := rfl
@[simp] theorem State.setLoaded_form (s : State) (x : Bool) : (s.setLoaded x).form = s.form := rfl
@[simp] theorem State.setLoaded_hist (s : State) (x : Bool) : (s.setLoaded x).hist = s.hist := rfl
@[simp] theorem State.setLoaded_soOut (s : State) (x : Bool) : (s.setLoaded x).soOut = s.soOut := rfl
@[simp] theorem State.setLoaded_chans (s : State) (x : Bool) : (s.setLoaded x).chans = s.chans := rfl
@[simp] theorem State.setLoaded_routs (s : State) (x : Bool) : (s.setLoaded x).routs = s.routs := rfl
@[simp] theorem State.setLoaded_evbuf (s : State) (x : Bool) : (s.setLoaded x).evbuf = s.evbuf := rfl
@[simp] theorem State.setLoaded_segs (s : State) (x : Bool) : (s.setLoaded x).segs = s.segs := rfl
@[simp] theorem State.setLoaded_stage (s : State) (x : Bool) : (s.setLoaded x).stage = s.stage := rfl
@[simp] theorem State.setLoaded_moOut (s : State) (x : Bool) : (s.setLoaded x).moOut = s.moOut := rfl
@[simp] theorem State.setLoaded_nv (s : State) (x : Bool) : (s.setLoaded x).nv = s.nv := rfl
@[simp] theorem State.setLoaded_bports (s : State) (x : Bool) : (s.setLoaded x).bports = s.bports := rfl
@[simp] theorem State.setLoaded_group (s : State) (x : Bool) : (s.setLoaded x).group = s.group := rfl
@[simp] theorem State.setLoaded_reds (s : State) (x : Bool) : (s.setLoaded x).reds = s.reds := rfl
@[simp] theorem State.setLoaded_btx (s : State) (x : Bool) : (s.setLoaded x).btx = s.btx := rfl
@[simp] theorem State.setLoaded_test (s : State) (x : Bool) : (s.setLoaded x).test = s.test := rfl
@[simp] theorem State.setLoaded_check (s : State) (x : Bool) : (s.setLoaded x).check = s.check := rfl
@[simp] theorem State.setLoaded_coldHeld (s : State) (x : Bool) : (s.setLoaded x).coldHeld = s.coldHeld := rfl
@[simp] theorem State.setLoaded_warmHeld (s : State) (x : Bool) : (s.setLoaded x).warmHeld = s.warmHeld := rfl
@[simp] theorem State.setLoaded_invals (s : State) (x : Bool) : (s.setLoaded x).invals = s.invals := rfl
@[simp] theorem State.setLoaded_evSeq (s : State) (x : Bool) : (s.setLoaded x).evSeq = s.evSeq := rfl
@[simp] theorem State.setLoaded_get (s : State) (x : Bool) (o n : Nat) : (s.setLoaded x).get o n = s.get o n := rfl
@[simp] theorem State.setLoaded_obj (s : State) (x : Bool) (o : Nat) : (s.setLoaded x).obj o = s.obj o := rfl
@[simp] theorem State.setLoaded_byte (s : State) (x : Bool) (a : Nat) : (s.setLoaded x).byte a = s.byte a := rfl
@[simp] theorem State.setLoaded_queue (s : State) (x : Bool) (q : Nat) : (s.setLoaded x).queue q = s.queue q := rfl
@[simp] theorem State.setLoaded_dfind (s : State) (x : Bool) (q n : Nat) : (s.setLoaded x).dfind q n = s.dfind q n := rfl
@[simp] theorem State.setLoaded_rfind (s : State) (x : Bool) (q n : Nat) : (s.setLoaded x).rfind q n = s.rfind q n := rfl
@[simp] theorem State.setLoaded_bport (s : State) (x : Bool) (p : Nat) : (s.setLoaded x).bport p = s.bport p := rfl

@[simp] theorem State.setBports_bports (s : State) (x : SMap BPort) : (s.setBports x).bports = x := rfl
@[simp] theorem State.setBports_variant (s : State) (x : SMap BPort) : (s.setBports x).variant = s.variant := rfl
@[simp] theorem State.setBports_reads (s : State) (x : SMap BPort) : (s.setBports x).reads = s.reads := rfl
@[simp] theorem State.setBports_holds (s : State) (x : SMap BPort) : (s.setBports x).holds = s.holds := rfl
@[simp] theorem State.setBports_gov (s : State) (x : SMap BPort) : (s.setBports x).gov = s.gov := rfl
@[simp] theorem State.setBports_pending (s : State) (x : SMap BPort) : (s.setBports x).pending = s.pending := rfl
@[simp] theorem State.setBports_objs (s : State) (x : SMap BPort) : (s.setBports x).objs = s.objs := rfl
@[simp] theorem State.setBports_digest (s : State) (x : SMap BPort) : (s.setBports x).digest = s.digest := rfl
@[simp] theorem State.setBports_cycle (s : State) (x : SMap BPort) : (s.setBports x).cycle = s.cycle := rfl
@[simp] theorem State.setBports_freeCtr (s : State) (x : SMap BPort) : (s.setBports x).freeCtr = s.freeCtr := rfl
@[simp] theorem State.setBports_mem (s : State) (x : SMap BPort) : (s.setBports x).mem = s.mem := rfl
@[simp] theorem State.setBports_reqs (s : State) (x : SMap BPort) : (s.setBports x).reqs = s.reqs := rfl
@[simp] theorem State.setBports_queues (s : State) (x : SMap BPort) : (s.setBports x).queues = s.queues := rfl
@[simp] theorem State.setBports_bell (s : State) (x : SMap BPort) : (s.setBports x).bell = s.bell := rfl
@[simp] theorem State.setBports_form (s : State) (x : SMap BPort) : (s.setBports x).form = s.form := rfl
@[simp] theorem State.setBports_hist (s : State) (x : SMap BPort) : (s.setBports x).hist = s.hist := rfl
@[simp] theorem State.setBports_soOut (s : State) (x : SMap BPort) : (s.setBports x).soOut = s.soOut := rfl
@[simp] theorem State.setBports_chans (s : State) (x : SMap BPort) : (s.setBports x).chans = s.chans := rfl
@[simp] theorem State.setBports_routs (s : State) (x : SMap BPort) : (s.setBports x).routs = s.routs := rfl
@[simp] theorem State.setBports_evbuf (s : State) (x : SMap BPort) : (s.setBports x).evbuf = s.evbuf := rfl
@[simp] theorem State.setBports_segs (s : State) (x : SMap BPort) : (s.setBports x).segs = s.segs := rfl
@[simp] theorem State.setBports_stage (s : State) (x : SMap BPort) : (s.setBports x).stage = s.stage := rfl
@[simp] theorem State.setBports_moOut (s : State) (x : SMap BPort) : (s.setBports x).moOut = s.moOut := rfl
@[simp] theorem State.setBports_nv (s : State) (x : SMap BPort) : (s.setBports x).nv = s.nv := rfl
@[simp] theorem State.setBports_group (s : State) (x : SMap BPort) : (s.setBports x).group = s.group := rfl
@[simp] theorem State.setBports_reds (s : State) (x : SMap BPort) : (s.setBports x).reds = s.reds := rfl
@[simp] theorem State.setBports_btx (s : State) (x : SMap BPort) : (s.setBports x).btx = s.btx := rfl
@[simp] theorem State.setBports_test (s : State) (x : SMap BPort) : (s.setBports x).test = s.test := rfl
@[simp] theorem State.setBports_check (s : State) (x : SMap BPort) : (s.setBports x).check = s.check := rfl
@[simp] theorem State.setBports_coldHeld (s : State) (x : SMap BPort) : (s.setBports x).coldHeld = s.coldHeld := rfl
@[simp] theorem State.setBports_warmHeld (s : State) (x : SMap BPort) : (s.setBports x).warmHeld = s.warmHeld := rfl
@[simp] theorem State.setBports_loaded (s : State) (x : SMap BPort) : (s.setBports x).loaded = s.loaded := rfl
@[simp] theorem State.setBports_invals (s : State) (x : SMap BPort) : (s.setBports x).invals = s.invals := rfl
@[simp] theorem State.setBports_evSeq (s : State) (x : SMap BPort) : (s.setBports x).evSeq = s.evSeq := rfl
@[simp] theorem State.setBports_get (s : State) (x : SMap BPort) (o n : Nat) : (s.setBports x).get o n = s.get o n := rfl
@[simp] theorem State.setBports_obj (s : State) (x : SMap BPort) (o : Nat) : (s.setBports x).obj o = s.obj o := rfl
@[simp] theorem State.setBports_byte (s : State) (x : SMap BPort) (a : Nat) : (s.setBports x).byte a = s.byte a := rfl
@[simp] theorem State.setBports_queue (s : State) (x : SMap BPort) (q : Nat) : (s.setBports x).queue q = s.queue q := rfl
@[simp] theorem State.setBports_dfind (s : State) (x : SMap BPort) (q n : Nat) : (s.setBports x).dfind q n = s.dfind q n := rfl
@[simp] theorem State.setBports_rfind (s : State) (x : SMap BPort) (q n : Nat) : (s.setBports x).rfind q n = s.rfind q n := rfl

@[simp] theorem State.setGroup_group (s : State) (x : Group) : (s.setGroup x).group = x := rfl
@[simp] theorem State.setGroup_variant (s : State) (x : Group) : (s.setGroup x).variant = s.variant := rfl
@[simp] theorem State.setGroup_reads (s : State) (x : Group) : (s.setGroup x).reads = s.reads := rfl
@[simp] theorem State.setGroup_holds (s : State) (x : Group) : (s.setGroup x).holds = s.holds := rfl
@[simp] theorem State.setGroup_gov (s : State) (x : Group) : (s.setGroup x).gov = s.gov := rfl
@[simp] theorem State.setGroup_pending (s : State) (x : Group) : (s.setGroup x).pending = s.pending := rfl
@[simp] theorem State.setGroup_objs (s : State) (x : Group) : (s.setGroup x).objs = s.objs := rfl
@[simp] theorem State.setGroup_digest (s : State) (x : Group) : (s.setGroup x).digest = s.digest := rfl
@[simp] theorem State.setGroup_cycle (s : State) (x : Group) : (s.setGroup x).cycle = s.cycle := rfl
@[simp] theorem State.setGroup_freeCtr (s : State) (x : Group) : (s.setGroup x).freeCtr = s.freeCtr := rfl
@[simp] theorem State.setGroup_mem (s : State) (x : Group) : (s.setGroup x).mem = s.mem := rfl
@[simp] theorem State.setGroup_reqs (s : State) (x : Group) : (s.setGroup x).reqs = s.reqs := rfl
@[simp] theorem State.setGroup_queues (s : State) (x : Group) : (s.setGroup x).queues = s.queues := rfl
@[simp] theorem State.setGroup_bell (s : State) (x : Group) : (s.setGroup x).bell = s.bell := rfl
@[simp] theorem State.setGroup_form (s : State) (x : Group) : (s.setGroup x).form = s.form := rfl
@[simp] theorem State.setGroup_hist (s : State) (x : Group) : (s.setGroup x).hist = s.hist := rfl
@[simp] theorem State.setGroup_soOut (s : State) (x : Group) : (s.setGroup x).soOut = s.soOut := rfl
@[simp] theorem State.setGroup_chans (s : State) (x : Group) : (s.setGroup x).chans = s.chans := rfl
@[simp] theorem State.setGroup_routs (s : State) (x : Group) : (s.setGroup x).routs = s.routs := rfl
@[simp] theorem State.setGroup_evbuf (s : State) (x : Group) : (s.setGroup x).evbuf = s.evbuf := rfl
@[simp] theorem State.setGroup_segs (s : State) (x : Group) : (s.setGroup x).segs = s.segs := rfl
@[simp] theorem State.setGroup_stage (s : State) (x : Group) : (s.setGroup x).stage = s.stage := rfl
@[simp] theorem State.setGroup_moOut (s : State) (x : Group) : (s.setGroup x).moOut = s.moOut := rfl
@[simp] theorem State.setGroup_nv (s : State) (x : Group) : (s.setGroup x).nv = s.nv := rfl
@[simp] theorem State.setGroup_bports (s : State) (x : Group) : (s.setGroup x).bports = s.bports := rfl
@[simp] theorem State.setGroup_reds (s : State) (x : Group) : (s.setGroup x).reds = s.reds := rfl
@[simp] theorem State.setGroup_btx (s : State) (x : Group) : (s.setGroup x).btx = s.btx := rfl
@[simp] theorem State.setGroup_test (s : State) (x : Group) : (s.setGroup x).test = s.test := rfl
@[simp] theorem State.setGroup_check (s : State) (x : Group) : (s.setGroup x).check = s.check := rfl
@[simp] theorem State.setGroup_coldHeld (s : State) (x : Group) : (s.setGroup x).coldHeld = s.coldHeld := rfl
@[simp] theorem State.setGroup_warmHeld (s : State) (x : Group) : (s.setGroup x).warmHeld = s.warmHeld := rfl
@[simp] theorem State.setGroup_loaded (s : State) (x : Group) : (s.setGroup x).loaded = s.loaded := rfl
@[simp] theorem State.setGroup_invals (s : State) (x : Group) : (s.setGroup x).invals = s.invals := rfl
@[simp] theorem State.setGroup_evSeq (s : State) (x : Group) : (s.setGroup x).evSeq = s.evSeq := rfl
@[simp] theorem State.setGroup_get (s : State) (x : Group) (o n : Nat) : (s.setGroup x).get o n = s.get o n := rfl
@[simp] theorem State.setGroup_obj (s : State) (x : Group) (o : Nat) : (s.setGroup x).obj o = s.obj o := rfl
@[simp] theorem State.setGroup_byte (s : State) (x : Group) (a : Nat) : (s.setGroup x).byte a = s.byte a := rfl
@[simp] theorem State.setGroup_queue (s : State) (x : Group) (q : Nat) : (s.setGroup x).queue q = s.queue q := rfl
@[simp] theorem State.setGroup_dfind (s : State) (x : Group) (q n : Nat) : (s.setGroup x).dfind q n = s.dfind q n := rfl
@[simp] theorem State.setGroup_rfind (s : State) (x : Group) (q n : Nat) : (s.setGroup x).rfind q n = s.rfind q n := rfl
@[simp] theorem State.setGroup_bport (s : State) (x : Group) (p : Nat) : (s.setGroup x).bport p = s.bport p := rfl

@[simp] theorem State.setReds_reds (s : State) (x : List RedCtx) : (s.setReds x).reds = x := rfl
@[simp] theorem State.setReds_variant (s : State) (x : List RedCtx) : (s.setReds x).variant = s.variant := rfl
@[simp] theorem State.setReds_reads (s : State) (x : List RedCtx) : (s.setReds x).reads = s.reads := rfl
@[simp] theorem State.setReds_holds (s : State) (x : List RedCtx) : (s.setReds x).holds = s.holds := rfl
@[simp] theorem State.setReds_gov (s : State) (x : List RedCtx) : (s.setReds x).gov = s.gov := rfl
@[simp] theorem State.setReds_pending (s : State) (x : List RedCtx) : (s.setReds x).pending = s.pending := rfl
@[simp] theorem State.setReds_objs (s : State) (x : List RedCtx) : (s.setReds x).objs = s.objs := rfl
@[simp] theorem State.setReds_digest (s : State) (x : List RedCtx) : (s.setReds x).digest = s.digest := rfl
@[simp] theorem State.setReds_cycle (s : State) (x : List RedCtx) : (s.setReds x).cycle = s.cycle := rfl
@[simp] theorem State.setReds_freeCtr (s : State) (x : List RedCtx) : (s.setReds x).freeCtr = s.freeCtr := rfl
@[simp] theorem State.setReds_mem (s : State) (x : List RedCtx) : (s.setReds x).mem = s.mem := rfl
@[simp] theorem State.setReds_reqs (s : State) (x : List RedCtx) : (s.setReds x).reqs = s.reqs := rfl
@[simp] theorem State.setReds_queues (s : State) (x : List RedCtx) : (s.setReds x).queues = s.queues := rfl
@[simp] theorem State.setReds_bell (s : State) (x : List RedCtx) : (s.setReds x).bell = s.bell := rfl
@[simp] theorem State.setReds_form (s : State) (x : List RedCtx) : (s.setReds x).form = s.form := rfl
@[simp] theorem State.setReds_hist (s : State) (x : List RedCtx) : (s.setReds x).hist = s.hist := rfl
@[simp] theorem State.setReds_soOut (s : State) (x : List RedCtx) : (s.setReds x).soOut = s.soOut := rfl
@[simp] theorem State.setReds_chans (s : State) (x : List RedCtx) : (s.setReds x).chans = s.chans := rfl
@[simp] theorem State.setReds_routs (s : State) (x : List RedCtx) : (s.setReds x).routs = s.routs := rfl
@[simp] theorem State.setReds_evbuf (s : State) (x : List RedCtx) : (s.setReds x).evbuf = s.evbuf := rfl
@[simp] theorem State.setReds_segs (s : State) (x : List RedCtx) : (s.setReds x).segs = s.segs := rfl
@[simp] theorem State.setReds_stage (s : State) (x : List RedCtx) : (s.setReds x).stage = s.stage := rfl
@[simp] theorem State.setReds_moOut (s : State) (x : List RedCtx) : (s.setReds x).moOut = s.moOut := rfl
@[simp] theorem State.setReds_nv (s : State) (x : List RedCtx) : (s.setReds x).nv = s.nv := rfl
@[simp] theorem State.setReds_bports (s : State) (x : List RedCtx) : (s.setReds x).bports = s.bports := rfl
@[simp] theorem State.setReds_group (s : State) (x : List RedCtx) : (s.setReds x).group = s.group := rfl
@[simp] theorem State.setReds_btx (s : State) (x : List RedCtx) : (s.setReds x).btx = s.btx := rfl
@[simp] theorem State.setReds_test (s : State) (x : List RedCtx) : (s.setReds x).test = s.test := rfl
@[simp] theorem State.setReds_check (s : State) (x : List RedCtx) : (s.setReds x).check = s.check := rfl
@[simp] theorem State.setReds_coldHeld (s : State) (x : List RedCtx) : (s.setReds x).coldHeld = s.coldHeld := rfl
@[simp] theorem State.setReds_warmHeld (s : State) (x : List RedCtx) : (s.setReds x).warmHeld = s.warmHeld := rfl
@[simp] theorem State.setReds_loaded (s : State) (x : List RedCtx) : (s.setReds x).loaded = s.loaded := rfl
@[simp] theorem State.setReds_invals (s : State) (x : List RedCtx) : (s.setReds x).invals = s.invals := rfl
@[simp] theorem State.setReds_evSeq (s : State) (x : List RedCtx) : (s.setReds x).evSeq = s.evSeq := rfl
@[simp] theorem State.setReds_get (s : State) (x : List RedCtx) (o n : Nat) : (s.setReds x).get o n = s.get o n := rfl
@[simp] theorem State.setReds_obj (s : State) (x : List RedCtx) (o : Nat) : (s.setReds x).obj o = s.obj o := rfl
@[simp] theorem State.setReds_byte (s : State) (x : List RedCtx) (a : Nat) : (s.setReds x).byte a = s.byte a := rfl
@[simp] theorem State.setReds_queue (s : State) (x : List RedCtx) (q : Nat) : (s.setReds x).queue q = s.queue q := rfl
@[simp] theorem State.setReds_dfind (s : State) (x : List RedCtx) (q n : Nat) : (s.setReds x).dfind q n = s.dfind q n := rfl
@[simp] theorem State.setReds_rfind (s : State) (x : List RedCtx) (q n : Nat) : (s.setReds x).rfind q n = s.rfind q n := rfl
@[simp] theorem State.setReds_bport (s : State) (x : List RedCtx) (p : Nat) : (s.setReds x).bport p = s.bport p := rfl

@[simp] theorem State.setBtx_btx (s : State) (x : List (Nat × Frame)) : (s.setBtx x).btx = x := rfl
@[simp] theorem State.setBtx_variant (s : State) (x : List (Nat × Frame)) : (s.setBtx x).variant = s.variant := rfl
@[simp] theorem State.setBtx_reads (s : State) (x : List (Nat × Frame)) : (s.setBtx x).reads = s.reads := rfl
@[simp] theorem State.setBtx_holds (s : State) (x : List (Nat × Frame)) : (s.setBtx x).holds = s.holds := rfl
@[simp] theorem State.setBtx_gov (s : State) (x : List (Nat × Frame)) : (s.setBtx x).gov = s.gov := rfl
@[simp] theorem State.setBtx_pending (s : State) (x : List (Nat × Frame)) : (s.setBtx x).pending = s.pending := rfl
@[simp] theorem State.setBtx_objs (s : State) (x : List (Nat × Frame)) : (s.setBtx x).objs = s.objs := rfl
@[simp] theorem State.setBtx_digest (s : State) (x : List (Nat × Frame)) : (s.setBtx x).digest = s.digest := rfl
@[simp] theorem State.setBtx_cycle (s : State) (x : List (Nat × Frame)) : (s.setBtx x).cycle = s.cycle := rfl
@[simp] theorem State.setBtx_freeCtr (s : State) (x : List (Nat × Frame)) : (s.setBtx x).freeCtr = s.freeCtr := rfl
@[simp] theorem State.setBtx_mem (s : State) (x : List (Nat × Frame)) : (s.setBtx x).mem = s.mem := rfl
@[simp] theorem State.setBtx_reqs (s : State) (x : List (Nat × Frame)) : (s.setBtx x).reqs = s.reqs := rfl
@[simp] theorem State.setBtx_queues (s : State) (x : List (Nat × Frame)) : (s.setBtx x).queues = s.queues := rfl
@[simp] theorem State.setBtx_bell (s : State) (x : List (Nat × Frame)) : (s.setBtx x).bell = s.bell := rfl
@[simp] theorem State.setBtx_form (s : State) (x : List (Nat × Frame)) : (s.setBtx x).form = s.form := rfl
@[simp] theorem State.setBtx_hist (s : State) (x : List (Nat × Frame)) : (s.setBtx x).hist = s.hist := rfl
@[simp] theorem State.setBtx_soOut (s : State) (x : List (Nat × Frame)) : (s.setBtx x).soOut = s.soOut := rfl
@[simp] theorem State.setBtx_chans (s : State) (x : List (Nat × Frame)) : (s.setBtx x).chans = s.chans := rfl
@[simp] theorem State.setBtx_routs (s : State) (x : List (Nat × Frame)) : (s.setBtx x).routs = s.routs := rfl
@[simp] theorem State.setBtx_evbuf (s : State) (x : List (Nat × Frame)) : (s.setBtx x).evbuf = s.evbuf := rfl
@[simp] theorem State.setBtx_segs (s : State) (x : List (Nat × Frame)) : (s.setBtx x).segs = s.segs := rfl
@[simp] theorem State.setBtx_stage (s : State) (x : List (Nat × Frame)) : (s.setBtx x).stage = s.stage := rfl
@[simp] theorem State.setBtx_moOut (s : State) (x : List (Nat × Frame)) : (s.setBtx x).moOut = s.moOut := rfl
@[simp] theorem State.setBtx_nv (s : State) (x : List (Nat × Frame)) : (s.setBtx x).nv = s.nv := rfl
@[simp] theorem State.setBtx_bports (s : State) (x : List (Nat × Frame)) : (s.setBtx x).bports = s.bports := rfl
@[simp] theorem State.setBtx_group (s : State) (x : List (Nat × Frame)) : (s.setBtx x).group = s.group := rfl
@[simp] theorem State.setBtx_reds (s : State) (x : List (Nat × Frame)) : (s.setBtx x).reds = s.reds := rfl
@[simp] theorem State.setBtx_test (s : State) (x : List (Nat × Frame)) : (s.setBtx x).test = s.test := rfl
@[simp] theorem State.setBtx_check (s : State) (x : List (Nat × Frame)) : (s.setBtx x).check = s.check := rfl
@[simp] theorem State.setBtx_coldHeld (s : State) (x : List (Nat × Frame)) : (s.setBtx x).coldHeld = s.coldHeld := rfl
@[simp] theorem State.setBtx_warmHeld (s : State) (x : List (Nat × Frame)) : (s.setBtx x).warmHeld = s.warmHeld := rfl
@[simp] theorem State.setBtx_loaded (s : State) (x : List (Nat × Frame)) : (s.setBtx x).loaded = s.loaded := rfl
@[simp] theorem State.setBtx_invals (s : State) (x : List (Nat × Frame)) : (s.setBtx x).invals = s.invals := rfl
@[simp] theorem State.setBtx_evSeq (s : State) (x : List (Nat × Frame)) : (s.setBtx x).evSeq = s.evSeq := rfl
@[simp] theorem State.setBtx_get (s : State) (x : List (Nat × Frame)) (o n : Nat) : (s.setBtx x).get o n = s.get o n := rfl
@[simp] theorem State.setBtx_obj (s : State) (x : List (Nat × Frame)) (o : Nat) : (s.setBtx x).obj o = s.obj o := rfl
@[simp] theorem State.setBtx_byte (s : State) (x : List (Nat × Frame)) (a : Nat) : (s.setBtx x).byte a = s.byte a := rfl
@[simp] theorem State.setBtx_queue (s : State) (x : List (Nat × Frame)) (q : Nat) : (s.setBtx x).queue q = s.queue q := rfl
@[simp] theorem State.setBtx_dfind (s : State) (x : List (Nat × Frame)) (q n : Nat) : (s.setBtx x).dfind q n = s.dfind q n := rfl
@[simp] theorem State.setBtx_rfind (s : State) (x : List (Nat × Frame)) (q n : Nat) : (s.setBtx x).rfind q n = s.rfind q n := rfl
@[simp] theorem State.setBtx_bport (s : State) (x : List (Nat × Frame)) (p : Nat) : (s.setBtx x).bport p = s.bport p := rfl

@[simp] theorem State.setTest_test (s : State) (x : Option TestRt) : (s.setTest x).test = x := rfl
@[simp] theorem State.setTest_variant (s : State) (x : Option TestRt) : (s.setTest x).variant = s.variant := rfl
@[simp] theorem State.setTest_reads (s : State) (x : Option TestRt) : (s.setTest x).reads = s.reads := rfl
@[simp] theorem State.setTest_holds (s : State) (x : Option TestRt) : (s.setTest x).holds = s.holds := rfl
@[simp] theorem State.setTest_gov (s : State) (x : Option TestRt) : (s.setTest x).gov = s.gov := rfl
@[simp] theorem State.setTest_pending (s : State) (x : Option TestRt) : (s.setTest x).pending = s.pending := rfl
@[simp] theorem State.setTest_objs (s : State) (x : Option TestRt) : (s.setTest x).objs = s.objs := rfl
@[simp] theorem State.setTest_digest (s : State) (x : Option TestRt) : (s.setTest x).digest = s.digest := rfl
@[simp] theorem State.setTest_cycle (s : State) (x : Option TestRt) : (s.setTest x).cycle = s.cycle := rfl
@[simp] theorem State.setTest_freeCtr (s : State) (x : Option TestRt) : (s.setTest x).freeCtr = s.freeCtr := rfl
@[simp] theorem State.setTest_mem (s : State) (x : Option TestRt) : (s.setTest x).mem = s.mem := rfl
@[simp] theorem State.setTest_reqs (s : State) (x : Option TestRt) : (s.setTest x).reqs = s.reqs := rfl
@[simp] theorem State.setTest_queues (s : State) (x : Option TestRt) : (s.setTest x).queues = s.queues := rfl
@[simp] theorem State.setTest_bell (s : State) (x : Option TestRt) : (s.setTest x).bell = s.bell := rfl
@[simp] theorem State.setTest_form (s : State) (x : Option TestRt) : (s.setTest x).form = s.form := rfl
@[simp] theorem State.setTest_hist (s : State) (x : Option TestRt) : (s.setTest x).hist = s.hist := rfl
@[simp] theorem State.setTest_soOut (s : State) (x : Option TestRt) : (s.setTest x).soOut = s.soOut := rfl
@[simp] theorem State.setTest_chans (s : State) (x : Option TestRt) : (s.setTest x).chans = s.chans := rfl
@[simp] theorem State.setTest_routs (s : State) (x : Option TestRt) : (s.setTest x).routs = s.routs := rfl
@[simp] theorem State.setTest_evbuf (s : State) (x : Option TestRt) : (s.setTest x).evbuf = s.evbuf := rfl
@[simp] theorem State.setTest_segs (s : State) (x : Option TestRt) : (s.setTest x).segs = s.segs := rfl
@[simp] theorem State.setTest_stage (s : State) (x : Option TestRt) : (s.setTest x).stage = s.stage := rfl
@[simp] theorem State.setTest_moOut (s : State) (x : Option TestRt) : (s.setTest x).moOut = s.moOut := rfl
@[simp] theorem State.setTest_nv (s : State) (x : Option TestRt) : (s.setTest x).nv = s.nv := rfl
@[simp] theorem State.setTest_bports (s : State) (x : Option TestRt) : (s.setTest x).bports = s.bports := rfl
@[simp] theorem State.setTest_group (s : State) (x : Option TestRt) : (s.setTest x).group = s.group := rfl
@[simp] theorem State.setTest_reds (s : State) (x : Option TestRt) : (s.setTest x).reds = s.reds := rfl
@[simp] theorem State.setTest_btx (s : State) (x : Option TestRt) : (s.setTest x).btx = s.btx := rfl
@[simp] theorem State.setTest_check (s : State) (x : Option TestRt) : (s.setTest x).check = s.check := rfl
@[simp] theorem State.setTest_coldHeld (s : State) (x : Option TestRt) : (s.setTest x).coldHeld = s.coldHeld := rfl
@[simp] theorem State.setTest_warmHeld (s : State) (x : Option TestRt) : (s.setTest x).warmHeld = s.warmHeld := rfl
@[simp] theorem State.setTest_loaded (s : State) (x : Option TestRt) : (s.setTest x).loaded = s.loaded := rfl
@[simp] theorem State.setTest_invals (s : State) (x : Option TestRt) : (s.setTest x).invals = s.invals := rfl
@[simp] theorem State.setTest_evSeq (s : State) (x : Option TestRt) : (s.setTest x).evSeq = s.evSeq := rfl
@[simp] theorem State.setTest_get (s : State) (x : Option TestRt) (o n : Nat) : (s.setTest x).get o n = s.get o n := rfl
@[simp] theorem State.setTest_obj (s : State) (x : Option TestRt) (o : Nat) : (s.setTest x).obj o = s.obj o := rfl
@[simp] theorem State.setTest_byte (s : State) (x : Option TestRt) (a : Nat) : (s.setTest x).byte a = s.byte a := rfl
@[simp] theorem State.setTest_queue (s : State) (x : Option TestRt) (q : Nat) : (s.setTest x).queue q = s.queue q := rfl
@[simp] theorem State.setTest_dfind (s : State) (x : Option TestRt) (q n : Nat) : (s.setTest x).dfind q n = s.dfind q n := rfl
@[simp] theorem State.setTest_rfind (s : State) (x : Option TestRt) (q n : Nat) : (s.setTest x).rfind q n = s.rfind q n := rfl
@[simp] theorem State.setTest_bport (s : State) (x : Option TestRt) (p : Nat) : (s.setTest x).bport p = s.bport p := rfl

@[simp] theorem State.setIjtag_ijtag (s : State) (x : Nat) : (s.setIjtag x).ijtag = x := rfl
@[simp] theorem State.setIjtag_variant (s : State) (x : Nat) : (s.setIjtag x).variant = s.variant := rfl
@[simp] theorem State.setIjtag_reads (s : State) (x : Nat) : (s.setIjtag x).reads = s.reads := rfl
@[simp] theorem State.setIjtag_holds (s : State) (x : Nat) : (s.setIjtag x).holds = s.holds := rfl
@[simp] theorem State.setIjtag_gov (s : State) (x : Nat) : (s.setIjtag x).gov = s.gov := rfl
@[simp] theorem State.setIjtag_pending (s : State) (x : Nat) : (s.setIjtag x).pending = s.pending := rfl
@[simp] theorem State.setIjtag_objs (s : State) (x : Nat) : (s.setIjtag x).objs = s.objs := rfl
@[simp] theorem State.setIjtag_digest (s : State) (x : Nat) : (s.setIjtag x).digest = s.digest := rfl
@[simp] theorem State.setIjtag_cycle (s : State) (x : Nat) : (s.setIjtag x).cycle = s.cycle := rfl
@[simp] theorem State.setIjtag_freeCtr (s : State) (x : Nat) : (s.setIjtag x).freeCtr = s.freeCtr := rfl
@[simp] theorem State.setIjtag_mem (s : State) (x : Nat) : (s.setIjtag x).mem = s.mem := rfl
@[simp] theorem State.setIjtag_reqs (s : State) (x : Nat) : (s.setIjtag x).reqs = s.reqs := rfl
@[simp] theorem State.setIjtag_queues (s : State) (x : Nat) : (s.setIjtag x).queues = s.queues := rfl
@[simp] theorem State.setIjtag_bell (s : State) (x : Nat) : (s.setIjtag x).bell = s.bell := rfl
@[simp] theorem State.setIjtag_form (s : State) (x : Nat) : (s.setIjtag x).form = s.form := rfl
@[simp] theorem State.setIjtag_hist (s : State) (x : Nat) : (s.setIjtag x).hist = s.hist := rfl
@[simp] theorem State.setIjtag_soOut (s : State) (x : Nat) : (s.setIjtag x).soOut = s.soOut := rfl
@[simp] theorem State.setIjtag_chans (s : State) (x : Nat) : (s.setIjtag x).chans = s.chans := rfl
@[simp] theorem State.setIjtag_routs (s : State) (x : Nat) : (s.setIjtag x).routs = s.routs := rfl
@[simp] theorem State.setIjtag_evbuf (s : State) (x : Nat) : (s.setIjtag x).evbuf = s.evbuf := rfl
@[simp] theorem State.setIjtag_segs (s : State) (x : Nat) : (s.setIjtag x).segs = s.segs := rfl
@[simp] theorem State.setIjtag_stage (s : State) (x : Nat) : (s.setIjtag x).stage = s.stage := rfl
@[simp] theorem State.setIjtag_moOut (s : State) (x : Nat) : (s.setIjtag x).moOut = s.moOut := rfl
@[simp] theorem State.setIjtag_nv (s : State) (x : Nat) : (s.setIjtag x).nv = s.nv := rfl
@[simp] theorem State.setIjtag_bports (s : State) (x : Nat) : (s.setIjtag x).bports = s.bports := rfl
@[simp] theorem State.setIjtag_group (s : State) (x : Nat) : (s.setIjtag x).group = s.group := rfl
@[simp] theorem State.setIjtag_reds (s : State) (x : Nat) : (s.setIjtag x).reds = s.reds := rfl
@[simp] theorem State.setIjtag_btx (s : State) (x : Nat) : (s.setIjtag x).btx = s.btx := rfl
@[simp] theorem State.setIjtag_test (s : State) (x : Nat) : (s.setIjtag x).test = s.test := rfl
@[simp] theorem State.setIjtag_check (s : State) (x : Nat) : (s.setIjtag x).check = s.check := rfl
@[simp] theorem State.setIjtag_coldHeld (s : State) (x : Nat) : (s.setIjtag x).coldHeld = s.coldHeld := rfl
@[simp] theorem State.setIjtag_warmHeld (s : State) (x : Nat) : (s.setIjtag x).warmHeld = s.warmHeld := rfl
@[simp] theorem State.setIjtag_loaded (s : State) (x : Nat) : (s.setIjtag x).loaded = s.loaded := rfl
@[simp] theorem State.setIjtag_invals (s : State) (x : Nat) : (s.setIjtag x).invals = s.invals := rfl
@[simp] theorem State.setIjtag_evSeq (s : State) (x : Nat) : (s.setIjtag x).evSeq = s.evSeq := rfl
@[simp] theorem State.setIjtag_get (s : State) (x : Nat) (o n : Nat) : (s.setIjtag x).get o n = s.get o n := rfl
@[simp] theorem State.setIjtag_obj (s : State) (x : Nat) (o : Nat) : (s.setIjtag x).obj o = s.obj o := rfl
@[simp] theorem State.setIjtag_byte (s : State) (x : Nat) (a : Nat) : (s.setIjtag x).byte a = s.byte a := rfl
@[simp] theorem State.setIjtag_queue (s : State) (x : Nat) (q : Nat) : (s.setIjtag x).queue q = s.queue q := rfl
@[simp] theorem State.setIjtag_dfind (s : State) (x : Nat) (q n : Nat) : (s.setIjtag x).dfind q n = s.dfind q n := rfl
@[simp] theorem State.setIjtag_rfind (s : State) (x : Nat) (q n : Nat) : (s.setIjtag x).rfind q n = s.rfind q n := rfl
@[simp] theorem State.setIjtag_bport (s : State) (x : Nat) (p : Nat) : (s.setIjtag x).bport p = s.bport p := rfl

@[simp] theorem State.setCheck_check (s : State) (x : Option PortCheck) : (s.setCheck x).check = x := rfl
@[simp] theorem State.setCheck_variant (s : State) (x : Option PortCheck) : (s.setCheck x).variant = s.variant := rfl
@[simp] theorem State.setCheck_reads (s : State) (x : Option PortCheck) : (s.setCheck x).reads = s.reads := rfl
@[simp] theorem State.setCheck_holds (s : State) (x : Option PortCheck) : (s.setCheck x).holds = s.holds := rfl
@[simp] theorem State.setCheck_gov (s : State) (x : Option PortCheck) : (s.setCheck x).gov = s.gov := rfl
@[simp] theorem State.setCheck_pending (s : State) (x : Option PortCheck) : (s.setCheck x).pending = s.pending := rfl
@[simp] theorem State.setCheck_objs (s : State) (x : Option PortCheck) : (s.setCheck x).objs = s.objs := rfl
@[simp] theorem State.setCheck_digest (s : State) (x : Option PortCheck) : (s.setCheck x).digest = s.digest := rfl
@[simp] theorem State.setCheck_cycle (s : State) (x : Option PortCheck) : (s.setCheck x).cycle = s.cycle := rfl
@[simp] theorem State.setCheck_freeCtr (s : State) (x : Option PortCheck) : (s.setCheck x).freeCtr = s.freeCtr := rfl
@[simp] theorem State.setCheck_mem (s : State) (x : Option PortCheck) : (s.setCheck x).mem = s.mem := rfl
@[simp] theorem State.setCheck_reqs (s : State) (x : Option PortCheck) : (s.setCheck x).reqs = s.reqs := rfl
@[simp] theorem State.setCheck_queues (s : State) (x : Option PortCheck) : (s.setCheck x).queues = s.queues := rfl
@[simp] theorem State.setCheck_bell (s : State) (x : Option PortCheck) : (s.setCheck x).bell = s.bell := rfl
@[simp] theorem State.setCheck_form (s : State) (x : Option PortCheck) : (s.setCheck x).form = s.form := rfl
@[simp] theorem State.setCheck_hist (s : State) (x : Option PortCheck) : (s.setCheck x).hist = s.hist := rfl
@[simp] theorem State.setCheck_soOut (s : State) (x : Option PortCheck) : (s.setCheck x).soOut = s.soOut := rfl
@[simp] theorem State.setCheck_chans (s : State) (x : Option PortCheck) : (s.setCheck x).chans = s.chans := rfl
@[simp] theorem State.setCheck_routs (s : State) (x : Option PortCheck) : (s.setCheck x).routs = s.routs := rfl
@[simp] theorem State.setCheck_evbuf (s : State) (x : Option PortCheck) : (s.setCheck x).evbuf = s.evbuf := rfl
@[simp] theorem State.setCheck_segs (s : State) (x : Option PortCheck) : (s.setCheck x).segs = s.segs := rfl
@[simp] theorem State.setCheck_stage (s : State) (x : Option PortCheck) : (s.setCheck x).stage = s.stage := rfl
@[simp] theorem State.setCheck_moOut (s : State) (x : Option PortCheck) : (s.setCheck x).moOut = s.moOut := rfl
@[simp] theorem State.setCheck_nv (s : State) (x : Option PortCheck) : (s.setCheck x).nv = s.nv := rfl
@[simp] theorem State.setCheck_bports (s : State) (x : Option PortCheck) : (s.setCheck x).bports = s.bports := rfl
@[simp] theorem State.setCheck_group (s : State) (x : Option PortCheck) : (s.setCheck x).group = s.group := rfl
@[simp] theorem State.setCheck_reds (s : State) (x : Option PortCheck) : (s.setCheck x).reds = s.reds := rfl
@[simp] theorem State.setCheck_btx (s : State) (x : Option PortCheck) : (s.setCheck x).btx = s.btx := rfl
@[simp] theorem State.setCheck_test (s : State) (x : Option PortCheck) : (s.setCheck x).test = s.test := rfl
@[simp] theorem State.setCheck_coldHeld (s : State) (x : Option PortCheck) : (s.setCheck x).coldHeld = s.coldHeld := rfl
@[simp] theorem State.setCheck_warmHeld (s : State) (x : Option PortCheck) : (s.setCheck x).warmHeld = s.warmHeld := rfl
@[simp] theorem State.setCheck_loaded (s : State) (x : Option PortCheck) : (s.setCheck x).loaded = s.loaded := rfl
@[simp] theorem State.setCheck_invals (s : State) (x : Option PortCheck) : (s.setCheck x).invals = s.invals := rfl
@[simp] theorem State.setCheck_evSeq (s : State) (x : Option PortCheck) : (s.setCheck x).evSeq = s.evSeq := rfl
@[simp] theorem State.setCheck_get (s : State) (x : Option PortCheck) (o n : Nat) : (s.setCheck x).get o n = s.get o n := rfl
@[simp] theorem State.setCheck_obj (s : State) (x : Option PortCheck) (o : Nat) : (s.setCheck x).obj o = s.obj o := rfl
@[simp] theorem State.setCheck_byte (s : State) (x : Option PortCheck) (a : Nat) : (s.setCheck x).byte a = s.byte a := rfl
@[simp] theorem State.setCheck_queue (s : State) (x : Option PortCheck) (q : Nat) : (s.setCheck x).queue q = s.queue q := rfl
@[simp] theorem State.setCheck_dfind (s : State) (x : Option PortCheck) (q n : Nat) : (s.setCheck x).dfind q n = s.dfind q n := rfl
@[simp] theorem State.setCheck_rfind (s : State) (x : Option PortCheck) (q n : Nat) : (s.setCheck x).rfind q n = s.rfind q n := rfl
@[simp] theorem State.setCheck_bport (s : State) (x : Option PortCheck) (p : Nat) : (s.setCheck x).bport p = s.bport p := rfl

@[simp] theorem State.setWirs_wirs (s : State) (x : List (Macro × Nat)) : (s.setWirs x).wirs = x := rfl
@[simp] theorem State.setWirs_variant (s : State) (x : List (Macro × Nat)) : (s.setWirs x).variant = s.variant := rfl
@[simp] theorem State.setWirs_reads (s : State) (x : List (Macro × Nat)) : (s.setWirs x).reads = s.reads := rfl
@[simp] theorem State.setWirs_holds (s : State) (x : List (Macro × Nat)) : (s.setWirs x).holds = s.holds := rfl
@[simp] theorem State.setWirs_gov (s : State) (x : List (Macro × Nat)) : (s.setWirs x).gov = s.gov := rfl
@[simp] theorem State.setWirs_pending (s : State) (x : List (Macro × Nat)) : (s.setWirs x).pending = s.pending := rfl
@[simp] theorem State.setWirs_objs (s : State) (x : List (Macro × Nat)) : (s.setWirs x).objs = s.objs := rfl
@[simp] theorem State.setWirs_digest (s : State) (x : List (Macro × Nat)) : (s.setWirs x).digest = s.digest := rfl
@[simp] theorem State.setWirs_cycle (s : State) (x : List (Macro × Nat)) : (s.setWirs x).cycle = s.cycle := rfl
@[simp] theorem State.setWirs_freeCtr (s : State) (x : List (Macro × Nat)) : (s.setWirs x).freeCtr = s.freeCtr := rfl
@[simp] theorem State.setWirs_mem (s : State) (x : List (Macro × Nat)) : (s.setWirs x).mem = s.mem := rfl
@[simp] theorem State.setWirs_reqs (s : State) (x : List (Macro × Nat)) : (s.setWirs x).reqs = s.reqs := rfl
@[simp] theorem State.setWirs_queues (s : State) (x : List (Macro × Nat)) : (s.setWirs x).queues = s.queues := rfl
@[simp] theorem State.setWirs_bell (s : State) (x : List (Macro × Nat)) : (s.setWirs x).bell = s.bell := rfl
@[simp] theorem State.setWirs_form (s : State) (x : List (Macro × Nat)) : (s.setWirs x).form = s.form := rfl
@[simp] theorem State.setWirs_hist (s : State) (x : List (Macro × Nat)) : (s.setWirs x).hist = s.hist := rfl
@[simp] theorem State.setWirs_soOut (s : State) (x : List (Macro × Nat)) : (s.setWirs x).soOut = s.soOut := rfl
@[simp] theorem State.setWirs_chans (s : State) (x : List (Macro × Nat)) : (s.setWirs x).chans = s.chans := rfl
@[simp] theorem State.setWirs_routs (s : State) (x : List (Macro × Nat)) : (s.setWirs x).routs = s.routs := rfl
@[simp] theorem State.setWirs_evbuf (s : State) (x : List (Macro × Nat)) : (s.setWirs x).evbuf = s.evbuf := rfl
@[simp] theorem State.setWirs_segs (s : State) (x : List (Macro × Nat)) : (s.setWirs x).segs = s.segs := rfl
@[simp] theorem State.setWirs_stage (s : State) (x : List (Macro × Nat)) : (s.setWirs x).stage = s.stage := rfl
@[simp] theorem State.setWirs_moOut (s : State) (x : List (Macro × Nat)) : (s.setWirs x).moOut = s.moOut := rfl
@[simp] theorem State.setWirs_nv (s : State) (x : List (Macro × Nat)) : (s.setWirs x).nv = s.nv := rfl
@[simp] theorem State.setWirs_bports (s : State) (x : List (Macro × Nat)) : (s.setWirs x).bports = s.bports := rfl
@[simp] theorem State.setWirs_group (s : State) (x : List (Macro × Nat)) : (s.setWirs x).group = s.group := rfl
@[simp] theorem State.setWirs_reds (s : State) (x : List (Macro × Nat)) : (s.setWirs x).reds = s.reds := rfl
@[simp] theorem State.setWirs_btx (s : State) (x : List (Macro × Nat)) : (s.setWirs x).btx = s.btx := rfl
@[simp] theorem State.setWirs_test (s : State) (x : List (Macro × Nat)) : (s.setWirs x).test = s.test := rfl
@[simp] theorem State.setWirs_check (s : State) (x : List (Macro × Nat)) : (s.setWirs x).check = s.check := rfl
@[simp] theorem State.setWirs_coldHeld (s : State) (x : List (Macro × Nat)) : (s.setWirs x).coldHeld = s.coldHeld := rfl
@[simp] theorem State.setWirs_warmHeld (s : State) (x : List (Macro × Nat)) : (s.setWirs x).warmHeld = s.warmHeld := rfl
@[simp] theorem State.setWirs_loaded (s : State) (x : List (Macro × Nat)) : (s.setWirs x).loaded = s.loaded := rfl
@[simp] theorem State.setWirs_invals (s : State) (x : List (Macro × Nat)) : (s.setWirs x).invals = s.invals := rfl
@[simp] theorem State.setWirs_evSeq (s : State) (x : List (Macro × Nat)) : (s.setWirs x).evSeq = s.evSeq := rfl
@[simp] theorem State.setWirs_get (s : State) (x : List (Macro × Nat)) (o n : Nat) : (s.setWirs x).get o n = s.get o n := rfl
@[simp] theorem State.setWirs_obj (s : State) (x : List (Macro × Nat)) (o : Nat) : (s.setWirs x).obj o = s.obj o := rfl
@[simp] theorem State.setWirs_byte (s : State) (x : List (Macro × Nat)) (a : Nat) : (s.setWirs x).byte a = s.byte a := rfl
@[simp] theorem State.setWirs_queue (s : State) (x : List (Macro × Nat)) (q : Nat) : (s.setWirs x).queue q = s.queue q := rfl
@[simp] theorem State.setWirs_dfind (s : State) (x : List (Macro × Nat)) (q n : Nat) : (s.setWirs x).dfind q n = s.dfind q n := rfl
@[simp] theorem State.setWirs_rfind (s : State) (x : List (Macro × Nat)) (q n : Nat) : (s.setWirs x).rfind q n = s.rfind q n := rfl
@[simp] theorem State.setWirs_bport (s : State) (x : List (Macro × Nat)) (p : Nat) : (s.setWirs x).bport p = s.bport p := rfl

@[simp] theorem State.setTestMode_testMode (s : State) (x : Bool) : (s.setTestMode x).testMode = x := rfl
@[simp] theorem State.setTestMode_variant (s : State) (x : Bool) : (s.setTestMode x).variant = s.variant := rfl
@[simp] theorem State.setTestMode_reads (s : State) (x : Bool) : (s.setTestMode x).reads = s.reads := rfl
@[simp] theorem State.setTestMode_holds (s : State) (x : Bool) : (s.setTestMode x).holds = s.holds := rfl
@[simp] theorem State.setTestMode_gov (s : State) (x : Bool) : (s.setTestMode x).gov = s.gov := rfl
@[simp] theorem State.setTestMode_pending (s : State) (x : Bool) : (s.setTestMode x).pending = s.pending := rfl
@[simp] theorem State.setTestMode_objs (s : State) (x : Bool) : (s.setTestMode x).objs = s.objs := rfl
@[simp] theorem State.setTestMode_digest (s : State) (x : Bool) : (s.setTestMode x).digest = s.digest := rfl
@[simp] theorem State.setTestMode_cycle (s : State) (x : Bool) : (s.setTestMode x).cycle = s.cycle := rfl
@[simp] theorem State.setTestMode_freeCtr (s : State) (x : Bool) : (s.setTestMode x).freeCtr = s.freeCtr := rfl
@[simp] theorem State.setTestMode_mem (s : State) (x : Bool) : (s.setTestMode x).mem = s.mem := rfl
@[simp] theorem State.setTestMode_reqs (s : State) (x : Bool) : (s.setTestMode x).reqs = s.reqs := rfl
@[simp] theorem State.setTestMode_queues (s : State) (x : Bool) : (s.setTestMode x).queues = s.queues := rfl
@[simp] theorem State.setTestMode_bell (s : State) (x : Bool) : (s.setTestMode x).bell = s.bell := rfl
@[simp] theorem State.setTestMode_form (s : State) (x : Bool) : (s.setTestMode x).form = s.form := rfl
@[simp] theorem State.setTestMode_hist (s : State) (x : Bool) : (s.setTestMode x).hist = s.hist := rfl
@[simp] theorem State.setTestMode_soOut (s : State) (x : Bool) : (s.setTestMode x).soOut = s.soOut := rfl
@[simp] theorem State.setTestMode_chans (s : State) (x : Bool) : (s.setTestMode x).chans = s.chans := rfl
@[simp] theorem State.setTestMode_routs (s : State) (x : Bool) : (s.setTestMode x).routs = s.routs := rfl
@[simp] theorem State.setTestMode_evbuf (s : State) (x : Bool) : (s.setTestMode x).evbuf = s.evbuf := rfl
@[simp] theorem State.setTestMode_segs (s : State) (x : Bool) : (s.setTestMode x).segs = s.segs := rfl
@[simp] theorem State.setTestMode_stage (s : State) (x : Bool) : (s.setTestMode x).stage = s.stage := rfl
@[simp] theorem State.setTestMode_moOut (s : State) (x : Bool) : (s.setTestMode x).moOut = s.moOut := rfl
@[simp] theorem State.setTestMode_nv (s : State) (x : Bool) : (s.setTestMode x).nv = s.nv := rfl
@[simp] theorem State.setTestMode_bports (s : State) (x : Bool) : (s.setTestMode x).bports = s.bports := rfl
@[simp] theorem State.setTestMode_group (s : State) (x : Bool) : (s.setTestMode x).group = s.group := rfl
@[simp] theorem State.setTestMode_reds (s : State) (x : Bool) : (s.setTestMode x).reds = s.reds := rfl
@[simp] theorem State.setTestMode_btx (s : State) (x : Bool) : (s.setTestMode x).btx = s.btx := rfl
@[simp] theorem State.setTestMode_test (s : State) (x : Bool) : (s.setTestMode x).test = s.test := rfl
@[simp] theorem State.setTestMode_check (s : State) (x : Bool) : (s.setTestMode x).check = s.check := rfl
@[simp] theorem State.setTestMode_coldHeld (s : State) (x : Bool) : (s.setTestMode x).coldHeld = s.coldHeld := rfl
@[simp] theorem State.setTestMode_warmHeld (s : State) (x : Bool) : (s.setTestMode x).warmHeld = s.warmHeld := rfl
@[simp] theorem State.setTestMode_loaded (s : State) (x : Bool) : (s.setTestMode x).loaded = s.loaded := rfl
@[simp] theorem State.setTestMode_invals (s : State) (x : Bool) : (s.setTestMode x).invals = s.invals := rfl
@[simp] theorem State.setTestMode_evSeq (s : State) (x : Bool) : (s.setTestMode x).evSeq = s.evSeq := rfl
@[simp] theorem State.setTestMode_get (s : State) (x : Bool) (o n : Nat) : (s.setTestMode x).get o n = s.get o n := rfl
@[simp] theorem State.setTestMode_obj (s : State) (x : Bool) (o : Nat) : (s.setTestMode x).obj o = s.obj o := rfl
@[simp] theorem State.setTestMode_byte (s : State) (x : Bool) (a : Nat) : (s.setTestMode x).byte a = s.byte a := rfl
@[simp] theorem State.setTestMode_queue (s : State) (x : Bool) (q : Nat) : (s.setTestMode x).queue q = s.queue q := rfl
@[simp] theorem State.setTestMode_dfind (s : State) (x : Bool) (q n : Nat) : (s.setTestMode x).dfind q n = s.dfind q n := rfl
@[simp] theorem State.setTestMode_rfind (s : State) (x : Bool) (q n : Nat) : (s.setTestMode x).rfind q n = s.rfind q n := rfl
@[simp] theorem State.setTestMode_bport (s : State) (x : Bool) (p : Nat) : (s.setTestMode x).bport p = s.bport p := rfl

@[simp] theorem State.setColdHeld_coldHeld (s : State) (x : Bool) : (s.setColdHeld x).coldHeld = x := rfl
@[simp] theorem State.setColdHeld_variant (s : State) (x : Bool) : (s.setColdHeld x).variant = s.variant := rfl
@[simp] theorem State.setColdHeld_reads (s : State) (x : Bool) : (s.setColdHeld x).reads = s.reads := rfl
@[simp] theorem State.setColdHeld_holds (s : State) (x : Bool) : (s.setColdHeld x).holds = s.holds := rfl
@[simp] theorem State.setColdHeld_gov (s : State) (x : Bool) : (s.setColdHeld x).gov = s.gov := rfl
@[simp] theorem State.setColdHeld_pending (s : State) (x : Bool) : (s.setColdHeld x).pending = s.pending := rfl
@[simp] theorem State.setColdHeld_objs (s : State) (x : Bool) : (s.setColdHeld x).objs = s.objs := rfl
@[simp] theorem State.setColdHeld_digest (s : State) (x : Bool) : (s.setColdHeld x).digest = s.digest := rfl
@[simp] theorem State.setColdHeld_cycle (s : State) (x : Bool) : (s.setColdHeld x).cycle = s.cycle := rfl
@[simp] theorem State.setColdHeld_freeCtr (s : State) (x : Bool) : (s.setColdHeld x).freeCtr = s.freeCtr := rfl
@[simp] theorem State.setColdHeld_mem (s : State) (x : Bool) : (s.setColdHeld x).mem = s.mem := rfl
@[simp] theorem State.setColdHeld_reqs (s : State) (x : Bool) : (s.setColdHeld x).reqs = s.reqs := rfl
@[simp] theorem State.setColdHeld_queues (s : State) (x : Bool) : (s.setColdHeld x).queues = s.queues := rfl
@[simp] theorem State.setColdHeld_bell (s : State) (x : Bool) : (s.setColdHeld x).bell = s.bell := rfl
@[simp] theorem State.setColdHeld_form (s : State) (x : Bool) : (s.setColdHeld x).form = s.form := rfl
@[simp] theorem State.setColdHeld_hist (s : State) (x : Bool) : (s.setColdHeld x).hist = s.hist := rfl
@[simp] theorem State.setColdHeld_soOut (s : State) (x : Bool) : (s.setColdHeld x).soOut = s.soOut := rfl
@[simp] theorem State.setColdHeld_chans (s : State) (x : Bool) : (s.setColdHeld x).chans = s.chans := rfl
@[simp] theorem State.setColdHeld_routs (s : State) (x : Bool) : (s.setColdHeld x).routs = s.routs := rfl
@[simp] theorem State.setColdHeld_evbuf (s : State) (x : Bool) : (s.setColdHeld x).evbuf = s.evbuf := rfl
@[simp] theorem State.setColdHeld_segs (s : State) (x : Bool) : (s.setColdHeld x).segs = s.segs := rfl
@[simp] theorem State.setColdHeld_stage (s : State) (x : Bool) : (s.setColdHeld x).stage = s.stage := rfl
@[simp] theorem State.setColdHeld_moOut (s : State) (x : Bool) : (s.setColdHeld x).moOut = s.moOut := rfl
@[simp] theorem State.setColdHeld_nv (s : State) (x : Bool) : (s.setColdHeld x).nv = s.nv := rfl
@[simp] theorem State.setColdHeld_bports (s : State) (x : Bool) : (s.setColdHeld x).bports = s.bports := rfl
@[simp] theorem State.setColdHeld_group (s : State) (x : Bool) : (s.setColdHeld x).group = s.group := rfl
@[simp] theorem State.setColdHeld_reds (s : State) (x : Bool) : (s.setColdHeld x).reds = s.reds := rfl
@[simp] theorem State.setColdHeld_btx (s : State) (x : Bool) : (s.setColdHeld x).btx = s.btx := rfl
@[simp] theorem State.setColdHeld_test (s : State) (x : Bool) : (s.setColdHeld x).test = s.test := rfl
@[simp] theorem State.setColdHeld_check (s : State) (x : Bool) : (s.setColdHeld x).check = s.check := rfl
@[simp] theorem State.setColdHeld_warmHeld (s : State) (x : Bool) : (s.setColdHeld x).warmHeld = s.warmHeld := rfl
@[simp] theorem State.setColdHeld_loaded (s : State) (x : Bool) : (s.setColdHeld x).loaded = s.loaded := rfl
@[simp] theorem State.setColdHeld_invals (s : State) (x : Bool) : (s.setColdHeld x).invals = s.invals := rfl
@[simp] theorem State.setColdHeld_evSeq (s : State) (x : Bool) : (s.setColdHeld x).evSeq = s.evSeq := rfl
@[simp] theorem State.setColdHeld_get (s : State) (x : Bool) (o n : Nat) : (s.setColdHeld x).get o n = s.get o n := rfl
@[simp] theorem State.setColdHeld_obj (s : State) (x : Bool) (o : Nat) : (s.setColdHeld x).obj o = s.obj o := rfl
@[simp] theorem State.setColdHeld_byte (s : State) (x : Bool) (a : Nat) : (s.setColdHeld x).byte a = s.byte a := rfl
@[simp] theorem State.setColdHeld_queue (s : State) (x : Bool) (q : Nat) : (s.setColdHeld x).queue q = s.queue q := rfl
@[simp] theorem State.setColdHeld_dfind (s : State) (x : Bool) (q n : Nat) : (s.setColdHeld x).dfind q n = s.dfind q n := rfl
@[simp] theorem State.setColdHeld_rfind (s : State) (x : Bool) (q n : Nat) : (s.setColdHeld x).rfind q n = s.rfind q n := rfl
@[simp] theorem State.setColdHeld_bport (s : State) (x : Bool) (p : Nat) : (s.setColdHeld x).bport p = s.bport p := rfl

@[simp] theorem State.setWarmHeld_warmHeld (s : State) (x : Bool) : (s.setWarmHeld x).warmHeld = x := rfl
@[simp] theorem State.setWarmHeld_variant (s : State) (x : Bool) : (s.setWarmHeld x).variant = s.variant := rfl
@[simp] theorem State.setWarmHeld_reads (s : State) (x : Bool) : (s.setWarmHeld x).reads = s.reads := rfl
@[simp] theorem State.setWarmHeld_holds (s : State) (x : Bool) : (s.setWarmHeld x).holds = s.holds := rfl
@[simp] theorem State.setWarmHeld_gov (s : State) (x : Bool) : (s.setWarmHeld x).gov = s.gov := rfl
@[simp] theorem State.setWarmHeld_pending (s : State) (x : Bool) : (s.setWarmHeld x).pending = s.pending := rfl
@[simp] theorem State.setWarmHeld_objs (s : State) (x : Bool) : (s.setWarmHeld x).objs = s.objs := rfl
@[simp] theorem State.setWarmHeld_digest (s : State) (x : Bool) : (s.setWarmHeld x).digest = s.digest := rfl
@[simp] theorem State.setWarmHeld_cycle (s : State) (x : Bool) : (s.setWarmHeld x).cycle = s.cycle := rfl
@[simp] theorem State.setWarmHeld_freeCtr (s : State) (x : Bool) : (s.setWarmHeld x).freeCtr = s.freeCtr := rfl
@[simp] theorem State.setWarmHeld_mem (s : State) (x : Bool) : (s.setWarmHeld x).mem = s.mem := rfl
@[simp] theorem State.setWarmHeld_reqs (s : State) (x : Bool) : (s.setWarmHeld x).reqs = s.reqs := rfl
@[simp] theorem State.setWarmHeld_queues (s : State) (x : Bool) : (s.setWarmHeld x).queues = s.queues := rfl
@[simp] theorem State.setWarmHeld_bell (s : State) (x : Bool) : (s.setWarmHeld x).bell = s.bell := rfl
@[simp] theorem State.setWarmHeld_form (s : State) (x : Bool) : (s.setWarmHeld x).form = s.form := rfl
@[simp] theorem State.setWarmHeld_hist (s : State) (x : Bool) : (s.setWarmHeld x).hist = s.hist := rfl
@[simp] theorem State.setWarmHeld_soOut (s : State) (x : Bool) : (s.setWarmHeld x).soOut = s.soOut := rfl
@[simp] theorem State.setWarmHeld_chans (s : State) (x : Bool) : (s.setWarmHeld x).chans = s.chans := rfl
@[simp] theorem State.setWarmHeld_routs (s : State) (x : Bool) : (s.setWarmHeld x).routs = s.routs := rfl
@[simp] theorem State.setWarmHeld_evbuf (s : State) (x : Bool) : (s.setWarmHeld x).evbuf = s.evbuf := rfl
@[simp] theorem State.setWarmHeld_segs (s : State) (x : Bool) : (s.setWarmHeld x).segs = s.segs := rfl
@[simp] theorem State.setWarmHeld_stage (s : State) (x : Bool) : (s.setWarmHeld x).stage = s.stage := rfl
@[simp] theorem State.setWarmHeld_moOut (s : State) (x : Bool) : (s.setWarmHeld x).moOut = s.moOut := rfl
@[simp] theorem State.setWarmHeld_nv (s : State) (x : Bool) : (s.setWarmHeld x).nv = s.nv := rfl
@[simp] theorem State.setWarmHeld_bports (s : State) (x : Bool) : (s.setWarmHeld x).bports = s.bports := rfl
@[simp] theorem State.setWarmHeld_group (s : State) (x : Bool) : (s.setWarmHeld x).group = s.group := rfl
@[simp] theorem State.setWarmHeld_reds (s : State) (x : Bool) : (s.setWarmHeld x).reds = s.reds := rfl
@[simp] theorem State.setWarmHeld_btx (s : State) (x : Bool) : (s.setWarmHeld x).btx = s.btx := rfl
@[simp] theorem State.setWarmHeld_test (s : State) (x : Bool) : (s.setWarmHeld x).test = s.test := rfl
@[simp] theorem State.setWarmHeld_check (s : State) (x : Bool) : (s.setWarmHeld x).check = s.check := rfl
@[simp] theorem State.setWarmHeld_coldHeld (s : State) (x : Bool) : (s.setWarmHeld x).coldHeld = s.coldHeld := rfl
@[simp] theorem State.setWarmHeld_loaded (s : State) (x : Bool) : (s.setWarmHeld x).loaded = s.loaded := rfl
@[simp] theorem State.setWarmHeld_invals (s : State) (x : Bool) : (s.setWarmHeld x).invals = s.invals := rfl
@[simp] theorem State.setWarmHeld_evSeq (s : State) (x : Bool) : (s.setWarmHeld x).evSeq = s.evSeq := rfl
@[simp] theorem State.setWarmHeld_get (s : State) (x : Bool) (o n : Nat) : (s.setWarmHeld x).get o n = s.get o n := rfl
@[simp] theorem State.setWarmHeld_obj (s : State) (x : Bool) (o : Nat) : (s.setWarmHeld x).obj o = s.obj o := rfl
@[simp] theorem State.setWarmHeld_byte (s : State) (x : Bool) (a : Nat) : (s.setWarmHeld x).byte a = s.byte a := rfl
@[simp] theorem State.setWarmHeld_queue (s : State) (x : Bool) (q : Nat) : (s.setWarmHeld x).queue q = s.queue q := rfl
@[simp] theorem State.setWarmHeld_dfind (s : State) (x : Bool) (q n : Nat) : (s.setWarmHeld x).dfind q n = s.dfind q n := rfl
@[simp] theorem State.setWarmHeld_rfind (s : State) (x : Bool) (q n : Nat) : (s.setWarmHeld x).rfind q n = s.rfind q n := rfl
@[simp] theorem State.setWarmHeld_bport (s : State) (x : Bool) (p : Nat) : (s.setWarmHeld x).bport p = s.bport p := rfl

@[simp] theorem State.setWarmStart_warmStart (s : State) (x : Bool) : (s.setWarmStart x).warmStart = x := rfl
@[simp] theorem State.setWarmStart_variant (s : State) (x : Bool) : (s.setWarmStart x).variant = s.variant := rfl
@[simp] theorem State.setWarmStart_reads (s : State) (x : Bool) : (s.setWarmStart x).reads = s.reads := rfl
@[simp] theorem State.setWarmStart_holds (s : State) (x : Bool) : (s.setWarmStart x).holds = s.holds := rfl
@[simp] theorem State.setWarmStart_gov (s : State) (x : Bool) : (s.setWarmStart x).gov = s.gov := rfl
@[simp] theorem State.setWarmStart_pending (s : State) (x : Bool) : (s.setWarmStart x).pending = s.pending := rfl
@[simp] theorem State.setWarmStart_objs (s : State) (x : Bool) : (s.setWarmStart x).objs = s.objs := rfl
@[simp] theorem State.setWarmStart_digest (s : State) (x : Bool) : (s.setWarmStart x).digest = s.digest := rfl
@[simp] theorem State.setWarmStart_cycle (s : State) (x : Bool) : (s.setWarmStart x).cycle = s.cycle := rfl
@[simp] theorem State.setWarmStart_freeCtr (s : State) (x : Bool) : (s.setWarmStart x).freeCtr = s.freeCtr := rfl
@[simp] theorem State.setWarmStart_mem (s : State) (x : Bool) : (s.setWarmStart x).mem = s.mem := rfl
@[simp] theorem State.setWarmStart_reqs (s : State) (x : Bool) : (s.setWarmStart x).reqs = s.reqs := rfl
@[simp] theorem State.setWarmStart_queues (s : State) (x : Bool) : (s.setWarmStart x).queues = s.queues := rfl
@[simp] theorem State.setWarmStart_bell (s : State) (x : Bool) : (s.setWarmStart x).bell = s.bell := rfl
@[simp] theorem State.setWarmStart_form (s : State) (x : Bool) : (s.setWarmStart x).form = s.form := rfl
@[simp] theorem State.setWarmStart_hist (s : State) (x : Bool) : (s.setWarmStart x).hist = s.hist := rfl
@[simp] theorem State.setWarmStart_soOut (s : State) (x : Bool) : (s.setWarmStart x).soOut = s.soOut := rfl
@[simp] theorem State.setWarmStart_chans (s : State) (x : Bool) : (s.setWarmStart x).chans = s.chans := rfl
@[simp] theorem State.setWarmStart_routs (s : State) (x : Bool) : (s.setWarmStart x).routs = s.routs := rfl
@[simp] theorem State.setWarmStart_evbuf (s : State) (x : Bool) : (s.setWarmStart x).evbuf = s.evbuf := rfl
@[simp] theorem State.setWarmStart_segs (s : State) (x : Bool) : (s.setWarmStart x).segs = s.segs := rfl
@[simp] theorem State.setWarmStart_stage (s : State) (x : Bool) : (s.setWarmStart x).stage = s.stage := rfl
@[simp] theorem State.setWarmStart_moOut (s : State) (x : Bool) : (s.setWarmStart x).moOut = s.moOut := rfl
@[simp] theorem State.setWarmStart_nv (s : State) (x : Bool) : (s.setWarmStart x).nv = s.nv := rfl
@[simp] theorem State.setWarmStart_bports (s : State) (x : Bool) : (s.setWarmStart x).bports = s.bports := rfl
@[simp] theorem State.setWarmStart_group (s : State) (x : Bool) : (s.setWarmStart x).group = s.group := rfl
@[simp] theorem State.setWarmStart_reds (s : State) (x : Bool) : (s.setWarmStart x).reds = s.reds := rfl
@[simp] theorem State.setWarmStart_btx (s : State) (x : Bool) : (s.setWarmStart x).btx = s.btx := rfl
@[simp] theorem State.setWarmStart_test (s : State) (x : Bool) : (s.setWarmStart x).test = s.test := rfl
@[simp] theorem State.setWarmStart_check (s : State) (x : Bool) : (s.setWarmStart x).check = s.check := rfl
@[simp] theorem State.setWarmStart_coldHeld (s : State) (x : Bool) : (s.setWarmStart x).coldHeld = s.coldHeld := rfl
@[simp] theorem State.setWarmStart_warmHeld (s : State) (x : Bool) : (s.setWarmStart x).warmHeld = s.warmHeld := rfl
@[simp] theorem State.setWarmStart_loaded (s : State) (x : Bool) : (s.setWarmStart x).loaded = s.loaded := rfl
@[simp] theorem State.setWarmStart_invals (s : State) (x : Bool) : (s.setWarmStart x).invals = s.invals := rfl
@[simp] theorem State.setWarmStart_evSeq (s : State) (x : Bool) : (s.setWarmStart x).evSeq = s.evSeq := rfl
@[simp] theorem State.setWarmStart_get (s : State) (x : Bool) (o n : Nat) : (s.setWarmStart x).get o n = s.get o n := rfl
@[simp] theorem State.setWarmStart_obj (s : State) (x : Bool) (o : Nat) : (s.setWarmStart x).obj o = s.obj o := rfl
@[simp] theorem State.setWarmStart_byte (s : State) (x : Bool) (a : Nat) : (s.setWarmStart x).byte a = s.byte a := rfl
@[simp] theorem State.setWarmStart_queue (s : State) (x : Bool) (q : Nat) : (s.setWarmStart x).queue q = s.queue q := rfl
@[simp] theorem State.setWarmStart_dfind (s : State) (x : Bool) (q n : Nat) : (s.setWarmStart x).dfind q n = s.dfind q n := rfl
@[simp] theorem State.setWarmStart_rfind (s : State) (x : Bool) (q n : Nat) : (s.setWarmStart x).rfind q n = s.rfind q n := rfl
@[simp] theorem State.setWarmStart_bport (s : State) (x : Bool) (p : Nat) : (s.setWarmStart x).bport p = s.bport p := rfl

@[simp] theorem State.setSleepStart_sleepStart (s : State) (x : Bool) : (s.setSleepStart x).sleepStart = x := rfl
@[simp] theorem State.setSleepStart_variant (s : State) (x : Bool) : (s.setSleepStart x).variant = s.variant := rfl
@[simp] theorem State.setSleepStart_reads (s : State) (x : Bool) : (s.setSleepStart x).reads = s.reads := rfl
@[simp] theorem State.setSleepStart_holds (s : State) (x : Bool) : (s.setSleepStart x).holds = s.holds := rfl
@[simp] theorem State.setSleepStart_gov (s : State) (x : Bool) : (s.setSleepStart x).gov = s.gov := rfl
@[simp] theorem State.setSleepStart_pending (s : State) (x : Bool) : (s.setSleepStart x).pending = s.pending := rfl
@[simp] theorem State.setSleepStart_objs (s : State) (x : Bool) : (s.setSleepStart x).objs = s.objs := rfl
@[simp] theorem State.setSleepStart_digest (s : State) (x : Bool) : (s.setSleepStart x).digest = s.digest := rfl
@[simp] theorem State.setSleepStart_cycle (s : State) (x : Bool) : (s.setSleepStart x).cycle = s.cycle := rfl
@[simp] theorem State.setSleepStart_freeCtr (s : State) (x : Bool) : (s.setSleepStart x).freeCtr = s.freeCtr := rfl
@[simp] theorem State.setSleepStart_mem (s : State) (x : Bool) : (s.setSleepStart x).mem = s.mem := rfl
@[simp] theorem State.setSleepStart_reqs (s : State) (x : Bool) : (s.setSleepStart x).reqs = s.reqs := rfl
@[simp] theorem State.setSleepStart_queues (s : State) (x : Bool) : (s.setSleepStart x).queues = s.queues := rfl
@[simp] theorem State.setSleepStart_bell (s : State) (x : Bool) : (s.setSleepStart x).bell = s.bell := rfl
@[simp] theorem State.setSleepStart_form (s : State) (x : Bool) : (s.setSleepStart x).form = s.form := rfl
@[simp] theorem State.setSleepStart_hist (s : State) (x : Bool) : (s.setSleepStart x).hist = s.hist := rfl
@[simp] theorem State.setSleepStart_soOut (s : State) (x : Bool) : (s.setSleepStart x).soOut = s.soOut := rfl
@[simp] theorem State.setSleepStart_chans (s : State) (x : Bool) : (s.setSleepStart x).chans = s.chans := rfl
@[simp] theorem State.setSleepStart_routs (s : State) (x : Bool) : (s.setSleepStart x).routs = s.routs := rfl
@[simp] theorem State.setSleepStart_evbuf (s : State) (x : Bool) : (s.setSleepStart x).evbuf = s.evbuf := rfl
@[simp] theorem State.setSleepStart_segs (s : State) (x : Bool) : (s.setSleepStart x).segs = s.segs := rfl
@[simp] theorem State.setSleepStart_stage (s : State) (x : Bool) : (s.setSleepStart x).stage = s.stage := rfl
@[simp] theorem State.setSleepStart_moOut (s : State) (x : Bool) : (s.setSleepStart x).moOut = s.moOut := rfl
@[simp] theorem State.setSleepStart_nv (s : State) (x : Bool) : (s.setSleepStart x).nv = s.nv := rfl
@[simp] theorem State.setSleepStart_bports (s : State) (x : Bool) : (s.setSleepStart x).bports = s.bports := rfl
@[simp] theorem State.setSleepStart_group (s : State) (x : Bool) : (s.setSleepStart x).group = s.group := rfl
@[simp] theorem State.setSleepStart_reds (s : State) (x : Bool) : (s.setSleepStart x).reds = s.reds := rfl
@[simp] theorem State.setSleepStart_btx (s : State) (x : Bool) : (s.setSleepStart x).btx = s.btx := rfl
@[simp] theorem State.setSleepStart_test (s : State) (x : Bool) : (s.setSleepStart x).test = s.test := rfl
@[simp] theorem State.setSleepStart_check (s : State) (x : Bool) : (s.setSleepStart x).check = s.check := rfl
@[simp] theorem State.setSleepStart_coldHeld (s : State) (x : Bool) : (s.setSleepStart x).coldHeld = s.coldHeld := rfl
@[simp] theorem State.setSleepStart_warmHeld (s : State) (x : Bool) : (s.setSleepStart x).warmHeld = s.warmHeld := rfl
@[simp] theorem State.setSleepStart_loaded (s : State) (x : Bool) : (s.setSleepStart x).loaded = s.loaded := rfl
@[simp] theorem State.setSleepStart_invals (s : State) (x : Bool) : (s.setSleepStart x).invals = s.invals := rfl
@[simp] theorem State.setSleepStart_evSeq (s : State) (x : Bool) : (s.setSleepStart x).evSeq = s.evSeq := rfl
@[simp] theorem State.setSleepStart_get (s : State) (x : Bool) (o n : Nat) : (s.setSleepStart x).get o n = s.get o n := rfl
@[simp] theorem State.setSleepStart_obj (s : State) (x : Bool) (o : Nat) : (s.setSleepStart x).obj o = s.obj o := rfl
@[simp] theorem State.setSleepStart_byte (s : State) (x : Bool) (a : Nat) : (s.setSleepStart x).byte a = s.byte a := rfl
@[simp] theorem State.setSleepStart_queue (s : State) (x : Bool) (q : Nat) : (s.setSleepStart x).queue q = s.queue q := rfl
@[simp] theorem State.setSleepStart_dfind (s : State) (x : Bool) (q n : Nat) : (s.setSleepStart x).dfind q n = s.dfind q n := rfl
@[simp] theorem State.setSleepStart_rfind (s : State) (x : Bool) (q n : Nat) : (s.setSleepStart x).rfind q n = s.rfind q n := rfl
@[simp] theorem State.setSleepStart_bport (s : State) (x : Bool) (p : Nat) : (s.setSleepStart x).bport p = s.bport p := rfl

@[simp] theorem State.setPgLane_pgLane (s : State) (x : Bool) : (s.setPgLane x).pgLane = x := rfl
@[simp] theorem State.setPgLane_variant (s : State) (x : Bool) : (s.setPgLane x).variant = s.variant := rfl
@[simp] theorem State.setPgLane_reads (s : State) (x : Bool) : (s.setPgLane x).reads = s.reads := rfl
@[simp] theorem State.setPgLane_holds (s : State) (x : Bool) : (s.setPgLane x).holds = s.holds := rfl
@[simp] theorem State.setPgLane_gov (s : State) (x : Bool) : (s.setPgLane x).gov = s.gov := rfl
@[simp] theorem State.setPgLane_pending (s : State) (x : Bool) : (s.setPgLane x).pending = s.pending := rfl
@[simp] theorem State.setPgLane_objs (s : State) (x : Bool) : (s.setPgLane x).objs = s.objs := rfl
@[simp] theorem State.setPgLane_digest (s : State) (x : Bool) : (s.setPgLane x).digest = s.digest := rfl
@[simp] theorem State.setPgLane_cycle (s : State) (x : Bool) : (s.setPgLane x).cycle = s.cycle := rfl
@[simp] theorem State.setPgLane_freeCtr (s : State) (x : Bool) : (s.setPgLane x).freeCtr = s.freeCtr := rfl
@[simp] theorem State.setPgLane_mem (s : State) (x : Bool) : (s.setPgLane x).mem = s.mem := rfl
@[simp] theorem State.setPgLane_reqs (s : State) (x : Bool) : (s.setPgLane x).reqs = s.reqs := rfl
@[simp] theorem State.setPgLane_queues (s : State) (x : Bool) : (s.setPgLane x).queues = s.queues := rfl
@[simp] theorem State.setPgLane_bell (s : State) (x : Bool) : (s.setPgLane x).bell = s.bell := rfl
@[simp] theorem State.setPgLane_form (s : State) (x : Bool) : (s.setPgLane x).form = s.form := rfl
@[simp] theorem State.setPgLane_hist (s : State) (x : Bool) : (s.setPgLane x).hist = s.hist := rfl
@[simp] theorem State.setPgLane_soOut (s : State) (x : Bool) : (s.setPgLane x).soOut = s.soOut := rfl
@[simp] theorem State.setPgLane_chans (s : State) (x : Bool) : (s.setPgLane x).chans = s.chans := rfl
@[simp] theorem State.setPgLane_routs (s : State) (x : Bool) : (s.setPgLane x).routs = s.routs := rfl
@[simp] theorem State.setPgLane_evbuf (s : State) (x : Bool) : (s.setPgLane x).evbuf = s.evbuf := rfl
@[simp] theorem State.setPgLane_segs (s : State) (x : Bool) : (s.setPgLane x).segs = s.segs := rfl
@[simp] theorem State.setPgLane_stage (s : State) (x : Bool) : (s.setPgLane x).stage = s.stage := rfl
@[simp] theorem State.setPgLane_moOut (s : State) (x : Bool) : (s.setPgLane x).moOut = s.moOut := rfl
@[simp] theorem State.setPgLane_nv (s : State) (x : Bool) : (s.setPgLane x).nv = s.nv := rfl
@[simp] theorem State.setPgLane_bports (s : State) (x : Bool) : (s.setPgLane x).bports = s.bports := rfl
@[simp] theorem State.setPgLane_group (s : State) (x : Bool) : (s.setPgLane x).group = s.group := rfl
@[simp] theorem State.setPgLane_reds (s : State) (x : Bool) : (s.setPgLane x).reds = s.reds := rfl
@[simp] theorem State.setPgLane_btx (s : State) (x : Bool) : (s.setPgLane x).btx = s.btx := rfl
@[simp] theorem State.setPgLane_test (s : State) (x : Bool) : (s.setPgLane x).test = s.test := rfl
@[simp] theorem State.setPgLane_check (s : State) (x : Bool) : (s.setPgLane x).check = s.check := rfl
@[simp] theorem State.setPgLane_coldHeld (s : State) (x : Bool) : (s.setPgLane x).coldHeld = s.coldHeld := rfl
@[simp] theorem State.setPgLane_warmHeld (s : State) (x : Bool) : (s.setPgLane x).warmHeld = s.warmHeld := rfl
@[simp] theorem State.setPgLane_loaded (s : State) (x : Bool) : (s.setPgLane x).loaded = s.loaded := rfl
@[simp] theorem State.setPgLane_invals (s : State) (x : Bool) : (s.setPgLane x).invals = s.invals := rfl
@[simp] theorem State.setPgLane_evSeq (s : State) (x : Bool) : (s.setPgLane x).evSeq = s.evSeq := rfl
@[simp] theorem State.setPgLane_get (s : State) (x : Bool) (o n : Nat) : (s.setPgLane x).get o n = s.get o n := rfl
@[simp] theorem State.setPgLane_obj (s : State) (x : Bool) (o : Nat) : (s.setPgLane x).obj o = s.obj o := rfl
@[simp] theorem State.setPgLane_byte (s : State) (x : Bool) (a : Nat) : (s.setPgLane x).byte a = s.byte a := rfl
@[simp] theorem State.setPgLane_queue (s : State) (x : Bool) (q : Nat) : (s.setPgLane x).queue q = s.queue q := rfl
@[simp] theorem State.setPgLane_dfind (s : State) (x : Bool) (q n : Nat) : (s.setPgLane x).dfind q n = s.dfind q n := rfl
@[simp] theorem State.setPgLane_rfind (s : State) (x : Bool) (q n : Nat) : (s.setPgLane x).rfind q n = s.rfind q n := rfl
@[simp] theorem State.setPgLane_bport (s : State) (x : Bool) (p : Nat) : (s.setPgLane x).bport p = s.bport p := rfl

@[simp] theorem State.setPgSpire_pgSpire (s : State) (x : Bool) : (s.setPgSpire x).pgSpire = x := rfl
@[simp] theorem State.setPgSpire_variant (s : State) (x : Bool) : (s.setPgSpire x).variant = s.variant := rfl
@[simp] theorem State.setPgSpire_reads (s : State) (x : Bool) : (s.setPgSpire x).reads = s.reads := rfl
@[simp] theorem State.setPgSpire_holds (s : State) (x : Bool) : (s.setPgSpire x).holds = s.holds := rfl
@[simp] theorem State.setPgSpire_gov (s : State) (x : Bool) : (s.setPgSpire x).gov = s.gov := rfl
@[simp] theorem State.setPgSpire_pending (s : State) (x : Bool) : (s.setPgSpire x).pending = s.pending := rfl
@[simp] theorem State.setPgSpire_objs (s : State) (x : Bool) : (s.setPgSpire x).objs = s.objs := rfl
@[simp] theorem State.setPgSpire_digest (s : State) (x : Bool) : (s.setPgSpire x).digest = s.digest := rfl
@[simp] theorem State.setPgSpire_cycle (s : State) (x : Bool) : (s.setPgSpire x).cycle = s.cycle := rfl
@[simp] theorem State.setPgSpire_freeCtr (s : State) (x : Bool) : (s.setPgSpire x).freeCtr = s.freeCtr := rfl
@[simp] theorem State.setPgSpire_mem (s : State) (x : Bool) : (s.setPgSpire x).mem = s.mem := rfl
@[simp] theorem State.setPgSpire_reqs (s : State) (x : Bool) : (s.setPgSpire x).reqs = s.reqs := rfl
@[simp] theorem State.setPgSpire_queues (s : State) (x : Bool) : (s.setPgSpire x).queues = s.queues := rfl
@[simp] theorem State.setPgSpire_bell (s : State) (x : Bool) : (s.setPgSpire x).bell = s.bell := rfl
@[simp] theorem State.setPgSpire_form (s : State) (x : Bool) : (s.setPgSpire x).form = s.form := rfl
@[simp] theorem State.setPgSpire_hist (s : State) (x : Bool) : (s.setPgSpire x).hist = s.hist := rfl
@[simp] theorem State.setPgSpire_soOut (s : State) (x : Bool) : (s.setPgSpire x).soOut = s.soOut := rfl
@[simp] theorem State.setPgSpire_chans (s : State) (x : Bool) : (s.setPgSpire x).chans = s.chans := rfl
@[simp] theorem State.setPgSpire_routs (s : State) (x : Bool) : (s.setPgSpire x).routs = s.routs := rfl
@[simp] theorem State.setPgSpire_evbuf (s : State) (x : Bool) : (s.setPgSpire x).evbuf = s.evbuf := rfl
@[simp] theorem State.setPgSpire_segs (s : State) (x : Bool) : (s.setPgSpire x).segs = s.segs := rfl
@[simp] theorem State.setPgSpire_stage (s : State) (x : Bool) : (s.setPgSpire x).stage = s.stage := rfl
@[simp] theorem State.setPgSpire_moOut (s : State) (x : Bool) : (s.setPgSpire x).moOut = s.moOut := rfl
@[simp] theorem State.setPgSpire_nv (s : State) (x : Bool) : (s.setPgSpire x).nv = s.nv := rfl
@[simp] theorem State.setPgSpire_bports (s : State) (x : Bool) : (s.setPgSpire x).bports = s.bports := rfl
@[simp] theorem State.setPgSpire_group (s : State) (x : Bool) : (s.setPgSpire x).group = s.group := rfl
@[simp] theorem State.setPgSpire_reds (s : State) (x : Bool) : (s.setPgSpire x).reds = s.reds := rfl
@[simp] theorem State.setPgSpire_btx (s : State) (x : Bool) : (s.setPgSpire x).btx = s.btx := rfl
@[simp] theorem State.setPgSpire_test (s : State) (x : Bool) : (s.setPgSpire x).test = s.test := rfl
@[simp] theorem State.setPgSpire_check (s : State) (x : Bool) : (s.setPgSpire x).check = s.check := rfl
@[simp] theorem State.setPgSpire_coldHeld (s : State) (x : Bool) : (s.setPgSpire x).coldHeld = s.coldHeld := rfl
@[simp] theorem State.setPgSpire_warmHeld (s : State) (x : Bool) : (s.setPgSpire x).warmHeld = s.warmHeld := rfl
@[simp] theorem State.setPgSpire_loaded (s : State) (x : Bool) : (s.setPgSpire x).loaded = s.loaded := rfl
@[simp] theorem State.setPgSpire_invals (s : State) (x : Bool) : (s.setPgSpire x).invals = s.invals := rfl
@[simp] theorem State.setPgSpire_evSeq (s : State) (x : Bool) : (s.setPgSpire x).evSeq = s.evSeq := rfl
@[simp] theorem State.setPgSpire_get (s : State) (x : Bool) (o n : Nat) : (s.setPgSpire x).get o n = s.get o n := rfl
@[simp] theorem State.setPgSpire_obj (s : State) (x : Bool) (o : Nat) : (s.setPgSpire x).obj o = s.obj o := rfl
@[simp] theorem State.setPgSpire_byte (s : State) (x : Bool) (a : Nat) : (s.setPgSpire x).byte a = s.byte a := rfl
@[simp] theorem State.setPgSpire_queue (s : State) (x : Bool) (q : Nat) : (s.setPgSpire x).queue q = s.queue q := rfl
@[simp] theorem State.setPgSpire_dfind (s : State) (x : Bool) (q n : Nat) : (s.setPgSpire x).dfind q n = s.dfind q n := rfl
@[simp] theorem State.setPgSpire_rfind (s : State) (x : Bool) (q n : Nat) : (s.setPgSpire x).rfind q n = s.rfind q n := rfl
@[simp] theorem State.setPgSpire_bport (s : State) (x : Bool) (p : Nat) : (s.setPgSpire x).bport p = s.bport p := rfl

@[simp] theorem State.setPgAon_pgAon (s : State) (x : Bool) : (s.setPgAon x).pgAon = x := rfl
@[simp] theorem State.setPgAon_variant (s : State) (x : Bool) : (s.setPgAon x).variant = s.variant := rfl
@[simp] theorem State.setPgAon_reads (s : State) (x : Bool) : (s.setPgAon x).reads = s.reads := rfl
@[simp] theorem State.setPgAon_holds (s : State) (x : Bool) : (s.setPgAon x).holds = s.holds := rfl
@[simp] theorem State.setPgAon_gov (s : State) (x : Bool) : (s.setPgAon x).gov = s.gov := rfl
@[simp] theorem State.setPgAon_pending (s : State) (x : Bool) : (s.setPgAon x).pending = s.pending := rfl
@[simp] theorem State.setPgAon_objs (s : State) (x : Bool) : (s.setPgAon x).objs = s.objs := rfl
@[simp] theorem State.setPgAon_digest (s : State) (x : Bool) : (s.setPgAon x).digest = s.digest := rfl
@[simp] theorem State.setPgAon_cycle (s : State) (x : Bool) : (s.setPgAon x).cycle = s.cycle := rfl
@[simp] theorem State.setPgAon_freeCtr (s : State) (x : Bool) : (s.setPgAon x).freeCtr = s.freeCtr := rfl
@[simp] theorem State.setPgAon_mem (s : State) (x : Bool) : (s.setPgAon x).mem = s.mem := rfl
@[simp] theorem State.setPgAon_reqs (s : State) (x : Bool) : (s.setPgAon x).reqs = s.reqs := rfl
@[simp] theorem State.setPgAon_queues (s : State) (x : Bool) : (s.setPgAon x).queues = s.queues := rfl
@[simp] theorem State.setPgAon_bell (s : State) (x : Bool) : (s.setPgAon x).bell = s.bell := rfl
@[simp] theorem State.setPgAon_form (s : State) (x : Bool) : (s.setPgAon x).form = s.form := rfl
@[simp] theorem State.setPgAon_hist (s : State) (x : Bool) : (s.setPgAon x).hist = s.hist := rfl
@[simp] theorem State.setPgAon_soOut (s : State) (x : Bool) : (s.setPgAon x).soOut = s.soOut := rfl
@[simp] theorem State.setPgAon_chans (s : State) (x : Bool) : (s.setPgAon x).chans = s.chans := rfl
@[simp] theorem State.setPgAon_routs (s : State) (x : Bool) : (s.setPgAon x).routs = s.routs := rfl
@[simp] theorem State.setPgAon_evbuf (s : State) (x : Bool) : (s.setPgAon x).evbuf = s.evbuf := rfl
@[simp] theorem State.setPgAon_segs (s : State) (x : Bool) : (s.setPgAon x).segs = s.segs := rfl
@[simp] theorem State.setPgAon_stage (s : State) (x : Bool) : (s.setPgAon x).stage = s.stage := rfl
@[simp] theorem State.setPgAon_moOut (s : State) (x : Bool) : (s.setPgAon x).moOut = s.moOut := rfl
@[simp] theorem State.setPgAon_nv (s : State) (x : Bool) : (s.setPgAon x).nv = s.nv := rfl
@[simp] theorem State.setPgAon_bports (s : State) (x : Bool) : (s.setPgAon x).bports = s.bports := rfl
@[simp] theorem State.setPgAon_group (s : State) (x : Bool) : (s.setPgAon x).group = s.group := rfl
@[simp] theorem State.setPgAon_reds (s : State) (x : Bool) : (s.setPgAon x).reds = s.reds := rfl
@[simp] theorem State.setPgAon_btx (s : State) (x : Bool) : (s.setPgAon x).btx = s.btx := rfl
@[simp] theorem State.setPgAon_test (s : State) (x : Bool) : (s.setPgAon x).test = s.test := rfl
@[simp] theorem State.setPgAon_check (s : State) (x : Bool) : (s.setPgAon x).check = s.check := rfl
@[simp] theorem State.setPgAon_coldHeld (s : State) (x : Bool) : (s.setPgAon x).coldHeld = s.coldHeld := rfl
@[simp] theorem State.setPgAon_warmHeld (s : State) (x : Bool) : (s.setPgAon x).warmHeld = s.warmHeld := rfl
@[simp] theorem State.setPgAon_loaded (s : State) (x : Bool) : (s.setPgAon x).loaded = s.loaded := rfl
@[simp] theorem State.setPgAon_invals (s : State) (x : Bool) : (s.setPgAon x).invals = s.invals := rfl
@[simp] theorem State.setPgAon_evSeq (s : State) (x : Bool) : (s.setPgAon x).evSeq = s.evSeq := rfl
@[simp] theorem State.setPgAon_get (s : State) (x : Bool) (o n : Nat) : (s.setPgAon x).get o n = s.get o n := rfl
@[simp] theorem State.setPgAon_obj (s : State) (x : Bool) (o : Nat) : (s.setPgAon x).obj o = s.obj o := rfl
@[simp] theorem State.setPgAon_byte (s : State) (x : Bool) (a : Nat) : (s.setPgAon x).byte a = s.byte a := rfl
@[simp] theorem State.setPgAon_queue (s : State) (x : Bool) (q : Nat) : (s.setPgAon x).queue q = s.queue q := rfl
@[simp] theorem State.setPgAon_dfind (s : State) (x : Bool) (q n : Nat) : (s.setPgAon x).dfind q n = s.dfind q n := rfl
@[simp] theorem State.setPgAon_rfind (s : State) (x : Bool) (q n : Nat) : (s.setPgAon x).rfind q n = s.rfind q n := rfl
@[simp] theorem State.setPgAon_bport (s : State) (x : Bool) (p : Nat) : (s.setPgAon x).bport p = s.bport p := rfl

@[simp] theorem State.setPgNv_pgNv (s : State) (x : Bool) : (s.setPgNv x).pgNv = x := rfl
@[simp] theorem State.setPgNv_variant (s : State) (x : Bool) : (s.setPgNv x).variant = s.variant := rfl
@[simp] theorem State.setPgNv_reads (s : State) (x : Bool) : (s.setPgNv x).reads = s.reads := rfl
@[simp] theorem State.setPgNv_holds (s : State) (x : Bool) : (s.setPgNv x).holds = s.holds := rfl
@[simp] theorem State.setPgNv_gov (s : State) (x : Bool) : (s.setPgNv x).gov = s.gov := rfl
@[simp] theorem State.setPgNv_pending (s : State) (x : Bool) : (s.setPgNv x).pending = s.pending := rfl
@[simp] theorem State.setPgNv_objs (s : State) (x : Bool) : (s.setPgNv x).objs = s.objs := rfl
@[simp] theorem State.setPgNv_digest (s : State) (x : Bool) : (s.setPgNv x).digest = s.digest := rfl
@[simp] theorem State.setPgNv_cycle (s : State) (x : Bool) : (s.setPgNv x).cycle = s.cycle := rfl
@[simp] theorem State.setPgNv_freeCtr (s : State) (x : Bool) : (s.setPgNv x).freeCtr = s.freeCtr := rfl
@[simp] theorem State.setPgNv_mem (s : State) (x : Bool) : (s.setPgNv x).mem = s.mem := rfl
@[simp] theorem State.setPgNv_reqs (s : State) (x : Bool) : (s.setPgNv x).reqs = s.reqs := rfl
@[simp] theorem State.setPgNv_queues (s : State) (x : Bool) : (s.setPgNv x).queues = s.queues := rfl
@[simp] theorem State.setPgNv_bell (s : State) (x : Bool) : (s.setPgNv x).bell = s.bell := rfl
@[simp] theorem State.setPgNv_form (s : State) (x : Bool) : (s.setPgNv x).form = s.form := rfl
@[simp] theorem State.setPgNv_hist (s : State) (x : Bool) : (s.setPgNv x).hist = s.hist := rfl
@[simp] theorem State.setPgNv_soOut (s : State) (x : Bool) : (s.setPgNv x).soOut = s.soOut := rfl
@[simp] theorem State.setPgNv_chans (s : State) (x : Bool) : (s.setPgNv x).chans = s.chans := rfl
@[simp] theorem State.setPgNv_routs (s : State) (x : Bool) : (s.setPgNv x).routs = s.routs := rfl
@[simp] theorem State.setPgNv_evbuf (s : State) (x : Bool) : (s.setPgNv x).evbuf = s.evbuf := rfl
@[simp] theorem State.setPgNv_segs (s : State) (x : Bool) : (s.setPgNv x).segs = s.segs := rfl
@[simp] theorem State.setPgNv_stage (s : State) (x : Bool) : (s.setPgNv x).stage = s.stage := rfl
@[simp] theorem State.setPgNv_moOut (s : State) (x : Bool) : (s.setPgNv x).moOut = s.moOut := rfl
@[simp] theorem State.setPgNv_nv (s : State) (x : Bool) : (s.setPgNv x).nv = s.nv := rfl
@[simp] theorem State.setPgNv_bports (s : State) (x : Bool) : (s.setPgNv x).bports = s.bports := rfl
@[simp] theorem State.setPgNv_group (s : State) (x : Bool) : (s.setPgNv x).group = s.group := rfl
@[simp] theorem State.setPgNv_reds (s : State) (x : Bool) : (s.setPgNv x).reds = s.reds := rfl
@[simp] theorem State.setPgNv_btx (s : State) (x : Bool) : (s.setPgNv x).btx = s.btx := rfl
@[simp] theorem State.setPgNv_test (s : State) (x : Bool) : (s.setPgNv x).test = s.test := rfl
@[simp] theorem State.setPgNv_check (s : State) (x : Bool) : (s.setPgNv x).check = s.check := rfl
@[simp] theorem State.setPgNv_coldHeld (s : State) (x : Bool) : (s.setPgNv x).coldHeld = s.coldHeld := rfl
@[simp] theorem State.setPgNv_warmHeld (s : State) (x : Bool) : (s.setPgNv x).warmHeld = s.warmHeld := rfl
@[simp] theorem State.setPgNv_loaded (s : State) (x : Bool) : (s.setPgNv x).loaded = s.loaded := rfl
@[simp] theorem State.setPgNv_invals (s : State) (x : Bool) : (s.setPgNv x).invals = s.invals := rfl
@[simp] theorem State.setPgNv_evSeq (s : State) (x : Bool) : (s.setPgNv x).evSeq = s.evSeq := rfl
@[simp] theorem State.setPgNv_get (s : State) (x : Bool) (o n : Nat) : (s.setPgNv x).get o n = s.get o n := rfl
@[simp] theorem State.setPgNv_obj (s : State) (x : Bool) (o : Nat) : (s.setPgNv x).obj o = s.obj o := rfl
@[simp] theorem State.setPgNv_byte (s : State) (x : Bool) (a : Nat) : (s.setPgNv x).byte a = s.byte a := rfl
@[simp] theorem State.setPgNv_queue (s : State) (x : Bool) (q : Nat) : (s.setPgNv x).queue q = s.queue q := rfl
@[simp] theorem State.setPgNv_dfind (s : State) (x : Bool) (q n : Nat) : (s.setPgNv x).dfind q n = s.dfind q n := rfl
@[simp] theorem State.setPgNv_rfind (s : State) (x : Bool) (q n : Nat) : (s.setPgNv x).rfind q n = s.rfind q n := rfl
@[simp] theorem State.setPgNv_bport (s : State) (x : Bool) (p : Nat) : (s.setPgNv x).bport p = s.bport p := rfl

@[simp] theorem State.setThrPin_thrPin (s : State) (x : Nat) : (s.setThrPin x).thrPin = x := rfl
@[simp] theorem State.setThrPin_variant (s : State) (x : Nat) : (s.setThrPin x).variant = s.variant := rfl
@[simp] theorem State.setThrPin_reads (s : State) (x : Nat) : (s.setThrPin x).reads = s.reads := rfl
@[simp] theorem State.setThrPin_holds (s : State) (x : Nat) : (s.setThrPin x).holds = s.holds := rfl
@[simp] theorem State.setThrPin_gov (s : State) (x : Nat) : (s.setThrPin x).gov = s.gov := rfl
@[simp] theorem State.setThrPin_pending (s : State) (x : Nat) : (s.setThrPin x).pending = s.pending := rfl
@[simp] theorem State.setThrPin_objs (s : State) (x : Nat) : (s.setThrPin x).objs = s.objs := rfl
@[simp] theorem State.setThrPin_digest (s : State) (x : Nat) : (s.setThrPin x).digest = s.digest := rfl
@[simp] theorem State.setThrPin_cycle (s : State) (x : Nat) : (s.setThrPin x).cycle = s.cycle := rfl
@[simp] theorem State.setThrPin_freeCtr (s : State) (x : Nat) : (s.setThrPin x).freeCtr = s.freeCtr := rfl
@[simp] theorem State.setThrPin_mem (s : State) (x : Nat) : (s.setThrPin x).mem = s.mem := rfl
@[simp] theorem State.setThrPin_reqs (s : State) (x : Nat) : (s.setThrPin x).reqs = s.reqs := rfl
@[simp] theorem State.setThrPin_queues (s : State) (x : Nat) : (s.setThrPin x).queues = s.queues := rfl
@[simp] theorem State.setThrPin_bell (s : State) (x : Nat) : (s.setThrPin x).bell = s.bell := rfl
@[simp] theorem State.setThrPin_form (s : State) (x : Nat) : (s.setThrPin x).form = s.form := rfl
@[simp] theorem State.setThrPin_hist (s : State) (x : Nat) : (s.setThrPin x).hist = s.hist := rfl
@[simp] theorem State.setThrPin_soOut (s : State) (x : Nat) : (s.setThrPin x).soOut = s.soOut := rfl
@[simp] theorem State.setThrPin_chans (s : State) (x : Nat) : (s.setThrPin x).chans = s.chans := rfl
@[simp] theorem State.setThrPin_routs (s : State) (x : Nat) : (s.setThrPin x).routs = s.routs := rfl
@[simp] theorem State.setThrPin_evbuf (s : State) (x : Nat) : (s.setThrPin x).evbuf = s.evbuf := rfl
@[simp] theorem State.setThrPin_segs (s : State) (x : Nat) : (s.setThrPin x).segs = s.segs := rfl
@[simp] theorem State.setThrPin_stage (s : State) (x : Nat) : (s.setThrPin x).stage = s.stage := rfl
@[simp] theorem State.setThrPin_moOut (s : State) (x : Nat) : (s.setThrPin x).moOut = s.moOut := rfl
@[simp] theorem State.setThrPin_nv (s : State) (x : Nat) : (s.setThrPin x).nv = s.nv := rfl
@[simp] theorem State.setThrPin_bports (s : State) (x : Nat) : (s.setThrPin x).bports = s.bports := rfl
@[simp] theorem State.setThrPin_group (s : State) (x : Nat) : (s.setThrPin x).group = s.group := rfl
@[simp] theorem State.setThrPin_reds (s : State) (x : Nat) : (s.setThrPin x).reds = s.reds := rfl
@[simp] theorem State.setThrPin_btx (s : State) (x : Nat) : (s.setThrPin x).btx = s.btx := rfl
@[simp] theorem State.setThrPin_test (s : State) (x : Nat) : (s.setThrPin x).test = s.test := rfl
@[simp] theorem State.setThrPin_check (s : State) (x : Nat) : (s.setThrPin x).check = s.check := rfl
@[simp] theorem State.setThrPin_coldHeld (s : State) (x : Nat) : (s.setThrPin x).coldHeld = s.coldHeld := rfl
@[simp] theorem State.setThrPin_warmHeld (s : State) (x : Nat) : (s.setThrPin x).warmHeld = s.warmHeld := rfl
@[simp] theorem State.setThrPin_loaded (s : State) (x : Nat) : (s.setThrPin x).loaded = s.loaded := rfl
@[simp] theorem State.setThrPin_invals (s : State) (x : Nat) : (s.setThrPin x).invals = s.invals := rfl
@[simp] theorem State.setThrPin_evSeq (s : State) (x : Nat) : (s.setThrPin x).evSeq = s.evSeq := rfl
@[simp] theorem State.setThrPin_get (s : State) (x : Nat) (o n : Nat) : (s.setThrPin x).get o n = s.get o n := rfl
@[simp] theorem State.setThrPin_obj (s : State) (x : Nat) (o : Nat) : (s.setThrPin x).obj o = s.obj o := rfl
@[simp] theorem State.setThrPin_byte (s : State) (x : Nat) (a : Nat) : (s.setThrPin x).byte a = s.byte a := rfl
@[simp] theorem State.setThrPin_queue (s : State) (x : Nat) (q : Nat) : (s.setThrPin x).queue q = s.queue q := rfl
@[simp] theorem State.setThrPin_dfind (s : State) (x : Nat) (q n : Nat) : (s.setThrPin x).dfind q n = s.dfind q n := rfl
@[simp] theorem State.setThrPin_rfind (s : State) (x : Nat) (q n : Nat) : (s.setThrPin x).rfind q n = s.rfind q n := rfl
@[simp] theorem State.setThrPin_bport (s : State) (x : Nat) (p : Nat) : (s.setThrPin x).bport p = s.bport p := rfl

@[simp] theorem State.setRiseDue_riseDue (s : State) (x : Bool) : (s.setRiseDue x).riseDue = x := rfl
@[simp] theorem State.setRiseDue_variant (s : State) (x : Bool) : (s.setRiseDue x).variant = s.variant := rfl
@[simp] theorem State.setRiseDue_reads (s : State) (x : Bool) : (s.setRiseDue x).reads = s.reads := rfl
@[simp] theorem State.setRiseDue_holds (s : State) (x : Bool) : (s.setRiseDue x).holds = s.holds := rfl
@[simp] theorem State.setRiseDue_gov (s : State) (x : Bool) : (s.setRiseDue x).gov = s.gov := rfl
@[simp] theorem State.setRiseDue_pending (s : State) (x : Bool) : (s.setRiseDue x).pending = s.pending := rfl
@[simp] theorem State.setRiseDue_objs (s : State) (x : Bool) : (s.setRiseDue x).objs = s.objs := rfl
@[simp] theorem State.setRiseDue_digest (s : State) (x : Bool) : (s.setRiseDue x).digest = s.digest := rfl
@[simp] theorem State.setRiseDue_cycle (s : State) (x : Bool) : (s.setRiseDue x).cycle = s.cycle := rfl
@[simp] theorem State.setRiseDue_freeCtr (s : State) (x : Bool) : (s.setRiseDue x).freeCtr = s.freeCtr := rfl
@[simp] theorem State.setRiseDue_mem (s : State) (x : Bool) : (s.setRiseDue x).mem = s.mem := rfl
@[simp] theorem State.setRiseDue_reqs (s : State) (x : Bool) : (s.setRiseDue x).reqs = s.reqs := rfl
@[simp] theorem State.setRiseDue_queues (s : State) (x : Bool) : (s.setRiseDue x).queues = s.queues := rfl
@[simp] theorem State.setRiseDue_bell (s : State) (x : Bool) : (s.setRiseDue x).bell = s.bell := rfl
@[simp] theorem State.setRiseDue_form (s : State) (x : Bool) : (s.setRiseDue x).form = s.form := rfl
@[simp] theorem State.setRiseDue_hist (s : State) (x : Bool) : (s.setRiseDue x).hist = s.hist := rfl
@[simp] theorem State.setRiseDue_soOut (s : State) (x : Bool) : (s.setRiseDue x).soOut = s.soOut := rfl
@[simp] theorem State.setRiseDue_chans (s : State) (x : Bool) : (s.setRiseDue x).chans = s.chans := rfl
@[simp] theorem State.setRiseDue_routs (s : State) (x : Bool) : (s.setRiseDue x).routs = s.routs := rfl
@[simp] theorem State.setRiseDue_evbuf (s : State) (x : Bool) : (s.setRiseDue x).evbuf = s.evbuf := rfl
@[simp] theorem State.setRiseDue_segs (s : State) (x : Bool) : (s.setRiseDue x).segs = s.segs := rfl
@[simp] theorem State.setRiseDue_stage (s : State) (x : Bool) : (s.setRiseDue x).stage = s.stage := rfl
@[simp] theorem State.setRiseDue_moOut (s : State) (x : Bool) : (s.setRiseDue x).moOut = s.moOut := rfl
@[simp] theorem State.setRiseDue_nv (s : State) (x : Bool) : (s.setRiseDue x).nv = s.nv := rfl
@[simp] theorem State.setRiseDue_bports (s : State) (x : Bool) : (s.setRiseDue x).bports = s.bports := rfl
@[simp] theorem State.setRiseDue_group (s : State) (x : Bool) : (s.setRiseDue x).group = s.group := rfl
@[simp] theorem State.setRiseDue_reds (s : State) (x : Bool) : (s.setRiseDue x).reds = s.reds := rfl
@[simp] theorem State.setRiseDue_btx (s : State) (x : Bool) : (s.setRiseDue x).btx = s.btx := rfl
@[simp] theorem State.setRiseDue_test (s : State) (x : Bool) : (s.setRiseDue x).test = s.test := rfl
@[simp] theorem State.setRiseDue_check (s : State) (x : Bool) : (s.setRiseDue x).check = s.check := rfl
@[simp] theorem State.setRiseDue_coldHeld (s : State) (x : Bool) : (s.setRiseDue x).coldHeld = s.coldHeld := rfl
@[simp] theorem State.setRiseDue_warmHeld (s : State) (x : Bool) : (s.setRiseDue x).warmHeld = s.warmHeld := rfl
@[simp] theorem State.setRiseDue_loaded (s : State) (x : Bool) : (s.setRiseDue x).loaded = s.loaded := rfl
@[simp] theorem State.setRiseDue_invals (s : State) (x : Bool) : (s.setRiseDue x).invals = s.invals := rfl
@[simp] theorem State.setRiseDue_evSeq (s : State) (x : Bool) : (s.setRiseDue x).evSeq = s.evSeq := rfl
@[simp] theorem State.setRiseDue_get (s : State) (x : Bool) (o n : Nat) : (s.setRiseDue x).get o n = s.get o n := rfl
@[simp] theorem State.setRiseDue_obj (s : State) (x : Bool) (o : Nat) : (s.setRiseDue x).obj o = s.obj o := rfl
@[simp] theorem State.setRiseDue_byte (s : State) (x : Bool) (a : Nat) : (s.setRiseDue x).byte a = s.byte a := rfl
@[simp] theorem State.setRiseDue_queue (s : State) (x : Bool) (q : Nat) : (s.setRiseDue x).queue q = s.queue q := rfl
@[simp] theorem State.setRiseDue_dfind (s : State) (x : Bool) (q n : Nat) : (s.setRiseDue x).dfind q n = s.dfind q n := rfl
@[simp] theorem State.setRiseDue_rfind (s : State) (x : Bool) (q n : Nat) : (s.setRiseDue x).rfind q n = s.rfind q n := rfl
@[simp] theorem State.setRiseDue_bport (s : State) (x : Bool) (p : Nat) : (s.setRiseDue x).bport p = s.bport p := rfl

@[simp] theorem State.setPstateReq_pstateReq (s : State) (x : Nat) : (s.setPstateReq x).pstateReq = x := rfl
@[simp] theorem State.setPstateReq_variant (s : State) (x : Nat) : (s.setPstateReq x).variant = s.variant := rfl
@[simp] theorem State.setPstateReq_reads (s : State) (x : Nat) : (s.setPstateReq x).reads = s.reads := rfl
@[simp] theorem State.setPstateReq_holds (s : State) (x : Nat) : (s.setPstateReq x).holds = s.holds := rfl
@[simp] theorem State.setPstateReq_gov (s : State) (x : Nat) : (s.setPstateReq x).gov = s.gov := rfl
@[simp] theorem State.setPstateReq_pending (s : State) (x : Nat) : (s.setPstateReq x).pending = s.pending := rfl
@[simp] theorem State.setPstateReq_objs (s : State) (x : Nat) : (s.setPstateReq x).objs = s.objs := rfl
@[simp] theorem State.setPstateReq_digest (s : State) (x : Nat) : (s.setPstateReq x).digest = s.digest := rfl
@[simp] theorem State.setPstateReq_cycle (s : State) (x : Nat) : (s.setPstateReq x).cycle = s.cycle := rfl
@[simp] theorem State.setPstateReq_freeCtr (s : State) (x : Nat) : (s.setPstateReq x).freeCtr = s.freeCtr := rfl
@[simp] theorem State.setPstateReq_mem (s : State) (x : Nat) : (s.setPstateReq x).mem = s.mem := rfl
@[simp] theorem State.setPstateReq_reqs (s : State) (x : Nat) : (s.setPstateReq x).reqs = s.reqs := rfl
@[simp] theorem State.setPstateReq_queues (s : State) (x : Nat) : (s.setPstateReq x).queues = s.queues := rfl
@[simp] theorem State.setPstateReq_bell (s : State) (x : Nat) : (s.setPstateReq x).bell = s.bell := rfl
@[simp] theorem State.setPstateReq_form (s : State) (x : Nat) : (s.setPstateReq x).form = s.form := rfl
@[simp] theorem State.setPstateReq_hist (s : State) (x : Nat) : (s.setPstateReq x).hist = s.hist := rfl
@[simp] theorem State.setPstateReq_soOut (s : State) (x : Nat) : (s.setPstateReq x).soOut = s.soOut := rfl
@[simp] theorem State.setPstateReq_chans (s : State) (x : Nat) : (s.setPstateReq x).chans = s.chans := rfl
@[simp] theorem State.setPstateReq_routs (s : State) (x : Nat) : (s.setPstateReq x).routs = s.routs := rfl
@[simp] theorem State.setPstateReq_evbuf (s : State) (x : Nat) : (s.setPstateReq x).evbuf = s.evbuf := rfl
@[simp] theorem State.setPstateReq_segs (s : State) (x : Nat) : (s.setPstateReq x).segs = s.segs := rfl
@[simp] theorem State.setPstateReq_stage (s : State) (x : Nat) : (s.setPstateReq x).stage = s.stage := rfl
@[simp] theorem State.setPstateReq_moOut (s : State) (x : Nat) : (s.setPstateReq x).moOut = s.moOut := rfl
@[simp] theorem State.setPstateReq_nv (s : State) (x : Nat) : (s.setPstateReq x).nv = s.nv := rfl
@[simp] theorem State.setPstateReq_bports (s : State) (x : Nat) : (s.setPstateReq x).bports = s.bports := rfl
@[simp] theorem State.setPstateReq_group (s : State) (x : Nat) : (s.setPstateReq x).group = s.group := rfl
@[simp] theorem State.setPstateReq_reds (s : State) (x : Nat) : (s.setPstateReq x).reds = s.reds := rfl
@[simp] theorem State.setPstateReq_btx (s : State) (x : Nat) : (s.setPstateReq x).btx = s.btx := rfl
@[simp] theorem State.setPstateReq_test (s : State) (x : Nat) : (s.setPstateReq x).test = s.test := rfl
@[simp] theorem State.setPstateReq_check (s : State) (x : Nat) : (s.setPstateReq x).check = s.check := rfl
@[simp] theorem State.setPstateReq_coldHeld (s : State) (x : Nat) : (s.setPstateReq x).coldHeld = s.coldHeld := rfl
@[simp] theorem State.setPstateReq_warmHeld (s : State) (x : Nat) : (s.setPstateReq x).warmHeld = s.warmHeld := rfl
@[simp] theorem State.setPstateReq_loaded (s : State) (x : Nat) : (s.setPstateReq x).loaded = s.loaded := rfl
@[simp] theorem State.setPstateReq_invals (s : State) (x : Nat) : (s.setPstateReq x).invals = s.invals := rfl
@[simp] theorem State.setPstateReq_evSeq (s : State) (x : Nat) : (s.setPstateReq x).evSeq = s.evSeq := rfl
@[simp] theorem State.setPstateReq_get (s : State) (x : Nat) (o n : Nat) : (s.setPstateReq x).get o n = s.get o n := rfl
@[simp] theorem State.setPstateReq_obj (s : State) (x : Nat) (o : Nat) : (s.setPstateReq x).obj o = s.obj o := rfl
@[simp] theorem State.setPstateReq_byte (s : State) (x : Nat) (a : Nat) : (s.setPstateReq x).byte a = s.byte a := rfl
@[simp] theorem State.setPstateReq_queue (s : State) (x : Nat) (q : Nat) : (s.setPstateReq x).queue q = s.queue q := rfl
@[simp] theorem State.setPstateReq_dfind (s : State) (x : Nat) (q n : Nat) : (s.setPstateReq x).dfind q n = s.dfind q n := rfl
@[simp] theorem State.setPstateReq_rfind (s : State) (x : Nat) (q n : Nat) : (s.setPstateReq x).rfind q n = s.rfind q n := rfl
@[simp] theorem State.setPstateReq_bport (s : State) (x : Nat) (p : Nat) : (s.setPstateReq x).bport p = s.bport p := rfl

@[simp] theorem State.setPstateAck_pstateAck (s : State) (x : Nat) : (s.setPstateAck x).pstateAck = x := rfl
@[simp] theorem State.setPstateAck_variant (s : State) (x : Nat) : (s.setPstateAck x).variant = s.variant := rfl
@[simp] theorem State.setPstateAck_reads (s : State) (x : Nat) : (s.setPstateAck x).reads = s.reads := rfl
@[simp] theorem State.setPstateAck_holds (s : State) (x : Nat) : (s.setPstateAck x).holds = s.holds := rfl
@[simp] theorem State.setPstateAck_gov (s : State) (x : Nat) : (s.setPstateAck x).gov = s.gov := rfl
@[simp] theorem State.setPstateAck_pending (s : State) (x : Nat) : (s.setPstateAck x).pending = s.pending := rfl
@[simp] theorem State.setPstateAck_objs (s : State) (x : Nat) : (s.setPstateAck x).objs = s.objs := rfl
@[simp] theorem State.setPstateAck_digest (s : State) (x : Nat) : (s.setPstateAck x).digest = s.digest := rfl
@[simp] theorem State.setPstateAck_cycle (s : State) (x : Nat) : (s.setPstateAck x).cycle = s.cycle := rfl
@[simp] theorem State.setPstateAck_freeCtr (s : State) (x : Nat) : (s.setPstateAck x).freeCtr = s.freeCtr := rfl
@[simp] theorem State.setPstateAck_mem (s : State) (x : Nat) : (s.setPstateAck x).mem = s.mem := rfl
@[simp] theorem State.setPstateAck_reqs (s : State) (x : Nat) : (s.setPstateAck x).reqs = s.reqs := rfl
@[simp] theorem State.setPstateAck_queues (s : State) (x : Nat) : (s.setPstateAck x).queues = s.queues := rfl
@[simp] theorem State.setPstateAck_bell (s : State) (x : Nat) : (s.setPstateAck x).bell = s.bell := rfl
@[simp] theorem State.setPstateAck_form (s : State) (x : Nat) : (s.setPstateAck x).form = s.form := rfl
@[simp] theorem State.setPstateAck_hist (s : State) (x : Nat) : (s.setPstateAck x).hist = s.hist := rfl
@[simp] theorem State.setPstateAck_soOut (s : State) (x : Nat) : (s.setPstateAck x).soOut = s.soOut := rfl
@[simp] theorem State.setPstateAck_chans (s : State) (x : Nat) : (s.setPstateAck x).chans = s.chans := rfl
@[simp] theorem State.setPstateAck_routs (s : State) (x : Nat) : (s.setPstateAck x).routs = s.routs := rfl
@[simp] theorem State.setPstateAck_evbuf (s : State) (x : Nat) : (s.setPstateAck x).evbuf = s.evbuf := rfl
@[simp] theorem State.setPstateAck_segs (s : State) (x : Nat) : (s.setPstateAck x).segs = s.segs := rfl
@[simp] theorem State.setPstateAck_stage (s : State) (x : Nat) : (s.setPstateAck x).stage = s.stage := rfl
@[simp] theorem State.setPstateAck_moOut (s : State) (x : Nat) : (s.setPstateAck x).moOut = s.moOut := rfl
@[simp] theorem State.setPstateAck_nv (s : State) (x : Nat) : (s.setPstateAck x).nv = s.nv := rfl
@[simp] theorem State.setPstateAck_bports (s : State) (x : Nat) : (s.setPstateAck x).bports = s.bports := rfl
@[simp] theorem State.setPstateAck_group (s : State) (x : Nat) : (s.setPstateAck x).group = s.group := rfl
@[simp] theorem State.setPstateAck_reds (s : State) (x : Nat) : (s.setPstateAck x).reds = s.reds := rfl
@[simp] theorem State.setPstateAck_btx (s : State) (x : Nat) : (s.setPstateAck x).btx = s.btx := rfl
@[simp] theorem State.setPstateAck_test (s : State) (x : Nat) : (s.setPstateAck x).test = s.test := rfl
@[simp] theorem State.setPstateAck_check (s : State) (x : Nat) : (s.setPstateAck x).check = s.check := rfl
@[simp] theorem State.setPstateAck_coldHeld (s : State) (x : Nat) : (s.setPstateAck x).coldHeld = s.coldHeld := rfl
@[simp] theorem State.setPstateAck_warmHeld (s : State) (x : Nat) : (s.setPstateAck x).warmHeld = s.warmHeld := rfl
@[simp] theorem State.setPstateAck_loaded (s : State) (x : Nat) : (s.setPstateAck x).loaded = s.loaded := rfl
@[simp] theorem State.setPstateAck_invals (s : State) (x : Nat) : (s.setPstateAck x).invals = s.invals := rfl
@[simp] theorem State.setPstateAck_evSeq (s : State) (x : Nat) : (s.setPstateAck x).evSeq = s.evSeq := rfl
@[simp] theorem State.setPstateAck_get (s : State) (x : Nat) (o n : Nat) : (s.setPstateAck x).get o n = s.get o n := rfl
@[simp] theorem State.setPstateAck_obj (s : State) (x : Nat) (o : Nat) : (s.setPstateAck x).obj o = s.obj o := rfl
@[simp] theorem State.setPstateAck_byte (s : State) (x : Nat) (a : Nat) : (s.setPstateAck x).byte a = s.byte a := rfl
@[simp] theorem State.setPstateAck_queue (s : State) (x : Nat) (q : Nat) : (s.setPstateAck x).queue q = s.queue q := rfl
@[simp] theorem State.setPstateAck_dfind (s : State) (x : Nat) (q n : Nat) : (s.setPstateAck x).dfind q n = s.dfind q n := rfl
@[simp] theorem State.setPstateAck_rfind (s : State) (x : Nat) (q n : Nat) : (s.setPstateAck x).rfind q n = s.rfind q n := rfl
@[simp] theorem State.setPstateAck_bport (s : State) (x : Nat) (p : Nat) : (s.setPstateAck x).bport p = s.bport p := rfl

@[simp] theorem State.setMoving_moving (s : State) (x : Option (Nat × Nat)) : (s.setMoving x).moving = x := rfl
@[simp] theorem State.setMoving_variant (s : State) (x : Option (Nat × Nat)) : (s.setMoving x).variant = s.variant := rfl
@[simp] theorem State.setMoving_reads (s : State) (x : Option (Nat × Nat)) : (s.setMoving x).reads = s.reads := rfl
@[simp] theorem State.setMoving_holds (s : State) (x : Option (Nat × Nat)) : (s.setMoving x).holds = s.holds := rfl
@[simp] theorem State.setMoving_gov (s : State) (x : Option (Nat × Nat)) : (s.setMoving x).gov = s.gov := rfl
@[simp] theorem State.setMoving_pending (s : State) (x : Option (Nat × Nat)) : (s.setMoving x).pending = s.pending := rfl
@[simp] theorem State.setMoving_objs (s : State) (x : Option (Nat × Nat)) : (s.setMoving x).objs = s.objs := rfl
@[simp] theorem State.setMoving_digest (s : State) (x : Option (Nat × Nat)) : (s.setMoving x).digest = s.digest := rfl
@[simp] theorem State.setMoving_cycle (s : State) (x : Option (Nat × Nat)) : (s.setMoving x).cycle = s.cycle := rfl
@[simp] theorem State.setMoving_freeCtr (s : State) (x : Option (Nat × Nat)) : (s.setMoving x).freeCtr = s.freeCtr := rfl
@[simp] theorem State.setMoving_mem (s : State) (x : Option (Nat × Nat)) : (s.setMoving x).mem = s.mem := rfl
@[simp] theorem State.setMoving_reqs (s : State) (x : Option (Nat × Nat)) : (s.setMoving x).reqs = s.reqs := rfl
@[simp] theorem State.setMoving_queues (s : State) (x : Option (Nat × Nat)) : (s.setMoving x).queues = s.queues := rfl
@[simp] theorem State.setMoving_bell (s : State) (x : Option (Nat × Nat)) : (s.setMoving x).bell = s.bell := rfl
@[simp] theorem State.setMoving_form (s : State) (x : Option (Nat × Nat)) : (s.setMoving x).form = s.form := rfl
@[simp] theorem State.setMoving_hist (s : State) (x : Option (Nat × Nat)) : (s.setMoving x).hist = s.hist := rfl
@[simp] theorem State.setMoving_soOut (s : State) (x : Option (Nat × Nat)) : (s.setMoving x).soOut = s.soOut := rfl
@[simp] theorem State.setMoving_chans (s : State) (x : Option (Nat × Nat)) : (s.setMoving x).chans = s.chans := rfl
@[simp] theorem State.setMoving_routs (s : State) (x : Option (Nat × Nat)) : (s.setMoving x).routs = s.routs := rfl
@[simp] theorem State.setMoving_evbuf (s : State) (x : Option (Nat × Nat)) : (s.setMoving x).evbuf = s.evbuf := rfl
@[simp] theorem State.setMoving_segs (s : State) (x : Option (Nat × Nat)) : (s.setMoving x).segs = s.segs := rfl
@[simp] theorem State.setMoving_stage (s : State) (x : Option (Nat × Nat)) : (s.setMoving x).stage = s.stage := rfl
@[simp] theorem State.setMoving_moOut (s : State) (x : Option (Nat × Nat)) : (s.setMoving x).moOut = s.moOut := rfl
@[simp] theorem State.setMoving_nv (s : State) (x : Option (Nat × Nat)) : (s.setMoving x).nv = s.nv := rfl
@[simp] theorem State.setMoving_bports (s : State) (x : Option (Nat × Nat)) : (s.setMoving x).bports = s.bports := rfl
@[simp] theorem State.setMoving_group (s : State) (x : Option (Nat × Nat)) : (s.setMoving x).group = s.group := rfl
@[simp] theorem State.setMoving_reds (s : State) (x : Option (Nat × Nat)) : (s.setMoving x).reds = s.reds := rfl
@[simp] theorem State.setMoving_btx (s : State) (x : Option (Nat × Nat)) : (s.setMoving x).btx = s.btx := rfl
@[simp] theorem State.setMoving_test (s : State) (x : Option (Nat × Nat)) : (s.setMoving x).test = s.test := rfl
@[simp] theorem State.setMoving_check (s : State) (x : Option (Nat × Nat)) : (s.setMoving x).check = s.check := rfl
@[simp] theorem State.setMoving_coldHeld (s : State) (x : Option (Nat × Nat)) : (s.setMoving x).coldHeld = s.coldHeld := rfl
@[simp] theorem State.setMoving_warmHeld (s : State) (x : Option (Nat × Nat)) : (s.setMoving x).warmHeld = s.warmHeld := rfl
@[simp] theorem State.setMoving_loaded (s : State) (x : Option (Nat × Nat)) : (s.setMoving x).loaded = s.loaded := rfl
@[simp] theorem State.setMoving_invals (s : State) (x : Option (Nat × Nat)) : (s.setMoving x).invals = s.invals := rfl
@[simp] theorem State.setMoving_evSeq (s : State) (x : Option (Nat × Nat)) : (s.setMoving x).evSeq = s.evSeq := rfl
@[simp] theorem State.setMoving_get (s : State) (x : Option (Nat × Nat)) (o n : Nat) : (s.setMoving x).get o n = s.get o n := rfl
@[simp] theorem State.setMoving_obj (s : State) (x : Option (Nat × Nat)) (o : Nat) : (s.setMoving x).obj o = s.obj o := rfl
@[simp] theorem State.setMoving_byte (s : State) (x : Option (Nat × Nat)) (a : Nat) : (s.setMoving x).byte a = s.byte a := rfl
@[simp] theorem State.setMoving_queue (s : State) (x : Option (Nat × Nat)) (q : Nat) : (s.setMoving x).queue q = s.queue q := rfl
@[simp] theorem State.setMoving_dfind (s : State) (x : Option (Nat × Nat)) (q n : Nat) : (s.setMoving x).dfind q n = s.dfind q n := rfl
@[simp] theorem State.setMoving_rfind (s : State) (x : Option (Nat × Nat)) (q n : Nat) : (s.setMoving x).rfind q n = s.rfind q n := rfl
@[simp] theorem State.setMoving_bport (s : State) (x : Option (Nat × Nat)) (p : Nat) : (s.setMoving x).bport p = s.bport p := rfl

@[simp] theorem State.setDraining_draining (s : State) (x : Bool) : (s.setDraining x).draining = x := rfl
@[simp] theorem State.setDraining_variant (s : State) (x : Bool) : (s.setDraining x).variant = s.variant := rfl
@[simp] theorem State.setDraining_reads (s : State) (x : Bool) : (s.setDraining x).reads = s.reads := rfl
@[simp] theorem State.setDraining_holds (s : State) (x : Bool) : (s.setDraining x).holds = s.holds := rfl
@[simp] theorem State.setDraining_gov (s : State) (x : Bool) : (s.setDraining x).gov = s.gov := rfl
@[simp] theorem State.setDraining_pending (s : State) (x : Bool) : (s.setDraining x).pending = s.pending := rfl
@[simp] theorem State.setDraining_objs (s : State) (x : Bool) : (s.setDraining x).objs = s.objs := rfl
@[simp] theorem State.setDraining_digest (s : State) (x : Bool) : (s.setDraining x).digest = s.digest := rfl
@[simp] theorem State.setDraining_cycle (s : State) (x : Bool) : (s.setDraining x).cycle = s.cycle := rfl
@[simp] theorem State.setDraining_freeCtr (s : State) (x : Bool) : (s.setDraining x).freeCtr = s.freeCtr := rfl
@[simp] theorem State.setDraining_mem (s : State) (x : Bool) : (s.setDraining x).mem = s.mem := rfl
@[simp] theorem State.setDraining_reqs (s : State) (x : Bool) : (s.setDraining x).reqs = s.reqs := rfl
@[simp] theorem State.setDraining_queues (s : State) (x : Bool) : (s.setDraining x).queues = s.queues := rfl
@[simp] theorem State.setDraining_bell (s : State) (x : Bool) : (s.setDraining x).bell = s.bell := rfl
@[simp] theorem State.setDraining_form (s : State) (x : Bool) : (s.setDraining x).form = s.form := rfl
@[simp] theorem State.setDraining_hist (s : State) (x : Bool) : (s.setDraining x).hist = s.hist := rfl
@[simp] theorem State.setDraining_soOut (s : State) (x : Bool) : (s.setDraining x).soOut = s.soOut := rfl
@[simp] theorem State.setDraining_chans (s : State) (x : Bool) : (s.setDraining x).chans = s.chans := rfl
@[simp] theorem State.setDraining_routs (s : State) (x : Bool) : (s.setDraining x).routs = s.routs := rfl
@[simp] theorem State.setDraining_evbuf (s : State) (x : Bool) : (s.setDraining x).evbuf = s.evbuf := rfl
@[simp] theorem State.setDraining_segs (s : State) (x : Bool) : (s.setDraining x).segs = s.segs := rfl
@[simp] theorem State.setDraining_stage (s : State) (x : Bool) : (s.setDraining x).stage = s.stage := rfl
@[simp] theorem State.setDraining_moOut (s : State) (x : Bool) : (s.setDraining x).moOut = s.moOut := rfl
@[simp] theorem State.setDraining_nv (s : State) (x : Bool) : (s.setDraining x).nv = s.nv := rfl
@[simp] theorem State.setDraining_bports (s : State) (x : Bool) : (s.setDraining x).bports = s.bports := rfl
@[simp] theorem State.setDraining_group (s : State) (x : Bool) : (s.setDraining x).group = s.group := rfl
@[simp] theorem State.setDraining_reds (s : State) (x : Bool) : (s.setDraining x).reds = s.reds := rfl
@[simp] theorem State.setDraining_btx (s : State) (x : Bool) : (s.setDraining x).btx = s.btx := rfl
@[simp] theorem State.setDraining_test (s : State) (x : Bool) : (s.setDraining x).test = s.test := rfl
@[simp] theorem State.setDraining_check (s : State) (x : Bool) : (s.setDraining x).check = s.check := rfl
@[simp] theorem State.setDraining_coldHeld (s : State) (x : Bool) : (s.setDraining x).coldHeld = s.coldHeld := rfl
@[simp] theorem State.setDraining_warmHeld (s : State) (x : Bool) : (s.setDraining x).warmHeld = s.warmHeld := rfl
@[simp] theorem State.setDraining_loaded (s : State) (x : Bool) : (s.setDraining x).loaded = s.loaded := rfl
@[simp] theorem State.setDraining_invals (s : State) (x : Bool) : (s.setDraining x).invals = s.invals := rfl
@[simp] theorem State.setDraining_evSeq (s : State) (x : Bool) : (s.setDraining x).evSeq = s.evSeq := rfl
@[simp] theorem State.setDraining_get (s : State) (x : Bool) (o n : Nat) : (s.setDraining x).get o n = s.get o n := rfl
@[simp] theorem State.setDraining_obj (s : State) (x : Bool) (o : Nat) : (s.setDraining x).obj o = s.obj o := rfl
@[simp] theorem State.setDraining_byte (s : State) (x : Bool) (a : Nat) : (s.setDraining x).byte a = s.byte a := rfl
@[simp] theorem State.setDraining_queue (s : State) (x : Bool) (q : Nat) : (s.setDraining x).queue q = s.queue q := rfl
@[simp] theorem State.setDraining_dfind (s : State) (x : Bool) (q n : Nat) : (s.setDraining x).dfind q n = s.dfind q n := rfl
@[simp] theorem State.setDraining_rfind (s : State) (x : Bool) (q n : Nat) : (s.setDraining x).rfind q n = s.rfind q n := rfl
@[simp] theorem State.setDraining_bport (s : State) (x : Bool) (p : Nat) : (s.setDraining x).bport p = s.bport p := rfl

@[simp] theorem State.setReads_reads (s : State) (x : Reads) : (s.setReads x).reads = x := rfl
@[simp] theorem State.setReads_variant (s : State) (x : Reads) : (s.setReads x).variant = s.variant := rfl
@[simp] theorem State.setReads_holds (s : State) (x : Reads) : (s.setReads x).holds = s.holds := rfl
@[simp] theorem State.setReads_gov (s : State) (x : Reads) : (s.setReads x).gov = s.gov := rfl
@[simp] theorem State.setReads_pending (s : State) (x : Reads) : (s.setReads x).pending = s.pending := rfl
@[simp] theorem State.setReads_objs (s : State) (x : Reads) : (s.setReads x).objs = s.objs := rfl
@[simp] theorem State.setReads_digest (s : State) (x : Reads) : (s.setReads x).digest = s.digest := rfl
@[simp] theorem State.setReads_cycle (s : State) (x : Reads) : (s.setReads x).cycle = s.cycle := rfl
@[simp] theorem State.setReads_freeCtr (s : State) (x : Reads) : (s.setReads x).freeCtr = s.freeCtr := rfl
@[simp] theorem State.setReads_mem (s : State) (x : Reads) : (s.setReads x).mem = s.mem := rfl
@[simp] theorem State.setReads_reqs (s : State) (x : Reads) : (s.setReads x).reqs = s.reqs := rfl
@[simp] theorem State.setReads_queues (s : State) (x : Reads) : (s.setReads x).queues = s.queues := rfl
@[simp] theorem State.setReads_bell (s : State) (x : Reads) : (s.setReads x).bell = s.bell := rfl
@[simp] theorem State.setReads_form (s : State) (x : Reads) : (s.setReads x).form = s.form := rfl
@[simp] theorem State.setReads_hist (s : State) (x : Reads) : (s.setReads x).hist = s.hist := rfl
@[simp] theorem State.setReads_soOut (s : State) (x : Reads) : (s.setReads x).soOut = s.soOut := rfl
@[simp] theorem State.setReads_chans (s : State) (x : Reads) : (s.setReads x).chans = s.chans := rfl
@[simp] theorem State.setReads_routs (s : State) (x : Reads) : (s.setReads x).routs = s.routs := rfl
@[simp] theorem State.setReads_evbuf (s : State) (x : Reads) : (s.setReads x).evbuf = s.evbuf := rfl
@[simp] theorem State.setReads_segs (s : State) (x : Reads) : (s.setReads x).segs = s.segs := rfl
@[simp] theorem State.setReads_stage (s : State) (x : Reads) : (s.setReads x).stage = s.stage := rfl
@[simp] theorem State.setReads_moOut (s : State) (x : Reads) : (s.setReads x).moOut = s.moOut := rfl
@[simp] theorem State.setReads_nv (s : State) (x : Reads) : (s.setReads x).nv = s.nv := rfl
@[simp] theorem State.setReads_bports (s : State) (x : Reads) : (s.setReads x).bports = s.bports := rfl
@[simp] theorem State.setReads_group (s : State) (x : Reads) : (s.setReads x).group = s.group := rfl
@[simp] theorem State.setReads_reds (s : State) (x : Reads) : (s.setReads x).reds = s.reds := rfl
@[simp] theorem State.setReads_btx (s : State) (x : Reads) : (s.setReads x).btx = s.btx := rfl
@[simp] theorem State.setReads_test (s : State) (x : Reads) : (s.setReads x).test = s.test := rfl
@[simp] theorem State.setReads_check (s : State) (x : Reads) : (s.setReads x).check = s.check := rfl
@[simp] theorem State.setReads_coldHeld (s : State) (x : Reads) : (s.setReads x).coldHeld = s.coldHeld := rfl
@[simp] theorem State.setReads_warmHeld (s : State) (x : Reads) : (s.setReads x).warmHeld = s.warmHeld := rfl
@[simp] theorem State.setReads_loaded (s : State) (x : Reads) : (s.setReads x).loaded = s.loaded := rfl
@[simp] theorem State.setReads_invals (s : State) (x : Reads) : (s.setReads x).invals = s.invals := rfl
@[simp] theorem State.setReads_evSeq (s : State) (x : Reads) : (s.setReads x).evSeq = s.evSeq := rfl
@[simp] theorem State.setReads_get (s : State) (x : Reads) (o n : Nat) : (s.setReads x).get o n = s.get o n := rfl
@[simp] theorem State.setReads_obj (s : State) (x : Reads) (o : Nat) : (s.setReads x).obj o = s.obj o := rfl
@[simp] theorem State.setReads_byte (s : State) (x : Reads) (a : Nat) : (s.setReads x).byte a = s.byte a := rfl
@[simp] theorem State.setReads_queue (s : State) (x : Reads) (q : Nat) : (s.setReads x).queue q = s.queue q := rfl
@[simp] theorem State.setReads_dfind (s : State) (x : Reads) (q n : Nat) : (s.setReads x).dfind q n = s.dfind q n := rfl
@[simp] theorem State.setReads_rfind (s : State) (x : Reads) (q n : Nat) : (s.setReads x).rfind q n = s.rfind q n := rfl
@[simp] theorem State.setReads_bport (s : State) (x : Reads) (p : Nat) : (s.setReads x).bport p = s.bport p := rfl

@[simp] theorem State.setHolds_holds (s : State) (x : SMap (Option (Nat × Nat × Nat))) : (s.setHolds x).holds = x := rfl
@[simp] theorem State.setHolds_variant (s : State) (x : SMap (Option (Nat × Nat × Nat))) : (s.setHolds x).variant = s.variant := rfl
@[simp] theorem State.setHolds_reads (s : State) (x : SMap (Option (Nat × Nat × Nat))) : (s.setHolds x).reads = s.reads := rfl
@[simp] theorem State.setHolds_gov (s : State) (x : SMap (Option (Nat × Nat × Nat))) : (s.setHolds x).gov = s.gov := rfl
@[simp] theorem State.setHolds_pending (s : State) (x : SMap (Option (Nat × Nat × Nat))) : (s.setHolds x).pending = s.pending := rfl
@[simp] theorem State.setHolds_objs (s : State) (x : SMap (Option (Nat × Nat × Nat))) : (s.setHolds x).objs = s.objs := rfl
@[simp] theorem State.setHolds_digest (s : State) (x : SMap (Option (Nat × Nat × Nat))) : (s.setHolds x).digest = s.digest := rfl
@[simp] theorem State.setHolds_cycle (s : State) (x : SMap (Option (Nat × Nat × Nat))) : (s.setHolds x).cycle = s.cycle := rfl
@[simp] theorem State.setHolds_freeCtr (s : State) (x : SMap (Option (Nat × Nat × Nat))) : (s.setHolds x).freeCtr = s.freeCtr := rfl
@[simp] theorem State.setHolds_mem (s : State) (x : SMap (Option (Nat × Nat × Nat))) : (s.setHolds x).mem = s.mem := rfl
@[simp] theorem State.setHolds_reqs (s : State) (x : SMap (Option (Nat × Nat × Nat))) : (s.setHolds x).reqs = s.reqs := rfl
@[simp] theorem State.setHolds_queues (s : State) (x : SMap (Option (Nat × Nat × Nat))) : (s.setHolds x).queues = s.queues := rfl
@[simp] theorem State.setHolds_bell (s : State) (x : SMap (Option (Nat × Nat × Nat))) : (s.setHolds x).bell = s.bell := rfl
@[simp] theorem State.setHolds_form (s : State) (x : SMap (Option (Nat × Nat × Nat))) : (s.setHolds x).form = s.form := rfl
@[simp] theorem State.setHolds_hist (s : State) (x : SMap (Option (Nat × Nat × Nat))) : (s.setHolds x).hist = s.hist := rfl
@[simp] theorem State.setHolds_soOut (s : State) (x : SMap (Option (Nat × Nat × Nat))) : (s.setHolds x).soOut = s.soOut := rfl
@[simp] theorem State.setHolds_chans (s : State) (x : SMap (Option (Nat × Nat × Nat))) : (s.setHolds x).chans = s.chans := rfl
@[simp] theorem State.setHolds_routs (s : State) (x : SMap (Option (Nat × Nat × Nat))) : (s.setHolds x).routs = s.routs := rfl
@[simp] theorem State.setHolds_evbuf (s : State) (x : SMap (Option (Nat × Nat × Nat))) : (s.setHolds x).evbuf = s.evbuf := rfl
@[simp] theorem State.setHolds_segs (s : State) (x : SMap (Option (Nat × Nat × Nat))) : (s.setHolds x).segs = s.segs := rfl
@[simp] theorem State.setHolds_stage (s : State) (x : SMap (Option (Nat × Nat × Nat))) : (s.setHolds x).stage = s.stage := rfl
@[simp] theorem State.setHolds_moOut (s : State) (x : SMap (Option (Nat × Nat × Nat))) : (s.setHolds x).moOut = s.moOut := rfl
@[simp] theorem State.setHolds_nv (s : State) (x : SMap (Option (Nat × Nat × Nat))) : (s.setHolds x).nv = s.nv := rfl
@[simp] theorem State.setHolds_bports (s : State) (x : SMap (Option (Nat × Nat × Nat))) : (s.setHolds x).bports = s.bports := rfl
@[simp] theorem State.setHolds_group (s : State) (x : SMap (Option (Nat × Nat × Nat))) : (s.setHolds x).group = s.group := rfl
@[simp] theorem State.setHolds_reds (s : State) (x : SMap (Option (Nat × Nat × Nat))) : (s.setHolds x).reds = s.reds := rfl
@[simp] theorem State.setHolds_btx (s : State) (x : SMap (Option (Nat × Nat × Nat))) : (s.setHolds x).btx = s.btx := rfl
@[simp] theorem State.setHolds_test (s : State) (x : SMap (Option (Nat × Nat × Nat))) : (s.setHolds x).test = s.test := rfl
@[simp] theorem State.setHolds_check (s : State) (x : SMap (Option (Nat × Nat × Nat))) : (s.setHolds x).check = s.check := rfl
@[simp] theorem State.setHolds_coldHeld (s : State) (x : SMap (Option (Nat × Nat × Nat))) : (s.setHolds x).coldHeld = s.coldHeld := rfl
@[simp] theorem State.setHolds_warmHeld (s : State) (x : SMap (Option (Nat × Nat × Nat))) : (s.setHolds x).warmHeld = s.warmHeld := rfl
@[simp] theorem State.setHolds_loaded (s : State) (x : SMap (Option (Nat × Nat × Nat))) : (s.setHolds x).loaded = s.loaded := rfl
@[simp] theorem State.setHolds_invals (s : State) (x : SMap (Option (Nat × Nat × Nat))) : (s.setHolds x).invals = s.invals := rfl
@[simp] theorem State.setHolds_evSeq (s : State) (x : SMap (Option (Nat × Nat × Nat))) : (s.setHolds x).evSeq = s.evSeq := rfl
@[simp] theorem State.setHolds_get (s : State) (x : SMap (Option (Nat × Nat × Nat))) (o n : Nat) : (s.setHolds x).get o n = s.get o n := rfl
@[simp] theorem State.setHolds_obj (s : State) (x : SMap (Option (Nat × Nat × Nat))) (o : Nat) : (s.setHolds x).obj o = s.obj o := rfl
@[simp] theorem State.setHolds_byte (s : State) (x : SMap (Option (Nat × Nat × Nat))) (a : Nat) : (s.setHolds x).byte a = s.byte a := rfl
@[simp] theorem State.setHolds_queue (s : State) (x : SMap (Option (Nat × Nat × Nat))) (q : Nat) : (s.setHolds x).queue q = s.queue q := rfl
@[simp] theorem State.setHolds_dfind (s : State) (x : SMap (Option (Nat × Nat × Nat))) (q n : Nat) : (s.setHolds x).dfind q n = s.dfind q n := rfl
@[simp] theorem State.setHolds_rfind (s : State) (x : SMap (Option (Nat × Nat × Nat))) (q n : Nat) : (s.setHolds x).rfind q n = s.rfind q n := rfl
@[simp] theorem State.setHolds_bport (s : State) (x : SMap (Option (Nat × Nat × Nat))) (p : Nat) : (s.setHolds x).bport p = s.bport p := rfl

@[simp] theorem State.setWarmAsk_warmAsk (s : State) (x : Bool) : (s.setWarmAsk x).warmAsk = x := rfl
@[simp] theorem State.setWarmAsk_variant (s : State) (x : Bool) : (s.setWarmAsk x).variant = s.variant := rfl
@[simp] theorem State.setWarmAsk_reads (s : State) (x : Bool) : (s.setWarmAsk x).reads = s.reads := rfl
@[simp] theorem State.setWarmAsk_holds (s : State) (x : Bool) : (s.setWarmAsk x).holds = s.holds := rfl
@[simp] theorem State.setWarmAsk_gov (s : State) (x : Bool) : (s.setWarmAsk x).gov = s.gov := rfl
@[simp] theorem State.setWarmAsk_pending (s : State) (x : Bool) : (s.setWarmAsk x).pending = s.pending := rfl
@[simp] theorem State.setWarmAsk_objs (s : State) (x : Bool) : (s.setWarmAsk x).objs = s.objs := rfl
@[simp] theorem State.setWarmAsk_digest (s : State) (x : Bool) : (s.setWarmAsk x).digest = s.digest := rfl
@[simp] theorem State.setWarmAsk_cycle (s : State) (x : Bool) : (s.setWarmAsk x).cycle = s.cycle := rfl
@[simp] theorem State.setWarmAsk_freeCtr (s : State) (x : Bool) : (s.setWarmAsk x).freeCtr = s.freeCtr := rfl
@[simp] theorem State.setWarmAsk_mem (s : State) (x : Bool) : (s.setWarmAsk x).mem = s.mem := rfl
@[simp] theorem State.setWarmAsk_reqs (s : State) (x : Bool) : (s.setWarmAsk x).reqs = s.reqs := rfl
@[simp] theorem State.setWarmAsk_queues (s : State) (x : Bool) : (s.setWarmAsk x).queues = s.queues := rfl
@[simp] theorem State.setWarmAsk_bell (s : State) (x : Bool) : (s.setWarmAsk x).bell = s.bell := rfl
@[simp] theorem State.setWarmAsk_form (s : State) (x : Bool) : (s.setWarmAsk x).form = s.form := rfl
@[simp] theorem State.setWarmAsk_hist (s : State) (x : Bool) : (s.setWarmAsk x).hist = s.hist := rfl
@[simp] theorem State.setWarmAsk_soOut (s : State) (x : Bool) : (s.setWarmAsk x).soOut = s.soOut := rfl
@[simp] theorem State.setWarmAsk_chans (s : State) (x : Bool) : (s.setWarmAsk x).chans = s.chans := rfl
@[simp] theorem State.setWarmAsk_routs (s : State) (x : Bool) : (s.setWarmAsk x).routs = s.routs := rfl
@[simp] theorem State.setWarmAsk_evbuf (s : State) (x : Bool) : (s.setWarmAsk x).evbuf = s.evbuf := rfl
@[simp] theorem State.setWarmAsk_segs (s : State) (x : Bool) : (s.setWarmAsk x).segs = s.segs := rfl
@[simp] theorem State.setWarmAsk_stage (s : State) (x : Bool) : (s.setWarmAsk x).stage = s.stage := rfl
@[simp] theorem State.setWarmAsk_moOut (s : State) (x : Bool) : (s.setWarmAsk x).moOut = s.moOut := rfl
@[simp] theorem State.setWarmAsk_nv (s : State) (x : Bool) : (s.setWarmAsk x).nv = s.nv := rfl
@[simp] theorem State.setWarmAsk_bports (s : State) (x : Bool) : (s.setWarmAsk x).bports = s.bports := rfl
@[simp] theorem State.setWarmAsk_group (s : State) (x : Bool) : (s.setWarmAsk x).group = s.group := rfl
@[simp] theorem State.setWarmAsk_reds (s : State) (x : Bool) : (s.setWarmAsk x).reds = s.reds := rfl
@[simp] theorem State.setWarmAsk_btx (s : State) (x : Bool) : (s.setWarmAsk x).btx = s.btx := rfl
@[simp] theorem State.setWarmAsk_test (s : State) (x : Bool) : (s.setWarmAsk x).test = s.test := rfl
@[simp] theorem State.setWarmAsk_check (s : State) (x : Bool) : (s.setWarmAsk x).check = s.check := rfl
@[simp] theorem State.setWarmAsk_coldHeld (s : State) (x : Bool) : (s.setWarmAsk x).coldHeld = s.coldHeld := rfl
@[simp] theorem State.setWarmAsk_warmHeld (s : State) (x : Bool) : (s.setWarmAsk x).warmHeld = s.warmHeld := rfl
@[simp] theorem State.setWarmAsk_loaded (s : State) (x : Bool) : (s.setWarmAsk x).loaded = s.loaded := rfl
@[simp] theorem State.setWarmAsk_invals (s : State) (x : Bool) : (s.setWarmAsk x).invals = s.invals := rfl
@[simp] theorem State.setWarmAsk_evSeq (s : State) (x : Bool) : (s.setWarmAsk x).evSeq = s.evSeq := rfl
@[simp] theorem State.setWarmAsk_get (s : State) (x : Bool) (o n : Nat) : (s.setWarmAsk x).get o n = s.get o n := rfl
@[simp] theorem State.setWarmAsk_obj (s : State) (x : Bool) (o : Nat) : (s.setWarmAsk x).obj o = s.obj o := rfl
@[simp] theorem State.setWarmAsk_byte (s : State) (x : Bool) (a : Nat) : (s.setWarmAsk x).byte a = s.byte a := rfl
@[simp] theorem State.setWarmAsk_queue (s : State) (x : Bool) (q : Nat) : (s.setWarmAsk x).queue q = s.queue q := rfl
@[simp] theorem State.setWarmAsk_dfind (s : State) (x : Bool) (q n : Nat) : (s.setWarmAsk x).dfind q n = s.dfind q n := rfl
@[simp] theorem State.setWarmAsk_rfind (s : State) (x : Bool) (q n : Nat) : (s.setWarmAsk x).rfind q n = s.rfind q n := rfl
@[simp] theorem State.setWarmAsk_bport (s : State) (x : Bool) (p : Nat) : (s.setWarmAsk x).bport p = s.bport p := rfl

@[simp] theorem State.setGov_gov (s : State) (x : Gov) : (s.setGov x).gov = x := rfl
@[simp] theorem State.setGov_variant (s : State) (x : Gov) : (s.setGov x).variant = s.variant := rfl
@[simp] theorem State.setGov_reads (s : State) (x : Gov) : (s.setGov x).reads = s.reads := rfl
@[simp] theorem State.setGov_holds (s : State) (x : Gov) : (s.setGov x).holds = s.holds := rfl
@[simp] theorem State.setGov_pending (s : State) (x : Gov) : (s.setGov x).pending = s.pending := rfl
@[simp] theorem State.setGov_objs (s : State) (x : Gov) : (s.setGov x).objs = s.objs := rfl
@[simp] theorem State.setGov_digest (s : State) (x : Gov) : (s.setGov x).digest = s.digest := rfl
@[simp] theorem State.setGov_cycle (s : State) (x : Gov) : (s.setGov x).cycle = s.cycle := rfl
@[simp] theorem State.setGov_freeCtr (s : State) (x : Gov) : (s.setGov x).freeCtr = s.freeCtr := rfl
@[simp] theorem State.setGov_mem (s : State) (x : Gov) : (s.setGov x).mem = s.mem := rfl
@[simp] theorem State.setGov_reqs (s : State) (x : Gov) : (s.setGov x).reqs = s.reqs := rfl
@[simp] theorem State.setGov_queues (s : State) (x : Gov) : (s.setGov x).queues = s.queues := rfl
@[simp] theorem State.setGov_bell (s : State) (x : Gov) : (s.setGov x).bell = s.bell := rfl
@[simp] theorem State.setGov_form (s : State) (x : Gov) : (s.setGov x).form = s.form := rfl
@[simp] theorem State.setGov_hist (s : State) (x : Gov) : (s.setGov x).hist = s.hist := rfl
@[simp] theorem State.setGov_soOut (s : State) (x : Gov) : (s.setGov x).soOut = s.soOut := rfl
@[simp] theorem State.setGov_chans (s : State) (x : Gov) : (s.setGov x).chans = s.chans := rfl
@[simp] theorem State.setGov_routs (s : State) (x : Gov) : (s.setGov x).routs = s.routs := rfl
@[simp] theorem State.setGov_evbuf (s : State) (x : Gov) : (s.setGov x).evbuf = s.evbuf := rfl
@[simp] theorem State.setGov_segs (s : State) (x : Gov) : (s.setGov x).segs = s.segs := rfl
@[simp] theorem State.setGov_stage (s : State) (x : Gov) : (s.setGov x).stage = s.stage := rfl
@[simp] theorem State.setGov_moOut (s : State) (x : Gov) : (s.setGov x).moOut = s.moOut := rfl
@[simp] theorem State.setGov_nv (s : State) (x : Gov) : (s.setGov x).nv = s.nv := rfl
@[simp] theorem State.setGov_bports (s : State) (x : Gov) : (s.setGov x).bports = s.bports := rfl
@[simp] theorem State.setGov_group (s : State) (x : Gov) : (s.setGov x).group = s.group := rfl
@[simp] theorem State.setGov_reds (s : State) (x : Gov) : (s.setGov x).reds = s.reds := rfl
@[simp] theorem State.setGov_btx (s : State) (x : Gov) : (s.setGov x).btx = s.btx := rfl
@[simp] theorem State.setGov_test (s : State) (x : Gov) : (s.setGov x).test = s.test := rfl
@[simp] theorem State.setGov_check (s : State) (x : Gov) : (s.setGov x).check = s.check := rfl
@[simp] theorem State.setGov_coldHeld (s : State) (x : Gov) : (s.setGov x).coldHeld = s.coldHeld := rfl
@[simp] theorem State.setGov_warmHeld (s : State) (x : Gov) : (s.setGov x).warmHeld = s.warmHeld := rfl
@[simp] theorem State.setGov_loaded (s : State) (x : Gov) : (s.setGov x).loaded = s.loaded := rfl
@[simp] theorem State.setGov_invals (s : State) (x : Gov) : (s.setGov x).invals = s.invals := rfl
@[simp] theorem State.setGov_evSeq (s : State) (x : Gov) : (s.setGov x).evSeq = s.evSeq := rfl
@[simp] theorem State.setGov_get (s : State) (x : Gov) (o n : Nat) : (s.setGov x).get o n = s.get o n := rfl
@[simp] theorem State.setGov_obj (s : State) (x : Gov) (o : Nat) : (s.setGov x).obj o = s.obj o := rfl
@[simp] theorem State.setGov_byte (s : State) (x : Gov) (a : Nat) : (s.setGov x).byte a = s.byte a := rfl
@[simp] theorem State.setGov_queue (s : State) (x : Gov) (q : Nat) : (s.setGov x).queue q = s.queue q := rfl
@[simp] theorem State.setGov_dfind (s : State) (x : Gov) (q n : Nat) : (s.setGov x).dfind q n = s.dfind q n := rfl
@[simp] theorem State.setGov_rfind (s : State) (x : Gov) (q n : Nat) : (s.setGov x).rfind q n = s.rfind q n := rfl
@[simp] theorem State.setGov_bport (s : State) (x : Gov) (p : Nat) : (s.setGov x).bport p = s.bport p := rfl

@[simp] theorem State.setExiting_exiting (s : State) (x : Bool) : (s.setExiting x).exiting = x := rfl
@[simp] theorem State.setExiting_variant (s : State) (x : Bool) : (s.setExiting x).variant = s.variant := rfl
@[simp] theorem State.setExiting_reads (s : State) (x : Bool) : (s.setExiting x).reads = s.reads := rfl
@[simp] theorem State.setExiting_holds (s : State) (x : Bool) : (s.setExiting x).holds = s.holds := rfl
@[simp] theorem State.setExiting_gov (s : State) (x : Bool) : (s.setExiting x).gov = s.gov := rfl
@[simp] theorem State.setExiting_pending (s : State) (x : Bool) : (s.setExiting x).pending = s.pending := rfl
@[simp] theorem State.setExiting_objs (s : State) (x : Bool) : (s.setExiting x).objs = s.objs := rfl
@[simp] theorem State.setExiting_digest (s : State) (x : Bool) : (s.setExiting x).digest = s.digest := rfl
@[simp] theorem State.setExiting_cycle (s : State) (x : Bool) : (s.setExiting x).cycle = s.cycle := rfl
@[simp] theorem State.setExiting_freeCtr (s : State) (x : Bool) : (s.setExiting x).freeCtr = s.freeCtr := rfl
@[simp] theorem State.setExiting_mem (s : State) (x : Bool) : (s.setExiting x).mem = s.mem := rfl
@[simp] theorem State.setExiting_reqs (s : State) (x : Bool) : (s.setExiting x).reqs = s.reqs := rfl
@[simp] theorem State.setExiting_queues (s : State) (x : Bool) : (s.setExiting x).queues = s.queues := rfl
@[simp] theorem State.setExiting_bell (s : State) (x : Bool) : (s.setExiting x).bell = s.bell := rfl
@[simp] theorem State.setExiting_form (s : State) (x : Bool) : (s.setExiting x).form = s.form := rfl
@[simp] theorem State.setExiting_hist (s : State) (x : Bool) : (s.setExiting x).hist = s.hist := rfl
@[simp] theorem State.setExiting_soOut (s : State) (x : Bool) : (s.setExiting x).soOut = s.soOut := rfl
@[simp] theorem State.setExiting_chans (s : State) (x : Bool) : (s.setExiting x).chans = s.chans := rfl
@[simp] theorem State.setExiting_routs (s : State) (x : Bool) : (s.setExiting x).routs = s.routs := rfl
@[simp] theorem State.setExiting_evbuf (s : State) (x : Bool) : (s.setExiting x).evbuf = s.evbuf := rfl
@[simp] theorem State.setExiting_segs (s : State) (x : Bool) : (s.setExiting x).segs = s.segs := rfl
@[simp] theorem State.setExiting_stage (s : State) (x : Bool) : (s.setExiting x).stage = s.stage := rfl
@[simp] theorem State.setExiting_moOut (s : State) (x : Bool) : (s.setExiting x).moOut = s.moOut := rfl
@[simp] theorem State.setExiting_nv (s : State) (x : Bool) : (s.setExiting x).nv = s.nv := rfl
@[simp] theorem State.setExiting_bports (s : State) (x : Bool) : (s.setExiting x).bports = s.bports := rfl
@[simp] theorem State.setExiting_group (s : State) (x : Bool) : (s.setExiting x).group = s.group := rfl
@[simp] theorem State.setExiting_reds (s : State) (x : Bool) : (s.setExiting x).reds = s.reds := rfl
@[simp] theorem State.setExiting_btx (s : State) (x : Bool) : (s.setExiting x).btx = s.btx := rfl
@[simp] theorem State.setExiting_test (s : State) (x : Bool) : (s.setExiting x).test = s.test := rfl
@[simp] theorem State.setExiting_check (s : State) (x : Bool) : (s.setExiting x).check = s.check := rfl
@[simp] theorem State.setExiting_coldHeld (s : State) (x : Bool) : (s.setExiting x).coldHeld = s.coldHeld := rfl
@[simp] theorem State.setExiting_warmHeld (s : State) (x : Bool) : (s.setExiting x).warmHeld = s.warmHeld := rfl
@[simp] theorem State.setExiting_loaded (s : State) (x : Bool) : (s.setExiting x).loaded = s.loaded := rfl
@[simp] theorem State.setExiting_invals (s : State) (x : Bool) : (s.setExiting x).invals = s.invals := rfl
@[simp] theorem State.setExiting_evSeq (s : State) (x : Bool) : (s.setExiting x).evSeq = s.evSeq := rfl
@[simp] theorem State.setExiting_get (s : State) (x : Bool) (o n : Nat) : (s.setExiting x).get o n = s.get o n := rfl
@[simp] theorem State.setExiting_obj (s : State) (x : Bool) (o : Nat) : (s.setExiting x).obj o = s.obj o := rfl
@[simp] theorem State.setExiting_byte (s : State) (x : Bool) (a : Nat) : (s.setExiting x).byte a = s.byte a := rfl
@[simp] theorem State.setExiting_queue (s : State) (x : Bool) (q : Nat) : (s.setExiting x).queue q = s.queue q := rfl
@[simp] theorem State.setExiting_dfind (s : State) (x : Bool) (q n : Nat) : (s.setExiting x).dfind q n = s.dfind q n := rfl
@[simp] theorem State.setExiting_rfind (s : State) (x : Bool) (q n : Nat) : (s.setExiting x).rfind q n = s.rfind q n := rfl
@[simp] theorem State.setExiting_bport (s : State) (x : Bool) (p : Nat) : (s.setExiting x).bport p = s.bport p := rfl

end Sys2Proof.Machine
end

