-- ==== Sys2Proof/Laws/Reads.lean ====
section
/-! SUPPORT. What an act that lacks no read comes to (R277, R289). -/

namespace Sys2Proof.Machine

/-- An act that lacks nothing is done at once, and what follows it takes its outcome. -/
theorem State.readThen_done {ε : Type} {s t : State} {a : Act} {f : State → State × ε} {k : State → ε → State} {x : ε} (h : f (s.acting a) = (t, x))
    (hw : t.reads.want = none) : s.readThen a f k = k (t.did s a) x := by
  unfold State.readThen
  have : State.readN a f 512 s = (t.did s a, some x) := by
    show (match (f (s.acting a)).1.reads.want with
      | none => ((f (s.acting a)).1.did s a, some (f (s.acting a)).2)
      | some w => _) = _
    rw [h]
    simp only [hw]
  rw [this]

theorem filter_ne_self {α β : Type} [DecidableEq β] (g : α → β) (b : β) (l : List α) (h : ∀ x ∈ l, g x ≠ b) : l.filter (fun x => !(g x == b)) = l := by
  rw [List.filter_eq_self]
  intro x hx
  simp [h x hx]

/-- Where nothing of the act was left from before, and it changed no read, its end changes nothing more. -/
theorem State.did_idle {s t : State} {a : Act} (h : ActIdle s a) (hr : t.reads = (s.acting a).reads)
    (hq : ∀ r ∈ t.reqs, r.owner = .act a → r.late = true) : t.did s a = t.setReads s.reads := by
  have hw : t.reads.walks.map (fun w => { w with acts := w.acts.filter (fun b => !(b == a)) }) = s.reads.walks := by
    rw [hr]
    show s.reads.walks.map _ = s.reads.walks
    conv => rhs; rw [← List.map_id s.reads.walks]
    apply List.map_congr_left
    intro w hm
    have : w.acts.filter (fun b => !(b == a)) = w.acts := filter_ne_self id a w.acts (fun b hb e => h.walks w hm (e ▸ hb))
    rw [this]; rfl
  have hs : t.reads.res.filter (fun x => !(x.act == a)) = s.reads.res := by
    rw [hr]; exact filter_ne_self (·.act) a s.reads.res h.res
  have ht : t.reads.got.filter (fun x => !(x.1 == a)) = s.reads.got := by
    rw [hr]; exact filter_ne_self (·.1) a s.reads.got h.got
  unfold State.did State.forget
  dsimp only
  rw [hw, hs, ht]
  rw [if_neg ?_]
  · rfl
  rw [Bool.not_eq_true, List.any_eq_false]
  intro r hm
  have := hq r hm
  cases ho : r.owner <;> simp
  intro e
  subst e
  exact this ho

/-- An act that touches nothing leaves the state as it was. -/
theorem State.did_self {s : State} {a : Act} (h : ActIdle s a) : (s.acting a).did s a = s := State.did_idle h rfl h.reqs

end Sys2Proof.Machine
end

