-- ==== Sys2Proof/Laws/Arrays.lean ====
section
/-! SUPPORT. What an array instruction comes to once it issues (R112), and what a descriptor comes to at its dispatch (R247). -/

namespace Sys2Proof.Machine

/-- A command that heads its array's queue has its effect. -/
theorem State.onArr_due {s : State} {c : Instr} {x : AIss} (h : s.arrNext x = some c) (t : State) : s.onArr c x t = t := if_pos h

/-- Any other changes nothing. -/
theorem State.onArr_other {s : State} {c : Instr} {x : AIss} (h : s.arrNext x ≠ some c) (t : State) : s.onArr c x t = s := if_neg h

/-- What an array that issues has next is the instruction at the head of its queue. -/
theorem ArrIssues.next {s : State} {x : AIss} {r : Rout} {img : Image} {a : LArr} {u : Nat} (h : ArrIssues s x r img a u) : s.arrNext x = img.arrNext x a := by
  unfold State.arrNext
  rw [h.rout]
  show (match r.arrs[x.la]?, r.img with | some a, some g => g.arrNext x a | _, _ => none) = _
  rw [h.arr, h.image]

/-- An array instruction that issues has the effect of its meaning on its logical array, once it lacks no read. -/
theorem State.arrDo_run {s : State} {x : AIss} {r : Rout} {img : Image} {a : LArr} {u : Nat} {f : State → Rout → Image → LArr → Nat → AEff}
    (h : ArrIssues s x r img a u) (hw : ((f (s.acting (arrAct x)) r img a u).state (s.acting (arrAct x))).reads.want = none) :
    s.arrDo x f = State.arrRun r x.la u s (((f (s.acting (arrAct x)) r img a u).state (s.acting (arrAct x))).did s (arrAct x))
      (f (s.acting (arrAct x)) r img a u) := by
  unfold State.arrDo
  rw [h.rout]
  dsimp only
  rw [h.arr, h.image, h.unit]
  dsimp only
  rw [if_neg (by simp [h.runs, h.awake, h.serves, h.turn]), h.checks]
  exact State.readThen_done rfl hw

/-- One that completes leaves its logical array as `a'`, and its routine goes on as far as its waits allow. -/
theorem State.arrDo_go {s t : State} {x : AIss} {r : Rout} {img : Image} {a a' : LArr} {u : Nat} {f : State → Rout → Image → LArr → Nat → AEff}
    (h : ArrIssues s x r img a u) (hf : f (s.acting (arrAct x)) r img a u = .go t a') (hw : t.reads.want = none) :
    s.arrDo x f = (((t.did s (arrAct x)).hold 2 u r x.la).rupd r.q r.seq (fun r => r.updArr x.la (fun _ => a'.pop))).settle r.q r.seq := by
  rw [State.arrDo_run h (by rw [hf]; exact hw), hf]; rfl

/-- One that fails a check of Table 5.6 ends its routine with the code. -/
theorem State.arrDo_fail {s t : State} {x : AIss} {r : Rout} {img : Image} {a : LArr} {u code : Nat} {f : State → Rout → Image → LArr → Nat → AEff}
    (h : ArrIssues s x r img a u) (hf : f (s.acting (arrAct x)) r img a u = .fail t code) (hw : t.reads.want = none) :
    s.arrDo x f = (t.did s (arrAct x)).faultRout r.q r.seq code := by
  rw [State.arrDo_run h (by rw [hf]; exact hw), hf]; rfl

/-- One that has to wait changes nothing. -/
theorem State.arrDo_wait {s : State} {x : AIss} {r : Rout} {img : Image} {a : LArr} {u : Nat} {f : State → Rout → Image → LArr → Nat → AEff}
    (h : ArrIssues s x r img a u) (hf : f (s.acting (arrAct x)) r img a u = .wait) : s.arrDo x f = s := by
  rw [State.arrDo_run h (by rw [hf]; rfl), hf]; rfl

/-- Outside the sapling service, the queue's next descriptor is dispatched when it is the one that the command names. -/
theorem State.dispatch_go {s : State} {q : Nat} {d : DRt} {want : Desc → Bool} {f : State → DRt → State} (hp : s.phase = 4)
    (hd : s.nextDisp q = some d) (hw : want d.d = true) : s.dispatch q want f = f s d := by
  have : s.sapTake q want = s := by simp [State.sapTake, State.sapling, hp]
  unfold State.dispatch
  rw [this]
  dsimp only
  rw [hd]
  dsimp only
  rw [if_pos hw]

/-- Any other is left. -/
theorem State.dispatch_other {s : State} {q : Nat} {d : DRt} {want : Desc → Bool} {f : State → DRt → State} (hp : s.phase = 4)
    (hd : s.nextDisp q = some d) (hw : want d.d = false) : s.dispatch q want f = s := by
  have : s.sapTake q want = s := by simp [State.sapTake, State.sapling, hp]
  unfold State.dispatch
  rw [this]
  dsimp only
  rw [hd]
  dsimp only
  rw [if_neg (by simp [hw])]

end Sys2Proof.Machine
end

