-- ==== Sys2Proof/Laws/Base/Setters.lean ====
section
/-! SUPPORT. The operations of Machine/Setters.lean leave the configuration, the waiting commands and host memory as they are. -/

namespace Sys2Proof.Machine

/-- What no command of the block changes but the two that speak for host memory: its configuration, the commands that wait and memory. -/
def State.base (s : State) : Variant × List Instr × Memory := (s.variant, s.pending, s.mem)

@[simp] theorem State.ite_base (p : Prop) [Decidable p] (s t : State) : (if p then s else t).base = if p then s.base else t.base := by split <;> rfl
theorem State.ite_keep {p : Prop} [Decidable p] {t u s : State} (h : t.base = s.base) (k : u.base = s.base) : (if p then t else u).base = s.base := by
  split <;> assumption

theorem State.step_have {P : Prop} {s : State} (x : State) (h : x.base = s.base) (k : x.base = s.base → P) : P := k h

/-- The state of a pair. -/
theorem State.pair_base {β : Type} {x : State × β} {t : State} {b : β} (h : x = (t, b)) : t.base = x.1.base := by rw [h]

/-- A fold keeps what each of its steps keeps. -/
theorem State.foldl_base {α : Type} (f : State → α → State) (h : ∀ s a, (f s a).base = s.base) (l : List α) (s : State) :
    (l.foldl f s).base = s.base := by
  induction l generalizing s with
  | nil => rfl
  | cons a l ih => simp [ih, h]

theorem State.foldl_keep {α : Type} {f : State → α → State} {l : List α} {u s : State} (h : ∀ t a, (f t a).base = t.base) (hu : u.base = s.base) :
    (l.foldl f u).base = s.base := (State.foldl_base f h l u).trans hu
/-- A fold that carries something beside the state keeps what each of its steps keeps. -/
theorem State.foldl_pair_keep {α β : Type} {f : State × β → α → State × β} {l : List α} {p : State × β} {s : State}
    (h : ∀ x a, (f x a).1.base = x.1.base) (hp : p.1.base = s.base) : (l.foldl f p).1.base = s.base := by
  induction l generalizing p with
  | nil => exact hp
  | cons a l ih => exact ih ((h p a).trans hp)

/-- A step that may not be taken keeps what `s` holds when it is. -/
def State.OptKeeps (s : State) : Option State → Prop
  | none => True
  | some t => t.base = s.base

theorem State.optKeeps_none {s : State} : State.OptKeeps s none := trivial
theorem State.optKeeps_some {s t : State} (h : t.base = s.base) : State.OptKeeps s (some t) := h
theorem State.optKeeps_base {s t : State} {o : Option State} (h : o = some t) (k : State.OptKeeps s o) : t.base = s.base := by
  rw [h] at k; exact k


@[simp] theorem State.setObjs_base (s : State) (x : SMap Nat) : (State.setObjs s x).base = s.base := by
  rfl

@[simp] theorem State.setDigest_base (s : State) (x : Option (SMap Nat)) : (State.setDigest s x).base = s.base := by
  rfl

@[simp] theorem State.setMasterDig_base (s : State) (x : Option Nat) : (State.setMasterDig s x).base = s.base := by
  rfl

@[simp] theorem State.setCycle_base (s : State) (x : Nat) : (State.setCycle s x).base = s.base := by
  rfl

@[simp] theorem State.setTb_base (s : State) (x : Nat) : (State.setTb s x).base = s.base := by
  rfl

@[simp] theorem State.setRate_base (s : State) (x : Int) : (State.setRate s x).base = s.base := by
  rfl

@[simp] theorem State.setFreeCtr_base (s : State) (x : Nat) : (State.setFreeCtr s x).base = s.base := by
  rfl

@[simp] theorem State.setPoison_base (s : State) (x : SMap Bool) : (State.setPoison s x).base = s.base := by
  rfl

@[simp] theorem State.setMemErr_base (s : State) (x : SMap Nat) : (State.setMemErr s x).base = s.base := by
  rfl

@[simp] theorem State.setReqs_base (s : State) (x : List MemReq) : (State.setReqs s x).base = s.base := by
  rfl

@[simp] theorem State.setRuns_base (s : State) (x : SMap PortRun) : (State.setRuns s x).base = s.base := by
  rfl

@[simp] theorem State.setTwigs_base (s : State) (x : List TwigEntry) : (State.setTwigs s x).base = s.base := by
  rfl

@[simp] theorem State.setInvals_base (s : State) (x : List Inval) : (State.setInvals s x).base = s.base := by
  rfl

@[simp] theorem State.setQueues_base (s : State) (x : SMap QRt) : (State.setQueues s x).base = s.base := by
  rfl

@[simp] theorem State.setSyncWrites_base (s : State) (x : List (Nat × Nat)) : (State.setSyncWrites s x).base = s.base := by
  rfl

@[simp] theorem State.setSyncUpds_base (s : State) (x : List SyncUpd) : (State.setSyncUpds s x).base = s.base := by
  rfl

@[simp] theorem State.setSapTurn_base (s : State) (x : Nat) : (State.setSapTurn s x).base = s.base := by
  rfl

@[simp] theorem State.setBell_base (s : State) (x : BellSt) : (State.setBell s x).base = s.base := by
  rfl

@[simp] theorem State.setForm_base (s : State) (x : Form) : (State.setForm s x).base = s.base := by
  rfl

@[simp] theorem State.setOpenedAt_base (s : State) (x : Nat) : (State.setOpenedAt s x).base = s.base := by
  rfl

@[simp] theorem State.setDue_base (s : State) (x : Nat) : (State.setDue s x).base = s.base := by
  rfl

@[simp] theorem State.setClosedAt_base (s : State) (x : Nat) : (State.setClosedAt s x).base = s.base := by
  rfl

@[simp] theorem State.setOverrun_base (s : State) (x : Bool) : (State.setOverrun s x).base = s.base := by
  rfl

@[simp] theorem State.setFrozen_base (s : State) (x : Bool) : (State.setFrozen s x).base = s.base := by
  rfl

@[simp] theorem State.setHist_base (s : State) (x : SMap HistRt) : (State.setHist s x).base = s.base := by
  rfl

@[simp] theorem State.setWaitTiles_base (s : State) (x : SMap (Option (Tile × Chk))) : (State.setWaitTiles s x).base = s.base := by
  rfl

@[simp] theorem State.setSoOut_base (s : State) (x : List OutTile) : (State.setSoOut s x).base = s.base := by
  rfl

@[simp] theorem State.setRing_base (s : State) (x : List Captured) : (State.setRing s x).base = s.base := by
  rfl

@[simp] theorem State.setChans_base (s : State) (x : SMap Chan) : (State.setChans s x).base = s.base := by
  rfl

@[simp] theorem State.setLinks_base (s : State) (x : List Nat) : (State.setLinks s x).base = s.base := by
  rfl

@[simp] theorem State.setRouts_base (s : State) (x : List Rout) : (State.setRouts s x).base = s.base := by
  rfl

@[simp] theorem State.setStore_base (s : State) (x : List StoreEnt) : (State.setStore s x).base = s.base := by
  rfl

@[simp] theorem State.setEvbuf_base (s : State) (x : List Ev) : (State.setEvbuf s x).base = s.base := by
  rfl

@[simp] theorem State.setEvOut_base (s : State) (x : Option Ev) : (State.setEvOut s x).base = s.base := by
  rfl

@[simp] theorem State.setEvSeq_base (s : State) (x : Nat) : (State.setEvSeq s x).base = s.base := by
  rfl

@[simp] theorem State.setFatalRaised_base (s : State) (x : List Nat) : (State.setFatalRaised s x).base = s.base := by
  rfl

@[simp] theorem State.setTransBell_base (s : State) (x : SMap Nat) : (State.setTransBell s x).base = s.base := by
  rfl

@[simp] theorem State.setMapped_base (s : State) (x : List UnitRef) : (State.setMapped s x).base = s.base := by
  rfl

@[simp] theorem State.setSegs_base (s : State) (x : List SegCtx) : (State.setSegs s x).base = s.base := by
  rfl

@[simp] theorem State.setStage_base (s : State) (x : Option Stage) : (State.setStage s x).base = s.base := by
  rfl

@[simp] theorem State.setMoOut_base (s : State) (x : List FinfaResp) : (State.setMoOut s x).base = s.base := by
  rfl

@[simp] theorem State.setNv_base (s : State) (x : Nv) : (State.setNv s x).base = s.base := by
  rfl

@[simp] theorem State.setLoaded_base (s : State) (x : Bool) : (State.setLoaded s x).base = s.base := by
  rfl

@[simp] theorem State.setBports_base (s : State) (x : SMap BPort) : (State.setBports s x).base = s.base := by
  rfl

@[simp] theorem State.setGroup_base (s : State) (x : Group) : (State.setGroup s x).base = s.base := by
  rfl

@[simp] theorem State.setReds_base (s : State) (x : List RedCtx) : (State.setReds s x).base = s.base := by
  rfl

@[simp] theorem State.setBtx_base (s : State) (x : List (Nat × Frame)) : (State.setBtx s x).base = s.base := by
  rfl

@[simp] theorem State.setTest_base (s : State) (x : Option TestRt) : (State.setTest s x).base = s.base := by
  rfl

@[simp] theorem State.setIjtag_base (s : State) (x : Nat) : (State.setIjtag s x).base = s.base := by
  rfl

@[simp] theorem State.setCheck_base (s : State) (x : Option PortCheck) : (State.setCheck s x).base = s.base := by
  rfl

@[simp] theorem State.setWirs_base (s : State) (x : List (Macro × Nat)) : (State.setWirs s x).base = s.base := by
  rfl

@[simp] theorem State.setTestMode_base (s : State) (x : Bool) : (State.setTestMode s x).base = s.base := by
  rfl

@[simp] theorem State.setColdHeld_base (s : State) (x : Bool) : (State.setColdHeld s x).base = s.base := by
  rfl

@[simp] theorem State.setWarmHeld_base (s : State) (x : Bool) : (State.setWarmHeld s x).base = s.base := by
  rfl

@[simp] theorem State.setWarmStart_base (s : State) (x : Bool) : (State.setWarmStart s x).base = s.base := by
  rfl

@[simp] theorem State.setSleepStart_base (s : State) (x : Bool) : (State.setSleepStart s x).base = s.base := by
  rfl

@[simp] theorem State.setPgLane_base (s : State) (x : Bool) : (State.setPgLane s x).base = s.base := by
  rfl

@[simp] theorem State.setPgSpire_base (s : State) (x : Bool) : (State.setPgSpire s x).base = s.base := by
  rfl

@[simp] theorem State.setPgAon_base (s : State) (x : Bool) : (State.setPgAon s x).base = s.base := by
  rfl

@[simp] theorem State.setPgNv_base (s : State) (x : Bool) : (State.setPgNv s x).base = s.base := by
  rfl

@[simp] theorem State.setThrPin_base (s : State) (x : Nat) : (State.setThrPin s x).base = s.base := by
  rfl

@[simp] theorem State.setRiseDue_base (s : State) (x : Bool) : (State.setRiseDue s x).base = s.base := by
  rfl

@[simp] theorem State.setPstateReq_base (s : State) (x : Nat) : (State.setPstateReq s x).base = s.base := by
  rfl

@[simp] theorem State.setPstateAck_base (s : State) (x : Nat) : (State.setPstateAck s x).base = s.base := by
  rfl

@[simp] theorem State.setMoving_base (s : State) (x : Option (Nat × Nat)) : (State.setMoving s x).base = s.base := by
  rfl

@[simp] theorem State.setDraining_base (s : State) (x : Bool) : (State.setDraining s x).base = s.base := by
  rfl

@[simp] theorem State.setExiting_base (s : State) (x : Bool) : (State.setExiting s x).base = s.base := by
  rfl

@[simp] theorem State.setReads_base (s : State) (x : Reads) : (State.setReads s x).base = s.base := by
  rfl

@[simp] theorem State.setHolds_base (s : State) (x : SMap (Option (Nat × Nat × Nat))) : (State.setHolds s x).base = s.base := by
  rfl

@[simp] theorem State.setWarmAsk_base (s : State) (x : Bool) : (State.setWarmAsk s x).base = s.base := by
  rfl

@[simp] theorem State.setGov_base (s : State) (x : Gov) : (State.setGov s x).base = s.base := by
  rfl

end Sys2Proof.Machine
end

