-- ==== Sys2Proof/Laws/Base/Ops.lean ====
section
/-! SUPPORT. The operations of Machine/Ops.lean leave the configuration, the waiting commands and host memory as they are. -/

namespace Sys2Proof.Machine

@[simp] theorem State.put_base (s : State) (oid : Nat) (sel : Nat) (v : Nat) : (State.put s oid sel v).base = s.base := by
  unfold State.put
  repeat' first
    | with_reducible rfl
    | with_reducible assumption
    | with_reducible refine (State.setObjs_base _ _).trans ?_
    | with_reducible refine (State.pair_base (by assumption)).trans ?_
    | with_reducible refine State.ite_keep ?_ ?_
    | split

@[simp] theorem State.setObj_base (s : State) (oid : Nat) (v : Nat) : (State.setObj s oid v).base = s.base := by
  unfold State.setObj
  repeat' first
    | with_reducible rfl
    | with_reducible assumption
    | with_reducible refine (State.put_base _ _ _ _).trans ?_
    | with_reducible refine (State.pair_base (by assumption)).trans ?_
    | with_reducible refine State.ite_keep ?_ ?_
    | split

@[simp] theorem State.bump_base (s : State) (oid : Nat) (sel : Nat) (w : Nat) (n : Nat) : (State.bump s oid sel w n).base = s.base := by
  unfold State.bump
  repeat' first
    | with_reducible rfl
    | with_reducible assumption
    | with_reducible refine (State.put_base _ _ _ _).trans ?_
    | with_reducible refine (State.pair_base (by assumption)).trans ?_
    | with_reducible refine State.ite_keep ?_ ?_
    | split

@[simp] theorem State.dropObjs_base (s : State) (p : Nat → Nat → Bool) : (State.dropObjs s p).base = s.base := by
  unfold State.dropObjs
  repeat' first
    | with_reducible rfl
    | with_reducible assumption
    | with_reducible refine (State.setObjs_base _ _).trans ?_
    | with_reducible refine (State.pair_base (by assumption)).trans ?_
    | with_reducible refine State.ite_keep ?_ ?_
    | split

@[simp] theorem State.spend_base (s : State) (fJ : Nat) : (State.spend s fJ).base = s.base := by
  unfold State.spend
  repeat' first
    | with_reducible rfl
    | with_reducible assumption
    | with_reducible refine (State.setGov_base _ _).trans ?_
    | with_reducible refine State.foldl_keep (fun s a => ?_) ?_
    | with_reducible refine (State.pair_base (by assumption)).trans ?_
    | (intro x; refine State.step_have (s := s) x ?_ (fun hx => ?_); subst x)
    | intro x
    | (lift_lets -underBinder; intro x; refine State.step_have (s := s) x ?_ (fun hx => ?_); subst x)
    | (lift_lets -underBinder; intro x)
    | with_reducible refine State.ite_keep ?_ ?_
    | split

@[simp] theorem State.tickFree_base (s : State) : (State.tickFree s).base = s.base := by
  unfold State.tickFree
  repeat' first
    | with_reducible rfl
    | with_reducible assumption
    | with_reducible refine (State.setFreeCtr_base _ _).trans ?_
    | with_reducible refine (State.pair_base (by assumption)).trans ?_
    | with_reducible refine State.ite_keep ?_ ?_
    | split

@[simp] theorem State.setQueue_base (s : State) (q : Nat) (x : QRt) : (State.setQueue s q x).base = s.base := by
  unfold State.setQueue
  repeat' first
    | with_reducible rfl
    | with_reducible assumption
    | with_reducible refine (State.setQueues_base _ _).trans ?_
    | with_reducible refine (State.put_base _ _ _ _).trans ?_
    | with_reducible refine (State.pair_base (by assumption)).trans ?_
    | with_reducible refine State.ite_keep ?_ ?_
    | split

@[simp] theorem State.updQueue_base (s : State) (q : Nat) (f : QRt → QRt) : (State.updQueue s q f).base = s.base := by
  unfold State.updQueue
  repeat' first
    | with_reducible rfl
    | with_reducible assumption
    | with_reducible refine (State.setQueue_base _ _ _).trans ?_
    | with_reducible refine (State.pair_base (by assumption)).trans ?_
    | with_reducible refine State.ite_keep ?_ ?_
    | split

@[simp] theorem State.dupd_base (s : State) (q : Nat) (seq : Nat) (f : DRt → DRt) : (State.dupd s q seq f).base = s.base := by
  unfold State.dupd
  repeat' first
    | with_reducible rfl
    | with_reducible assumption
    | with_reducible refine (State.updQueue_base _ _ _).trans ?_
    | with_reducible refine (State.pair_base (by assumption)).trans ?_
    | with_reducible refine State.ite_keep ?_ ?_
    | split

@[simp] theorem State.buffer_base (s : State) (e : Ev) : (State.buffer s e).base = s.base := by
  unfold State.buffer
  dsimp only
  repeat' first
    | rfl
    | with_reducible refine (State.bump_base _ _ _ _ _).trans ?_
    | with_reducible refine (State.setObj_base _ _ _).trans ?_
    | with_reducible refine (State.setEvSeq_base _ _).trans ?_
    | with_reducible refine (State.setEvbuf_base _ _).trans ?_
    | split

@[simp] theorem State.report_base (s : State) (e : Ev) : (State.report s e).base = s.base := by
  unfold State.report
  repeat' first
    | with_reducible rfl
    | with_reducible assumption
    | with_reducible refine (State.bump_base _ _ _ _ _).trans ?_
    | with_reducible refine (State.setObj_base _ _ _).trans ?_
    | with_reducible refine (State.setFatalRaised_base _ _).trans ?_
    | with_reducible refine (State.buffer_base _ _).trans ?_
    | with_reducible refine (State.setEvbuf_base _ _).trans ?_
    | with_reducible refine (State.pair_base (by assumption)).trans ?_
    | (intro x; refine State.step_have (s := s) x ?_ (fun hx => ?_); subst x)
    | intro x
    | (lift_lets -underBinder; intro x; refine State.step_have (s := s) x ?_ (fun hx => ?_); subst x)
    | (lift_lets -underBinder; intro x)
    | with_reducible refine State.ite_keep ?_ ?_
    | split

@[simp] theorem State.setUnit_base (s : State) (kind : Nat) (u : Nat) (st : Nat) : (State.setUnit s kind u st).base = s.base := by
  unfold State.setUnit
  repeat' first
    | with_reducible rfl
    | with_reducible assumption
    | with_reducible refine (State.put_base _ _ _ _).trans ?_
    | with_reducible refine (State.setObj_base _ _ _).trans ?_
    | with_reducible refine (State.pair_base (by assumption)).trans ?_
    | (intro x; refine State.step_have (s := s) x ?_ (fun hx => ?_); subst x)
    | intro x
    | (lift_lets -underBinder; intro x; refine State.step_have (s := s) x ?_ (fun hx => ?_); subst x)
    | (lift_lets -underBinder; intro x)
    | with_reducible refine State.ite_keep ?_ ?_
    | split

@[simp] theorem State.found_base (s : State) (kind : Nat) (u : Nat) : (State.found s kind u).base = s.base := by
  unfold State.found
  repeat' first
    | with_reducible rfl
    | with_reducible assumption
    | with_reducible refine (State.setObj_base _ _ _).trans ?_
    | with_reducible refine (State.pair_base (by assumption)).trans ?_
    | (intro x; refine State.step_have (s := s) x ?_ (fun hx => ?_); subst x)
    | intro x
    | (lift_lets -underBinder; intro x; refine State.step_have (s := s) x ?_ (fun hx => ?_); subst x)
    | (lift_lets -underBinder; intro x)
    | with_reducible refine State.ite_keep ?_ ?_
    | split

@[simp] theorem State.updRouts_base (s : State) (p : Rout → Bool) (f : Rout → Rout) : (State.updRouts s p f).base = s.base := by
  unfold State.updRouts
  repeat' first
    | with_reducible rfl
    | with_reducible assumption
    | with_reducible refine (State.setRouts_base _ _).trans ?_
    | with_reducible refine (State.pair_base (by assumption)).trans ?_
    | with_reducible refine State.ite_keep ?_ ?_
    | split

@[simp] theorem State.rupd_base (s : State) (q : Nat) (seq : Nat) (f : Rout → Rout) : (State.rupd s q seq f).base = s.base := by
  unfold State.rupd
  repeat' first
    | with_reducible rfl
    | with_reducible assumption
    | with_reducible refine (State.updRouts_base _ _ _).trans ?_
    | with_reducible refine (State.pair_base (by assumption)).trans ?_
    | with_reducible refine State.ite_keep ?_ ?_
    | split

@[simp] theorem State.domeBack_base (s : State) : (State.domeBack s).base = s.base := by
  unfold State.domeBack
  repeat' first
    | with_reducible rfl
    | with_reducible assumption
    | with_reducible refine (State.put_base _ _ _ _).trans ?_
    | with_reducible refine State.foldl_keep (fun s a => ?_) ?_
    | with_reducible refine (State.pair_base (by assumption)).trans ?_
    | (intro x; refine State.step_have (s := s) x ?_ (fun hx => ?_); subst x)
    | intro x
    | (lift_lets -underBinder; intro x; refine State.step_have (s := s) x ?_ (fun hx => ?_); subst x)
    | (lift_lets -underBinder; intro x)
    | with_reducible refine State.ite_keep ?_ ?_
    | split

@[simp] theorem State.letGo_base (s : State) (q : Nat) (seq : Nat) : (State.letGo s q seq).base = s.base := by
  unfold State.letGo
  repeat' first
    | with_reducible rfl
    | with_reducible assumption
    | with_reducible refine (State.setHolds_base _ _).trans ?_
    | with_reducible refine State.foldl_keep (fun s a => ?_) ?_
    | with_reducible refine (State.pair_base (by assumption)).trans ?_
    | (intro x; refine State.step_have (s := s) x ?_ (fun hx => ?_); subst x)
    | intro x
    | (lift_lets -underBinder; intro x; refine State.step_have (s := s) x ?_ (fun hx => ?_); subst x)
    | (lift_lets -underBinder; intro x)
    | with_reducible refine State.ite_keep ?_ ?_
    | split

@[simp] theorem State.request_base (s : State) (r : MemReq) : (State.request s r).base = s.base := by
  unfold State.request
  repeat' first
    | with_reducible rfl
    | with_reducible assumption
    | with_reducible refine (State.setReqs_base _ _).trans ?_
    | with_reducible refine (State.spend_base _ _).trans ?_
    | with_reducible refine (State.pair_base (by assumption)).trans ?_
    | with_reducible refine State.ite_keep ?_ ?_
    | split

@[simp] theorem State.reissue_base (s : State) (r : MemReq) : (State.reissue s r).base = s.base := by
  unfold State.reissue
  repeat' first
    | with_reducible rfl
    | with_reducible assumption
    | with_reducible refine (State.setReqs_base _ _).trans ?_
    | with_reducible refine State.foldl_keep (fun s a => ?_) ?_
    | with_reducible refine (State.pair_base (by assumption)).trans ?_
    | (intro x; refine State.step_have (s := s) x ?_ (fun hx => ?_); subst x)
    | intro x
    | (lift_lets -underBinder; intro x; refine State.step_have (s := s) x ?_ (fun hx => ?_); subst x)
    | (lift_lets -underBinder; intro x)
    | with_reducible refine State.ite_keep ?_ ?_
    | split

@[simp] theorem State.retag_base (s : State) : (State.retag s).base = s.base := by
  unfold State.retag
  repeat' first
    | with_reducible rfl
    | with_reducible refine (State.setReqs_base _ _).trans ?_

@[simp] theorem State.giveUp_base (s : State) (o : ReqOwner → Bool) : (State.giveUp s o).base = s.base := by
  unfold State.giveUp
  repeat' first
    | with_reducible rfl
    | with_reducible assumption
    | with_reducible refine (State.setReqs_base _ _).trans ?_
    | with_reducible refine (State.retag_base _).trans ?_
    | with_reducible refine (State.pair_base (by assumption)).trans ?_
    | with_reducible refine State.ite_keep ?_ ?_
    | split

@[simp] theorem State.checkFail_base (s : State) (n : Nat) : (State.checkFail s n).base = s.base := by
  unfold State.checkFail
  repeat' first
    | with_reducible rfl
    | with_reducible assumption
    | with_reducible refine (State.setObj_base _ _ _).trans ?_
    | with_reducible refine (State.pair_base (by assumption)).trans ?_
    | with_reducible refine State.ite_keep ?_ ?_
    | split

@[simp] theorem State.checkReq_base (s : State) (a : Nat) (port : Nat) (n : Nat) (wr : Bool) : (State.checkReq s a port n wr).base = s.base := by
  unfold State.checkReq
  repeat' first
    | with_reducible rfl
    | with_reducible assumption
    | with_reducible refine (State.request_base _ _).trans ?_
    | with_reducible refine (State.pair_base (by assumption)).trans ?_
    | with_reducible refine State.ite_keep ?_ ?_
    | split

@[simp] theorem State.checkNext_base (s : State) : (State.checkNext s).base = s.base := by
  unfold State.checkNext
  repeat' first
    | with_reducible rfl
    | with_reducible assumption
    | with_reducible refine (State.checkReq_base _ _ _ _ _).trans ?_
    | with_reducible refine (State.setCheck_base _ _).trans ?_
    | with_reducible refine (State.setObj_base _ _ _).trans ?_
    | with_reducible refine State.foldl_keep (fun s a => ?_) ?_
    | with_reducible refine State.reading_keep (fun s => ?_) ?_
    | with_reducible refine (State.pair_base (by assumption)).trans ?_
    | with_reducible refine State.ite_keep ?_ ?_
    | split

@[simp] theorem State.checkLost_base (s : State) (r : MemReq) : (State.checkLost s r).base = s.base := by
  unfold State.checkLost
  repeat' first
    | with_reducible rfl
    | with_reducible assumption
    | with_reducible refine (State.checkFail_base _ _).trans ?_
    | with_reducible refine (State.pair_base (by assumption)).trans ?_
    | (intro x; refine State.step_have (s := s) x ?_ (fun hx => ?_); subst x)
    | intro x
    | (lift_lets -underBinder; intro x; refine State.step_have (s := s) x ?_ (fun hx => ?_); subst x)
    | (lift_lets -underBinder; intro x)
    | with_reducible refine State.ite_keep ?_ ?_
    | split

@[simp] theorem State.movePort_base (s : State) (p : Nat) : (State.movePort s p).base = s.base := by
  unfold State.movePort
  repeat' first
    | with_reducible rfl
    | with_reducible assumption
    | with_reducible refine (State.setReqs_base _ _).trans ?_
    | with_reducible refine (State.checkLost_base _ _).trans ?_
    | with_reducible refine (State.reissue_base _ _).trans ?_
    | with_reducible refine (State.checkFail_base _ _).trans ?_
    | with_reducible refine (State.checkNext_base _).trans ?_
    | with_reducible refine State.foldl_keep (fun s a => ?_) ?_
    | with_reducible refine (State.pair_base (by assumption)).trans ?_
    | (intro x; refine State.step_have (s := s) x ?_ (fun hx => ?_); subst x)
    | intro x
    | (lift_lets -underBinder; intro x; refine State.step_have (s := s) x ?_ (fun hx => ?_); subst x)
    | (lift_lets -underBinder; intro x)
    | with_reducible refine State.ite_keep ?_ ?_
    | split

@[simp] theorem State.linkEvent_base (s : State) (cause : Nat) (port : Nat) (peer : Nat) : (State.linkEvent s cause port peer).base = s.base := by
  unfold State.linkEvent
  repeat' first
    | with_reducible rfl
    | with_reducible assumption
    | with_reducible refine (State.report_base _ _).trans ?_
    | with_reducible refine (State.pair_base (by assumption)).trans ?_
    | with_reducible refine State.ite_keep ?_ ?_
    | split

@[simp] theorem State.updBport_base (s : State) (p : Nat) (f : BPort → BPort) : (State.updBport s p f).base = s.base := by
  unfold State.updBport
  repeat' first
    | with_reducible rfl
    | with_reducible assumption
    | with_reducible refine (State.setBports_base _ _).trans ?_
    | with_reducible refine (State.put_base _ _ _ _).trans ?_
    | with_reducible refine (State.pair_base (by assumption)).trans ?_
    | with_reducible refine State.ite_keep ?_ ?_
    | split

@[simp] theorem State.emit_base (s : State) (p : Nat) (f : Frame) : (State.emit s p f).base = s.base := by
  unfold State.emit
  repeat' first
    | with_reducible rfl
    | with_reducible assumption
    | with_reducible refine (State.updBport_base _ _ _).trans ?_
    | with_reducible refine (State.setBtx_base _ _).trans ?_
    | with_reducible refine (State.pair_base (by assumption)).trans ?_
    | (intro x; refine State.step_have (s := s) x ?_ (fun hx => ?_); subst x)
    | intro x
    | (lift_lets -underBinder; intro x; refine State.step_have (s := s) x ?_ (fun hx => ?_); subst x)
    | (lift_lets -underBinder; intro x)
    | with_reducible refine State.ite_keep ?_ ?_
    | split

@[simp] theorem State.sendOn_base (s : State) (p : Nat) (f : Frame) : (State.sendOn s p f).base = s.base := by
  unfold State.sendOn
  repeat' first
    | with_reducible rfl
    | with_reducible assumption
    | with_reducible refine (State.updBport_base _ _ _).trans ?_
    | with_reducible refine (State.emit_base _ _ _).trans ?_
    | with_reducible refine (State.pair_base (by assumption)).trans ?_
    | (intro x; refine State.step_have (s := s) x ?_ (fun hx => ?_); subst x)
    | intro x
    | (lift_lets -underBinder; intro x; refine State.step_have (s := s) x ?_ (fun hx => ?_); subst x)
    | (lift_lets -underBinder; intro x)
    | with_reducible refine State.ite_keep ?_ ?_
    | split

@[simp] theorem State.sendTo_base (s : State) (f : Frame) : (State.sendTo s f).base = s.base := by
  unfold State.sendTo
  repeat' first
    | with_reducible rfl
    | with_reducible assumption
    | with_reducible refine (State.sendOn_base _ _ _).trans ?_
    | with_reducible refine (State.pair_base (by assumption)).trans ?_
    | with_reducible refine State.ite_keep ?_ ?_
    | split

@[simp] theorem State.reroute_base (s : State) (p : Nat) : (State.reroute s p).base = s.base := by
  unfold State.reroute
  repeat' first
    | with_reducible rfl
    | with_reducible assumption
    | with_reducible refine (State.sendTo_base _ _).trans ?_
    | with_reducible refine (State.updBport_base _ _ _).trans ?_
    | with_reducible refine State.foldl_keep (fun s a => ?_) ?_
    | with_reducible refine (State.pair_base (by assumption)).trans ?_
    | (intro x; refine State.step_have (s := s) x ?_ (fun hx => ?_); subst x)
    | intro x
    | (lift_lets -underBinder; intro x; refine State.step_have (s := s) x ?_ (fun hx => ?_); subst x)
    | (lift_lets -underBinder; intro x)
    | with_reducible refine State.ite_keep ?_ ?_
    | split

@[simp] theorem State.calibrate_base (s : State) (p : Nat) : (State.calibrate s p).base = s.base := by
  unfold State.calibrate
  repeat' first
    | with_reducible rfl
    | with_reducible assumption
    | with_reducible refine (State.updBport_base _ _ _).trans ?_
    | with_reducible refine (State.sendOn_base _ _ _).trans ?_
    | with_reducible refine (State.pair_base (by assumption)).trans ?_
    | with_reducible refine State.ite_keep ?_ ?_
    | split

@[simp] theorem State.keepParent_base (s : State) (f : State → State) (h : (f s).base = s.base) : (s.keepParent f).base = s.base := by
  unfold State.keepParent
  dsimp only
  split
  · split
    · exact h
    · exact (State.calibrate_base _ _).trans h
  · exact h

@[simp] theorem State.tellLost_base (s : State) (cause : Nat) : (State.tellLost s cause).base = s.base := by
  unfold State.tellLost
  repeat' first
    | with_reducible rfl
    | with_reducible assumption
    | with_reducible refine (State.sendTo_base _ _).trans ?_
    | with_reducible refine State.foldl_keep (fun s a => ?_) ?_
    | with_reducible refine (State.pair_base (by assumption)).trans ?_
    | (intro x; refine State.step_have (s := s) x ?_ (fun hx => ?_); subst x)
    | intro x
    | (lift_lets -underBinder; intro x; refine State.step_have (s := s) x ?_ (fun hx => ?_); subst x)
    | (lift_lets -underBinder; intro x)
    | with_reducible refine State.ite_keep ?_ ?_
    | split

@[simp] theorem State.stop_base (s : State) (code : Nat) (kind : Nat) (cause : Nat) : (State.stop s code kind cause).base = s.base := by
  unfold State.stop
  repeat' first
    | with_reducible rfl
    | with_reducible assumption
    | with_reducible refine (State.report_base _ _).trans ?_
    | with_reducible refine (State.setObj_base _ _ _).trans ?_
    | with_reducible refine (State.tellLost_base _ _).trans ?_
    | with_reducible refine (State.pair_base (by assumption)).trans ?_
    | with_reducible refine State.ite_keep ?_ ?_
    | split

@[simp] theorem State.logFence_base (s : State) (kind : Nat) (u : Nat) (cause : Nat) (item : Nat) (c : Ctx) : (State.logFence s kind u cause item c).base = s.base := by
  unfold State.logFence
  repeat' first
    | with_reducible rfl
    | with_reducible assumption
    | with_reducible refine (State.report_base _ _).trans ?_
    | with_reducible refine (State.bump_base _ _ _ _ _).trans ?_
    | with_reducible refine (State.pair_base (by assumption)).trans ?_
    | with_reducible refine State.ite_keep ?_ ?_
    | split

@[simp] theorem State.fence_base (s : State) (kind : Nat) (u : Nat) (cause : Nat) (item : Nat) (c : Ctx) : (State.fence s kind u cause item c).base = s.base := by
  unfold State.fence
  repeat' first
    | with_reducible rfl
    | with_reducible assumption
    | with_reducible refine (State.updRouts_base _ _ _).trans ?_
    | with_reducible refine (State.setUnit_base _ _ _ _).trans ?_
    | with_reducible refine (State.reroute_base _ _).trans ?_
    | with_reducible refine (State.put_base _ _ _ _).trans ?_
    | with_reducible refine (State.logFence_base _ _ _ _ _ _).trans ?_
    | with_reducible refine (State.found_base _ _ _).trans ?_
    | with_reducible refine (State.setTest_base _ _).trans ?_
    | with_reducible refine (State.setIjtag_base _ _).trans ?_
    | with_reducible refine (State.setObj_base _ _ _).trans ?_
    | with_reducible refine (State.movePort_base _ _).trans ?_
    | with_reducible refine (State.stop_base _ _ _ _).trans ?_
    | with_reducible refine (State.keepParent_base _ _ ?_).trans ?_
    | with_reducible refine (State.keepParent_base _ _ ?_).trans ?_
    | with_reducible refine (State.pair_base (by assumption)).trans ?_
    | (intro x; refine State.step_have (s := s) x ?_ (fun hx => ?_); subst x)
    | intro x
    | (lift_lets -underBinder; intro x; refine State.step_have (s := s) x ?_ (fun hx => ?_); subst x)
    | (lift_lets -underBinder; intro x)
    | with_reducible refine State.ite_keep ?_ ?_
    | split

@[simp] theorem State.fenceColumn_base (s : State) (u : Nat) (col : Nat) (cause : Nat) (item : Nat) (c : Ctx) : (State.fenceColumn s u col cause item c).base = s.base := by
  unfold State.fenceColumn
  repeat' first
    | with_reducible rfl
    | with_reducible assumption
    | with_reducible refine (State.put_base _ _ _ _).trans ?_
    | with_reducible refine (State.updRouts_base _ _ _).trans ?_
    | with_reducible refine (State.logFence_base _ _ _ _ _ _).trans ?_
    | with_reducible refine (State.found_base _ _ _).trans ?_
    | with_reducible refine (State.fence_base _ _ _ _ _ _).trans ?_
    | with_reducible refine (State.pair_base (by assumption)).trans ?_
    | (intro x; refine State.step_have (s := s) x ?_ (fun hx => ?_); subst x)
    | intro x
    | (lift_lets -underBinder; intro x; refine State.step_have (s := s) x ?_ (fun hx => ?_); subst x)
    | (lift_lets -underBinder; intro x)
    | with_reducible refine State.ite_keep ?_ ?_
    | split

@[simp] theorem State.bypassLink_base (s : State) (link : Nat) (cause : Nat) : (State.bypassLink s link cause).base = s.base := by
  unfold State.bypassLink
  repeat' first
    | with_reducible rfl
    | with_reducible assumption
    | with_reducible refine (State.logFence_base _ _ _ _ _ _).trans ?_
    | with_reducible refine (State.setLinks_base _ _).trans ?_
    | with_reducible refine (State.setObj_base _ _ _).trans ?_
    | with_reducible refine State.foldl_keep (fun s a => ?_) ?_
    | with_reducible refine (State.pair_base (by assumption)).trans ?_
    | (intro x; refine State.step_have (s := s) x ?_ (fun hx => ?_); subst x)
    | intro x
    | (lift_lets -underBinder; intro x; refine State.step_have (s := s) x ?_ (fun hx => ?_); subst x)
    | (lift_lets -underBinder; intro x)
    | with_reducible refine State.ite_keep ?_ ?_
    | split

@[simp] theorem State.transient_base (s : State) (kind : Nat) (u : Nat) (cause : Nat) (item : Nat) (retryOid : Option Nat) (c : Ctx) : (State.transient s kind u cause item retryOid c).base = s.base := by
  unfold State.transient
  repeat' first
    | with_reducible rfl
    | with_reducible assumption
    | with_reducible refine (State.bump_base _ _ _ _ _).trans ?_
    | with_reducible refine (State.report_base _ _).trans ?_
    | with_reducible refine (State.setTransBell_base _ _).trans ?_
    | with_reducible refine (State.put_base _ _ _ _).trans ?_
    | with_reducible refine (State.bypassLink_base _ _ _).trans ?_
    | with_reducible refine (State.fence_base _ _ _ _ _ _).trans ?_
    | with_reducible refine (State.pair_base (by assumption)).trans ?_
    | (intro x; refine State.step_have (s := s) x ?_ (fun hx => ?_); subst x)
    | intro x
    | (lift_lets -underBinder; intro x; refine State.step_have (s := s) x ?_ (fun hx => ?_); subst x)
    | (lift_lets -underBinder; intro x)
    | with_reducible refine State.ite_keep ?_ ?_
    | split

@[simp] theorem State.singular_base (s : State) (kind : Nat) (code : Nat) (chk : Chk) : (State.singular s kind code chk).base = s.base := by
  unfold State.singular
  repeat' first
    | with_reducible rfl
    | with_reducible assumption
    | with_reducible refine (State.transient_base _ _ _ _ _ _ _).trans ?_
    | with_reducible refine (State.stop_base _ _ _ _).trans ?_
    | with_reducible refine State.foldl_keep (fun s a => ?_) ?_
    | with_reducible refine (State.pair_base (by assumption)).trans ?_
    | (intro x; refine State.step_have (s := s) x ?_ (fun hx => ?_); subst x)
    | intro x
    | (lift_lets -underBinder; intro x; refine State.step_have (s := s) x ?_ (fun hx => ?_); subst x)
    | (lift_lets -underBinder; intro x)
    | with_reducible refine State.ite_keep ?_ ?_
    | split

@[simp] theorem State.twigFault_base (s : State) (kind : Nat) (unit : Nat) (tenant : Nat) (tid : Nat) (c : Ctx) : (State.twigFault s kind unit tenant tid c).base = s.base := by
  unfold State.twigFault
  repeat' first
    | with_reducible rfl
    | with_reducible assumption
    | with_reducible refine (State.setTwigs_base _ _).trans ?_
    | with_reducible refine (State.transient_base _ _ _ _ _ _ _).trans ?_
    | with_reducible refine State.foldl_keep (fun s a => ?_) ?_
    | with_reducible refine (State.pair_base (by assumption)).trans ?_
    | (intro x; refine State.step_have (s := s) x ?_ (fun hx => ?_); subst x)
    | intro x
    | (lift_lets -underBinder; intro x; refine State.step_have (s := s) x ?_ (fun hx => ?_); subst x)
    | (lift_lets -underBinder; intro x)
    | with_reducible refine State.ite_keep ?_ ?_
    | split

end Sys2Proof.Machine
end

