-- ==== Sys2Proof/Laws/Base/Mem.lean ====
section
/-! SUPPORT. The operations of Machine/Mem.lean leave the configuration, the waiting commands and host memory as they are. -/

namespace Sys2Proof.Machine

@[simp] theorem State.wants_base (s : State) (w : Want) : (State.wants s w).base = s.base := by
  unfold State.wants
  repeat' first
    | with_reducible rfl
    | with_reducible assumption
    | with_reducible refine (State.setReads_base _ _).trans ?_
    | with_reducible refine State.foldl_keep (fun s a => ?_) ?_
    | with_reducible refine (State.pair_base (by assumption)).trans ?_
    | (intro x; refine State.step_have (s := s) x ?_ (fun hx => ?_); subst x)
    | intro x
    | (lift_lets -underBinder; intro x; refine State.step_have (s := s) x ?_ (fun hx => ?_); subst x)
    | (lift_lets -underBinder; intro x)
    | with_reducible refine State.ite_keep ?_ ?_
    | split

@[simp] theorem State.resolve_base (s : State) (kind : Nat) (unit : Nat) (tenant : Nat) (tid : Nat) : (State.resolve s kind unit tenant tid).1.base = s.base := by
  unfold State.resolve
  repeat' first
    | with_reducible rfl
    | with_reducible assumption
    | with_reducible refine (State.setTwigs_base _ _).trans ?_
    | with_reducible refine (State.wants_base _ _).trans ?_
    | with_reducible refine (State.pair_base (by assumption)).trans ?_
    | (intro x; refine State.step_have (s := s) x ?_ (fun hx => ?_); subst x)
    | intro x
    | (lift_lets -underBinder; intro x; refine State.step_have (s := s) x ?_ (fun hx => ?_); subst x)
    | (lift_lets -underBinder; intro x)
    | with_reducible refine State.ite_keep ?_ ?_
    | split

@[simp] theorem State.wres_base (s : State) (tenant : Nat) (tid : Nat) : (State.wres s tenant tid).1.base = s.base := by
  unfold State.wres
  repeat' first
    | with_reducible rfl
    | with_reducible assumption
    | with_reducible refine (State.resolve_base _ _ _ _ _).trans ?_
    | with_reducible refine (State.pair_base (by assumption)).trans ?_
    | with_reducible refine State.ite_keep ?_ ?_
    | split

@[simp] theorem State.resolveAll_base (s : State) (tenant : Nat) (x0 : List Nat) : (State.resolveAll s tenant x0).1.base = s.base := by
  induction x0 generalizing s with
  | nil =>
    unfold State.resolveAll
    repeat' first
      | with_reducible rfl
      | with_reducible assumption
      | with_reducible refine (State.wres_base _ _ _).trans ?_
      | with_reducible refine (State.pair_base (by assumption)).trans ?_
      | with_reducible refine State.ite_keep ?_ ?_
      | split
  | cons a l ih =>
    unfold State.resolveAll
    repeat' first
      | with_reducible rfl
      | with_reducible assumption
      | with_reducible refine (ih _).trans ?_
      | with_reducible refine (State.wres_base _ _ _).trans ?_
      | with_reducible refine (State.pair_base (by assumption)).trans ?_
      | with_reducible refine State.ite_keep ?_ ?_
      | split

@[simp] theorem State.access_base (s : State) (o : ReqOwner) (a : Nat) (n : Nat) (attr : Nat) (tenant : Nat) (data : Option (List Nat)) (p : Bool) : (State.access s o a n attr tenant data p).base = s.base := by
  unfold State.access
  repeat' first
    | with_reducible rfl
    | with_reducible assumption
    | with_reducible refine (State.request_base _ _).trans ?_
    | with_reducible refine State.foldl_keep (fun s a => ?_) ?_
    | with_reducible refine (State.pair_base (by assumption)).trans ?_
    | with_reducible refine State.ite_keep ?_ ?_
    | split

@[simp] theorem State.readBeats_base (s : State) (o : ReqOwner) (bs : List Nat) (attr : Nat) (tenant : Nat) : (State.readBeats s o bs attr tenant).base = s.base := by
  unfold State.readBeats
  repeat' first
    | with_reducible rfl
    | with_reducible assumption
    | with_reducible refine (State.access_base _ _ _ _ _ _ _ _).trans ?_
    | with_reducible refine State.foldl_keep (fun s a => ?_) ?_
    | with_reducible refine (State.pair_base (by assumption)).trans ?_
    | with_reducible refine State.ite_keep ?_ ?_
    | split

@[simp] theorem State.writeSet_base (s : State) (o : ReqOwner) (m : List (Nat × Nat)) (attr : Nat) (tenant : Nat) (p : Bool) : (State.writeSet s o m attr tenant p).base = s.base := by
  unfold State.writeSet
  repeat' first
    | with_reducible rfl
    | with_reducible assumption
    | with_reducible refine (State.access_base _ _ _ _ _ _ _ _).trans ?_
    | with_reducible refine State.foldl_keep (fun s a => ?_) ?_
    | with_reducible refine (State.pair_base (by assumption)).trans ?_
    | with_reducible refine State.ite_keep ?_ ?_
    | split

theorem andThen_base {α β : Type} {p : Chked α} {k : State → α → Chked β} {s : State} (hp : p.1.base = s.base)
    (hk : ∀ t a, (k t a).1.base = t.base) : (andThen p k).1.base = s.base := by
  unfold andThen
  split
  · exact hp
  · exact (hk _ _).trans hp

@[simp] theorem State.updWalk_base (s : State) (id : Nat) (f : WalkRt → WalkRt) : (State.updWalk s id f).base = s.base := by rfl

@[simp] theorem State.staleWalks_base (s : State) (p : Nat → Bool) : (State.staleWalks s p).base = s.base := by rfl

@[simp] theorem guardC_base (s : State) (bad : Bool) (code : Nat) : (guardC s bad code).1.base = s.base := by
  unfold guardC
  repeat' first
    | with_reducible rfl
    | with_reducible assumption
    | with_reducible refine State.foldl_keep (fun s a => ?_) ?_
    | with_reducible refine (State.pair_base (by assumption)).trans ?_
    | (intro x; refine State.step_have (s := s) x ?_ (fun hx => ?_); subst x)
    | intro x
    | (lift_lets -underBinder; intro x; refine State.step_have (s := s) x ?_ (fun hx => ?_); subst x)
    | (lift_lets -underBinder; intro x)
    | with_reducible refine State.ite_keep ?_ ?_
    | split

@[simp] theorem State.readAll_base (s : State) (l : List (Nat × Nat)) (attr : Nat) (tenant : Nat) : (State.readAll s l attr tenant).1.base = s.base := by
  unfold State.readAll
  repeat' first
    | with_reducible rfl
    | with_reducible assumption
    | with_reducible refine (State.wants_base _ _).trans ?_
    | with_reducible refine State.foldl_keep (fun s a => ?_) ?_
    | with_reducible refine (State.pair_base (by assumption)).trans ?_
    | (intro x; refine State.step_have (s := s) x ?_ (fun hx => ?_); subst x)
    | intro x
    | (lift_lets -underBinder; intro x; refine State.step_have (s := s) x ?_ (fun hx => ?_); subst x)
    | (lift_lets -underBinder; intro x)
    | with_reducible refine State.ite_keep ?_ ?_
    | split

@[simp] theorem State.readC_base (s : State) (a : Nat) (n : Nat) (attr : Nat) (tenant : Nat) : (State.readC s a n attr tenant).1.base = s.base := by
  unfold State.readC
  repeat' first
    | with_reducible rfl
    | with_reducible assumption
    | with_reducible refine (State.readAll_base _ _ _ _).trans ?_
    | with_reducible refine State.foldl_keep (fun s a => ?_) ?_
    | with_reducible refine andThen_base ?_ (fun s a => ?_)
    | with_reducible refine (State.pair_base (by assumption)).trans ?_
    | (intro x; refine State.step_have (s := s) x ?_ (fun hx => ?_); subst x)
    | intro x
    | (lift_lets -underBinder; intro x; refine State.step_have (s := s) x ?_ (fun hx => ?_); subst x)
    | (lift_lets -underBinder; intro x)
    | with_reducible refine State.ite_keep ?_ ?_
    | split

@[simp] theorem State.walkEnd_base (s : State) (w : WalkRt) (ent : Option TmEntry) (code : Nat) : (State.walkEnd s w ent code).base = s.base := by
  unfold State.walkEnd
  repeat' first
    | with_reducible rfl
    | with_reducible assumption
    | with_reducible refine (State.setReads_base _ _).trans ?_
    | with_reducible refine (State.bump_base _ _ _ _ _).trans ?_
    | with_reducible refine (State.setTwigs_base _ _).trans ?_
    | with_reducible refine State.foldl_keep (fun s a => ?_) ?_
    | with_reducible refine (State.pair_base (by assumption)).trans ?_
    | (intro x; refine State.step_have (s := s) x ?_ (fun hx => ?_); subst x)
    | intro x
    | (lift_lets -underBinder; intro x; refine State.step_have (s := s) x ?_ (fun hx => ?_); subst x)
    | (lift_lets -underBinder; intro x)
    | with_reducible refine State.ite_keep ?_ ?_
    | split

@[simp] theorem State.walkStep_base (s : State) (id : Nat) : (State.walkStep s id).base = s.base := by
  unfold State.walkStep
  repeat' first
    | with_reducible rfl
    | with_reducible assumption
    | with_reducible refine (State.walkEnd_base _ _ _ _).trans ?_
    | with_reducible refine (State.updWalk_base _ _ _).trans ?_
    | with_reducible refine (State.access_base _ _ _ _ _ _ _ _).trans ?_
    | with_reducible refine State.foldl_keep (fun s a => ?_) ?_
    | with_reducible refine (State.pair_base (by assumption)).trans ?_
    | (intro x; refine State.step_have (s := s) x ?_ (fun hx => ?_); subst x)
    | intro x
    | (lift_lets -underBinder; intro x; refine State.step_have (s := s) x ?_ (fun hx => ?_); subst x)
    | (lift_lets -underBinder; intro x)
    | with_reducible refine State.ite_keep ?_ ?_
    | split

@[simp] theorem State.walkPump_base (s : State) : (State.walkPump s).base = s.base := by
  unfold State.walkPump
  repeat' first
    | with_reducible rfl
    | with_reducible assumption
    | with_reducible refine (State.updWalk_base _ _ _).trans ?_
    | with_reducible refine (State.walkStep_base _ _).trans ?_
    | with_reducible refine State.foldl_keep (fun s a => ?_) ?_
    | with_reducible refine (State.pair_base (by assumption)).trans ?_
    | (intro x; refine State.step_have (s := s) x ?_ (fun hx => ?_); subst x)
    | intro x
    | (lift_lets -underBinder; intro x; refine State.step_have (s := s) x ?_ (fun hx => ?_); subst x)
    | (lift_lets -underBinder; intro x)
    | with_reducible refine State.ite_keep ?_ ?_
    | split

@[simp] theorem State.ask_base (s : State) (a : Act) (w : Want) : (State.ask s a w).base = s.base := by
  unfold State.ask
  repeat' first
    | with_reducible rfl
    | with_reducible assumption
    | with_reducible refine (State.updWalk_base _ _ _).trans ?_
    | with_reducible refine (State.setReads_base _ _).trans ?_
    | with_reducible refine (State.bump_base _ _ _ _ _).trans ?_
    | with_reducible refine (State.walkPump_base _).trans ?_
    | with_reducible refine (State.readBeats_base _ _ _ _ _).trans ?_
    | with_reducible refine State.foldl_keep (fun s a => ?_) ?_
    | with_reducible refine (State.pair_base (by assumption)).trans ?_
    | (intro x; refine State.step_have (s := s) x ?_ (fun hx => ?_); subst x)
    | intro x
    | (lift_lets -underBinder; intro x; refine State.step_have (s := s) x ?_ (fun hx => ?_); subst x)
    | (lift_lets -underBinder; intro x)
    | with_reducible refine State.ite_keep ?_ ?_
    | split

@[simp] theorem State.forget_base (s : State) (p : Act → Bool) : (State.forget s p).base = s.base := by
  unfold State.forget
  repeat' first
    | with_reducible rfl
    | with_reducible refine (State.giveUp_base _ _).trans ?_
    | with_reducible refine (State.setReads_base _ _).trans ?_
    | (lift_lets -underBinder; intro x; refine State.step_have (s := s) x ?_ (fun hx => ?_); subst x)
    | (lift_lets -underBinder; intro x)
    | with_reducible refine State.ite_keep ?_ ?_

theorem State.acting_base (s : State) (a : Act) : (s.acting a).base = s.base := State.setReads_base _ _

theorem State.did_base (t s : State) (a : Act) : (t.did s a).base = t.base := (State.setReads_base _ _).trans (State.forget_base _ _)

theorem State.readN_base {ε : Type} {a : Act} {f : State → State × ε} (hf : ∀ t, (f t).1.base = t.base) (n : Nat) (s : State) :
    (State.readN a f n s).1.base = s.base := by
  induction n generalizing s with
  | zero => rfl
  | succ n ih =>
    unfold State.readN
    dsimp only
    split
    · exact (State.did_base _ _ _).trans ((hf _).trans (State.acting_base _ _))
    · split
      · exact (ih _).trans (State.ask_base _ _ _)
      · exact State.ask_base _ _ _

/-- What an act and what follows it keep, its reads keep. -/
theorem State.readThen_from {ε : Type} {a : Act} {f : State → State × ε} {k : State → ε → State} {u s : State} (hf : ∀ t, (f t).1.base = t.base)
    (hk : ∀ t x, t.base = s.base → (k t x).base = s.base) (hu : u.base = s.base) : (u.readThen a f k).base = s.base := by
  have h := State.readN_base (a := a) hf 512 u
  unfold State.readThen
  split <;> rename_i e <;> rw [e] at h
  · exact hk _ _ (h.trans hu)
  · exact h.trans hu

theorem State.readThen_keep {ε : Type} {a : Act} {f : State → State × ε} {k : State → ε → State} {u s : State} (hf : ∀ t, (f t).1.base = t.base)
    (hk : ∀ t x, (k t x).base = t.base) (hu : u.base = s.base) : (u.readThen a f k).base = s.base :=
  State.readThen_from hf (fun t x h => (hk t x).trans h) hu

theorem State.reading_keep {a : Act} {f : State → State} {u s : State} (hf : ∀ t, (f t).base = t.base) (hu : u.base = s.base) :
    (u.reading a f).base = s.base := State.readThen_keep (f := fun s => (f s, ())) hf (fun _ _ => rfl) hu

end Sys2Proof.Machine
end

