-- ==== Sys2Proof/Laws/Base/EndOps.lean ====
section
/-! SUPPORT. The operations of Machine/EndOps.lean leave the configuration, the waiting commands and host memory as they are. -/

namespace Sys2Proof.Machine

@[simp] theorem State.routDone_base (s : State) (r : Rout) : (State.routDone s r).base = s.base := by
  unfold State.routDone
  repeat' first
    | with_reducible rfl
    | with_reducible assumption
    | with_reducible refine (State.rupd_base _ _ _ _).trans ?_
    | with_reducible refine (State.dupd_base _ _ _ _).trans ?_
    | with_reducible refine State.foldl_keep (fun s a => ?_) ?_
    | with_reducible refine (State.pair_base (by assumption)).trans ?_
    | (intro x; refine State.step_have (s := s) x ?_ (fun hx => ?_); subst x)
    | intro x
    | (lift_lets -underBinder; intro x; refine State.step_have (s := s) x ?_ (fun hx => ?_); subst x)
    | (lift_lets -underBinder; intro x)
    | with_reducible refine State.ite_keep ?_ ?_
    | split

@[simp] theorem State.nextHdr_base (s : State) (q : Nat) (seq : Nat) : (State.nextHdr s q seq).base = s.base := by
  unfold State.nextHdr
  repeat' first
    | with_reducible rfl
    | with_reducible assumption
    | with_reducible refine (State.routDone_base _ _).trans ?_
    | with_reducible refine (State.rupd_base _ _ _ _).trans ?_
    | with_reducible refine (State.access_base _ _ _ _ _ _ _ _).trans ?_
    | with_reducible refine (State.pair_base (by assumption)).trans ?_
    | with_reducible refine State.ite_keep ?_ ?_
    | split

@[simp] theorem State.closeChan_base (s : State) (r : Rout) : (State.closeChan s r).base = s.base := by
  unfold State.closeChan
  repeat' first
    | with_reducible rfl
    | with_reducible assumption
    | with_reducible refine (State.setChans_base _ _).trans ?_
    | with_reducible refine (State.put_base _ _ _ _).trans ?_
    | with_reducible refine (State.pair_base (by assumption)).trans ?_
    | with_reducible refine State.ite_keep ?_ ?_
    | split

@[simp] theorem State.endRout_base (s : State) (q : Nat) (seq : Nat) (outcome : Nat) (code : Nat) : (State.endRout s q seq outcome code).base = s.base := by
  unfold State.endRout
  repeat' first
    | with_reducible rfl
    | with_reducible assumption
    | with_reducible refine (State.closeChan_base _ _).trans ?_
    | with_reducible refine (State.bump_base _ _ _ _ _).trans ?_
    | with_reducible refine (State.rupd_base _ _ _ _).trans ?_
    | with_reducible refine (State.forget_base _ _).trans ?_
    | with_reducible refine (State.letGo_base _ _ _).trans ?_
    | with_reducible refine (State.domeBack_base _).trans ?_
    | with_reducible refine (State.dupd_base _ _ _ _).trans ?_
    | with_reducible refine (State.nextHdr_base _ _ _).trans ?_
    | with_reducible refine (State.pair_base (by assumption)).trans ?_
    | (intro x; refine State.step_have (s := s) x ?_ (fun hx => ?_); subst x)
    | intro x
    | (lift_lets -underBinder; intro x; refine State.step_have (s := s) x ?_ (fun hx => ?_); subst x)
    | (lift_lets -underBinder; intro x)
    | with_reducible refine State.ite_keep ?_ ?_
    | split

@[simp] theorem State.faultRout_base (s : State) (q : Nat) (seq : Nat) (code : Nat) : (State.faultRout s q seq code).base = s.base := by
  unfold State.faultRout
  repeat' first
    | with_reducible rfl
    | with_reducible assumption
    | with_reducible refine (State.endRout_base _ _ _ _ _).trans ?_
    | with_reducible refine (State.pair_base (by assumption)).trans ?_
    | with_reducible refine State.ite_keep ?_ ?_
    | split

end Sys2Proof.Machine
end

