-- ==== Sys2Proof/Laws/Base/QueueOps.lean ====
section
/-! SUPPORT. The operations of Machine/QueueOps.lean leave the configuration, the waiting commands and host memory as they are. -/

namespace Sys2Proof.Machine

@[simp] theorem State.ringWriteFail_base (s : State) (q : Nat) (seq : Nat) (addr : Nat) : (State.ringWriteFail s q seq addr).base = s.base := by
  unfold State.ringWriteFail
  repeat' first
    | with_reducible rfl
    | with_reducible assumption
    | with_reducible refine (State.put_base _ _ _ _).trans ?_
    | with_reducible refine (State.updQueue_base _ _ _).trans ?_
    | with_reducible refine (State.report_base _ _).trans ?_
    | with_reducible refine (State.pair_base (by assumption)).trans ?_
    | (intro x; refine State.step_have (s := s) x ?_ (fun hx => ?_); subst x)
    | intro x
    | (lift_lets -underBinder; intro x; refine State.step_have (s := s) x ?_ (fun hx => ?_); subst x)
    | (lift_lets -underBinder; intro x)
    | with_reducible refine State.ite_keep ?_ ?_
    | split

@[simp] theorem State.ringWrite_base (s : State) (o : ReqOwner) (q : Nat) (seq : Nat) (addr : Nat) (data : List Nat) : (State.ringWrite s o q seq addr data).base = s.base := by
  unfold State.ringWrite
  repeat' first
    | with_reducible rfl
    | with_reducible assumption
    | with_reducible refine (State.ringWriteFail_base _ _ _ _).trans ?_
    | with_reducible refine (State.access_base _ _ _ _ _ _ _ _).trans ?_
    | with_reducible refine (State.pair_base (by assumption)).trans ?_
    | with_reducible refine State.ite_keep ?_ ?_
    | split

@[simp] theorem State.ringCheck_base (s : State) (q : Nat) : (State.ringCheck s q).base = s.base := by
  unfold State.ringCheck
  repeat' first
    | with_reducible rfl
    | with_reducible assumption
    | with_reducible refine (State.put_base _ _ _ _).trans ?_
    | with_reducible refine (State.updQueue_base _ _ _).trans ?_
    | with_reducible refine (State.report_base _ _).trans ?_
    | with_reducible refine (State.pair_base (by assumption)).trans ?_
    | (intro x; refine State.step_have (s := s) x ?_ (fun hx => ?_); subst x)
    | intro x
    | (lift_lets -underBinder; intro x; refine State.step_have (s := s) x ?_ (fun hx => ?_); subst x)
    | (lift_lets -underBinder; intro x)
    | with_reducible refine State.ite_keep ?_ ?_
    | split

@[simp] theorem State.ringReadFail_base (s : State) (q : Nat) (seq : Nat) : (State.ringReadFail s q seq).base = s.base := by
  unfold State.ringReadFail
  repeat' first
    | with_reducible rfl
    | with_reducible assumption
    | with_reducible refine (State.updQueue_base _ _ _).trans ?_
    | with_reducible refine (State.ringCheck_base _ _).trans ?_
    | with_reducible refine (State.pair_base (by assumption)).trans ?_
    | (intro x; refine State.step_have (s := s) x ?_ (fun hx => ?_); subst x)
    | intro x
    | (lift_lets -underBinder; intro x; refine State.step_have (s := s) x ?_ (fun hx => ?_); subst x)
    | (lift_lets -underBinder; intro x)
    | with_reducible refine State.ite_keep ?_ ?_
    | split

@[simp] theorem State.writeRec_base (s : State) (o : ReqOwner) (q : Nat) (d : DRt) (released : Bool) : (State.writeRec s o q d released).base = s.base := by
  unfold State.writeRec
  repeat' first
    | with_reducible rfl
    | with_reducible assumption
    | with_reducible refine (State.ringWrite_base _ _ _ _ _ _).trans ?_
    | with_reducible refine (State.pair_base (by assumption)).trans ?_
    | with_reducible refine State.ite_keep ?_ ?_
    | split

@[simp] theorem State.acct_base (s : State) (oid : Nat) (q : Nat) (n : Nat) : (State.acct s oid q n).base = s.base := by
  unfold State.acct
  repeat' first
    | with_reducible rfl
    | with_reducible assumption
    | with_reducible refine (State.bump_base _ _ _ _ _).trans ?_
    | with_reducible refine (State.updQueue_base _ _ _).trans ?_
    | with_reducible refine (State.pair_base (by assumption)).trans ?_
    | with_reducible refine State.ite_keep ?_ ?_
    | split

@[simp] theorem State.refuseD_base (s : State) (q : Nat) (seq : Nat) (code : Nat) (tid : Nat) : (State.refuseD s q seq code tid).base = s.base := by
  unfold State.refuseD
  repeat' first
    | with_reducible rfl
    | with_reducible assumption
    | with_reducible refine (State.dupd_base _ _ _ _).trans ?_
    | with_reducible refine (State.updQueue_base _ _ _).trans ?_
    | with_reducible refine (State.pair_base (by assumption)).trans ?_
    | (intro x; refine State.step_have (s := s) x ?_ (fun hx => ?_); subst x)
    | intro x
    | (lift_lets -underBinder; intro x; refine State.step_have (s := s) x ?_ (fun hx => ?_); subst x)
    | (lift_lets -underBinder; intro x)
    | with_reducible refine State.ite_keep ?_ ?_
    | split

@[simp] theorem State.endReset_base (s : State) (q : Nat) : (State.endReset s q).base = s.base := by
  unfold State.endReset
  repeat' first
    | with_reducible rfl
    | with_reducible assumption
    | with_reducible refine (State.put_base _ _ _ _).trans ?_
    | with_reducible refine (State.setQueue_base _ _ _).trans ?_
    | with_reducible refine (State.giveUp_base _ _).trans ?_
    | with_reducible refine (State.pair_base (by assumption)).trans ?_
    | (intro x; refine State.step_have (s := s) x ?_ (fun hx => ?_); subst x)
    | intro x
    | (lift_lets -underBinder; intro x; refine State.step_have (s := s) x ?_ (fun hx => ?_); subst x)
    | (lift_lets -underBinder; intro x)
    | with_reducible refine State.ite_keep ?_ ?_
    | split

@[simp] theorem State.sweepQ_base (s : State) (q code : Nat) (rout : Rout → State → State) (hr : ∀ r t, (rout r t).base = t.base) : (State.sweepQ s q code rout).base = s.base := by
  unfold State.sweepQ
  repeat' first
    | with_reducible rfl
    | with_reducible assumption
    | with_reducible refine (hr _ _).trans ?_
    | with_reducible refine (State.updQueue_base _ _ _).trans ?_
    | with_reducible refine State.foldl_keep (fun s a => ?_) ?_
    | with_reducible refine (State.pair_base (by assumption)).trans ?_
    | (intro x; refine State.step_have (s := s) x ?_ (fun hx => ?_); subst x)
    | intro x
    | (lift_lets -underBinder; intro x; refine State.step_have (s := s) x ?_ (fun hx => ?_); subst x)
    | (lift_lets -underBinder; intro x)
    | with_reducible refine State.ite_keep ?_ ?_
    | split

@[simp] theorem State.take_base (s : State) (q : Nat) (f : DRt → DRt) : (State.take s q f).base = s.base := by
  unfold State.take
  repeat' first
    | with_reducible rfl
    | with_reducible assumption
    | with_reducible refine (State.updQueue_base _ _ _).trans ?_
    | with_reducible refine (State.put_base _ _ _ _).trans ?_
    | with_reducible refine (State.ringCheck_base _ _).trans ?_
    | with_reducible refine (State.pair_base (by assumption)).trans ?_
    | (intro x; refine State.step_have (s := s) x ?_ (fun hx => ?_); subst x)
    | intro x
    | (lift_lets -underBinder; intro x; refine State.step_have (s := s) x ?_ (fun hx => ?_); subst x)
    | (lift_lets -underBinder; intro x)
    | with_reducible refine State.ite_keep ?_ ?_
    | split

@[simp] theorem State.skipFence_base (s : State) (q : Nat) : (State.skipFence s q).base = s.base := by
  unfold State.skipFence
  repeat' first
    | with_reducible rfl
    | with_reducible assumption
    | with_reducible refine (State.fence_base _ _ _ _ _ _).trans ?_
    | with_reducible refine (State.take_base _ _ _).trans ?_
    | with_reducible refine (State.pair_base (by assumption)).trans ?_
    | (intro x; refine State.step_have (s := s) x ?_ (fun hx => ?_); subst x)
    | intro x
    | (lift_lets -underBinder; intro x; refine State.step_have (s := s) x ?_ (fun hx => ?_); subst x)
    | (lift_lets -underBinder; intro x)
    | with_reducible refine State.ite_keep ?_ ?_
    | split

@[simp] theorem State.haltQ_base (s : State) (q : Nat) : (State.haltQ s q).base = s.base := by
  unfold State.haltQ
  repeat' first
    | with_reducible rfl
    | with_reducible assumption
    | with_reducible refine (State.put_base _ _ _ _).trans ?_
    | with_reducible refine (State.updQueue_base _ _ _).trans ?_
    | with_reducible refine (State.sweepQ_base _ _ _ _ (fun r s => ?_)).trans ?_
    | with_reducible refine (State.faultRout_base _ _ _ _).trans ?_
    | with_reducible refine (State.skipFence_base _ _).trans ?_
    | with_reducible refine (State.pair_base (by assumption)).trans ?_
    | (intro x; refine State.step_have (s := s) x ?_ (fun hx => ?_); subst x)
    | intro x
    | (lift_lets -underBinder; intro x; refine State.step_have (s := s) x ?_ (fun hx => ?_); subst x)
    | (lift_lets -underBinder; intro x)
    | with_reducible refine State.ite_keep ?_ ?_
    | split

@[simp] theorem State.syncApply_base (s : State) (u : SyncUpd) : (State.syncApply s u).base = s.base := by
  unfold State.syncApply
  repeat' first
    | with_reducible rfl
    | with_reducible assumption
    | with_reducible refine (State.put_base _ _ _ _).trans ?_
    | with_reducible refine (State.pair_base (by assumption)).trans ?_
    | with_reducible refine State.ite_keep ?_ ?_
    | split

@[simp] theorem State.recEvent_base (s : State) (q : Nat) (d : DRt) : (State.recEvent s q d).base = s.base := by
  unfold State.recEvent
  repeat' first
    | with_reducible rfl
    | with_reducible assumption
    | with_reducible refine (State.report_base _ _).trans ?_
    | with_reducible refine (State.pair_base (by assumption)).trans ?_
    | (intro x; refine State.step_have (s := s) x ?_ (fun hx => ?_); subst x)
    | intro x
    | (lift_lets -underBinder; intro x; refine State.step_have (s := s) x ?_ (fun hx => ?_); subst x)
    | (lift_lets -underBinder; intro x)
    | with_reducible refine State.ite_keep ?_ ?_
    | split

@[simp] theorem State.releaseHead_base (s : State) (q : Nat) (d : DRt) : (State.releaseHead s q d).base = s.base := by
  unfold State.releaseHead
  repeat' first
    | with_reducible rfl
    | with_reducible assumption
    | with_reducible refine (State.updQueue_base _ _ _).trans ?_
    | with_reducible refine (State.setRouts_base _ _).trans ?_
    | with_reducible refine (State.forget_base _ _).trans ?_
    | with_reducible refine (State.endReset_base _ _).trans ?_
    | with_reducible refine (State.writeRec_base _ _ _ _ _).trans ?_
    | with_reducible refine (State.put_base _ _ _ _).trans ?_
    | with_reducible refine (State.recEvent_base _ _ _).trans ?_
    | with_reducible refine (State.acct_base _ _ _ _).trans ?_
    | with_reducible refine (State.syncApply_base _ _).trans ?_
    | with_reducible refine (State.setSyncUpds_base _ _).trans ?_
    | with_reducible refine (State.haltQ_base _ _).trans ?_
    | with_reducible refine State.foldl_keep (fun s a => ?_) ?_
    | with_reducible refine (State.pair_base (by assumption)).trans ?_
    | (intro x; refine State.step_have (s := s) x ?_ (fun hx => ?_); subst x)
    | intro x
    | (lift_lets -underBinder; intro x; refine State.step_have (s := s) x ?_ (fun hx => ?_); subst x)
    | (lift_lets -underBinder; intro x)
    | with_reducible refine State.ite_keep ?_ ?_
    | split

@[simp] theorem State.park_base (s : State) (q : Nat) (d : DRt) : (State.park s q d).base = s.base := by
  unfold State.park
  repeat' first
    | with_reducible rfl
    | with_reducible assumption
    | with_reducible refine (State.dupd_base _ _ _ _).trans ?_
    | with_reducible refine (State.writeRec_base _ _ _ _ _).trans ?_
    | with_reducible refine (State.pair_base (by assumption)).trans ?_
    | (intro x; refine State.step_have (s := s) x ?_ (fun hx => ?_); subst x)
    | intro x
    | (lift_lets -underBinder; intro x; refine State.step_have (s := s) x ?_ (fun hx => ?_); subst x)
    | (lift_lets -underBinder; intro x)
    | with_reducible refine State.ite_keep ?_ ?_
    | split

@[simp] theorem State.releaseNext_base (s : State) (q : Nat) : (State.releaseNext s q).base = s.base := by
  unfold State.releaseNext
  repeat' first
    | with_reducible rfl
    | with_reducible assumption
    | with_reducible refine (State.releaseHead_base _ _ _).trans ?_
    | with_reducible refine (State.pair_base (by assumption)).trans ?_
    | with_reducible refine State.ite_keep ?_ ?_
    | split

@[simp] theorem State.releaseMany_base (s : State) (q : Nat) (x0 : Nat) : (State.releaseMany s q x0).base = s.base := by
  induction x0 generalizing s with
  | zero =>
    unfold State.releaseMany
    repeat' first
      | with_reducible rfl
      | with_reducible assumption
      | with_reducible refine (State.releaseHead_base _ _ _).trans ?_
      | with_reducible refine State.foldl_keep (fun s a => ?_) ?_
      | with_reducible refine (State.pair_base (by assumption)).trans ?_
      | (intro x; refine State.step_have (s := s) x ?_ (fun hx => ?_); subst x)
      | intro x
      | (lift_lets -underBinder; intro x; refine State.step_have (s := s) x ?_ (fun hx => ?_); subst x)
      | (lift_lets -underBinder; intro x)
      | with_reducible refine State.ite_keep ?_ ?_
      | split
  | succ n ih =>
    unfold State.releaseMany
    repeat' first
      | with_reducible rfl
      | with_reducible assumption
      | with_reducible refine (ih _).trans ?_
      | with_reducible refine (State.releaseHead_base _ _ _).trans ?_
      | with_reducible refine State.foldl_keep (fun s a => ?_) ?_
      | with_reducible refine (State.pair_base (by assumption)).trans ?_
      | (intro x; refine State.step_have (s := s) x ?_ (fun hx => ?_); subst x)
      | intro x
      | (lift_lets -underBinder; intro x; refine State.step_have (s := s) x ?_ (fun hx => ?_); subst x)
      | (lift_lets -underBinder; intro x)
      | with_reducible refine State.ite_keep ?_ ?_
      | split

@[simp] theorem State.releaseAll_base (s : State) : (State.releaseAll s).base = s.base := by
  unfold State.releaseAll
  repeat' first
    | with_reducible rfl
    | with_reducible assumption
    | with_reducible refine (State.releaseMany_base _ _ _).trans ?_
    | with_reducible refine State.foldl_keep (fun s a => ?_) ?_
    | with_reducible refine (State.pair_base (by assumption)).trans ?_
    | (intro x; refine State.step_have (s := s) x ?_ (fun hx => ?_); subst x)
    | intro x
    | (lift_lets -underBinder; intro x; refine State.step_have (s := s) x ?_ (fun hx => ?_); subst x)
    | (lift_lets -underBinder; intro x)
    | with_reducible refine State.ite_keep ?_ ?_
    | split

@[simp] theorem State.drainFetched_base (s : State) (q : Nat) (x0 : Nat) : (State.drainFetched s q x0).base = s.base := by
  induction x0 generalizing s with
  | zero =>
    unfold State.drainFetched
    repeat' first
      | with_reducible rfl
      | with_reducible assumption
      | with_reducible refine (State.take_base _ _ _).trans ?_
      | with_reducible refine (State.pair_base (by assumption)).trans ?_
      | (intro x; refine State.step_have (s := s) x ?_ (fun hx => ?_); subst x)
      | intro x
      | (lift_lets -underBinder; intro x; refine State.step_have (s := s) x ?_ (fun hx => ?_); subst x)
      | (lift_lets -underBinder; intro x)
      | with_reducible refine State.ite_keep ?_ ?_
      | split
  | succ n ih =>
    unfold State.drainFetched
    repeat' first
      | with_reducible rfl
      | with_reducible assumption
      | with_reducible refine (State.take_base _ _ _).trans ?_
      | with_reducible refine (ih _).trans ?_
      | with_reducible refine (State.pair_base (by assumption)).trans ?_
      | (intro x; refine State.step_have (s := s) x ?_ (fun hx => ?_); subst x)
      | intro x
      | (lift_lets -underBinder; intro x; refine State.step_have (s := s) x ?_ (fun hx => ?_); subst x)
      | (lift_lets -underBinder; intro x)
      | with_reducible refine State.ite_keep ?_ ?_
      | split

@[simp] theorem State.askRing_base (s : State) (q : Nat) (x0 : Nat) : (State.askRing s q x0).base = s.base := by
  induction x0 generalizing s with
  | zero =>
    unfold State.askRing
    repeat' first
      | with_reducible rfl
      | with_reducible assumption
      | with_reducible refine (State.setQueue_base _ _ _).trans ?_
      | with_reducible refine (State.ringReadFail_base _ _ _).trans ?_
      | with_reducible refine (State.access_base _ _ _ _ _ _ _ _).trans ?_
      | with_reducible refine (State.pair_base (by assumption)).trans ?_
      | (intro x; refine State.step_have (s := s) x ?_ (fun hx => ?_); subst x)
      | intro x
      | (lift_lets -underBinder; intro x; refine State.step_have (s := s) x ?_ (fun hx => ?_); subst x)
      | (lift_lets -underBinder; intro x)
      | with_reducible refine State.ite_keep ?_ ?_
      | split
  | succ n ih =>
    unfold State.askRing
    repeat' first
      | with_reducible rfl
      | with_reducible assumption
      | with_reducible refine (ih _).trans ?_
      | with_reducible refine (State.setQueue_base _ _ _).trans ?_
      | with_reducible refine (State.ringReadFail_base _ _ _).trans ?_
      | with_reducible refine (State.access_base _ _ _ _ _ _ _ _).trans ?_
      | with_reducible refine (State.pair_base (by assumption)).trans ?_
      | (intro x; refine State.step_have (s := s) x ?_ (fun hx => ?_); subst x)
      | intro x
      | (lift_lets -underBinder; intro x; refine State.step_have (s := s) x ?_ (fun hx => ?_); subst x)
      | (lift_lets -underBinder; intro x)
      | with_reducible refine State.ite_keep ?_ ?_
      | split

@[simp] theorem State.badDoorbell_base (s : State) (word : Nat) : (State.badDoorbell s word).base = s.base := by
  unfold State.badDoorbell
  repeat' first
    | with_reducible rfl
    | with_reducible assumption
    | with_reducible refine (State.bump_base _ _ _ _ _).trans ?_
    | with_reducible refine (State.report_base _ _).trans ?_
    | with_reducible refine (State.pair_base (by assumption)).trans ?_
    | with_reducible refine State.ite_keep ?_ ?_
    | split

end Sys2Proof.Machine
end

