-- ==== Sys2Proof/Laws/Base/ConvOps.lean ====
section
/-! SUPPORT. The operations of Machine/ConvOps.lean leave the configuration, the waiting commands and host memory as they are. -/

namespace Sys2Proof.Machine

@[simp] theorem State.baseOf_base (s : State) (tenant : Nat) (tid : Nat) : (State.baseOf s tenant tid).1.base = s.base := by
  unfold State.baseOf
  repeat' first
    | with_reducible rfl
    | with_reducible assumption
    | with_reducible refine (State.wres_base _ _ _).trans ?_
    | with_reducible refine State.foldl_keep (fun s a => ?_) ?_
    | with_reducible refine (State.pair_base (by assumption)).trans ?_
    | (intro x; refine State.step_have (s := s) x ?_ (fun hx => ?_); subst x)
    | intro x
    | (lift_lets -underBinder; intro x; refine State.step_have (s := s) x ?_ (fun hx => ?_); subst x)
    | (lift_lets -underBinder; intro x)
    | with_reducible refine State.ite_keep ?_ ?_
    | split

@[simp] theorem State.baseList_base (s : State) (tenant : Nat) (x0 : List Nat) : (State.baseList s tenant x0).1.base = s.base := by
  induction x0 generalizing s with
  | nil =>
    unfold State.baseList
    repeat' first
      | with_reducible rfl
      | with_reducible assumption
      | with_reducible refine (State.baseOf_base _ _ _).trans ?_
      | with_reducible refine State.foldl_keep (fun s a => ?_) ?_
      | with_reducible refine (State.pair_base (by assumption)).trans ?_
      | (intro x; refine State.step_have (s := s) x ?_ (fun hx => ?_); subst x)
      | intro x
      | (lift_lets -underBinder; intro x; refine State.step_have (s := s) x ?_ (fun hx => ?_); subst x)
      | (lift_lets -underBinder; intro x)
      | with_reducible refine State.ite_keep ?_ ?_
      | split
  | cons a l ih =>
    unfold State.baseList
    repeat' first
      | with_reducible rfl
      | with_reducible assumption
      | with_reducible refine (ih _).trans ?_
      | with_reducible refine (State.baseOf_base _ _ _).trans ?_
      | with_reducible refine State.foldl_keep (fun s a => ?_) ?_
      | with_reducible refine (State.pair_base (by assumption)).trans ?_
      | (intro x; refine State.step_have (s := s) x ?_ (fun hx => ?_); subst x)
      | intro x
      | (lift_lets -underBinder; intro x; refine State.step_have (s := s) x ?_ (fun hx => ?_); subst x)
      | (lift_lets -underBinder; intro x)
      | with_reducible refine State.ite_keep ?_ ?_
      | split

@[simp] theorem State.baseSets_base (s : State) (tenant : Nat) (x : List Nat × List Nat) : (State.baseSets s tenant x).1.base = s.base := by
  unfold State.baseSets
  repeat' first
    | with_reducible rfl
    | with_reducible assumption
    | with_reducible refine (State.baseList_base _ _ _).trans ?_
    | with_reducible refine State.foldl_keep (fun s a => ?_) ?_
    | with_reducible refine (State.pair_base (by assumption)).trans ?_
    | (intro x; refine State.step_have (s := s) x ?_ (fun hx => ?_); subst x)
    | intro x
    | (lift_lets -underBinder; intro x; refine State.step_have (s := s) x ?_ (fun hx => ?_); subst x)
    | (lift_lets -underBinder; intro x)
    | with_reducible refine State.ite_keep ?_ ?_
    | split

@[simp] theorem State.doneD_base (s : State) (q : Nat) (seq : Nat) : (State.doneD s q seq).base = s.base := by
  unfold State.doneD
  repeat' first
    | with_reducible rfl
    | with_reducible assumption
    | with_reducible refine (State.dupd_base _ _ _ _).trans ?_
    | with_reducible refine (State.pair_base (by assumption)).trans ?_
    | with_reducible refine State.ite_keep ?_ ?_
    | split

@[simp] theorem addEnt_base (kind unit tenant : Nat) (need : Bool) (tid : Nat) (k : ConvEnts → TmEntry → ConvEnts) (p : State × Except (Nat × Nat) ConvEnts) : (addEnt kind unit tenant need tid k p).1.base = p.1.base := by
  unfold addEnt
  split
  · rfl
  · split
    · rfl
    · dsimp only
      split
      · exact State.resolve_base _ _ _ _ _
      · exact State.resolve_base _ _ _ _ _

@[simp] theorem State.convEnts_base (s : State) (kind : Nat) (unit : Nat) (tenant : Nat) (c : ConvD) : (State.convEnts s kind unit tenant c).1.base = s.base := by
  unfold State.convEnts
  repeat' first
    | with_reducible rfl
    | with_reducible assumption
    | with_reducible refine (addEnt_base _ _ _ _ _ _ _).trans ?_
    | with_reducible refine (State.pair_base (by assumption)).trans ?_
    | (intro x; refine State.step_have (s := s) x ?_ (fun hx => ?_); subst x)
    | intro x
    | (lift_lets -underBinder; intro x; refine State.step_have (s := s) x ?_ (fun hx => ?_); subst x)
    | (lift_lets -underBinder; intro x)
    | with_reducible refine State.ite_keep ?_ ?_
    | split

@[simp] theorem State.judgeCapture_base (s : State) (q : Nat) (d : DRt) : (State.judgeCapture s q d).base = s.base := by
  unfold State.judgeCapture
  repeat' first
    | with_reducible rfl
    | with_reducible assumption
    | with_reducible refine (State.dupd_base _ _ _ _).trans ?_
    | with_reducible refine (State.setChans_base _ _).trans ?_
    | with_reducible refine State.foldl_keep (fun s a => ?_) ?_
    | with_reducible refine (State.pair_base (by assumption)).trans ?_
    | (intro x; refine State.step_have (s := s) x ?_ (fun hx => ?_); subst x)
    | intro x
    | (lift_lets -underBinder; intro x; refine State.step_have (s := s) x ?_ (fun hx => ?_); subst x)
    | (lift_lets -underBinder; intro x)
    | with_reducible refine State.ite_keep ?_ ?_
    | split

@[simp] theorem State.judgeCaptures_base (s : State) (b : Nat) : (State.judgeCaptures s b).base = s.base := by
  unfold State.judgeCaptures
  repeat' first
    | with_reducible rfl
    | with_reducible assumption
    | with_reducible refine (State.judgeCapture_base _ _ _).trans ?_
    | with_reducible refine State.foldl_keep (fun s a => ?_) ?_
    | with_reducible refine (State.pair_base (by assumption)).trans ?_
    | (intro x; refine State.step_have (s := s) x ?_ (fun hx => ?_); subst x)
    | intro x
    | (lift_lets -underBinder; intro x; refine State.step_have (s := s) x ?_ (fun hx => ?_); subst x)
    | (lift_lets -underBinder; intro x)
    | with_reducible refine State.ite_keep ?_ ?_
    | split

@[simp] theorem State.dropCapture_base (s : State) (q : Nat) (seq : Nat) (c : ConvD) : (State.dropCapture s q seq c).base = s.base := by
  unfold State.dropCapture
  repeat' first
    | with_reducible rfl
    | with_reducible assumption
    | with_reducible refine (State.setChans_base _ _).trans ?_
    | with_reducible refine State.foldl_keep (fun s a => ?_) ?_
    | with_reducible refine (State.pair_base (by assumption)).trans ?_
    | (intro x; refine State.step_have (s := s) x ?_ (fun hx => ?_); subst x)
    | intro x
    | (lift_lets -underBinder; intro x; refine State.step_have (s := s) x ?_ (fun hx => ?_); subst x)
    | (lift_lets -underBinder; intro x)
    | with_reducible refine State.ite_keep ?_ ?_
    | split

@[simp] theorem State.convRefusal_base (s : State) (q : Nat) (d : DRt) (c : ConvD) : (State.convRefusal s q d c).1.base = s.base := by
  unfold State.convRefusal
  repeat' first
    | with_reducible rfl
    | with_reducible assumption
    | with_reducible refine (State.convEnts_base _ _ _ _ _).trans ?_
    | with_reducible refine (State.pair_base (by assumption)).trans ?_
    | (intro x; refine State.step_have (s := s) x ?_ (fun hx => ?_); subst x)
    | intro x
    | (lift_lets -underBinder; intro x; refine State.step_have (s := s) x ?_ (fun hx => ?_); subst x)
    | (lift_lets -underBinder; intro x)
    | with_reducible refine State.ite_keep ?_ ?_
    | split

@[simp] theorem State.stopConv_base (s : State) (q : Nat) (seq : Nat) (code : Nat) (tid : Nat) (tile : Nat) : (State.stopConv s q seq code tid tile).base = s.base := by
  unfold State.stopConv
  repeat' first
    | with_reducible rfl
    | with_reducible assumption
    | with_reducible refine (State.dupd_base _ _ _ _).trans ?_
    | with_reducible refine (State.pair_base (by assumption)).trans ?_
    | with_reducible refine State.ite_keep ?_ ?_
    | split

@[simp] theorem State.putParts_base (s : State) (own : ReqOwner) (en : Option TmEntry) (u : Nat) (tenant : Nat) (l : List (Nat × Nat)) (p : Bool) : (State.putParts s own en u tenant l p).base = s.base := by
  unfold State.putParts
  repeat' first
    | with_reducible rfl
    | with_reducible assumption
    | with_reducible refine (State.access_base _ _ _ _ _ _ _ _).trans ?_
    | with_reducible refine State.foldl_keep (fun s a => ?_) ?_
    | with_reducible refine (State.pair_base (by assumption)).trans ?_
    | with_reducible refine State.ite_keep ?_ ?_
    | split

@[simp] theorem State.convOne_base (s : State) (q : Nat) (seq : Nat) (c : ConvD) (x : ConvEnts) (t : Nat) (seg : Nat) (phys : Nat) (pois : List Nat) : (State.convOne s q seq c x t seg phys pois).base = s.base := by
  unfold State.convOne
  repeat' first
    | with_reducible rfl
    | with_reducible assumption
    | with_reducible refine (State.stop_base _ _ _ _).trans ?_
    | with_reducible refine (State.stopConv_base _ _ _ _ _ _).trans ?_
    | with_reducible refine (State.setSoOut_base _ _).trans ?_
    | with_reducible refine (State.writeSet_base _ _ _ _ _ _).trans ?_
    | with_reducible refine (State.putParts_base _ _ _ _ _ _ _).trans ?_
    | with_reducible refine (State.bump_base _ _ _ _ _).trans ?_
    | with_reducible refine (State.spend_base _ _).trans ?_
    | with_reducible refine (State.setRing_base _ _).trans ?_
    | with_reducible refine (State.dupd_base _ _ _ _).trans ?_
    | with_reducible refine State.foldl_keep (fun s a => ?_) ?_
    | with_reducible refine (State.pair_base (by assumption)).trans ?_
    | (intro x; refine State.step_have (s := s) x ?_ (fun hx => ?_); subst x)
    | intro x
    | (lift_lets -underBinder; intro x; refine State.step_have (s := s) x ?_ (fun hx => ?_); subst x)
    | (lift_lets -underBinder; intro x)
    | with_reducible refine State.ite_keep ?_ ?_
    | split

@[simp] theorem State.segChecks_base (s : State) (u : Nat) (q : Nat) (d : DRt) (t : Nat) (chk : Chk) : (State.segChecks s u q d t chk).base = s.base := by
  unfold State.segChecks
  repeat' first
    | with_reducible rfl
    | with_reducible assumption
    | with_reducible refine (State.transient_base _ _ _ _ _ _ _).trans ?_
    | with_reducible refine (State.fence_base _ _ _ _ _ _).trans ?_
    | with_reducible refine (State.twigFault_base _ _ _ _ _ _).trans ?_
    | with_reducible refine State.foldl_keep (fun s a => ?_) ?_
    | with_reducible refine (State.pair_base (by assumption)).trans ?_
    | (intro x; refine State.step_have (s := s) x ?_ (fun hx => ?_); subst x)
    | intro x
    | (lift_lets -underBinder; intro x; refine State.step_have (s := s) x ?_ (fun hx => ?_); subst x)
    | (lift_lets -underBinder; intro x)
    | with_reducible refine State.ite_keep ?_ ?_
    | split

@[simp] theorem State.runTile_base (s : State) (q : Nat) (d : DRt) (c : ConvD) (t : Nat) : (State.runTile s q d c t).base = s.base := by
  unfold State.runTile
  repeat' first
    | with_reducible rfl
    | with_reducible assumption
    | with_reducible refine (State.dupd_base _ _ _ _).trans ?_
    | with_reducible refine (State.segChecks_base _ _ _ _ _ _).trans ?_
    | with_reducible refine (State.convEnts_base _ _ _ _ _).trans ?_
    | with_reducible refine (State.stopConv_base _ _ _ _ _ _).trans ?_
    | with_reducible refine (State.convOne_base _ _ _ _ _ _ _ _ _).trans ?_
    | with_reducible refine State.foldl_keep (fun s a => ?_) ?_
    | with_reducible refine (State.pair_base (by assumption)).trans ?_
    | (intro x; refine State.step_have (s := s) x ?_ (fun hx => ?_); subst x)
    | intro x
    | (lift_lets -underBinder; intro x; refine State.step_have (s := s) x ?_ (fun hx => ?_); subst x)
    | (lift_lets -underBinder; intro x)
    | with_reducible refine State.ite_keep ?_ ?_
    | split

@[simp] theorem State.convTiles_base (s : State) (q : Nat) (seq : Nat) (c : ConvD) (x0 : List Nat) : (State.convTiles s q seq c x0).base = s.base := by
  induction x0 generalizing s with
  | nil =>
    unfold State.convTiles
    repeat' first
      | with_reducible rfl
      | with_reducible assumption
      | with_reducible refine (State.doneD_base _ _ _).trans ?_
      | with_reducible refine (State.runTile_base _ _ _ _ _).trans ?_
      | with_reducible refine (State.pair_base (by assumption)).trans ?_
      | (intro x; refine State.step_have (s := s) x ?_ (fun hx => ?_); subst x)
      | intro x
      | (lift_lets -underBinder; intro x; refine State.step_have (s := s) x ?_ (fun hx => ?_); subst x)
      | (lift_lets -underBinder; intro x)
      | with_reducible refine State.ite_keep ?_ ?_
      | split
  | cons a l ih =>
    unfold State.convTiles
    repeat' first
      | with_reducible rfl
      | with_reducible assumption
      | with_reducible refine (State.doneD_base _ _ _).trans ?_
      | with_reducible refine (State.runTile_base _ _ _ _ _).trans ?_
      | with_reducible refine (ih _).trans ?_
      | with_reducible refine (State.pair_base (by assumption)).trans ?_
      | (intro x; refine State.step_have (s := s) x ?_ (fun hx => ?_); subst x)
      | intro x
      | (lift_lets -underBinder; intro x; refine State.step_have (s := s) x ?_ (fun hx => ?_); subst x)
      | (lift_lets -underBinder; intro x)
      | with_reducible refine State.ite_keep ?_ ?_
      | split

@[simp] theorem State.convGroups_base (s : State) (q : Nat) (seq : Nat) (c : ConvD) (x0 : List Nat) : (State.convGroups s q seq c x0).base = s.base := by
  induction x0 generalizing s with
  | nil =>
    unfold State.convGroups
    repeat' first
      | with_reducible rfl
      | with_reducible assumption
      | with_reducible refine (State.doneD_base _ _ _).trans ?_
      | with_reducible refine (State.convEnts_base _ _ _ _ _).trans ?_
      | with_reducible refine (State.stopConv_base _ _ _ _ _ _).trans ?_
      | with_reducible refine (State.convOne_base _ _ _ _ _ _ _ _ _).trans ?_
      | with_reducible refine (State.pair_base (by assumption)).trans ?_
      | (intro x; refine State.step_have (s := s) x ?_ (fun hx => ?_); subst x)
      | intro x
      | (lift_lets -underBinder; intro x; refine State.step_have (s := s) x ?_ (fun hx => ?_); subst x)
      | (lift_lets -underBinder; intro x)
      | with_reducible refine State.ite_keep ?_ ?_
      | split
  | cons a l ih =>
    unfold State.convGroups
    repeat' first
      | with_reducible rfl
      | with_reducible assumption
      | with_reducible refine (State.doneD_base _ _ _).trans ?_
      | with_reducible refine (State.convEnts_base _ _ _ _ _).trans ?_
      | with_reducible refine (State.stopConv_base _ _ _ _ _ _).trans ?_
      | with_reducible refine (State.convOne_base _ _ _ _ _ _ _ _ _).trans ?_
      | with_reducible refine (ih _).trans ?_
      | with_reducible refine (State.pair_base (by assumption)).trans ?_
      | (intro x; refine State.step_have (s := s) x ?_ (fun hx => ?_); subst x)
      | intro x
      | (lift_lets -underBinder; intro x; refine State.step_have (s := s) x ?_ (fun hx => ?_); subst x)
      | (lift_lets -underBinder; intro x)
      | with_reducible refine State.ite_keep ?_ ?_
      | split

@[simp] theorem State.convReady_base (s : State) (q : Nat) (seq : Nat) : (State.convReady s q seq).base = s.base := by
  unfold State.convReady
  repeat' first
    | with_reducible rfl
    | with_reducible assumption
    | with_reducible refine (State.convGroups_base _ _ _ _ _).trans ?_
    | with_reducible refine (State.convTiles_base _ _ _ _ _).trans ?_
    | with_reducible refine State.reading_keep (fun s => ?_) ?_
    | with_reducible refine (State.pair_base (by assumption)).trans ?_
    | with_reducible refine State.ite_keep ?_ ?_
    | split

@[simp] theorem State.convResume_base (s : State) : (State.convResume s).base = s.base := by
  unfold State.convResume
  repeat' first
    | with_reducible rfl
    | with_reducible assumption
    | with_reducible refine (State.convReady_base _ _ _).trans ?_
    | with_reducible refine State.foldl_keep (fun s a => ?_) ?_
    | with_reducible refine (State.pair_base (by assumption)).trans ?_
    | (intro x; refine State.step_have (s := s) x ?_ (fun hx => ?_); subst x)
    | intro x
    | (lift_lets -underBinder; intro x; refine State.step_have (s := s) x ?_ (fun hx => ?_); subst x)
    | (lift_lets -underBinder; intro x)
    | with_reducible refine State.ite_keep ?_ ?_
    | split

@[simp] theorem State.addCapture_base (s : State) (q : Nat) (seq : Nat) (c : ConvD) (x : ConvEnts) : (State.addCapture s q seq c x).base = s.base := by
  unfold State.addCapture
  repeat' first
    | with_reducible rfl
    | with_reducible assumption
    | with_reducible refine (State.setChans_base _ _).trans ?_
    | with_reducible refine (State.pair_base (by assumption)).trans ?_
    | with_reducible refine State.ite_keep ?_ ?_
    | split

@[simp] theorem State.tileIn_base (s : State) (q : Nat) (d : DRt) (c : ConvD) (t : Tile) : (State.tileIn s q d c t).base = s.base := by
  unfold State.tileIn
  repeat' first
    | with_reducible rfl
    | with_reducible assumption
    | with_reducible refine (State.stopConv_base _ _ _ _ _ _).trans ?_
    | with_reducible refine (State.dupd_base _ _ _ _).trans ?_
    | with_reducible refine (State.convReady_base _ _ _).trans ?_
    | with_reducible refine (State.pair_base (by assumption)).trans ?_
    | (intro x; refine State.step_have (s := s) x ?_ (fun hx => ?_); subst x)
    | intro x
    | (lift_lets -underBinder; intro x; refine State.step_have (s := s) x ?_ (fun hx => ?_); subst x)
    | (lift_lets -underBinder; intro x)
    | with_reducible refine State.ite_keep ?_ ?_
    | split

@[simp] theorem State.takeTile_base (s : State) (q : Nat) (d : DRt) (c : ConvD) (t : Tile) (chk : Chk) : (State.takeTile s q d c t chk).base = s.base := by
  unfold State.takeTile
  repeat' first
    | with_reducible rfl
    | with_reducible assumption
    | with_reducible refine (State.segChecks_base _ _ _ _ _ _).trans ?_
    | with_reducible refine (State.tileIn_base _ _ _ _ _).trans ?_
    | with_reducible refine State.foldl_keep (fun s a => ?_) ?_
    | with_reducible refine (State.pair_base (by assumption)).trans ?_
    | (intro x; refine State.step_have (s := s) x ?_ (fun hx => ?_); subst x)
    | intro x
    | (lift_lets -underBinder; intro x; refine State.step_have (s := s) x ?_ (fun hx => ?_); subst x)
    | (lift_lets -underBinder; intro x)
    | with_reducible refine State.ite_keep ?_ ?_
    | split

@[simp] theorem State.joinOrphans_base (s : State) (q : Nat) (seq : Nat) (c : ConvD) : (State.joinOrphans s q seq c).base = s.base := by
  unfold State.joinOrphans
  repeat' first
    | with_reducible rfl
    | with_reducible assumption
    | with_reducible refine (State.setWaitTiles_base _ _).trans ?_
    | with_reducible refine (State.put_base _ _ _ _).trans ?_
    | with_reducible refine (State.takeTile_base _ _ _ _ _ _).trans ?_
    | with_reducible refine State.foldl_keep (fun s a => ?_) ?_
    | with_reducible refine (State.pair_base (by assumption)).trans ?_
    | (intro x; refine State.step_have (s := s) x ?_ (fun hx => ?_); subst x)
    | intro x
    | (lift_lets -underBinder; intro x; refine State.step_have (s := s) x ?_ (fun hx => ?_); subst x)
    | (lift_lets -underBinder; intro x)
    | with_reducible refine State.ite_keep ?_ ?_
    | split

@[simp] theorem State.joinAll_base (s : State) : (State.joinAll s).base = s.base := by
  unfold State.joinAll
  repeat' first
    | with_reducible rfl
    | with_reducible assumption
    | with_reducible refine (State.joinOrphans_base _ _ _ _).trans ?_
    | with_reducible refine State.foldl_keep (fun s a => ?_) ?_
    | with_reducible refine (State.pair_base (by assumption)).trans ?_
    | (intro x; refine State.step_have (s := s) x ?_ (fun hx => ?_); subst x)
    | intro x
    | (lift_lets -underBinder; intro x; refine State.step_have (s := s) x ?_ (fun hx => ?_); subst x)
    | (lift_lets -underBinder; intro x)
    | with_reducible refine State.ite_keep ?_ ?_
    | split

@[simp] theorem State.refuseConv_base (s : State) (q : Nat) (seq : Nat) (c : ConvD) (code : Nat) (tid : Nat) : (State.refuseConv s q seq c code tid).base = s.base := by
  unfold State.refuseConv
  repeat' first
    | with_reducible rfl
    | with_reducible assumption
    | with_reducible refine (State.dropCapture_base _ _ _ _).trans ?_
    | with_reducible refine (State.refuseD_base _ _ _ _ _).trans ?_
    | with_reducible refine State.foldl_keep (fun s a => ?_) ?_
    | with_reducible refine (State.pair_base (by assumption)).trans ?_
    | (intro x; refine State.step_have (s := s) x ?_ (fun hx => ?_); subst x)
    | intro x
    | (lift_lets -underBinder; intro x; refine State.step_have (s := s) x ?_ (fun hx => ?_); subst x)
    | (lift_lets -underBinder; intro x)
    | with_reducible refine State.ite_keep ?_ ?_
    | split

@[simp] theorem State.runConv_base (s : State) (q : Nat) (d : DRt) (c : ConvD) (ks : TileChks) (x : ConvEnts) : (State.runConv s q d c ks x).base = s.base := by
  unfold State.runConv
  repeat' first
    | with_reducible rfl
    | with_reducible assumption
    | with_reducible refine (State.dupd_base _ _ _ _).trans ?_
    | with_reducible refine (State.addCapture_base _ _ _ _ _).trans ?_
    | with_reducible refine (State.readBeats_base _ _ _ _ _).trans ?_
    | with_reducible refine (State.convReady_base _ _ _).trans ?_
    | with_reducible refine (State.joinOrphans_base _ _ _ _).trans ?_
    | with_reducible refine State.foldl_keep (fun s a => ?_) ?_
    | with_reducible refine (State.pair_base (by assumption)).trans ?_
    | (intro x; refine State.step_have (s := s) x ?_ (fun hx => ?_); subst x)
    | intro x
    | (lift_lets -underBinder; intro x; refine State.step_have (s := s) x ?_ (fun hx => ?_); subst x)
    | (lift_lets -underBinder; intro x)
    | with_reducible refine State.ite_keep ?_ ?_
    | split

@[simp] theorem State.dispConv_base (s : State) (q : Nat) (d : DRt) (c : ConvD) (ks : TileChks) : (State.dispConv s q d c ks).base = s.base := by
  unfold State.dispConv
  repeat' first
    | with_reducible rfl
    | with_reducible assumption
    | with_reducible refine (State.refuseD_base _ _ _ _ _).trans ?_
    | with_reducible refine (State.doneD_base _ _ _).trans ?_
    | with_reducible refine (State.convRefusal_base _ _ _ _).trans ?_
    | with_reducible refine (State.refuseConv_base _ _ _ _ _ _).trans ?_
    | with_reducible refine (State.runConv_base _ _ _ _ _ _).trans ?_
    | with_reducible refine State.readThen_from (fun s => ?_) (fun s x h => ?_) ?_
    | with_reducible refine (State.pair_base (by assumption)).trans ?_
    | (intro x; refine State.step_have (s := s) x ?_ (fun hx => ?_); subst x)
    | intro x
    | (lift_lets -underBinder; intro x; refine State.step_have (s := s) x ?_ (fun hx => ?_); subst x)
    | (lift_lets -underBinder; intro x)
    | with_reducible refine State.ite_keep ?_ ?_
    | split

@[simp] theorem State.trap_base (s : State) (q : Nat) (d : DRt) (tid : Nat) : (State.trap s q d tid).base = s.base := by
  unfold State.trap
  repeat' first
    | with_reducible rfl
    | with_reducible assumption
    | with_reducible refine (State.bump_base _ _ _ _ _).trans ?_
    | with_reducible refine (State.put_base _ _ _ _).trans ?_
    | with_reducible refine (State.updQueue_base _ _ _).trans ?_
    | with_reducible refine (State.dupd_base _ _ _ _).trans ?_
    | with_reducible refine (State.report_base _ _).trans ?_
    | with_reducible refine (State.pair_base (by assumption)).trans ?_
    | (intro x; refine State.step_have (s := s) x ?_ (fun hx => ?_); subst x)
    | intro x
    | (lift_lets -underBinder; intro x; refine State.step_have (s := s) x ?_ (fun hx => ?_); subst x)
    | (lift_lets -underBinder; intro x)
    | with_reducible refine State.ite_keep ?_ ?_
    | split

@[simp] theorem State.feedSlot_base (s : State) (c : ConvD) (f : HistFeed) : (State.feedSlot s c f).base = s.base := by
  unfold State.feedSlot
  repeat' first
    | with_reducible rfl
    | with_reducible assumption
    | with_reducible refine (State.setHist_base _ _).trans ?_
    | with_reducible refine (State.pair_base (by assumption)).trans ?_
    | with_reducible refine State.ite_keep ?_ ?_
    | split

@[simp] theorem State.applyCommit_base (s : State) (q : Nat) (d : DRt) : (State.applyCommit s q d).base = s.base := by
  unfold State.applyCommit
  repeat' first
    | with_reducible rfl
    | with_reducible assumption
    | with_reducible refine (State.feedSlot_base _ _ _).trans ?_
    | with_reducible refine (State.trap_base _ _ _ _).trans ?_
    | with_reducible refine (State.acct_base _ _ _ _).trans ?_
    | with_reducible refine (State.setChans_base _ _).trans ?_
    | with_reducible refine (State.pair_base (by assumption)).trans ?_
    | (intro x; refine State.step_have (s := s) x ?_ (fun hx => ?_); subst x)
    | intro x
    | (lift_lets -underBinder; intro x; refine State.step_have (s := s) x ?_ (fun hx => ?_); subst x)
    | (lift_lets -underBinder; intro x)
    | with_reducible refine State.ite_keep ?_ ?_
    | split

@[simp] theorem State.commitD_base (s : State) (q : Nat) (d : DRt) : (State.commitD s q d).base = s.base := by
  unfold State.commitD
  repeat' first
    | with_reducible rfl
    | with_reducible assumption
    | with_reducible refine (State.dupd_base _ _ _ _).trans ?_
    | with_reducible refine (State.applyCommit_base _ _ _).trans ?_
    | with_reducible refine (State.park_base _ _ _).trans ?_
    | with_reducible refine (State.releaseHead_base _ _ _).trans ?_
    | with_reducible refine (State.pair_base (by assumption)).trans ?_
    | (intro x; refine State.step_have (s := s) x ?_ (fun hx => ?_); subst x)
    | intro x
    | (lift_lets -underBinder; intro x; refine State.step_have (s := s) x ?_ (fun hx => ?_); subst x)
    | (lift_lets -underBinder; intro x)
    | with_reducible refine State.ite_keep ?_ ?_
    | split

end Sys2Proof.Machine
end

