-- ==== Sys2Proof/Laws/Base/RoutStart.lean ====
section
/-! SUPPORT. The operations of Machine/RoutStart.lean leave the configuration, the waiting commands and host memory as they are. -/

namespace Sys2Proof.Machine

@[simp] theorem State.blame_base (s : State) (r : Rout) (tid : Nat) : (State.blame s r tid).base = s.base := by
  unfold State.blame
  repeat' first
    | with_reducible rfl
    | with_reducible assumption
    | with_reducible refine (State.rupd_base _ _ _ _).trans ?_
    | with_reducible refine State.foldl_keep (fun s a => ?_) ?_
    | with_reducible refine (State.pair_base (by assumption)).trans ?_
    | (intro x; refine State.step_have (s := s) x ?_ (fun hx => ?_); subst x)
    | intro x
    | (lift_lets -underBinder; intro x; refine State.step_have (s := s) x ?_ (fun hx => ?_); subst x)
    | (lift_lets -underBinder; intro x)
    | with_reducible refine State.ite_keep ?_ ?_
    | split

theorem blaming_base {α : Type} {r : Rout} {tid : Nat} {p : Chked α} {s : State} (h : p.1.base = s.base) : (blaming r tid p).1.base = s.base := by
  unfold blaming
  split
  · exact (State.blame_base _ _ _).trans h
  · exact h

@[simp] theorem State.rres_base (s : State) (r : Rout) (tid : Nat) : (State.rres s r tid).1.base = s.base := by
  unfold State.rres
  repeat' first
    | with_reducible rfl
    | with_reducible assumption
    | with_reducible refine (State.wres_base _ _ _).trans ?_
    | with_reducible refine State.foldl_keep (fun s a => ?_) ?_
    | with_reducible refine blaming_base ?_
    | with_reducible refine (State.pair_base (by assumption)).trans ?_
    | (intro x; refine State.step_have (s := s) x ?_ (fun hx => ?_); subst x)
    | intro x
    | (lift_lets -underBinder; intro x; refine State.step_have (s := s) x ?_ (fun hx => ?_); subst x)
    | (lift_lets -underBinder; intro x)
    | with_reducible refine State.ite_keep ?_ ?_
    | split

@[simp] theorem State.readObj_base (s : State) (r : Rout) (tid : Nat) : (State.readObj s r tid).1.base = s.base := by
  unfold State.readObj
  repeat' first
    | with_reducible rfl
    | with_reducible assumption
    | with_reducible refine (State.rres_base _ _ _).trans ?_
    | with_reducible refine (State.readC_base _ _ _ _ _).trans ?_
    | with_reducible refine andThen_base ?_ (fun s a => ?_)
    | with_reducible refine blaming_base ?_
    | with_reducible refine (State.pair_base (by assumption)).trans ?_
    | with_reducible refine State.ite_keep ?_ ?_
    | split

@[simp] theorem State.fmtIn_base (s : State) (r : Rout) (tid : Nat) (fs : List Nat) : (State.fmtIn s r tid fs).1.base = s.base := by
  unfold State.fmtIn
  repeat' first
    | with_reducible rfl
    | with_reducible assumption
    | with_reducible refine (State.rres_base _ _ _).trans ?_
    | with_reducible refine (guardC_base _ _ _).trans ?_
    | with_reducible refine andThen_base ?_ (fun s a => ?_)
    | with_reducible refine blaming_base ?_
    | with_reducible refine (State.pair_base (by assumption)).trans ?_
    | with_reducible refine State.ite_keep ?_ ?_
    | split

@[simp] theorem State.listFmts_base (s : State) (r : Rout) (x0 : List Nat) : (State.listFmts s r x0).1.base = s.base := by
  induction x0 generalizing s with
  | nil =>
    unfold State.listFmts
    repeat' first
      | with_reducible rfl
      | with_reducible assumption
      | with_reducible refine (State.fmtIn_base _ _ _ _).trans ?_
      | with_reducible refine andThen_base ?_ (fun s a => ?_)
      | with_reducible refine (State.pair_base (by assumption)).trans ?_
      | with_reducible refine State.ite_keep ?_ ?_
      | split
  | cons a l ih =>
    unfold State.listFmts
    repeat' first
      | with_reducible rfl
      | with_reducible assumption
      | with_reducible refine (ih _).trans ?_
      | with_reducible refine (State.fmtIn_base _ _ _ _).trans ?_
      | with_reducible refine andThen_base ?_ (fun s a => ?_)
      | with_reducible refine (State.pair_base (by assumption)).trans ?_
      | with_reducible refine State.ite_keep ?_ ?_
      | split

@[simp] theorem State.checkFormat_base (s : State) (r : Rout) (list : List Nat) : (State.checkFormat s r list).1.base = s.base := by
  unfold State.checkFormat
  repeat' first
    | with_reducible rfl
    | with_reducible assumption
    | with_reducible refine (State.fmtIn_base _ _ _ _).trans ?_
    | with_reducible refine (State.listFmts_base _ _ _).trans ?_
    | with_reducible refine (guardC_base _ _ _).trans ?_
    | with_reducible refine (State.pair_base (by assumption)).trans ?_
    | with_reducible refine State.ite_keep ?_ ?_
    | split

@[simp] theorem State.rangeIn_base (s : State) (r : Rout) (tid : Nat) (rows : Nat) (cols : Nat) : (State.rangeIn s r tid rows cols).1.base = s.base := by
  unfold State.rangeIn
  repeat' first
    | with_reducible rfl
    | with_reducible assumption
    | with_reducible refine (State.rres_base _ _ _).trans ?_
    | with_reducible refine (guardC_base _ _ _).trans ?_
    | with_reducible refine State.foldl_keep (fun s a => ?_) ?_
    | with_reducible refine andThen_base ?_ (fun s a => ?_)
    | with_reducible refine blaming_base ?_
    | with_reducible refine (State.pair_base (by assumption)).trans ?_
    | (intro x; refine State.step_have (s := s) x ?_ (fun hx => ?_); subst x)
    | intro x
    | (lift_lets -underBinder; intro x; refine State.step_have (s := s) x ?_ (fun hx => ?_); subst x)
    | (lift_lets -underBinder; intro x)
    | with_reducible refine State.ite_keep ?_ ?_
    | split

@[simp] theorem State.listRanges_base (s : State) (r : Rout) (x0 : List Nat) : (State.listRanges s r x0).1.base = s.base := by
  induction x0 generalizing s with
  | nil =>
    unfold State.listRanges
    repeat' first
      | with_reducible rfl
      | with_reducible assumption
      | with_reducible refine (State.rangeIn_base _ _ _ _ _).trans ?_
      | with_reducible refine State.foldl_keep (fun s a => ?_) ?_
      | with_reducible refine andThen_base ?_ (fun s a => ?_)
      | with_reducible refine (State.pair_base (by assumption)).trans ?_
      | (intro x; refine State.step_have (s := s) x ?_ (fun hx => ?_); subst x)
      | intro x
      | (lift_lets -underBinder; intro x; refine State.step_have (s := s) x ?_ (fun hx => ?_); subst x)
      | (lift_lets -underBinder; intro x)
      | with_reducible refine State.ite_keep ?_ ?_
      | split
  | cons a l ih =>
    unfold State.listRanges
    repeat' first
      | with_reducible rfl
      | with_reducible assumption
      | with_reducible refine (State.rangeIn_base _ _ _ _ _).trans ?_
      | with_reducible refine (ih _).trans ?_
      | with_reducible refine State.foldl_keep (fun s a => ?_) ?_
      | with_reducible refine andThen_base ?_ (fun s a => ?_)
      | with_reducible refine (State.pair_base (by assumption)).trans ?_
      | (intro x; refine State.step_have (s := s) x ?_ (fun hx => ?_); subst x)
      | intro x
      | (lift_lets -underBinder; intro x; refine State.step_have (s := s) x ?_ (fun hx => ?_); subst x)
      | (lift_lets -underBinder; intro x)
      | with_reducible refine State.ite_keep ?_ ?_
      | split

@[simp] theorem State.checkRanges_base (s : State) (r : Rout) (list : List Nat) : (State.checkRanges s r list).1.base = s.base := by
  unfold State.checkRanges
  repeat' first
    | with_reducible rfl
    | with_reducible assumption
    | with_reducible refine (State.rangeIn_base _ _ _ _ _).trans ?_
    | with_reducible refine (State.listRanges_base _ _ _).trans ?_
    | with_reducible refine State.foldl_keep (fun s a => ?_) ?_
    | with_reducible refine (State.pair_base (by assumption)).trans ?_
    | (intro x; refine State.step_have (s := s) x ?_ (fun hx => ?_); subst x)
    | intro x
    | (lift_lets -underBinder; intro x; refine State.step_have (s := s) x ?_ (fun hx => ?_); subst x)
    | (lift_lets -underBinder; intro x)
    | with_reducible refine State.ite_keep ?_ ?_
    | split

@[simp] theorem State.placeEnt_base (s : State) (mine : List Nat) (e : StoreEnt) : (State.placeEnt s mine e).1.base = s.base := by
  unfold State.placeEnt
  repeat' first
    | with_reducible rfl
    | with_reducible assumption
    | with_reducible refine (State.setStore_base _ _).trans ?_
    | with_reducible refine (State.bump_base _ _ _ _ _).trans ?_
    | with_reducible refine (State.pair_base (by assumption)).trans ?_
    | with_reducible refine State.ite_keep ?_ ?_
    | split

theorem State.stored_base {s : State} {tenant tid digest : Nat} {t : State} {e : StoreEnt} (h : s.stored tenant tid digest = some (t, e)) : t.base = s.base := by
  unfold State.stored at h
  split at h
  · cases h
  · cases h
    exact State.setStore_base _ _

@[simp] theorem State.checkImage_base (s : State) (r : Rout) : (State.checkImage s r).1.base = s.base := by
  unfold State.checkImage
  repeat' first
    | with_reducible rfl
    | with_reducible assumption
    | with_reducible refine (State.wres_base _ _ _).trans ?_
    | with_reducible refine (State.readC_base _ _ _ _ _).trans ?_
    | with_reducible refine (State.bump_base _ _ _ _ _).trans ?_
    | with_reducible refine (State.placeEnt_base _ _ _).trans ?_
    | with_reducible refine (State.stored_base (by assumption)).trans ?_
    | with_reducible refine andThen_base ?_ (fun s a => ?_)
    | with_reducible refine blaming_base ?_
    | with_reducible refine (State.pair_base (by assumption)).trans ?_
    | (intro x; refine State.step_have (s := s) x ?_ (fun hx => ?_); subst x)
    | intro x
    | (lift_lets -underBinder; intro x; refine State.step_have (s := s) x ?_ (fun hx => ?_); subst x)
    | (lift_lets -underBinder; intro x)
    | with_reducible refine State.ite_keep ?_ ?_
    | split

@[simp] theorem State.checkSched_base (s : State) (r : Rout) (i : Image) : (State.checkSched s r i).1.base = s.base := by
  unfold State.checkSched
  repeat' first
    | with_reducible rfl
    | with_reducible assumption
    | with_reducible refine (State.wres_base _ _ _).trans ?_
    | with_reducible refine (State.readC_base _ _ _ _ _).trans ?_
    | with_reducible refine (State.bump_base _ _ _ _ _).trans ?_
    | with_reducible refine (State.placeEnt_base _ _ _).trans ?_
    | with_reducible refine (State.stored_base (by assumption)).trans ?_
    | with_reducible refine andThen_base ?_ (fun s a => ?_)
    | with_reducible refine blaming_base ?_
    | with_reducible refine (State.pair_base (by assumption)).trans ?_
    | (intro x; refine State.step_have (s := s) x ?_ (fun hx => ?_); subst x)
    | intro x
    | (lift_lets -underBinder; intro x; refine State.step_have (s := s) x ?_ (fun hx => ?_); subst x)
    | (lift_lets -underBinder; intro x)
    | with_reducible refine State.ite_keep ?_ ?_
    | split

@[simp] theorem State.layerSide_base (s : State) (r : Rout) (none' : Bool) (tid : Nat) (dim : Nat) : (State.layerSide s r none' tid dim).1.base = s.base := by
  unfold State.layerSide
  repeat' first
    | with_reducible rfl
    | with_reducible assumption
    | with_reducible refine (State.readObj_base _ _ _).trans ?_
    | with_reducible refine (State.blame_base _ _ _).trans ?_
    | with_reducible refine andThen_base ?_ (fun s a => ?_)
    | with_reducible refine (State.pair_base (by assumption)).trans ?_
    | with_reducible refine State.ite_keep ?_ ?_
    | split

@[simp] theorem State.layerObjs_base (s : State) (r : Rout) (x0 : List Nat) : (State.layerObjs s r x0).1.base = s.base := by
  induction x0 generalizing s with
  | nil =>
    unfold State.layerObjs
    repeat' first
      | with_reducible rfl
      | with_reducible assumption
      | with_reducible refine (State.layerSide_base _ _ _ _ _).trans ?_
      | with_reducible refine andThen_base ?_ (fun s a => ?_)
      | with_reducible refine (State.pair_base (by assumption)).trans ?_
      | with_reducible refine State.ite_keep ?_ ?_
      | split
  | cons a l ih =>
    unfold State.layerObjs
    repeat' first
      | with_reducible rfl
      | with_reducible assumption
      | with_reducible refine (ih _).trans ?_
      | with_reducible refine (State.layerSide_base _ _ _ _ _).trans ?_
      | with_reducible refine andThen_base ?_ (fun s a => ?_)
      | with_reducible refine (State.pair_base (by assumption)).trans ?_
      | with_reducible refine State.ite_keep ?_ ?_
      | split

@[simp] theorem State.needObj_base (s : State) (r : Rout) (tid : Nat) (kind : Nat) (form : Nat) (cols : Nat) (keep : Nat → Rout → Rout) : (State.needObj s r tid kind form cols keep).1.base = s.base := by
  unfold State.needObj
  repeat' first
    | with_reducible rfl
    | with_reducible assumption
    | with_reducible refine (State.readObj_base _ _ _).trans ?_
    | with_reducible refine (State.rupd_base _ _ _ _).trans ?_
    | with_reducible refine (State.blame_base _ _ _).trans ?_
    | with_reducible refine andThen_base ?_ (fun s a => ?_)
    | with_reducible refine (State.pair_base (by assumption)).trans ?_
    | (intro x; refine State.step_have (s := s) x ?_ (fun hx => ?_); subst x)
    | intro x
    | (lift_lets -underBinder; intro x; refine State.step_have (s := s) x ?_ (fun hx => ?_); subst x)
    | (lift_lets -underBinder; intro x)
    | with_reducible refine State.ite_keep ?_ ?_
    | split

@[simp] theorem State.checkResults_base (s : State) (r : Rout) (list : List Nat) : (State.checkResults s r list).1.base = s.base := by
  unfold State.checkResults
  repeat' first
    | with_reducible rfl
    | with_reducible assumption
    | with_reducible refine (State.layerObjs_base _ _ _).trans ?_
    | with_reducible refine (State.needObj_base _ _ _ _ _ _ _).trans ?_
    | with_reducible refine andThen_base ?_ (fun s a => ?_)
    | with_reducible refine (State.pair_base (by assumption)).trans ?_
    | (intro x; refine State.step_have (s := s) x ?_ (fun hx => ?_); subst x)
    | intro x
    | (lift_lets -underBinder; intro x; refine State.step_have (s := s) x ?_ (fun hx => ?_); subst x)
    | (lift_lets -underBinder; intro x)
    | with_reducible refine State.ite_keep ?_ ?_
    | split

@[simp] theorem State.checkAreas_base (s : State) (r : Rout) (i : Image) : (State.checkAreas s r i).1.base = s.base := by
  unfold State.checkAreas
  repeat' first
    | with_reducible rfl
    | with_reducible assumption
    | with_reducible refine (State.rres_base _ _ _).trans ?_
    | with_reducible refine (State.blame_base _ _ _).trans ?_
    | with_reducible refine andThen_base ?_ (fun s a => ?_)
    | with_reducible refine (State.pair_base (by assumption)).trans ?_
    | with_reducible refine State.ite_keep ?_ ?_
    | split

@[simp] theorem State.checkRout_base (s : State) (r : Rout) (d : DRt) : (State.checkRout s r d).1.base = s.base := by
  unfold State.checkRout
  repeat' first
    | with_reducible rfl
    | with_reducible assumption
    | with_reducible refine (State.blame_base _ _ _).trans ?_
    | with_reducible refine (State.checkFormat_base _ _ _).trans ?_
    | with_reducible refine (State.checkImage_base _ _).trans ?_
    | with_reducible refine (guardC_base _ _ _).trans ?_
    | with_reducible refine (State.checkSched_base _ _ _).trans ?_
    | with_reducible refine (State.checkResults_base _ _ _).trans ?_
    | with_reducible refine (State.checkAreas_base _ _ _).trans ?_
    | with_reducible refine (State.checkRanges_base _ _ _).trans ?_
    | with_reducible refine andThen_base ?_ (fun s a => ?_)
    | with_reducible refine (State.pair_base (by assumption)).trans ?_
    | with_reducible refine State.ite_keep ?_ ?_
    | split

@[simp] theorem State.nowRuns_base (s : State) (q : Nat) (seq : Nat) : (State.nowRuns s q seq).base = s.base := by
  unfold State.nowRuns
  repeat' first
    | with_reducible rfl
    | with_reducible assumption
    | with_reducible refine (State.dupd_base _ _ _ _).trans ?_
    | with_reducible refine State.foldl_keep (fun s a => ?_) ?_
    | with_reducible refine (State.pair_base (by assumption)).trans ?_
    | (intro x; refine State.step_have (s := s) x ?_ (fun hx => ?_); subst x)
    | intro x
    | (lift_lets -underBinder; intro x; refine State.step_have (s := s) x ?_ (fun hx => ?_); subst x)
    | (lift_lets -underBinder; intro x)
    | with_reducible refine State.ite_keep ?_ ?_
    | split

@[simp] theorem State.dispRout_base (s : State) (q : Nat) (d : DRt) : (State.dispRout s q d).base = s.base := by
  unfold State.dispRout
  repeat' first
    | with_reducible rfl
    | with_reducible assumption
    | with_reducible refine (State.nowRuns_base _ _ _).trans ?_
    | with_reducible refine (State.endRout_base _ _ _ _ _).trans ?_
    | with_reducible refine (State.blame_base _ _ _).trans ?_
    | with_reducible refine (State.faultRout_base _ _ _ _).trans ?_
    | with_reducible refine (State.checkRout_base _ _ _).trans ?_
    | with_reducible refine (State.rupd_base _ _ _ _).trans ?_
    | with_reducible refine State.readThen_from (fun s => ?_) (fun s x h => ?_) ?_
    | with_reducible refine (State.pair_base (by assumption)).trans ?_
    | (intro x; refine State.step_have (s := s) x ?_ (fun hx => ?_); subst x)
    | intro x
    | (lift_lets -underBinder; intro x; refine State.step_have (s := s) x ?_ (fun hx => ?_); subst x)
    | (lift_lets -underBinder; intro x)
    | with_reducible refine State.ite_keep ?_ ?_
    | split

end Sys2Proof.Machine
end

