-- ==== Sys2Proof/Laws/Base/RoutRun.lean ====
section
/-! SUPPORT. The operations of Machine/RoutRun.lean leave the configuration, the waiting commands and host memory as they are. -/

namespace Sys2Proof.Machine

@[simp] theorem State.hold_base (s : State) (kind : Nat) (u : Nat) (r : Rout) (l : Nat) : (State.hold s kind u r l).base = s.base := by
  unfold State.hold
  repeat' first
    | with_reducible rfl
    | with_reducible assumption
    | with_reducible refine (State.setHolds_base _ _).trans ?_
    | with_reducible refine (State.put_base _ _ _ _).trans ?_
    | with_reducible refine State.foldl_keep (fun s a => ?_) ?_
    | with_reducible refine (State.pair_base (by assumption)).trans ?_
    | (intro x; refine State.step_have (s := s) x ?_ (fun hx => ?_); subst x)
    | intro x
    | (lift_lets -underBinder; intro x; refine State.step_have (s := s) x ?_ (fun hx => ?_); subst x)
    | (lift_lets -underBinder; intro x)
    | with_reducible refine State.ite_keep ?_ ?_
    | split

@[simp] theorem State.preemptNow_base (s : State) (q : Nat) (seq : Nat) (reset : Bool) : (State.preemptNow s q seq reset).base = s.base := by
  unfold State.preemptNow
  repeat' first
    | with_reducible rfl
    | with_reducible assumption
    | with_reducible refine (State.bump_base _ _ _ _ _).trans ?_
    | with_reducible refine (State.faultRout_base _ _ _ _).trans ?_
    | with_reducible refine (State.rupd_base _ _ _ _).trans ?_
    | with_reducible refine (State.restart_base _ _ _).trans ?_
    | with_reducible refine (State.forget_base _ _).trans ?_
    | with_reducible refine (State.letGo_base _ _ _).trans ?_
    | with_reducible refine (State.pair_base (by assumption)).trans ?_
    | (intro x; refine State.step_have (s := s) x ?_ (fun hx => ?_); subst x)
    | intro x
    | (lift_lets -underBinder; intro x; refine State.step_have (s := s) x ?_ (fun hx => ?_); subst x)
    | (lift_lets -underBinder; intro x)
    | with_reducible refine State.ite_keep ?_ ?_
    | split

@[simp] theorem State.eccCured_base (s : State) (r : Rout) : (State.eccCured s r).base = s.base := by
  unfold State.eccCured
  repeat' first
    | with_reducible rfl
    | with_reducible assumption
    | with_reducible refine (State.transient_base _ _ _ _ _ _ _).trans ?_
    | with_reducible refine State.foldl_keep (fun s a => ?_) ?_
    | with_reducible refine (State.pair_base (by assumption)).trans ?_
    | (intro x; refine State.step_have (s := s) x ?_ (fun hx => ?_); subst x)
    | intro x
    | (lift_lets -underBinder; intro x; refine State.step_have (s := s) x ?_ (fun hx => ?_); subst x)
    | (lift_lets -underBinder; intro x)
    | with_reducible refine State.ite_keep ?_ ?_
    | split

@[simp] theorem State.boundaryOf_base (s : State) (r : Rout) (i : Image) : (State.boundaryOf s r i).base = s.base := by
  unfold State.boundaryOf
  repeat' first
    | with_reducible rfl
    | with_reducible assumption
    | with_reducible refine (State.faultRout_base _ _ _ _).trans ?_
    | with_reducible refine (State.access_base _ _ _ _ _ _ _ _).trans ?_
    | with_reducible refine (State.eccCured_base _ _).trans ?_
    | with_reducible refine (State.rupd_base _ _ _ _).trans ?_
    | with_reducible refine (State.letGo_base _ _ _).trans ?_
    | with_reducible refine (State.preemptNow_base _ _ _ _).trans ?_
    | with_reducible refine (State.pair_base (by assumption)).trans ?_
    | (intro x; refine State.step_have (s := s) x ?_ (fun hx => ?_); subst x)
    | intro x
    | (lift_lets -underBinder; intro x; refine State.step_have (s := s) x ?_ (fun hx => ?_); subst x)
    | (lift_lets -underBinder; intro x)
    | with_reducible refine State.ite_keep ?_ ?_
    | split

@[simp] theorem State.schedBoundary_base (s : State) (r : Rout) (i : Image) (x : SStep) : (State.schedBoundary s r i x).base = s.base := by
  unfold State.schedBoundary
  repeat' first
    | with_reducible rfl
    | with_reducible assumption
    | with_reducible refine (State.boundaryOf_base _ _ _).trans ?_
    | with_reducible refine (State.rupd_base _ _ _ _).trans ?_
    | with_reducible refine (State.pair_base (by assumption)).trans ?_
    | (intro x; refine State.step_have (s := s) x ?_ (fun hx => ?_); subst x)
    | intro x
    | (lift_lets -underBinder; intro x; refine State.step_have (s := s) x ?_ (fun hx => ?_); subst x)
    | (lift_lets -underBinder; intro x)
    | with_reducible refine State.ite_keep ?_ ?_
    | split

@[simp] theorem State.finishEnd_base (s : State) (r : Rout) (outcome : Nat) : (State.finishEnd s r outcome).base = s.base := by
  unfold State.finishEnd
  repeat' first
    | with_reducible rfl
    | with_reducible assumption
    | with_reducible refine (State.eccCured_base _ _).trans ?_
    | with_reducible refine (State.closeChan_base _ _).trans ?_
    | with_reducible refine (State.forget_base _ _).trans ?_
    | with_reducible refine (State.letGo_base _ _ _).trans ?_
    | with_reducible refine (State.rupd_base _ _ _ _).trans ?_
    | with_reducible refine (State.domeBack_base _).trans ?_
    | with_reducible refine (State.dupd_base _ _ _ _).trans ?_
    | with_reducible refine (State.nextHdr_base _ _ _).trans ?_
    | with_reducible refine (State.endRout_base _ _ _ _ _).trans ?_
    | with_reducible refine (State.pair_base (by assumption)).trans ?_
    | (intro x; refine State.step_have (s := s) x ?_ (fun hx => ?_); subst x)
    | intro x
    | (lift_lets -underBinder; intro x; refine State.step_have (s := s) x ?_ (fun hx => ?_); subst x)
    | (lift_lets -underBinder; intro x)
    | with_reducible refine State.ite_keep ?_ ?_
    | split

theorem State.settleOne_keeps (s : State) (q : Nat) (seq : Nat) : State.OptKeeps s (State.settleOne s q seq) := by
  unfold State.settleOne
  repeat' first
    | with_reducible rfl
    | with_reducible assumption
    | with_reducible refine (State.rupd_base _ _ _ _).trans ?_
    | with_reducible refine (State.boundaryOf_base _ _ _).trans ?_
    | with_reducible refine (State.schedBoundary_base _ _ _ _).trans ?_
    | with_reducible refine (State.preemptNow_base _ _ _ _).trans ?_
    | with_reducible refine (State.finishEnd_base _ _ _).trans ?_
    | with_reducible refine (State.pair_base (by assumption)).trans ?_
    | with_reducible exact State.optKeeps_none
    | with_reducible refine State.optKeeps_some ?_
    | (intro x; refine State.step_have (s := s) x ?_ (fun hx => ?_); subst x)
    | intro x
    | (lift_lets -underBinder; intro x; refine State.step_have (s := s) x ?_ (fun hx => ?_); subst x)
    | (lift_lets -underBinder; intro x)
    | with_reducible refine State.ite_keep ?_ ?_
    | split

theorem State.settleOne_base {s : State} {q : Nat} {seq : Nat} {t : State} (h : State.settleOne s q seq = some t) : t.base = s.base := State.optKeeps_base h (State.settleOne_keeps _ _ _)

@[simp] theorem State.settleN_base (s : State) (q : Nat) (seq : Nat) (x0 : Nat) : (State.settleN s q seq x0).base = s.base := by
  induction x0 generalizing s with
  | zero =>
    unfold State.settleN
    repeat' first
      | with_reducible rfl
      | with_reducible assumption
      | with_reducible refine (State.settleOne_base (by assumption)).trans ?_
      | with_reducible refine (State.pair_base (by assumption)).trans ?_
      | with_reducible refine State.ite_keep ?_ ?_
      | split
  | succ n ih =>
    unfold State.settleN
    repeat' first
      | with_reducible rfl
      | with_reducible assumption
      | with_reducible refine (ih _).trans ?_
      | with_reducible refine (State.settleOne_base (by assumption)).trans ?_
      | with_reducible refine (State.pair_base (by assumption)).trans ?_
      | with_reducible refine State.ite_keep ?_ ?_
      | split

@[simp] theorem State.settle_base (s : State) (q : Nat) (seq : Nat) : (State.settle s q seq).base = s.base := by
  unfold State.settle
  repeat' first
    | with_reducible rfl
    | with_reducible assumption
    | with_reducible refine (State.settleN_base _ _ _ _).trans ?_
    | with_reducible refine (State.pair_base (by assumption)).trans ?_
    | with_reducible refine State.ite_keep ?_ ?_
    | split

@[simp] theorem State.pivot_base (s : State) (r : Rout) : (State.pivot s r).base = s.base := by
  unfold State.pivot
  repeat' first
    | with_reducible rfl
    | with_reducible assumption
    | with_reducible refine (State.rupd_base _ _ _ _).trans ?_
    | with_reducible refine (State.endRout_base _ _ _ _ _).trans ?_
    | with_reducible refine (State.bump_base _ _ _ _ _).trans ?_
    | with_reducible refine (State.settle_base _ _ _).trans ?_
    | with_reducible refine (State.pair_base (by assumption)).trans ?_
    | (intro x; refine State.step_have (s := s) x ?_ (fun hx => ?_); subst x)
    | intro x
    | (lift_lets -underBinder; intro x; refine State.step_have (s := s) x ?_ (fun hx => ?_); subst x)
    | (lift_lets -underBinder; intro x)
    | with_reducible refine State.ite_keep ?_ ?_
    | split

@[simp] theorem State.ckptRead_base (s : State) (r : Rout) (i : Image) (e : TmEntry) : (State.ckptRead s r i e).1.base = s.base := by
  unfold State.ckptRead
  repeat' first
    | with_reducible rfl
    | with_reducible assumption
    | with_reducible refine (State.readC_base _ _ _ _ _).trans ?_
    | with_reducible refine State.foldl_keep (fun s a => ?_) ?_
    | with_reducible refine (State.pair_base (by assumption)).trans ?_
    | (intro x; refine State.step_have (s := s) x ?_ (fun hx => ?_); subst x)
    | intro x
    | (lift_lets -underBinder; intro x; refine State.step_have (s := s) x ?_ (fun hx => ?_); subst x)
    | (lift_lets -underBinder; intro x)
    | with_reducible refine State.ite_keep ?_ ?_
    | split

@[simp] theorem State.restartNow_base (s : State) (r : Rout) (i : Image) (raw : Except Nat Nat) : (State.restartNow s r i raw).base = s.base := by
  unfold State.restartNow
  repeat' first
    | with_reducible rfl
    | with_reducible assumption
    | with_reducible refine (State.faultRout_base _ _ _ _).trans ?_
    | with_reducible refine (State.rupd_base _ _ _ _).trans ?_
    | with_reducible refine (State.letGo_base _ _ _).trans ?_
    | with_reducible refine (State.domeBack_base _).trans ?_
    | with_reducible refine (State.settle_base _ _ _).trans ?_
    | with_reducible refine State.foldl_keep (fun s a => ?_) ?_
    | with_reducible refine (State.pair_base (by assumption)).trans ?_
    | (intro x; refine State.step_have (s := s) x ?_ (fun hx => ?_); subst x)
    | intro x
    | (lift_lets -underBinder; intro x; refine State.step_have (s := s) x ?_ (fun hx => ?_); subst x)
    | (lift_lets -underBinder; intro x)
    | with_reducible refine State.ite_keep ?_ ?_
    | split

@[simp] theorem State.restart_base (s : State) (q : Nat) (seq : Nat) : (State.restart s q seq).base = s.base := by
  unfold State.restart
  repeat' first
    | with_reducible rfl
    | with_reducible assumption
    | with_reducible refine (State.preemptNow_base _ _ _ _).trans ?_
    | with_reducible refine (State.faultRout_base _ _ _ _).trans ?_
    | with_reducible refine (State.ckptRead_base _ _ _ _).trans ?_
    | with_reducible refine (State.restartNow_base _ _ _ _).trans ?_
    | with_reducible refine State.reading_keep (fun s => ?_) ?_
    | with_reducible refine State.readThen_from (fun s => ?_) (fun s x h => ?_) ?_
    | with_reducible refine (State.pair_base (by assumption)).trans ?_
    | (intro x; refine State.step_have (s := s) x ?_ (fun hx => ?_); subst x)
    | intro x
    | (lift_lets -underBinder; intro x; refine State.step_have (s := s) x ?_ (fun hx => ?_); subst x)
    | (lift_lets -underBinder; intro x)
    | with_reducible refine State.ite_keep ?_ ?_
    | split

@[simp] theorem State.iterBound_base (s : State) (q : Nat) (seq : Nat) : (State.iterBound s q seq).base = s.base := by
  unfold State.iterBound
  repeat' first
    | with_reducible rfl
    | with_reducible assumption
    | with_reducible refine (State.bump_base _ _ _ _ _).trans ?_
    | with_reducible refine (State.rupd_base _ _ _ _).trans ?_
    | with_reducible refine (State.preemptNow_base _ _ _ _).trans ?_
    | with_reducible refine (State.pair_base (by assumption)).trans ?_
    | with_reducible refine State.ite_keep ?_ ?_
    | split

@[simp] theorem State.askPreempt_base (s : State) (q : Nat) (seq : Nat) (reset : Bool) : (State.askPreempt s q seq reset).base = s.base := by
  unfold State.askPreempt
  repeat' first
    | with_reducible rfl
    | with_reducible assumption
    | with_reducible refine (State.preemptNow_base _ _ _ _).trans ?_
    | with_reducible refine (State.faultRout_base _ _ _ _).trans ?_
    | with_reducible refine (State.restart_base _ _ _).trans ?_
    | with_reducible refine (State.rupd_base _ _ _ _).trans ?_
    | with_reducible refine (State.pair_base (by assumption)).trans ?_
    | (intro x; refine State.step_have (s := s) x ?_ (fun hx => ?_); subst x)
    | intro x
    | (lift_lets -underBinder; intro x; refine State.step_have (s := s) x ?_ (fun hx => ?_); subst x)
    | (lift_lets -underBinder; intro x)
    | with_reducible refine State.ite_keep ?_ ?_
    | split

end Sys2Proof.Machine
end

