-- ==== Sys2Proof/Laws/Base/LanternOps.lean ====
section
/-! SUPPORT. The operations of Machine/LanternOps.lean leave the configuration, the waiting commands and host memory as they are. -/

namespace Sys2Proof.Machine
/-- Whatever the effect of a Lantern instruction is, its state keeps what `s` holds. -/
def LEff.Keeps (s : State) : LEff → Prop
  | .wait => True
  | .exc t _ _ _ => t.base = s.base
  | .fail t _ => t.base = s.base
  | .go t => t.base = s.base

theorem LEff.keeps_wait {s : State} : LEff.wait.Keeps s := trivial
theorem LEff.keeps_go {s t : State} (h : t.base = s.base) : (LEff.go t).Keeps s := h
theorem LEff.keeps_exc {s t : State} {a b c : Nat} (h : t.base = s.base) : (LEff.exc t a b c).Keeps s := h
theorem LEff.keeps_fail {s t : State} {a : Nat} (h : t.base = s.base) : (LEff.fail t a).Keeps s := h
theorem LEff.keeps_trans {s t : State} {e : LEff} (h : e.Keeps t) (k : t.base = s.base) : e.Keeps s := by
  cases e with
  | wait => exact trivial
  | exc u a b c => exact Eq.trans h k
  | fail u a => exact Eq.trans h k
  | go u => exact Eq.trans h k

theorem State.getD_base {o : Option State} {u s : State} (h : ∀ t, o = some t → t.base = s.base) (hu : u.base = s.base) : (o.getD u).base = s.base := by
  cases o with
  | none => exact hu
  | some t => exact h t rfl

@[simp] theorem State.lanExc_base (s : State) (r : Rout) (l : Lan) (n : Nat) (u : Nat) (cls : Nat) (elem : Nat) (code : Nat) : (State.lanExc s r l n u cls elem code).base = s.base := by
  unfold State.lanExc
  repeat' first
    | with_reducible rfl
    | with_reducible assumption
    | with_reducible refine (State.bump_base _ _ _ _ _).trans ?_
    | with_reducible refine (State.faultRout_base _ _ _ _).trans ?_
    | with_reducible refine (State.dupd_base _ _ _ _).trans ?_
    | with_reducible refine (State.pair_base (by assumption)).trans ?_
    | with_reducible refine State.ite_keep ?_ ?_
    | split

theorem LEff.state_base {s : State} {e : LEff} (h : e.Keeps s) : (e.state s).base = s.base := by
  cases e with
  | wait => rfl
  | _ => exact h

theorem State.lanRun_base (r : Rout) (l : Lan) (n u : Nat) (ops : Lan → Nat) {s t : State} (h : t.base = s.base) (e : LEff) :
    (State.lanRun r l n u ops s t e).base = s.base := by
  cases e with
  | wait => rfl
  | exc _ a b c => exact (State.lanExc_base _ _ _ _ _ _ _ _).trans h
  | fail _ c => exact (State.faultRout_base _ _ _ _).trans h
  | go _ =>
    exact (State.settle_base _ _ _).trans ((State.rupd_base _ _ _ _).trans ((State.spend_base _ _).trans ((State.bump_base _ _ _ _ _).trans
      ((State.hold_base _ _ _ _ _).trans h))))

theorem State.lanDo_base (s : State) (i : LIss) (ops : Lan → Nat) {f : State → Rout → Image → LCtx → Lan → LEff} (hf : ∀ s r i c l, (f s r i c l).Keeps s) : (s.lanDo i ops f).base = s.base := by
  unfold State.lanDo
  split
  · rfl
  rename_i r _
  split
  · rename_i l img u _ _ _
    split
    · rfl
    have hrun : ∀ g : State → LEff, (∀ t, (g t).Keeps t) →
        (s.readThen (.lan i.q i.seq i.l) (fun s => ((g s).state s, g s)) (State.lanRun r l i.l u ops s)).base = s.base :=
      fun g hg => State.readThen_from (fun t => LEff.state_base (hg t)) (fun t e ht => State.lanRun_base r l i.l u ops ht e) rfl
    have hafter : ∀ p : State → State, (∀ t, (p t).base = t.base) → ∀ t,
        (match f t r img (ctxFor i r img) l with | .wait => LEff.wait | _ => f (p t) r img (ctxFor i r img) l).Keeps t := fun p hp t => by
      split
      · exact LEff.keeps_wait
      · exact LEff.keeps_trans (hf _ _ _ _ _) (hp t)
    dsimp only
    split
    · exact hrun _ (fun t => hf _ _ _ _ _)
    · exact hrun _ (hafter _ (fun t => State.twigFault_base _ _ _ _ _ _))
    · have h := fun t k u c i o x => State.transient_base t k u c i o x
      split
      · exact h _ _ _ _ _ _ _
      · exact hrun _ (hafter _ (fun t => h _ _ _ _ _ _ _))
    · exact State.fence_base _ _ _ _ _ _
  · rfl

theorem State.onLan_base {s t : State} (c : Instr) (i : LIss) (h : t.base = s.base) : (s.onLan c i t).base = s.base := State.ite_keep h rfl

theorem State.lanPure_base (s : State) (i : LIss) (ops : Lan → Nat) (g : LCtx → Lan → LRes) : (s.lanPure i ops g).base = s.base := by
  unfold State.lanPure
  refine State.lanDo_base _ _ _ (fun s r i c l => ?_)
  split
  · exact LEff.keeps_go (State.rupd_base _ _ _ _)
  · exact LEff.keeps_exc rfl

theorem State.lanV_base (s : State) (i : LIss) (f : VF) (g : LCtx → Lan → LRes) : (s.lanV i f g).base = s.base := by
  exact State.lanPure_base _ _ _ _

theorem State.lanS_base (s : State) (i : LIss) (g : LCtx → Lan → LRes) : (s.lanS i g).base = s.base := by
  exact State.lanPure_base _ _ _ _

theorem State.lanAccess_keeps (s : State) (r : Rout) (l : Lan) (c : LCtx) (f : VF) (k : State → Nat → TmEntry → List (Nat × Nat) → LEff) (nop : LEff) (hk : ∀ s n e l, (k s n e l).Keeps s) (hn : nop.Keeps s) : (s.lanAccess r l c f k nop).Keeps s := by
  unfold State.lanAccess
  repeat' first
    | with_reducible rfl
    | with_reducible assumption
    | with_reducible exact hn
    | with_reducible refine LEff.keeps_trans (hk _ _ _ _) ?_
    | with_reducible refine (State.wres_base _ _ _).trans ?_
    | with_reducible refine (State.pair_base (by assumption)).trans ?_
    | with_reducible exact LEff.keeps_wait
    | with_reducible exact AEff.keeps_wait
    | with_reducible refine LEff.keeps_go ?_
    | with_reducible refine LEff.keeps_exc ?_
    | with_reducible refine LEff.keeps_fail ?_
    | with_reducible refine AEff.keeps_go ?_
    | with_reducible refine AEff.keeps_fail ?_
    | (intro x; refine State.step_have (s := s) x ?_ (fun hx => ?_); subst x)
    | intro x
    | (lift_lets -underBinder; intro x; refine State.step_have (s := s) x ?_ (fun hx => ?_); subst x)
    | (lift_lets -underBinder; intro x)
    | with_reducible refine State.ite_keep ?_ ?_
    | split

theorem State.vldOp_keeps (f : VF) (n : Nat) (s : State) (r : Rout) (u4 : Image) (c : LCtx) (l : Lan) : (State.vldOp f n s r u4 c l).Keeps s := by
  unfold State.vldOp
  repeat' first
    | with_reducible rfl
    | with_reducible assumption
    | with_reducible refine (State.readAll_base _ _ _ _).trans ?_
    | with_reducible refine (State.rupd_base _ _ _ _).trans ?_
    | with_reducible refine State.lanAccess_keeps _ _ _ _ _ _ _ (fun s n e l => ?_) ?_
    | with_reducible refine State.foldl_keep (fun s a => ?_) ?_
    | with_reducible refine (State.pair_base (by assumption)).trans ?_
    | with_reducible exact LEff.keeps_wait
    | with_reducible exact AEff.keeps_wait
    | with_reducible refine LEff.keeps_go ?_
    | with_reducible refine LEff.keeps_exc ?_
    | with_reducible refine LEff.keeps_fail ?_
    | with_reducible refine AEff.keeps_go ?_
    | with_reducible refine AEff.keeps_fail ?_
    | (intro x; refine State.step_have (s := s) x ?_ (fun hx => ?_); subst x)
    | intro x
    | (lift_lets -underBinder; intro x; refine State.step_have (s := s) x ?_ (fun hx => ?_); subst x)
    | (lift_lets -underBinder; intro x)
    | with_reducible refine State.ite_keep ?_ ?_
    | split

theorem State.vstOp_keeps (f : VF) (n : Nat) (s : State) (r : Rout) (u4 : Image) (c : LCtx) (l : Lan) : (State.vstOp f n s r u4 c l).Keeps s := by
  unfold State.vstOp
  repeat' first
    | with_reducible rfl
    | with_reducible assumption
    | with_reducible refine State.lanAccess_keeps _ _ _ _ _ _ _ (fun s n e l => ?_) ?_
    | with_reducible refine (State.writeSet_base _ _ _ _ _ _).trans ?_
    | with_reducible refine (State.rupd_base _ _ _ _).trans ?_
    | with_reducible refine (State.pair_base (by assumption)).trans ?_
    | with_reducible exact LEff.keeps_wait
    | with_reducible exact AEff.keeps_wait
    | with_reducible refine LEff.keeps_go ?_
    | with_reducible refine LEff.keeps_exc ?_
    | with_reducible refine LEff.keeps_fail ?_
    | with_reducible refine AEff.keeps_go ?_
    | with_reducible refine AEff.keeps_fail ?_
    | (intro x; refine State.step_have (s := s) x ?_ (fun hx => ?_); subst x)
    | intro x
    | (lift_lets -underBinder; intro x; refine State.step_have (s := s) x ?_ (fun hx => ?_); subst x)
    | (lift_lets -underBinder; intro x)
    | with_reducible refine State.ite_keep ?_ ?_
    | split

@[simp] theorem State.putLan_base (s : State) (r : Rout) (n : Nat) (l : Lan) : (State.putLan s r n l).base = s.base := by
  unfold State.putLan
  repeat' first
    | with_reducible rfl
    | with_reducible assumption
    | with_reducible refine (State.rupd_base _ _ _ _).trans ?_
    | with_reducible refine (State.pair_base (by assumption)).trans ?_
    | with_reducible refine State.ite_keep ?_ ?_
    | split

theorem illegal_keeps (s : State) : (illegal s).Keeps s := by
  unfold illegal
  repeat' first
    | with_reducible rfl
    | with_reducible assumption
    | with_reducible refine (State.pair_base (by assumption)).trans ?_
    | with_reducible exact LEff.keeps_wait
    | with_reducible exact AEff.keeps_wait
    | with_reducible refine LEff.keeps_go ?_
    | with_reducible refine LEff.keeps_exc ?_
    | with_reducible refine LEff.keeps_fail ?_
    | with_reducible refine AEff.keeps_go ?_
    | with_reducible refine AEff.keeps_fail ?_
    | with_reducible refine State.ite_keep ?_ ?_
    | split

theorem State.rdpOp_keeps (f : SF) (n : Nat) (s : State) (r : Rout) (i : Image) (c : LCtx) (l : Lan) : (State.rdpOp f n s r i c l).Keeps s := by
  unfold State.rdpOp
  repeat' first
    | with_reducible rfl
    | with_reducible assumption
    | with_reducible refine (State.putLan_base _ _ _ _).trans ?_
    | with_reducible refine LEff.keeps_trans (illegal_keeps _) ?_
    | with_reducible refine (State.pair_base (by assumption)).trans ?_
    | with_reducible exact LEff.keeps_wait
    | with_reducible exact AEff.keeps_wait
    | with_reducible refine LEff.keeps_go ?_
    | with_reducible refine LEff.keeps_exc ?_
    | with_reducible refine LEff.keeps_fail ?_
    | with_reducible refine AEff.keeps_go ?_
    | with_reducible refine AEff.keeps_fail ?_
    | (intro x; refine State.step_have (s := s) x ?_ (fun hx => ?_); subst x)
    | intro x
    | (lift_lets -underBinder; intro x; refine State.step_have (s := s) x ?_ (fun hx => ?_); subst x)
    | (lift_lets -underBinder; intro x)
    | with_reducible refine State.ite_keep ?_ ?_
    | split

theorem State.waitOp_keeps (ok : Bool) (n : Nat) (w : LWait) (s : State) (r : Rout) (c : LCtx) (l : Lan) : (State.waitOp ok n w s r c l).Keeps s := by
  unfold State.waitOp
  repeat' first
    | with_reducible rfl
    | with_reducible assumption
    | with_reducible refine (State.putLan_base _ _ _ _).trans ?_
    | with_reducible refine LEff.keeps_trans (illegal_keeps _) ?_
    | with_reducible refine (State.pair_base (by assumption)).trans ?_
    | with_reducible exact LEff.keeps_wait
    | with_reducible exact AEff.keeps_wait
    | with_reducible refine LEff.keeps_go ?_
    | with_reducible refine LEff.keeps_exc ?_
    | with_reducible refine LEff.keeps_fail ?_
    | with_reducible refine AEff.keeps_go ?_
    | with_reducible refine AEff.keeps_fail ?_
    | with_reducible refine State.ite_keep ?_ ?_
    | split

theorem State.boundaryOp_keeps (f : SF) (n : Nat) (s : State) (r : Rout) (u4 : Image) (c : LCtx) (l : Lan) : (State.boundaryOp f n s r u4 c l).Keeps s := by
  unfold State.boundaryOp
  repeat' first
    | with_reducible rfl
    | with_reducible assumption
    | with_reducible refine LEff.keeps_trans (State.waitOp_keeps _ _ _ _ _ _ _) ?_
    | with_reducible refine (State.pair_base (by assumption)).trans ?_
    | with_reducible exact LEff.keeps_wait
    | with_reducible exact AEff.keeps_wait
    | with_reducible refine LEff.keeps_go ?_
    | with_reducible refine LEff.keeps_exc ?_
    | with_reducible refine LEff.keeps_fail ?_
    | with_reducible refine AEff.keeps_go ?_
    | with_reducible refine AEff.keeps_fail ?_
    | with_reducible refine State.ite_keep ?_ ?_
    | split

theorem State.barOp_keeps (f : SF) (n : Nat) (s : State) (r : Rout) (u4 : Image) (c : LCtx) (l : Lan) : (State.barOp f n s r u4 c l).Keeps s := by
  unfold State.barOp
  repeat' first
    | with_reducible rfl
    | with_reducible assumption
    | with_reducible refine LEff.keeps_trans (State.waitOp_keeps _ _ _ _ _ _ _) ?_
    | with_reducible refine (State.pair_base (by assumption)).trans ?_
    | with_reducible exact LEff.keeps_wait
    | with_reducible exact AEff.keeps_wait
    | with_reducible refine LEff.keeps_go ?_
    | with_reducible refine LEff.keeps_exc ?_
    | with_reducible refine LEff.keeps_fail ?_
    | with_reducible refine AEff.keeps_go ?_
    | with_reducible refine AEff.keeps_fail ?_
    | with_reducible refine State.ite_keep ?_ ?_
    | split

theorem State.stopOp_keeps (f : SF) (n : Nat) (s : State) (r : Rout) (u4 : Image) (c : LCtx) (l : Lan) : (State.stopOp f n s r u4 c l).Keeps s := by
  unfold State.stopOp
  repeat' first
    | with_reducible rfl
    | with_reducible assumption
    | with_reducible refine LEff.keeps_trans (State.waitOp_keeps _ _ _ _ _ _ _) ?_
    | with_reducible refine (State.pair_base (by assumption)).trans ?_
    | with_reducible exact LEff.keeps_wait
    | with_reducible exact AEff.keeps_wait
    | with_reducible refine LEff.keeps_go ?_
    | with_reducible refine LEff.keeps_exc ?_
    | with_reducible refine LEff.keeps_fail ?_
    | with_reducible refine AEff.keeps_go ?_
    | with_reducible refine AEff.keeps_fail ?_
    | with_reducible refine State.ite_keep ?_ ?_
    | split

theorem State.endOp_keeps (f : SF) (n : Nat) (s : State) (r : Rout) (u4 : Image) (c : LCtx) (l : Lan) : (State.endOp f n s r u4 c l).Keeps s := by
  unfold State.endOp
  repeat' first
    | with_reducible rfl
    | with_reducible assumption
    | with_reducible refine LEff.keeps_trans (State.waitOp_keeps _ _ _ _ _ _ _) ?_
    | with_reducible refine (State.pair_base (by assumption)).trans ?_
    | with_reducible exact LEff.keeps_wait
    | with_reducible exact AEff.keeps_wait
    | with_reducible refine LEff.keeps_go ?_
    | with_reducible refine LEff.keeps_exc ?_
    | with_reducible refine LEff.keeps_fail ?_
    | with_reducible refine AEff.keeps_go ?_
    | with_reducible refine AEff.keeps_fail ?_
    | (intro x; refine State.step_have (s := s) x ?_ (fun hx => ?_); subst x)
    | intro x
    | (lift_lets -underBinder; intro x; refine State.step_have (s := s) x ?_ (fun hx => ?_); subst x)
    | (lift_lets -underBinder; intro x)
    | with_reducible refine State.ite_keep ?_ ?_
    | split

theorem State.awaitOp_keeps (f : SF) (n : Nat) (s : State) (r : Rout) (i : Image) (c : LCtx) (l : Lan) : (State.awaitOp f n s r i c l).Keeps s := by
  unfold State.awaitOp
  repeat' first
    | with_reducible rfl
    | with_reducible assumption
    | with_reducible refine LEff.keeps_trans (State.waitOp_keeps _ _ _ _ _ _ _) ?_
    | with_reducible refine (State.pair_base (by assumption)).trans ?_
    | with_reducible exact LEff.keeps_wait
    | with_reducible exact AEff.keeps_wait
    | with_reducible refine LEff.keeps_go ?_
    | with_reducible refine LEff.keeps_exc ?_
    | with_reducible refine LEff.keeps_fail ?_
    | with_reducible refine AEff.keeps_go ?_
    | with_reducible refine AEff.keeps_fail ?_
    | (intro x; refine State.step_have (s := s) x ?_ (fun hx => ?_); subst x)
    | intro x
    | (lift_lets -underBinder; intro x; refine State.step_have (s := s) x ?_ (fun hx => ?_); subst x)
    | (lift_lets -underBinder; intro x)
    | with_reducible refine State.ite_keep ?_ ?_
    | split

theorem State.schedOp_keeps (f : SF) (n : Nat) (s : State) (r : Rout) (u4 : Image) (u5 : LCtx) (l : Lan) : (State.schedOp f n s r u4 u5 l).Keeps s := by
  unfold State.schedOp
  repeat' first
    | with_reducible rfl
    | with_reducible assumption
    | with_reducible refine (State.putLan_base _ _ _ _).trans ?_
    | with_reducible refine LEff.keeps_trans (illegal_keeps _) ?_
    | with_reducible refine (State.pair_base (by assumption)).trans ?_
    | with_reducible exact LEff.keeps_wait
    | with_reducible exact AEff.keeps_wait
    | with_reducible refine LEff.keeps_go ?_
    | with_reducible refine LEff.keeps_exc ?_
    | with_reducible refine LEff.keeps_fail ?_
    | with_reducible refine AEff.keeps_go ?_
    | with_reducible refine AEff.keeps_fail ?_
    | with_reducible refine State.ite_keep ?_ ?_
    | split

theorem State.retOp_keeps (f : SF) (n : Nat) (s : State) (r : Rout) (u4 : Image) (c : LCtx) (l : Lan) : (State.retOp f n s r u4 c l).Keeps s := by
  unfold State.retOp
  repeat' first
    | with_reducible rfl
    | with_reducible assumption
    | with_reducible refine (State.putLan_base _ _ _ _).trans ?_
    | with_reducible refine LEff.keeps_trans (illegal_keeps _) ?_
    | with_reducible refine (State.pair_base (by assumption)).trans ?_
    | with_reducible exact LEff.keeps_wait
    | with_reducible exact AEff.keeps_wait
    | with_reducible refine LEff.keeps_go ?_
    | with_reducible refine LEff.keeps_exc ?_
    | with_reducible refine LEff.keeps_fail ?_
    | with_reducible refine AEff.keeps_go ?_
    | with_reducible refine AEff.keeps_fail ?_
    | with_reducible refine State.ite_keep ?_ ?_
    | split

theorem State.pivfOp_keeps (f : SF) (n : Nat) (s : State) (r : Rout) (u4 : Image) (c : LCtx) (l : Lan) : (State.pivfOp f n s r u4 c l).Keeps s := by
  unfold State.pivfOp
  repeat' first
    | with_reducible rfl
    | with_reducible assumption
    | with_reducible refine (State.pivot_base _ _).trans ?_
    | with_reducible refine (State.putLan_base _ _ _ _).trans ?_
    | with_reducible refine LEff.keeps_trans (illegal_keeps _) ?_
    | with_reducible refine (State.pair_base (by assumption)).trans ?_
    | with_reducible exact LEff.keeps_wait
    | with_reducible exact AEff.keeps_wait
    | with_reducible refine LEff.keeps_go ?_
    | with_reducible refine LEff.keeps_exc ?_
    | with_reducible refine LEff.keeps_fail ?_
    | with_reducible refine AEff.keeps_go ?_
    | with_reducible refine AEff.keeps_fail ?_
    | with_reducible refine State.ite_keep ?_ ?_
    | split

theorem State.astrOp_keeps (f : SF) (n : Nat) (s : State) (r : Rout) (i : Image) (c : LCtx) (l : Lan) : (State.astrOp f n s r i c l).Keeps s := by
  unfold State.astrOp
  repeat' first
    | with_reducible rfl
    | with_reducible assumption
    | with_reducible refine (State.putLan_base _ _ _ _).trans ?_
    | with_reducible refine (State.resolve_base _ _ _ _ _).trans ?_
    | with_reducible refine LEff.keeps_trans (illegal_keeps _) ?_
    | with_reducible refine (State.pair_base (by assumption)).trans ?_
    | with_reducible exact LEff.keeps_wait
    | with_reducible exact AEff.keeps_wait
    | with_reducible refine LEff.keeps_go ?_
    | with_reducible refine LEff.keeps_exc ?_
    | with_reducible refine LEff.keeps_fail ?_
    | with_reducible refine AEff.keeps_go ?_
    | with_reducible refine AEff.keeps_fail ?_
    | (intro x; refine State.step_have (s := s) x ?_ (fun hx => ?_); subst x)
    | intro x
    | (lift_lets -underBinder; intro x; refine State.step_have (s := s) x ?_ (fun hx => ?_); subst x)
    | (lift_lets -underBinder; intro x)
    | with_reducible refine State.ite_keep ?_ ?_
    | split

theorem State.aissOp_keeps (f : SF) (n : Nat) (s : State) (r : Rout) (i : Image) (c : LCtx) (l : Lan) : (State.aissOp f n s r i c l).Keeps s := by
  unfold State.aissOp
  repeat' first
    | with_reducible rfl
    | with_reducible assumption
    | with_reducible refine (State.putLan_base _ _ _ _).trans ?_
    | with_reducible refine LEff.keeps_trans (illegal_keeps _) ?_
    | with_reducible refine (State.pair_base (by assumption)).trans ?_
    | with_reducible exact LEff.keeps_wait
    | with_reducible exact AEff.keeps_wait
    | with_reducible refine LEff.keeps_go ?_
    | with_reducible refine LEff.keeps_exc ?_
    | with_reducible refine LEff.keeps_fail ?_
    | with_reducible refine AEff.keeps_go ?_
    | with_reducible refine AEff.keeps_fail ?_
    | (intro x; refine State.step_have (s := s) x ?_ (fun hx => ?_); subst x)
    | intro x
    | (lift_lets -underBinder; intro x; refine State.step_have (s := s) x ?_ (fun hx => ?_); subst x)
    | (lift_lets -underBinder; intro x)
    | with_reducible refine State.ite_keep ?_ ?_
    | split

theorem State.aflgOp_keeps (f : SF) (n : Nat) (s : State) (r : Rout) (i : Image) (c : LCtx) (l : Lan) : (State.aflgOp f n s r i c l).Keeps s := by
  unfold State.aflgOp
  repeat' first
    | with_reducible rfl
    | with_reducible assumption
    | with_reducible refine (State.rupd_base _ _ _ _).trans ?_
    | with_reducible refine LEff.keeps_trans (illegal_keeps _) ?_
    | with_reducible refine (State.pair_base (by assumption)).trans ?_
    | with_reducible exact LEff.keeps_wait
    | with_reducible exact AEff.keeps_wait
    | with_reducible refine LEff.keeps_go ?_
    | with_reducible refine LEff.keeps_exc ?_
    | with_reducible refine LEff.keeps_fail ?_
    | with_reducible refine AEff.keeps_go ?_
    | with_reducible refine AEff.keeps_fail ?_
    | (intro x; refine State.step_have (s := s) x ?_ (fun hx => ?_); subst x)
    | intro x
    | (lift_lets -underBinder; intro x; refine State.step_have (s := s) x ?_ (fun hx => ?_); subst x)
    | (lift_lets -underBinder; intro x)
    | with_reducible refine State.ite_keep ?_ ?_
    | split

end Sys2Proof.Machine
end

