-- ==== Sys2Proof/Laws/Base/ArrayOps.lean ====
section
/-! SUPPORT. The operations of Machine/ArrayOps.lean leave the configuration, the waiting commands and host memory as they are. -/

namespace Sys2Proof.Machine
/-- Whatever the effect of an array instruction is, its state keeps what `s` holds. -/
def AEff.Keeps (s : State) : AEff → Prop
  | .wait => True
  | .fail t _ => t.base = s.base
  | .go t _ => t.base = s.base

theorem AEff.keeps_wait {s : State} : AEff.wait.Keeps s := trivial
theorem AEff.keeps_go {s t : State} {a : LArr} (h : t.base = s.base) : (AEff.go t a).Keeps s := h
theorem AEff.keeps_fail {s t : State} {a : Nat} (h : t.base = s.base) : (AEff.fail t a).Keeps s := h

@[simp] theorem State.domeEcc_base (s : State) (r : Rout) (u : Nat) : (State.domeEcc s r u).base = s.base := by
  unfold State.domeEcc
  repeat' first
    | with_reducible rfl
    | with_reducible assumption
    | with_reducible refine (State.report_base _ _).trans ?_
    | with_reducible refine (State.fence_base _ _ _ _ _ _).trans ?_
    | with_reducible refine (State.rupd_base _ _ _ _).trans ?_
    | with_reducible refine (State.restart_base _ _ _).trans ?_
    | with_reducible refine (State.pair_base (by assumption)).trans ?_
    | (intro x; refine State.step_have (s := s) x ?_ (fun hx => ?_); subst x)
    | intro x
    | (lift_lets -underBinder; intro x; refine State.step_have (s := s) x ?_ (fun hx => ?_); subst x)
    | (lift_lets -underBinder; intro x)
    | with_reducible refine State.ite_keep ?_ ?_
    | split

theorem AEff.state_base {s : State} {e : AEff} (h : e.Keeps s) : (e.state s).base = s.base := by
  cases e with
  | wait => rfl
  | _ => exact h

theorem AEff.keeps_trans {s t : State} {e : AEff} (h : e.Keeps t) (k : t.base = s.base) : e.Keeps s := by
  cases e with
  | wait => exact trivial
  | fail u a => exact Eq.trans h k
  | go u a => exact Eq.trans h k

theorem State.arrRun_base (r : Rout) (la u : Nat) {s t : State} (h : t.base = s.base) (e : AEff) : (State.arrRun r la u s t e).base = s.base := by
  cases e with
  | wait => rfl
  | fail _ c => exact (State.faultRout_base _ _ _ _).trans h
  | go _ a => exact (State.settle_base _ _ _).trans ((State.rupd_base _ _ _ _).trans ((State.hold_base _ _ _ _ _).trans h))

theorem State.arrDo_base (s : State) (x : AIss) {f : State → Rout → Image → LArr → Nat → AEff} (hf : ∀ s r i a u, (f s r i a u).Keeps s) : (s.arrDo x f).base = s.base := by
  unfold State.arrDo
  split
  · rfl
  rename_i r _
  split
  · rename_i a img u _ _ _
    split
    · rfl
    have hrun : ∀ g : State → AEff, (∀ t, (g t).Keeps t) →
        (s.readThen (.arr x.q x.seq x.la) (fun s => ((g s).state s, g s)) (State.arrRun r x.la u s)).base = s.base :=
      fun g hg => State.readThen_from (fun t => AEff.state_base (hg t)) (fun t e ht => State.arrRun_base r x.la u ht e) rfl
    have hafter : ∀ (p : State → State) (b : LArr), (∀ t, (p t).base = t.base) → ∀ t,
        (match f t r img a u with | .wait => AEff.wait | _ => f (p t) r img b u).Keeps t := fun p b hp t => by
      split
      · exact AEff.keeps_wait
      · exact AEff.keeps_trans (hf _ _ _ _ _) (hp t)
    dsimp only
    have h := fun t k u c i o x => State.transient_base t k u c i o x
    split
    · exact hrun _ (fun t => hf _ _ _ _ _)
    · exact hrun _ (hafter _ _ (fun t => State.twigFault_base _ _ _ _ _ _))
    · split
      · exact hrun _ (hafter _ _ (fun t => State.bump_base _ _ _ _ _))
      · split
        · exact h _ _ _ _ _ _ _
        · exact hrun _ (hafter _ _ (fun t => h _ _ _ _ _ _ _))
    · split
      · exact State.domeEcc_base _ _ _
      · exact State.fenceColumn_base _ _ _ _ _ _
  · rfl

theorem State.onArr_base {s t : State} (c : Instr) (x : AIss) (h : t.base = s.base) : (s.onArr c x t).base = s.base := State.ite_keep h rfl

theorem State.arrNopOp_keeps (rsv : Nat) (s : State) (u2 : Rout) (u3 : Image) (a : LArr) (u5 : Nat) : (State.arrNopOp rsv s u2 u3 a u5).Keeps s := by
  unfold State.arrNopOp
  repeat' first
    | with_reducible rfl
    | with_reducible assumption
    | with_reducible refine (State.pair_base (by assumption)).trans ?_
    | with_reducible exact LEff.keeps_wait
    | with_reducible exact AEff.keeps_wait
    | with_reducible refine LEff.keeps_go ?_
    | with_reducible refine LEff.keeps_exc ?_
    | with_reducible refine LEff.keeps_fail ?_
    | with_reducible refine AEff.keeps_go ?_
    | with_reducible refine AEff.keeps_fail ?_
    | with_reducible refine State.ite_keep ?_ ?_
    | split

theorem State.fsetOp_keeps (f : FsetF) (s : State) (u2 : Rout) (u3 : Image) (a : LArr) (u5 : Nat) : (State.fsetOp f s u2 u3 a u5).Keeps s := by
  unfold State.fsetOp
  repeat' first
    | with_reducible rfl
    | with_reducible assumption
    | with_reducible refine (State.side_base _ _ _ _ _ _).trans ?_
    | with_reducible refine (State.pair_base (by assumption)).trans ?_
    | with_reducible exact LEff.keeps_wait
    | with_reducible exact AEff.keeps_wait
    | with_reducible refine LEff.keeps_go ?_
    | with_reducible refine LEff.keeps_exc ?_
    | with_reducible refine LEff.keeps_fail ?_
    | with_reducible refine AEff.keeps_go ?_
    | with_reducible refine AEff.keeps_fail ?_
    | (intro x; refine State.step_have (s := s) x ?_ (fun hx => ?_); subst x)
    | intro x
    | (lift_lets -underBinder; intro x; refine State.step_have (s := s) x ?_ (fun hx => ?_); subst x)
    | (lift_lets -underBinder; intro x)
    | with_reducible refine State.ite_keep ?_ ?_
    | split

@[simp] theorem State.domeWrite_base (s : State) (r : Rout) (img : Image) (a : LArr) (la : Nat) (d : Nat) (n : Nat) : (State.domeWrite s r img a la d n).base = s.base := by
  unfold State.domeWrite
  repeat' first
    | with_reducible rfl
    | with_reducible assumption
    | with_reducible refine (State.access_base _ _ _ _ _ _ _ _).trans ?_
    | with_reducible refine State.foldl_keep (fun s a => ?_) ?_
    | with_reducible refine (State.pair_base (by assumption)).trans ?_
    | (intro x; refine State.step_have (s := s) x ?_ (fun hx => ?_); subst x)
    | intro x
    | (lift_lets -underBinder; intro x; refine State.step_have (s := s) x ?_ (fun hx => ?_); subst x)
    | (lift_lets -underBinder; intro x)
    | with_reducible refine State.ite_keep ?_ ?_
    | split

@[simp] theorem State.domeRead_base (s : State) (r : Rout) (img : Image) (la : Nat) (d : Nat) (n : Nat) : (State.domeRead s r img la d n).1.base = s.base := by
  unfold State.domeRead
  repeat' first
    | with_reducible rfl
    | with_reducible assumption
    | with_reducible refine (State.readC_base _ _ _ _ _).trans ?_
    | with_reducible refine State.foldl_keep (fun s a => ?_) ?_
    | with_reducible refine andThen_base ?_ (fun s a => ?_)
    | with_reducible refine (State.pair_base (by assumption)).trans ?_
    | (intro x; refine State.step_have (s := s) x ?_ (fun hx => ?_); subst x)
    | intro x
    | (lift_lets -underBinder; intro x; refine State.step_have (s := s) x ?_ (fun hx => ?_); subst x)
    | (lift_lets -underBinder; intro x)
    | with_reducible refine State.ite_keep ?_ ?_
    | split

theorem State.gopenOp_keeps (la : Nat) (g : GopenF) (s : State) (r : Rout) (img : Image) (a : LArr) (u5 : Nat) : (State.gopenOp la g s r img a u5).Keeps s := by
  unfold State.gopenOp
  repeat' first
    | with_reducible rfl
    | with_reducible assumption
    | with_reducible refine (State.domeWrite_base _ _ _ _ _ _ _).trans ?_
    | with_reducible refine (State.pair_base (by assumption)).trans ?_
    | with_reducible exact LEff.keeps_wait
    | with_reducible exact AEff.keeps_wait
    | with_reducible refine LEff.keeps_go ?_
    | with_reducible refine LEff.keeps_exc ?_
    | with_reducible refine LEff.keeps_fail ?_
    | with_reducible refine AEff.keeps_go ?_
    | with_reducible refine AEff.keeps_fail ?_
    | (intro x; refine State.step_have (s := s) x ?_ (fun hx => ?_); subst x)
    | intro x
    | (lift_lets -underBinder; intro x; refine State.step_have (s := s) x ?_ (fun hx => ?_); subst x)
    | (lift_lets -underBinder; intro x)
    | with_reducible refine State.ite_keep ?_ ?_
    | split

@[simp] theorem State.side_base (s : State) (r : Rout) (u : Nat) (f : FsetF) (b : StreamBind) (n : Nat) : (State.side s r u f b n).1.base = s.base := by
  unfold State.side
  repeat' first
    | with_reducible rfl
    | with_reducible assumption
    | with_reducible refine (State.resolve_base _ _ _ _ _).trans ?_
    | with_reducible refine andThen_base ?_ (fun s a => ?_)
    | with_reducible refine blaming_base ?_
    | with_reducible refine (State.pair_base (by assumption)).trans ?_
    | with_reducible refine State.ite_keep ?_ ?_
    | split

@[simp] theorem State.readList_base (s : State) (tenant : Nat) (x0 : List (Nat × Nat × Nat)) : (State.readList s tenant x0).1.base = s.base := by
  induction x0 generalizing s with
  | nil =>
    unfold State.readList
    repeat' first
      | with_reducible rfl
      | with_reducible assumption
      | with_reducible refine (State.readC_base _ _ _ _ _).trans ?_
      | with_reducible refine State.foldl_keep (fun s a => ?_) ?_
      | with_reducible refine andThen_base ?_ (fun s a => ?_)
      | with_reducible refine (State.pair_base (by assumption)).trans ?_
      | (intro x; refine State.step_have (s := s) x ?_ (fun hx => ?_); subst x)
      | intro x
      | (lift_lets -underBinder; intro x; refine State.step_have (s := s) x ?_ (fun hx => ?_); subst x)
      | (lift_lets -underBinder; intro x)
      | with_reducible refine State.ite_keep ?_ ?_
      | split
  | cons a l ih =>
    unfold State.readList
    repeat' first
      | with_reducible rfl
      | with_reducible assumption
      | with_reducible refine (State.readC_base _ _ _ _ _).trans ?_
      | with_reducible refine (ih _).trans ?_
      | with_reducible refine State.foldl_keep (fun s a => ?_) ?_
      | with_reducible refine andThen_base ?_ (fun s a => ?_)
      | with_reducible refine (State.pair_base (by assumption)).trans ?_
      | (intro x; refine State.step_have (s := s) x ?_ (fun hx => ?_); subst x)
      | intro x
      | (lift_lets -underBinder; intro x; refine State.step_have (s := s) x ?_ (fun hx => ?_); subst x)
      | (lift_lets -underBinder; intro x)
      | with_reducible refine State.ite_keep ?_ ?_
      | split

@[simp] theorem State.fillTensor_base (s : State) (r : Rout) (d : Side) (e : TmEntry) (l : List (Nat × Nat × Nat)) : (State.fillTensor s r d e l).1.base = s.base := by
  unfold State.fillTensor
  repeat' first
    | with_reducible rfl
    | with_reducible assumption
    | with_reducible refine (State.blame_base _ _ _).trans ?_
    | with_reducible refine (State.readList_base _ _ _).trans ?_
    | with_reducible refine andThen_base ?_ (fun s a => ?_)
    | with_reducible refine State.foldl_keep (fun s a => ?_) ?_
    | with_reducible refine (State.pair_base (by assumption)).trans ?_
    | (intro x; refine State.step_have (s := s) x ?_ (fun hx => ?_); subst x)
    | intro x
    | (lift_lets -underBinder; intro x; refine State.step_have (s := s) x ?_ (fun hx => ?_); subst x)
    | (lift_lets -underBinder; intro x)
    | with_reducible refine State.ite_keep ?_ ?_
    | split

@[simp] theorem State.fillFront_base (s : State) (r : Rout) (seen : Nat) (d : Side) (l : List (Nat × Nat × Nat)) : (State.fillFront s r seen d l).1.base = s.base := by
  unfold State.fillFront
  repeat' first
    | with_reducible rfl
    | with_reducible assumption
    | with_reducible refine (State.readList_base _ _ _).trans ?_
    | with_reducible refine andThen_base ?_ (fun s a => ?_)
    | with_reducible refine State.foldl_keep (fun s a => ?_) ?_
    | with_reducible refine (State.pair_base (by assumption)).trans ?_
    | (intro x; refine State.step_have (s := s) x ?_ (fun hx => ?_); subst x)
    | intro x
    | (lift_lets -underBinder; intro x; refine State.step_have (s := s) x ?_ (fun hx => ?_); subst x)
    | (lift_lets -underBinder; intro x)
    | with_reducible refine State.ite_keep ?_ ?_
    | split

@[simp] theorem State.fillSide_base (s : State) (r : Rout) (seen : Nat) (d : Side) (l : List (Nat × Nat × Nat)) : (State.fillSide s r seen d l).1.base = s.base := by
  unfold State.fillSide
  repeat' first
    | with_reducible rfl
    | with_reducible assumption
    | with_reducible refine (State.fillTensor_base _ _ _ _ _).trans ?_
    | with_reducible refine (State.fillFront_base _ _ _ _ _).trans ?_
    | with_reducible refine State.foldl_keep (fun s a => ?_) ?_
    | with_reducible refine (State.pair_base (by assumption)).trans ?_
    | (intro x; refine State.step_have (s := s) x ?_ (fun hx => ?_); subst x)
    | intro x
    | (lift_lets -underBinder; intro x; refine State.step_have (s := s) x ?_ (fun hx => ?_); subst x)
    | (lift_lets -underBinder; intro x)
    | with_reducible refine State.ite_keep ?_ ?_
    | split

theorem filled_base {p : Filled} {k : State → List Val → State × Except Nat (Option LArr)} {s : State} (hp : p.1.base = s.base)
    (hk : ∀ t v, (k t v).1.base = t.base) : (filled p k).1.base = s.base := by
  unfold filled
  split
  · exact hp
  · exact hp
  · exact (hk _ _).trans hp

@[simp] theorem State.fillA_base (s : State) (r : Rout) (a : LArr) (u : Nat) (p : PassF) : (State.fillA s r a u p).1.base = s.base := by
  unfold State.fillA
  repeat' first
    | with_reducible rfl
    | with_reducible assumption
    | with_reducible refine (State.hold_base _ _ _ _ _).trans ?_
    | with_reducible refine (State.side_base _ _ _ _ _ _).trans ?_
    | with_reducible refine (State.fillSide_base _ _ _ _ _).trans ?_
    | with_reducible refine State.foldl_keep (fun s a => ?_) ?_
    | with_reducible refine andThen_base ?_ (fun s a => ?_)
    | with_reducible refine filled_base ?_ (fun s v => ?_)
    | with_reducible refine (State.pair_base (by assumption)).trans ?_
    | (intro x; refine State.step_have (s := s) x ?_ (fun hx => ?_); subst x)
    | intro x
    | (lift_lets -underBinder; intro x; refine State.step_have (s := s) x ?_ (fun hx => ?_); subst x)
    | (lift_lets -underBinder; intro x)
    | with_reducible refine State.ite_keep ?_ ?_
    | split

@[simp] theorem State.fillB_base (s : State) (r : Rout) (a : LArr) (u : Nat) (p : PassF) : (State.fillB s r a u p).1.base = s.base := by
  unfold State.fillB
  repeat' first
    | with_reducible rfl
    | with_reducible assumption
    | with_reducible refine (State.side_base _ _ _ _ _ _).trans ?_
    | with_reducible refine (State.fillSide_base _ _ _ _ _).trans ?_
    | with_reducible refine State.foldl_keep (fun s a => ?_) ?_
    | with_reducible refine andThen_base ?_ (fun s a => ?_)
    | with_reducible refine filled_base ?_ (fun s v => ?_)
    | with_reducible refine (State.pair_base (by assumption)).trans ?_
    | (intro x; refine State.step_have (s := s) x ?_ (fun hx => ?_); subst x)
    | intro x
    | (lift_lets -underBinder; intro x; refine State.step_have (s := s) x ?_ (fun hx => ?_); subst x)
    | (lift_lets -underBinder; intro x)
    | with_reducible refine State.ite_keep ?_ ?_
    | split

@[simp] theorem State.fill_base (s : State) (r : Rout) (a : LArr) (u : Nat) (p : PassF) : (State.fill s r a u p).1.base = s.base := by
  unfold State.fill
  repeat' first
    | with_reducible rfl
    | with_reducible assumption
    | with_reducible refine (State.fillA_base _ _ _ _ _).trans ?_
    | with_reducible refine (State.fillB_base _ _ _ _ _).trans ?_
    | with_reducible refine State.foldl_keep (fun s a => ?_) ?_
    | with_reducible refine (State.pair_base (by assumption)).trans ?_
    | (intro x; refine State.step_have (s := s) x ?_ (fun hx => ?_); subst x)
    | intro x
    | (lift_lets -underBinder; intro x; refine State.step_have (s := s) x ?_ (fun hx => ?_); subst x)
    | (lift_lets -underBinder; intro x)
    | with_reducible refine State.ite_keep ?_ ?_
    | split

@[simp] theorem State.passTiming_base (s : State) (u : Nat) : (State.passTiming s u).base = s.base := by
  unfold State.passTiming
  repeat' first
    | with_reducible rfl
    | with_reducible assumption
    | with_reducible refine (State.bump_base _ _ _ _ _).trans ?_
    | with_reducible refine (State.tickFree_base _).trans ?_
    | with_reducible refine State.foldl_keep (fun s a => ?_) ?_
    | (intro x; refine State.step_have (s := s) x ?_ (fun hx => ?_); subst x)
    | intro x
    | with_reducible refine State.ite_keep ?_ ?_
    | split

@[simp] theorem State.countSat_base (s : State) (u : Nat) (a : LArr) (b : LArr) : (State.countSat s u a b).base = s.base := by
  unfold State.countSat
  repeat' first
    | with_reducible rfl
    | with_reducible assumption
    | with_reducible refine (State.bump_base _ _ _ _ _).trans ?_
    | with_reducible refine State.foldl_keep (fun s a => ?_) ?_
    | with_reducible refine (State.pair_base (by assumption)).trans ?_
    | (intro x; refine State.step_have (s := s) x ?_ (fun hx => ?_); subst x)
    | intro x
    | (lift_lets -underBinder; intro x; refine State.step_have (s := s) x ?_ (fun hx => ?_); subst x)
    | (lift_lets -underBinder; intro x)
    | with_reducible refine State.ite_keep ?_ ?_
    | split

theorem State.passOp_keeps (p : PassF) (s : State) (r : Rout) (u3 : Image) (a : LArr) (u : Nat) : (State.passOp p s r u3 a u).Keeps s := by
  unfold State.passOp
  repeat' first
    | with_reducible rfl
    | with_reducible assumption
    | with_reducible refine (State.fill_base _ _ _ _ _).trans ?_
    | with_reducible refine (State.passTiming_base _ _).trans ?_
    | with_reducible refine (State.bump_base _ _ _ _ _).trans ?_
    | with_reducible refine (State.countSat_base _ _ _ _).trans ?_
    | with_reducible refine (State.spend_base _ _).trans ?_
    | with_reducible refine (State.rupd_base _ _ _ _).trans ?_
    | with_reducible refine (State.pair_base (by assumption)).trans ?_
    | with_reducible exact LEff.keeps_wait
    | with_reducible exact AEff.keeps_wait
    | with_reducible refine LEff.keeps_go ?_
    | with_reducible refine LEff.keeps_exc ?_
    | with_reducible refine LEff.keeps_fail ?_
    | with_reducible refine AEff.keeps_go ?_
    | with_reducible refine AEff.keeps_fail ?_
    | (intro x; refine State.step_have (s := s) x ?_ (fun hx => ?_); subst x)
    | intro x
    | (lift_lets -underBinder; intro x; refine State.step_have (s := s) x ?_ (fun hx => ?_); subst x)
    | (lift_lets -underBinder; intro x)
    | with_reducible refine State.ite_keep ?_ ?_
    | split

theorem State.gdrainOp_keeps (la : Nat) (g : GdrainF) (s : State) (r : Rout) (img : Image) (a : LArr) (u5 : Nat) : (State.gdrainOp la g s r img a u5).Keeps s := by
  unfold State.gdrainOp
  repeat' first
    | with_reducible rfl
    | with_reducible assumption
    | with_reducible refine (State.domeRead_base _ _ _ _ _ _).trans ?_
    | with_reducible refine (State.rupd_base _ _ _ _).trans ?_
    | with_reducible refine (State.access_base _ _ _ _ _ _ _ _).trans ?_
    | with_reducible refine (State.pair_base (by assumption)).trans ?_
    | with_reducible exact LEff.keeps_wait
    | with_reducible exact AEff.keeps_wait
    | with_reducible refine LEff.keeps_go ?_
    | with_reducible refine LEff.keeps_exc ?_
    | with_reducible refine LEff.keeps_fail ?_
    | with_reducible refine AEff.keeps_go ?_
    | with_reducible refine AEff.keeps_fail ?_
    | (intro x; refine State.step_have (s := s) x ?_ (fun hx => ?_); subst x)
    | intro x
    | (lift_lets -underBinder; intro x; refine State.step_have (s := s) x ?_ (fun hx => ?_); subst x)
    | (lift_lets -underBinder; intro x)
    | with_reducible refine State.ite_keep ?_ ?_
    | split

@[simp] theorem State.fallbackDo_base (s : State) (r : Rout) (img : Image) (a : LArr) (la : Nat) (m : Nat) (p : Promo) (l : List Promo) : (State.fallbackDo s r img a la m p l).base = s.base := by
  unfold State.fallbackDo
  repeat' first
    | with_reducible rfl
    | with_reducible assumption
    | with_reducible refine (State.bump_base _ _ _ _ _).trans ?_
    | with_reducible refine (State.domeWrite_base _ _ _ _ _ _ _).trans ?_
    | with_reducible refine (State.countSat_base _ _ _ _).trans ?_
    | with_reducible refine (State.rupd_base _ _ _ _).trans ?_
    | with_reducible refine (State.settle_base _ _ _).trans ?_
    | with_reducible refine State.foldl_keep (fun s a => ?_) ?_
    | with_reducible refine (State.pair_base (by assumption)).trans ?_
    | (intro x; refine State.step_have (s := s) x ?_ (fun hx => ?_); subst x)
    | intro x
    | (lift_lets -underBinder; intro x; refine State.step_have (s := s) x ?_ (fun hx => ?_); subst x)
    | (lift_lets -underBinder; intro x)
    | with_reducible refine State.ite_keep ?_ ?_
    | split

@[simp] theorem State.fallback_base (s : State) (q : Nat) (seq : Nat) (la : Nat) (slot : Nat) : (State.fallback s q seq la slot).base = s.base := by
  unfold State.fallback
  repeat' first
    | with_reducible rfl
    | with_reducible assumption
    | with_reducible refine (State.domeRead_base _ _ _ _ _ _).trans ?_
    | with_reducible refine (State.faultRout_base _ _ _ _).trans ?_
    | with_reducible refine (State.fallbackDo_base _ _ _ _ _ _ _ _).trans ?_
    | with_reducible refine State.reading_keep (fun s => ?_) ?_
    | with_reducible refine State.readThen_from (fun s => ?_) (fun s x h => ?_) ?_
    | with_reducible refine (State.pair_base (by assumption)).trans ?_
    | (intro x; refine State.step_have (s := s) x ?_ (fun hx => ?_); subst x)
    | intro x
    | (lift_lets -underBinder; intro x; refine State.step_have (s := s) x ?_ (fun hx => ?_); subst x)
    | (lift_lets -underBinder; intro x)
    | with_reducible refine State.ite_keep ?_ ?_
    | split

@[simp] theorem State.deliver_base (s : State) (t : Captured) : (State.deliver s t).base = s.base := by
  unfold State.deliver
  repeat' first
    | with_reducible rfl
    | with_reducible assumption
    | with_reducible refine (State.setRing_base _ _).trans ?_
    | with_reducible refine (State.setChans_base _ _).trans ?_
    | with_reducible refine (State.put_base _ _ _ _).trans ?_
    | with_reducible refine (State.bump_base _ _ _ _ _).trans ?_
    | with_reducible refine (State.access_base _ _ _ _ _ _ _ _).trans ?_
    | with_reducible refine State.foldl_keep (fun s a => ?_) ?_
    | with_reducible refine (State.pair_base (by assumption)).trans ?_
    | (intro x; refine State.step_have (s := s) x ?_ (fun hx => ?_); subst x)
    | intro x
    | (lift_lets -underBinder; intro x; refine State.step_have (s := s) x ?_ (fun hx => ?_); subst x)
    | (lift_lets -underBinder; intro x)
    | with_reducible refine State.ite_keep ?_ ?_
    | split

@[simp] theorem State.frontFault_base (s : State) (gq : Nat) (gs : Nat) (cause : Nat) (twice : Bool) : (State.frontFault s gq gs cause twice).base = s.base := by
  unfold State.frontFault
  repeat' first
    | with_reducible rfl
    | with_reducible assumption
    | with_reducible refine (State.rupd_base _ _ _ _).trans ?_
    | with_reducible refine (State.restart_base _ _ _).trans ?_
    | with_reducible refine (State.logFence_base _ _ _ _ _ _).trans ?_
    | with_reducible refine (State.setObj_base _ _ _).trans ?_
    | with_reducible refine (State.pair_base (by assumption)).trans ?_
    | (intro x; refine State.step_have (s := s) x ?_ (fun hx => ?_); subst x)
    | intro x
    | (lift_lets -underBinder; intro x; refine State.step_have (s := s) x ?_ (fun hx => ?_); subst x)
    | (lift_lets -underBinder; intro x)
    | with_reducible refine State.ite_keep ?_ ?_
    | split

@[simp] theorem State.captureTile_base (s : State) (c : CapTile) (chk : Chk) : (State.captureTile s c chk).base = s.base := by
  unfold State.captureTile
  repeat' first
    | with_reducible rfl
    | with_reducible assumption
    | with_reducible refine (State.deliver_base _ _).trans ?_
    | with_reducible refine (State.transient_base _ _ _ _ _ _ _).trans ?_
    | with_reducible refine (State.frontFault_base _ _ _ _ _).trans ?_
    | with_reducible refine (State.bypassLink_base _ _ _).trans ?_
    | with_reducible refine (State.pair_base (by assumption)).trans ?_
    | (intro x; refine State.step_have (s := s) x ?_ (fun hx => ?_); subst x)
    | intro x
    | (lift_lets -underBinder; intro x; refine State.step_have (s := s) x ?_ (fun hx => ?_); subst x)
    | (lift_lets -underBinder; intro x)
    | with_reducible refine State.ite_keep ?_ ?_
    | split

end Sys2Proof.Machine
end

