-- ==== Sys2Proof/Laws/Base/BellForm.lean ====
section
/-! SUPPORT. The operations of Machine/BellForm.lean leave the configuration, the waiting commands and host memory as they are. -/

namespace Sys2Proof.Machine
/-- Whatever an offer comes to, its state keeps what `s` holds. -/
def Offer.Keeps (s : State) : Offer → Prop
  | .stop t => t.base = s.base
  | .more t => t.base = s.base
  | .wait t => t.base = s.base

theorem Offer.keeps_stop {s t : State} (h : t.base = s.base) : (Offer.stop t).Keeps s := h
theorem Offer.keeps_more {s t : State} (h : t.base = s.base) : (Offer.more t).Keeps s := h
theorem Offer.keeps_wait {s t : State} (h : t.base = s.base) : (Offer.wait t).Keeps s := h
theorem Offer.keeps_trans {s t : State} {e : Offer} (h : e.Keeps t) (k : t.base = s.base) : e.Keeps s := by
  cases e with
  | stop u => exact Eq.trans h k
  | more u => exact Eq.trans h k
  | wait u => exact Eq.trans h k
theorem Offer.stop_base {s t : State} {e : Offer} (h : e = .stop t) (k : e.Keeps s) : t.base = s.base := by rw [h] at k; exact k
theorem Offer.more_base {s t : State} {e : Offer} (h : e = .more t) (k : e.Keeps s) : t.base = s.base := by rw [h] at k; exact k
theorem Offer.wait_base {s t : State} {e : Offer} (h : e = .wait t) (k : e.Keeps s) : t.base = s.base := by rw [h] at k; exact k

@[simp] theorem State.updForm_base (s : State) (f : Form → Form) : (State.updForm s f).base = s.base := by
  unfold State.updForm
  repeat' first
    | with_reducible rfl
    | with_reducible assumption
    | with_reducible refine (State.setForm_base _ _).trans ?_
    | with_reducible refine (State.pair_base (by assumption)).trans ?_
    | with_reducible refine State.ite_keep ?_ ?_
    | split

@[simp] theorem State.pay_base (s : State) (ch : Charge) : (State.pay s ch).1.base = s.base := by
  unfold State.pay
  repeat' first
    | with_reducible rfl
    | with_reducible assumption
    | with_reducible refine (State.updForm_base _ _).trans ?_
    | with_reducible refine (State.pair_base (by assumption)).trans ?_
    | (intro x; refine State.step_have (s := s) x ?_ (fun hx => ?_); subst x)
    | intro x
    | (lift_lets -underBinder; intro x; refine State.step_have (s := s) x ?_ (fun hx => ?_); subst x)
    | (lift_lets -underBinder; intro x)
    | with_reducible refine State.ite_keep ?_ ?_
    | split

@[simp] theorem State.noteBell_base (s : State) (q : Nat) : (State.noteBell s q).base = s.base := by
  unfold State.noteBell
  repeat' first
    | with_reducible rfl
    | with_reducible assumption
    | with_reducible refine (State.updQueue_base _ _ _).trans ?_
    | with_reducible refine (State.pair_base (by assumption)).trans ?_
    | with_reducible refine State.ite_keep ?_ ?_
    | split

@[simp] theorem State.payOwed_base (s : State) (q : Nat) (seq : Nat) (owed : SMap Nat) : (State.payOwed s q seq owed).base = s.base := by
  unfold State.payOwed
  repeat' first
    | with_reducible rfl
    | with_reducible assumption
    | with_reducible refine (State.pay_base _ _).trans ?_
    | with_reducible refine (State.noteBell_base _ _).trans ?_
    | with_reducible refine (State.dupd_base _ _ _ _).trans ?_
    | with_reducible refine (State.rupd_base _ _ _ _).trans ?_
    | with_reducible refine (State.pair_base (by assumption)).trans ?_
    | (intro x; refine State.step_have (s := s) x ?_ (fun hx => ?_); subst x)
    | intro x
    | (lift_lets -underBinder; intro x; refine State.step_have (s := s) x ?_ (fun hx => ?_); subst x)
    | (lift_lets -underBinder; intro x)
    | with_reducible refine State.ite_keep ?_ ?_
    | split

@[simp] theorem State.payCarried_base (s : State) (paced : Bool) : (State.payCarried s paced).base = s.base := by
  unfold State.payCarried
  repeat' first
    | with_reducible rfl
    | with_reducible assumption
    | with_reducible refine (State.dupd_base _ _ _ _).trans ?_
    | with_reducible refine (State.payOwed_base _ _ _ _).trans ?_
    | with_reducible refine State.foldl_keep (fun s a => ?_) ?_
    | with_reducible refine (State.pair_base (by assumption)).trans ?_
    | (intro x; refine State.step_have (s := s) x ?_ (fun hx => ?_); subst x)
    | intro x
    | (lift_lets -underBinder; intro x; refine State.step_have (s := s) x ?_ (fun hx => ?_); subst x)
    | (lift_lets -underBinder; intro x)
    | with_reducible refine State.ite_keep ?_ ?_
    | split

@[simp] theorem State.placeIter_base (s : State) (r : Rout) (ch : Charge) (iter : Bool) (bytes : Nat) : (State.placeIter s r ch iter bytes).base = s.base := by
  unfold State.placeIter
  repeat' first
    | with_reducible rfl
    | with_reducible assumption
    | with_reducible refine (State.pay_base _ _).trans ?_
    | with_reducible refine (State.noteBell_base _ _).trans ?_
    | with_reducible refine (State.updQueue_base _ _ _).trans ?_
    | with_reducible refine (State.dupd_base _ _ _ _).trans ?_
    | with_reducible refine (State.rupd_base _ _ _ _).trans ?_
    | with_reducible refine State.foldl_keep (fun s a => ?_) ?_
    | with_reducible refine (State.pair_base (by assumption)).trans ?_
    | (intro x; refine State.step_have (s := s) x ?_ (fun hx => ?_); subst x)
    | intro x
    | (lift_lets -underBinder; intro x; refine State.step_have (s := s) x ?_ (fun hx => ?_); subst x)
    | (lift_lets -underBinder; intro x)
    | with_reducible refine State.ite_keep ?_ ?_
    | split

@[simp] theorem State.offerIter_base (s : State) (q : Nat) (seq : Nat) : (State.offerIter s q seq).1.base = s.base := by
  unfold State.offerIter
  repeat' first
    | with_reducible rfl
    | with_reducible assumption
    | with_reducible refine (State.placeIter_base _ _ _ _ _).trans ?_
    | with_reducible refine (State.rupd_base _ _ _ _).trans ?_
    | with_reducible refine (State.bump_base _ _ _ _ _).trans ?_
    | with_reducible refine (State.pair_base (by assumption)).trans ?_
    | (intro x; refine State.step_have (s := s) x ?_ (fun hx => ?_); subst x)
    | intro x
    | (lift_lets -underBinder; intro x; refine State.step_have (s := s) x ?_ (fun hx => ?_); subst x)
    | (lift_lets -underBinder; intro x)
    | with_reducible refine State.ite_keep ?_ ?_
    | split

@[simp] theorem State.listRead_base (s : State) (tenant : Nat) (attr : Nat) (a : Nat) (layers : Nat) : (State.listRead s tenant attr a layers).1.base = s.base := by
  unfold State.listRead
  repeat' first
    | with_reducible rfl
    | with_reducible assumption
    | with_reducible refine (State.readAll_base _ _ _ _).trans ?_
    | with_reducible refine State.foldl_keep (fun s a => ?_) ?_
    | with_reducible refine andThen_base ?_ (fun s a => ?_)
    | with_reducible refine (State.pair_base (by assumption)).trans ?_
    | (intro x; refine State.step_have (s := s) x ?_ (fun hx => ?_); subst x)
    | intro x
    | (lift_lets -underBinder; intro x; refine State.step_have (s := s) x ?_ (fun hx => ?_); subst x)
    | (lift_lets -underBinder; intro x)
    | with_reducible refine State.ite_keep ?_ ?_
    | split

@[simp] theorem State.readLayers_base (s : State) (tenant : Nat) (r : RoutD) : (State.readLayers s tenant r).1.base = s.base := by
  unfold State.readLayers
  repeat' first
    | with_reducible rfl
    | with_reducible assumption
    | with_reducible refine (State.wres_base _ _ _).trans ?_
    | with_reducible refine (State.listRead_base _ _ _ _ _).trans ?_
    | with_reducible refine (State.resolveAll_base _ _ _).trans ?_
    | with_reducible refine State.foldl_keep (fun s a => ?_) ?_
    | with_reducible refine (State.pair_base (by assumption)).trans ?_
    | (intro x; refine State.step_have (s := s) x ?_ (fun hx => ?_); subst x)
    | intro x
    | (lift_lets -underBinder; intro x; refine State.step_have (s := s) x ?_ (fun hx => ?_); subst x)
    | (lift_lets -underBinder; intro x)
    | with_reducible refine State.ite_keep ?_ ?_
    | split

@[simp] theorem State.resolving_base (s : State) (tenant : Nat) (x0 : List Nat) : (State.resolving s tenant x0).1.base = s.base := by
  induction x0 generalizing s with
  | nil =>
    unfold State.resolving
    repeat' first
      | with_reducible rfl
      | with_reducible assumption
      | with_reducible refine (State.wres_base _ _ _).trans ?_
      | with_reducible refine State.foldl_keep (fun s a => ?_) ?_
      | with_reducible refine (State.pair_base (by assumption)).trans ?_
      | (intro x; refine State.step_have (s := s) x ?_ (fun hx => ?_); subst x)
      | intro x
      | (lift_lets -underBinder; intro x; refine State.step_have (s := s) x ?_ (fun hx => ?_); subst x)
      | (lift_lets -underBinder; intro x)
      | with_reducible refine State.ite_keep ?_ ?_
      | split
  | cons a l ih =>
    unfold State.resolving
    repeat' first
      | with_reducible rfl
      | with_reducible assumption
      | with_reducible refine (ih _).trans ?_
      | with_reducible refine (State.wres_base _ _ _).trans ?_
      | with_reducible refine State.foldl_keep (fun s a => ?_) ?_
      | with_reducible refine (State.pair_base (by assumption)).trans ?_
      | (intro x; refine State.step_have (s := s) x ?_ (fun hx => ?_); subst x)
      | intro x
      | (lift_lets -underBinder; intro x; refine State.step_have (s := s) x ?_ (fun hx => ?_); subst x)
      | (lift_lets -underBinder; intro x)
      | with_reducible refine State.ite_keep ?_ ?_
      | split

@[simp] theorem State.setsOf_base (s : State) (tenant : Nat) (d : Desc) (list : List Nat) : (State.setsOf s tenant d list).1.base = s.base := by
  unfold State.setsOf
  repeat' first
    | with_reducible rfl
    | with_reducible assumption
    | with_reducible refine (State.resolving_base _ _ _).trans ?_
    | with_reducible refine (State.baseSets_base _ _ _).trans ?_
    | with_reducible refine State.foldl_keep (fun s a => ?_) ?_
    | with_reducible refine (State.pair_base (by assumption)).trans ?_
    | (intro x; refine State.step_have (s := s) x ?_ (fun hx => ?_); subst x)
    | intro x
    | (lift_lets -underBinder; intro x; refine State.step_have (s := s) x ?_ (fun hx => ?_); subst x)
    | (lift_lets -underBinder; intro x)
    | with_reducible refine State.ite_keep ?_ ?_
    | split

@[simp] theorem State.heldObjs_base (s : State) (tenant : Nat) : (State.heldObjs s tenant).1.base = s.base := by
  unfold State.heldObjs
  refine State.foldl_pair_keep (fun x a => ?_) rfl
  obtain ⟨s, l⟩ := x
  dsimp only
  split
  · exact State.baseList_base _ _ _
  · rfl

@[simp] theorem State.resultHeld_base (s : State) (tenant : Nat) (w : RoutD) : (State.resultHeld s tenant w).1.base = s.base := by
  unfold State.resultHeld
  repeat' first
    | with_reducible rfl
    | with_reducible assumption
    | with_reducible refine (State.baseList_base _ _ _).trans ?_
    | with_reducible refine (State.heldObjs_base _ _).trans ?_
    | with_reducible refine State.foldl_keep (fun s a => ?_) ?_
    | with_reducible refine (State.pair_base (by assumption)).trans ?_
    | (intro x; refine State.step_have (s := s) x ?_ (fun hx => ?_); subst x)
    | intro x
    | (lift_lets -underBinder; intro x; refine State.step_have (s := s) x ?_ (fun hx => ?_); subst x)
    | (lift_lets -underBinder; intro x)
    | with_reducible refine State.ite_keep ?_ ?_
    | split

@[simp] theorem State.priceHdr_base (s : State) (tenant : Nat) (r : RoutD) : (State.priceHdr s tenant r).1.base = s.base := by
  unfold State.priceHdr
  repeat' first
    | with_reducible rfl
    | with_reducible assumption
    | with_reducible refine (State.wres_base _ _ _).trans ?_
    | with_reducible refine (State.readC_base _ _ _ _ _).trans ?_
    | with_reducible refine (State.iterBound_base _ _ _).trans ?_
    | with_reducible refine (State.pair_base (by assumption)).trans ?_
    | (intro x; refine State.step_have (s := s) x ?_ (fun hx => ?_); subst x)
    | intro x
    | (lift_lets -underBinder; intro x; refine State.step_have (s := s) x ?_ (fun hx => ?_); subst x)
    | (lift_lets -underBinder; intro x)
    | with_reducible refine State.ite_keep ?_ ?_
    | split

@[simp] theorem State.priceOf_base (s : State) (tenant : Nat) (d : Desc) : (State.priceOf s tenant d).1.base = s.base := by
  unfold State.priceOf
  repeat' first
    | with_reducible rfl
    | with_reducible assumption
    | with_reducible refine (State.priceHdr_base _ _ _).trans ?_
    | with_reducible refine (State.pair_base (by assumption)).trans ?_
    | (intro x; refine State.step_have (s := s) x ?_ (fun hx => ?_); subst x)
    | intro x
    | (lift_lets -underBinder; intro x; refine State.step_have (s := s) x ?_ (fun hx => ?_); subst x)
    | (lift_lets -underBinder; intro x)
    | with_reducible refine State.ite_keep ?_ ?_
    | split

@[simp] theorem State.admitItem_base (s : State) (q : Nat) (d : Desc) (sets : List Nat × List Nat) (list : List Nat × Nat) (ch : Charge) (bytes : Nat) (h : Nat × Nat × Nat × Nat) (aux : Nat × Nat × Nat) : (State.admitItem s q d sets list ch bytes h aux).base = s.base := by
  unfold State.admitItem
  repeat' first
    | with_reducible rfl
    | with_reducible assumption
    | with_reducible refine (State.take_base _ _ _).trans ?_
    | with_reducible refine (State.pay_base _ _).trans ?_
    | with_reducible refine (State.noteBell_base _ _).trans ?_
    | with_reducible refine (State.dupd_base _ _ _ _).trans ?_
    | with_reducible refine (State.updQueue_base _ _ _).trans ?_
    | with_reducible refine (State.setRouts_base _ _).trans ?_
    | with_reducible refine (State.setChans_base _ _).trans ?_
    | with_reducible refine (State.put_base _ _ _ _).trans ?_
    | with_reducible refine (State.pair_base (by assumption)).trans ?_
    | (intro x; refine State.step_have (s := s) x ?_ (fun hx => ?_); subst x)
    | intro x
    | (lift_lets -underBinder; intro x; refine State.step_have (s := s) x ?_ (fun hx => ?_); subst x)
    | (lift_lets -underBinder; intro x)
    | with_reducible refine State.ite_keep ?_ ?_
    | split

theorem State.offerHead_keeps (s : State) (q : Nat) (d : Desc) : (State.offerHead s q d).Keeps s := by
  unfold State.offerHead
  repeat' first
    | with_reducible rfl
    | with_reducible assumption
    | with_reducible refine (State.updQueue_base _ _ _).trans ?_
    | with_reducible refine (State.readLayers_base _ _ _).trans ?_
    | with_reducible refine (State.setsOf_base _ _ _ _).trans ?_
    | with_reducible refine (State.resultHeld_base _ _ _).trans ?_
    | with_reducible refine (State.stop_base _ _ _ _).trans ?_
    | with_reducible refine (State.priceOf_base _ _ _).trans ?_
    | with_reducible refine (State.admitItem_base _ _ _ _ _ _ _ _ _).trans ?_
    | with_reducible refine (State.fence_base _ _ _ _ _ _).trans ?_
    | with_reducible refine (State.hold_base _ _ _ _ _).trans ?_
    | with_reducible refine (State.pair_base (by assumption)).trans ?_
    | with_reducible refine Offer.keeps_stop ?_
    | with_reducible refine Offer.keeps_more ?_
    | with_reducible refine Offer.keeps_wait ?_
    | (intro x; refine State.step_have (s := s) x ?_ (fun hx => ?_); subst x)
    | intro x
    | (lift_lets -underBinder; intro x; refine State.step_have (s := s) x ?_ (fun hx => ?_); subst x)
    | (lift_lets -underBinder; intro x)
    | with_reducible refine State.ite_keep ?_ ?_
    | split

@[simp] theorem State.paceBreak_base (s : State) (q : Nat) : (State.paceBreak s q).base = s.base := by
  unfold State.paceBreak
  repeat' first
    | with_reducible rfl
    | with_reducible assumption
    | with_reducible refine (State.bump_base _ _ _ _ _).trans ?_
    | with_reducible refine (State.report_base _ _).trans ?_
    | with_reducible refine (State.updForm_base _ _).trans ?_
    | with_reducible refine (State.pair_base (by assumption)).trans ?_
    | (intro x; refine State.step_have (s := s) x ?_ (fun hx => ?_); subst x)
    | intro x
    | (lift_lets -underBinder; intro x; refine State.step_have (s := s) x ?_ (fun hx => ?_); subst x)
    | (lift_lets -underBinder; intro x)
    | with_reducible refine State.ite_keep ?_ ?_
    | split

theorem State.offerQueue_keeps (s : State) (q : Nat) (paced : Bool) : (State.offerQueue s q paced).Keeps s := by
  unfold State.offerQueue
  repeat' first
    | with_reducible rfl
    | with_reducible assumption
    | with_reducible refine (Offer.more_base (by assumption) (State.offerHead_keeps _ _ _)).trans ?_
    | with_reducible refine (State.stop_base _ _ _ _).trans ?_
    | with_reducible refine Offer.keeps_trans (State.offerHead_keeps _ _ _) ?_
    | with_reducible refine (State.updForm_base _ _).trans ?_
    | with_reducible refine (State.paceBreak_base _ _).trans ?_
    | with_reducible refine (State.pair_base (by assumption)).trans ?_
    | with_reducible refine Offer.keeps_stop ?_
    | with_reducible refine Offer.keeps_more ?_
    | with_reducible refine Offer.keeps_wait ?_
    | (intro x; refine State.step_have (s := s) x ?_ (fun hx => ?_); subst x)
    | intro x
    | (lift_lets -underBinder; intro x; refine State.step_have (s := s) x ?_ (fun hx => ?_); subst x)
    | (lift_lets -underBinder; intro x)
    | with_reducible refine State.ite_keep ?_ ?_
    | split

@[simp] theorem State.setFills_base (s : State) : (State.setFills s).base = s.base := by
  unfold State.setFills
  repeat' first
    | with_reducible rfl
    | with_reducible assumption
    | with_reducible refine (State.setObj_base _ _ _).trans ?_
    | with_reducible refine (State.pair_base (by assumption)).trans ?_
    | (intro x; refine State.step_have (s := s) x ?_ (fun hx => ?_); subst x)
    | intro x
    | (lift_lets -underBinder; intro x; refine State.step_have (s := s) x ?_ (fun hx => ?_); subst x)
    | (lift_lets -underBinder; intro x)
    | with_reducible refine State.ite_keep ?_ ?_
    | split

@[simp] theorem State.setTurns_base (s : State) (p : Nat) (t : List Turn) : (State.setTurns s p t).base = s.base := by
  unfold State.setTurns
  repeat' first
    | with_reducible rfl
    | with_reducible assumption
    | with_reducible refine (State.updForm_base _ _).trans ?_
    | with_reducible refine (State.pair_base (by assumption)).trans ?_
    | with_reducible refine State.ite_keep ?_ ?_
    | split

@[simp] theorem State.enterPhase_base (s : State) (p : Nat) : (State.enterPhase s p).base = s.base := by
  unfold State.enterPhase
  repeat' first
    | with_reducible rfl
    | with_reducible assumption
    | with_reducible refine (State.payCarried_base _ _).trans ?_
    | with_reducible refine (State.setTurns_base _ _ _).trans ?_
    | with_reducible refine (State.put_base _ _ _ _).trans ?_
    | with_reducible refine (State.updForm_base _ _).trans ?_
    | with_reducible refine (State.setFills_base _).trans ?_
    | with_reducible refine State.foldl_keep (fun s a => ?_) ?_
    | with_reducible refine (State.pair_base (by assumption)).trans ?_
    | (intro x; refine State.step_have (s := s) x ?_ (fun hx => ?_); subst x)
    | intro x
    | (lift_lets -underBinder; intro x; refine State.step_have (s := s) x ?_ (fun hx => ?_); subst x)
    | (lift_lets -underBinder; intro x)
    | with_reducible refine State.ite_keep ?_ ?_
    | split

@[simp] theorem State.turnOver_base (s : State) (t : Turn) (rest : List Turn) (more : Bool) : (State.turnOver s t rest more).base = s.base := by
  unfold State.turnOver
  repeat' first
    | with_reducible rfl
    | with_reducible assumption
    | with_reducible refine (State.updForm_base _ _).trans ?_
    | with_reducible refine (State.pair_base (by assumption)).trans ?_
    | with_reducible refine State.ite_keep ?_ ?_
    | split

@[simp] theorem State.queueTurn_base (t : Turn) (rest : List Turn) (s : State) : (State.queueTurn t rest s).base = s.base := by
  unfold State.queueTurn
  repeat' first
    | with_reducible rfl
    | with_reducible assumption
    | with_reducible refine (State.stop_base _ _ _ _).trans ?_
    | with_reducible refine (State.turnOver_base _ _ _ _).trans ?_
    | with_reducible refine (Offer.stop_base (by assumption) (State.offerQueue_keeps _ _ _)).trans ?_
    | with_reducible refine (Offer.more_base (by assumption) (State.offerQueue_keeps _ _ _)).trans ?_
    | with_reducible refine (Offer.wait_base (by assumption) (State.offerQueue_keeps _ _ _)).trans ?_
    | with_reducible refine State.foldl_keep (fun s a => ?_) ?_
    | with_reducible refine (State.pair_base (by assumption)).trans ?_
    | (intro x; refine State.step_have (s := s) x ?_ (fun hx => ?_); subst x)
    | intro x
    | (lift_lets -underBinder; intro x; refine State.step_have (s := s) x ?_ (fun hx => ?_); subst x)
    | (lift_lets -underBinder; intro x)
    | with_reducible refine State.ite_keep ?_ ?_
    | split

@[simp] theorem State.formStep_base (s : State) : (State.formStep s).1.base = s.base := by
  unfold State.formStep
  dsimp only
  split
  · rfl
  split
  · split
    · exact State.enterPhase_base _ _
    · exact State.updForm_base _ _
  · split
    · split
      · exact State.turnOver_base _ _ _ _
      · exact (State.turnOver_base _ _ _ _).trans (State.offerIter_base _ _ _)
    · exact State.reading_keep (fun s => State.queueTurn_base _ _ s) rfl

@[simp] theorem State.formN_base (s : State) (x0 : Nat) : (State.formN s x0).base = s.base := by
  induction x0 generalizing s with
  | zero => rfl
  | succ n ih =>
    unfold State.formN
    have h := State.formStep_base s
    split <;> rename_i e <;> rw [e] at h
    · exact h
    · exact (ih _).trans h

@[simp] theorem State.formMore_base (s : State) : (State.formMore s).base = s.base := by
  unfold State.formMore
  repeat' first
    | with_reducible rfl
    | with_reducible assumption
    | with_reducible refine (Offer.stop_base (by assumption) (State.offerQueue_keeps _ _ _)).trans ?_
    | with_reducible refine (Offer.more_base (by assumption) (State.offerQueue_keeps _ _ _)).trans ?_
    | with_reducible refine (Offer.wait_base (by assumption) (State.offerQueue_keeps _ _ _)).trans ?_
    | with_reducible refine (State.formN_base _ _).trans ?_
    | with_reducible refine Offer.keeps_trans (State.offerQueue_keeps _ _ _) ?_
    | with_reducible refine (State.pair_base (by assumption)).trans ?_
    | (intro x; refine State.step_have (s := s) x ?_ (fun hx => ?_); subst x)
    | intro x
    | (lift_lets -underBinder; intro x; refine State.step_have (s := s) x ?_ (fun hx => ?_); subst x)
    | (lift_lets -underBinder; intro x)
    | with_reducible refine State.ite_keep ?_ ?_
    | split

@[simp] theorem State.beginForm_base (s : State) (b : Nat) : (State.beginForm s b).base = s.base := by
  unfold State.beginForm
  repeat' first
    | with_reducible rfl
    | with_reducible assumption
    | with_reducible refine (State.setQueues_base _ _).trans ?_
    | with_reducible refine (State.setForm_base _ _).trans ?_
    | with_reducible refine (State.enterPhase_base _ _).trans ?_
    | with_reducible refine (State.formMore_base _).trans ?_
    | with_reducible refine (State.pair_base (by assumption)).trans ?_
    | (intro x; refine State.step_have (s := s) x ?_ (fun hx => ?_); subst x)
    | intro x
    | (lift_lets -underBinder; intro x; refine State.step_have (s := s) x ?_ (fun hx => ?_); subst x)
    | (lift_lets -underBinder; intro x)
    | with_reducible refine State.ite_keep ?_ ?_
    | split

end Sys2Proof.Machine
end

