-- ==== Sys2Proof/Laws/Base/Tick.lean ====
section
/-! SUPPORT. The operations of Machine/Tick.lean leave the configuration, the waiting commands and host memory as they are. -/

namespace Sys2Proof.Machine

@[simp] theorem State.freezeArrays_base (s : State) (n : Nat) : (State.freezeArrays s n).base = s.base := by
  unfold State.freezeArrays
  repeat' first
    | with_reducible rfl
    | with_reducible assumption
    | with_reducible refine (State.bump_base _ _ _ _ _).trans ?_
    | with_reducible refine State.foldl_keep (fun s a => ?_) ?_
    | (intro x; refine State.step_have (s := s) x ?_ (fun hx => ?_); subst x)
    | intro x
    | with_reducible refine State.ite_keep ?_ ?_
    | split

@[simp] theorem State.advance_base (s : State) (n : Nat) : (State.advance s n).base = s.base := by
  unfold State.advance
  repeat' first
    | with_reducible rfl
    | with_reducible assumption
    | with_reducible refine (State.bump_base _ _ _ _ _).trans ?_
    | with_reducible refine (State.freezeArrays_base _ _).trans ?_
    | with_reducible refine (State.setCycle_base _ _).trans ?_
    | with_reducible refine (State.setTb_base _ _).trans ?_
    | with_reducible refine (State.pair_base (by assumption)).trans ?_
    | (intro x; refine State.step_have (s := s) x ?_ (fun hx => ?_); subst x)
    | intro x
    | (lift_lets -underBinder; intro x; refine State.step_have (s := s) x ?_ (fun hx => ?_); subst x)
    | (lift_lets -underBinder; intro x)
    | with_reducible refine State.ite_keep ?_ ?_
    | split

@[simp] theorem State.until_base (s : State) (c : Nat) : (State.until s c).base = s.base := by
  unfold State.until
  repeat' first
    | with_reducible rfl
    | with_reducible assumption
    | with_reducible refine (State.advance_base _ _).trans ?_
    | with_reducible refine (State.pair_base (by assumption)).trans ?_
    | with_reducible refine State.ite_keep ?_ ?_
    | split

@[simp] theorem State.idle_base (s : State) : (State.idle s).base = s.base := by
  unfold State.idle
  repeat' first
    | with_reducible rfl
    | with_reducible assumption
    | with_reducible refine (State.advance_base _ _).trans ?_
    | with_reducible refine (State.pair_base (by assumption)).trans ?_
    | with_reducible refine State.ite_keep ?_ ?_
    | split

end Sys2Proof.Machine
end

