-- ==== Sys2Proof/Laws/Base/GroupOps.lean ====
section
/-! SUPPORT. The operations of Machine/GroupOps.lean leave the configuration, the waiting commands and host memory as they are. -/

namespace Sys2Proof.Machine

@[simp] theorem State.updGroup_base (s : State) (f : Group → Group) : (State.updGroup s f).base = s.base := by
  unfold State.updGroup
  repeat' first
    | with_reducible rfl
    | with_reducible assumption
    | with_reducible refine (State.setGroup_base _ _).trans ?_
    | with_reducible refine (State.pair_base (by assumption)).trans ?_
    | with_reducible refine State.ite_keep ?_ ?_
    | split

@[simp] theorem State.putMaster_base (s : State) : (State.putMaster s).base = s.base := by
  unfold State.putMaster
  repeat' first
    | with_reducible rfl
    | with_reducible assumption
    | with_reducible refine (State.setObj_base _ _ _).trans ?_
    | with_reducible refine (State.pair_base (by assumption)).trans ?_
    | with_reducible refine State.ite_keep ?_ ?_
    | split

@[simp] theorem State.toChildren_base (s : State) (ftype : Nat) (a0 : Nat) (a1 : Nat) (p : List Nat) : (State.toChildren s ftype a0 a1 p).base = s.base := by
  unfold State.toChildren
  repeat' first
    | with_reducible rfl
    | with_reducible assumption
    | with_reducible refine (State.sendTo_base _ _).trans ?_
    | with_reducible refine State.foldl_keep (fun s a => ?_) ?_
    | with_reducible refine (State.pair_base (by assumption)).trans ?_
    | with_reducible refine State.ite_keep ?_ ?_
    | split

@[simp] theorem State.sendRelease_base (s : State) (bell : Nat) (stamp : Nat) (dig : Nat) (sum : Nat × Nat) : (State.sendRelease s bell stamp dig sum).base = s.base := by
  unfold State.sendRelease
  repeat' first
    | with_reducible rfl
    | with_reducible assumption
    | with_reducible refine (State.toChildren_base _ _ _ _ _).trans ?_
    | with_reducible refine (State.pair_base (by assumption)).trans ?_
    | with_reducible refine State.ite_keep ?_ ?_
    | split

@[simp] theorem State.tryToll_base (s : State) : (State.tryToll s).base = s.base := by
  unfold State.tryToll
  repeat' first
    | with_reducible rfl
    | with_reducible assumption
    | with_reducible refine (State.updGroup_base _ _).trans ?_
    | with_reducible refine (State.sendRelease_base _ _ _ _ _).trans ?_
    | with_reducible refine (State.sendTo_base _ _).trans ?_
    | with_reducible refine (State.pair_base (by assumption)).trans ?_
    | (intro x; refine State.step_have (s := s) x ?_ (fun hx => ?_); subst x)
    | intro x
    | (lift_lets -underBinder; intro x; refine State.step_have (s := s) x ?_ (fun hx => ?_); subst x)
    | (lift_lets -underBinder; intro x)
    | with_reducible refine State.ite_keep ?_ ?_
    | split

@[simp] theorem State.takeOver_base (s : State) (was : Bool) : (State.takeOver s was).base = s.base := by
  unfold State.takeOver
  repeat' first
    | with_reducible rfl
    | with_reducible assumption
    | with_reducible refine (State.updGroup_base _ _).trans ?_
    | with_reducible refine State.foldl_keep (fun s a => ?_) ?_
    | with_reducible refine (State.pair_base (by assumption)).trans ?_
    | (intro x; refine State.step_have (s := s) x ?_ (fun hx => ?_); subst x)
    | intro x
    | (lift_lets -underBinder; intro x; refine State.step_have (s := s) x ?_ (fun hx => ?_); subst x)
    | (lift_lets -underBinder; intro x)
    | with_reducible refine State.ite_keep ?_ ?_
    | split

@[simp] theorem State.loseRank_base (s : State) (r : Nat) : (State.loseRank s r).base = s.base := by
  unfold State.loseRank
  repeat' first
    | with_reducible rfl
    | with_reducible assumption
    | with_reducible refine (State.updGroup_base _ _).trans ?_
    | with_reducible refine (State.setObj_base _ _ _).trans ?_
    | with_reducible refine (State.putMaster_base _).trans ?_
    | with_reducible refine (State.takeOver_base _ _).trans ?_
    | with_reducible refine (State.linkEvent_base _ _ _ _).trans ?_
    | with_reducible refine (State.keepParent_base _ _ ?_).trans ?_
    | with_reducible refine (State.keepParent_base _ _ ?_).trans ?_
    | with_reducible refine (State.pair_base (by assumption)).trans ?_
    | (intro x; refine State.step_have (s := s) x ?_ (fun hx => ?_); subst x)
    | intro x
    | (lift_lets -underBinder; intro x; refine State.step_have (s := s) x ?_ (fun hx => ?_); subst x)
    | (lift_lets -underBinder; intro x)
    | with_reducible refine State.ite_keep ?_ ?_
    | split

@[simp] theorem State.beginGroup_base (s : State) : (State.beginGroup s).base = s.base := by
  unfold State.beginGroup
  repeat' first
    | with_reducible rfl
    | with_reducible assumption
    | with_reducible refine (State.setGroup_base _ _).trans ?_
    | with_reducible refine (State.setMasterDig_base _ _).trans ?_
    | with_reducible refine (State.setObj_base _ _ _).trans ?_
    | with_reducible refine (State.putMaster_base _).trans ?_
    | with_reducible refine (State.linkEvent_base _ _ _ _).trans ?_
    | with_reducible refine (State.pair_base (by assumption)).trans ?_
    | (intro x; refine State.step_have (s := s) x ?_ (fun hx => ?_); subst x)
    | intro x
    | (lift_lets -underBinder; intro x; refine State.step_have (s := s) x ?_ (fun hx => ?_); subst x)
    | (lift_lets -underBinder; intro x)
    | with_reducible refine State.ite_keep ?_ ?_
    | split

@[simp] theorem State.aloneGroup_base (s : State) : (State.aloneGroup s).base = s.base := by
  unfold State.aloneGroup
  repeat' first
    | with_reducible rfl
    | with_reducible assumption
    | with_reducible refine (State.setGroup_base _ _).trans ?_
    | with_reducible refine (State.setMasterDig_base _ _).trans ?_
    | with_reducible refine (State.setObj_base _ _ _).trans ?_
    | with_reducible refine (State.linkEvent_base _ _ _ _).trans ?_
    | with_reducible refine (State.pair_base (by assumption)).trans ?_
    | (intro x; refine State.step_have (s := s) x ?_ (fun hx => ?_); subst x)
    | intro x
    | (lift_lets -underBinder; intro x; refine State.step_have (s := s) x ?_ (fun hx => ?_); subst x)
    | (lift_lets -underBinder; intro x)
    | with_reducible refine State.ite_keep ?_ ?_
    | split

@[simp] theorem State.formArrive_base (s : State) : (State.formArrive s).base = s.base := by
  unfold State.formArrive
  repeat' first
    | with_reducible rfl
    | with_reducible assumption
    | with_reducible refine (State.updGroup_base _ _).trans ?_
    | with_reducible refine (State.sendTo_base _ _).trans ?_
    | with_reducible refine (State.pair_base (by assumption)).trans ?_
    | (intro x; refine State.step_have (s := s) x ?_ (fun hx => ?_); subst x)
    | intro x
    | (lift_lets -underBinder; intro x; refine State.step_have (s := s) x ?_ (fun hx => ?_); subst x)
    | (lift_lets -underBinder; intro x)
    | with_reducible refine State.ite_keep ?_ ?_
    | split

end Sys2Proof.Machine
end

