-- ==== Sys2Proof/Laws/Base/PowerAsk.lean ====
section
/-! SUPPORT. The operations of Machine/PowerAsk.lean leave the configuration, the waiting commands and host memory as they are. -/

namespace Sys2Proof.Machine

@[simp] theorem State.powerPreempt_base (s : State) (target : Nat) : (State.powerPreempt s target).base = s.base := by
  unfold State.powerPreempt
  repeat' first
    | with_reducible rfl
    | with_reducible assumption
    | with_reducible refine (State.askPreempt_base _ _ _ _).trans ?_
    | with_reducible refine State.foldl_keep (fun s a => ?_) ?_
    | with_reducible refine (State.pair_base (by assumption)).trans ?_
    | with_reducible refine State.ite_keep ?_ ?_
    | split

@[simp] theorem State.powerAsk_base (s : State) : (State.powerAsk s).base = s.base := by
  unfold State.powerAsk
  repeat' first
    | with_reducible rfl
    | with_reducible assumption
    | with_reducible refine (State.setMoving_base _ _).trans ?_
    | with_reducible refine (State.setDraining_base _ _).trans ?_
    | with_reducible refine (State.setExiting_base _ _).trans ?_
    | with_reducible refine (State.powerPreempt_base _ _).trans ?_
    | with_reducible refine (State.pair_base (by assumption)).trans ?_
    | (intro x; refine State.step_have (s := s) x ?_ (fun hx => ?_); subst x)
    | intro x
    | (lift_lets -underBinder; intro x; refine State.step_have (s := s) x ?_ (fun hx => ?_); subst x)
    | (lift_lets -underBinder; intro x)
    | with_reducible refine State.ite_keep ?_ ?_
    | split

@[simp] theorem State.powerClose_base (s : State) (b : Nat) : (State.powerClose s b).base = s.base := by
  unfold State.powerClose
  repeat' first
    | with_reducible rfl
    | with_reducible assumption
    | with_reducible refine (State.setDraining_base _ _).trans ?_
    | with_reducible refine (State.powerPreempt_base _ _).trans ?_
    | with_reducible refine (State.pair_base (by assumption)).trans ?_
    | with_reducible refine State.ite_keep ?_ ?_
    | split

end Sys2Proof.Machine
end

