-- ==== Sys2Proof/Laws/Base/BellOps.lean ====
section
/-! SUPPORT. The operations of Machine/BellOps.lean leave the configuration, the waiting commands and host memory as they are. -/

namespace Sys2Proof.Machine

@[simp] theorem State.bindPut_base (s : State) (oid : Nat) (sel : Nat) (v : Nat) : (State.bindPut s oid sel v).base = s.base := by
  unfold State.bindPut
  repeat' first
    | with_reducible rfl
    | with_reducible assumption
    | with_reducible refine (State.put_base _ _ _ _).trans ?_
    | with_reducible refine (State.setHist_base _ _).trans ?_
    | with_reducible refine (State.staleWalks_base _ _).trans ?_
    | with_reducible refine (State.setTwigs_base _ _).trans ?_
    | with_reducible refine (State.pair_base (by assumption)).trans ?_
    | with_reducible refine State.ite_keep ?_ ?_
    | split

@[simp] theorem State.slotResetTo_base (s : State) (n : Nat) (init : Nat) : (State.slotResetTo s n init).base = s.base := by
  unfold State.slotResetTo
  repeat' first
    | with_reducible rfl
    | with_reducible assumption
    | with_reducible refine (State.setHist_base _ _).trans ?_
    | with_reducible refine (State.put_base _ _ _ _).trans ?_
    | with_reducible refine State.foldl_keep (fun s a => ?_) ?_
    | with_reducible refine (State.pair_base (by assumption)).trans ?_
    | (intro x; refine State.step_have (s := s) x ?_ (fun hx => ?_); subst x)
    | intro x
    | (lift_lets -underBinder; intro x; refine State.step_have (s := s) x ?_ (fun hx => ?_); subst x)
    | (lift_lets -underBinder; intro x)
    | with_reducible refine State.ite_keep ?_ ?_
    | split

@[simp] theorem State.applyEpoch_base (s : State) (b : Nat) : (State.applyEpoch s b).base = s.base := by
  unfold State.applyEpoch
  repeat' first
    | with_reducible rfl
    | with_reducible assumption
    | with_reducible refine (State.bindPut_base _ _ _ _).trans ?_
    | with_reducible refine (State.slotResetTo_base _ _ _).trans ?_
    | with_reducible refine (State.setStage_base _ _).trans ?_
    | with_reducible refine (State.setObj_base _ _ _).trans ?_
    | with_reducible refine State.foldl_keep (fun s a => ?_) ?_
    | with_reducible refine (State.pair_base (by assumption)).trans ?_
    | (intro x; refine State.step_have (s := s) x ?_ (fun hx => ?_); subst x)
    | intro x
    | (lift_lets -underBinder; intro x; refine State.step_have (s := s) x ?_ (fun hx => ?_); subst x)
    | (lift_lets -underBinder; intro x)
    | with_reducible refine State.ite_keep ?_ ?_
    | split

@[simp] theorem State.slotReset_base (s : State) (n : Nat) : (State.slotReset s n).base = s.base := by
  unfold State.slotReset
  repeat' first
    | with_reducible rfl
    | with_reducible assumption
    | with_reducible refine (State.slotResetTo_base _ _ _).trans ?_
    | with_reducible refine (State.pair_base (by assumption)).trans ?_
    | (intro x; refine State.step_have (s := s) x ?_ (fun hx => ?_); subst x)
    | intro x
    | (lift_lets -underBinder; intro x; refine State.step_have (s := s) x ?_ (fun hx => ?_); subst x)
    | (lift_lets -underBinder; intro x)
    | with_reducible refine State.ite_keep ?_ ?_
    | split

@[simp] theorem State.slotClose_base (s : State) (n : Nat) (h : HistRt) (discard : Bool) : (State.slotClose s n h discard).base = s.base := by
  unfold State.slotClose
  repeat' first
    | with_reducible rfl
    | with_reducible assumption
    | with_reducible refine (State.slotReset_base _ _).trans ?_
    | with_reducible refine (State.setHist_base _ _).trans ?_
    | with_reducible refine (State.put_base _ _ _ _).trans ?_
    | with_reducible refine (State.take_base _ _ _).trans ?_
    | with_reducible refine (State.pair_base (by assumption)).trans ?_
    | (intro x; refine State.step_have (s := s) x ?_ (fun hx => ?_); subst x)
    | intro x
    | (lift_lets -underBinder; intro x; refine State.step_have (s := s) x ?_ (fun hx => ?_); subst x)
    | (lift_lets -underBinder; intro x)
    | with_reducible refine State.ite_keep ?_ ?_
    | split

@[simp] theorem State.histClose_base (s : State) (discard : Bool) : (State.histClose s discard).base = s.base := by
  unfold State.histClose
  repeat' first
    | with_reducible rfl
    | with_reducible assumption
    | with_reducible refine (State.slotClose_base _ _ _ _).trans ?_
    | with_reducible refine State.foldl_keep (fun s a => ?_) ?_
    | with_reducible refine (State.pair_base (by assumption)).trans ?_
    | with_reducible refine State.ite_keep ?_ ?_
    | split

@[simp] theorem State.flushQueue_base (s : State) (q : Nat) (b : Nat) (x0 : List DRt) : (State.flushQueue s q b x0).base = s.base := by
  induction x0 generalizing s with
  | nil =>
    unfold State.flushQueue
    repeat' first
      | with_reducible rfl
      | with_reducible assumption
      | with_reducible refine (State.noteBell_base _ _).trans ?_
      | with_reducible refine (State.dupd_base _ _ _ _).trans ?_
      | with_reducible refine (State.commitD_base _ _ _).trans ?_
      | with_reducible refine (State.pair_base (by assumption)).trans ?_
      | (intro x; refine State.step_have (s := s) x ?_ (fun hx => ?_); subst x)
      | intro x
      | (lift_lets -underBinder; intro x; refine State.step_have (s := s) x ?_ (fun hx => ?_); subst x)
      | (lift_lets -underBinder; intro x)
      | with_reducible refine State.ite_keep ?_ ?_
      | split
  | cons a l ih =>
    unfold State.flushQueue
    repeat' first
      | with_reducible rfl
      | with_reducible assumption
      | with_reducible refine (ih _).trans ?_
      | with_reducible refine (State.noteBell_base _ _).trans ?_
      | with_reducible refine (State.dupd_base _ _ _ _).trans ?_
      | with_reducible refine (State.commitD_base _ _ _).trans ?_
      | with_reducible refine (State.pair_base (by assumption)).trans ?_
      | (intro x; refine State.step_have (s := s) x ?_ (fun hx => ?_); subst x)
      | intro x
      | (lift_lets -underBinder; intro x; refine State.step_have (s := s) x ?_ (fun hx => ?_); subst x)
      | (lift_lets -underBinder; intro x)
      | with_reducible refine State.ite_keep ?_ ?_
      | split

@[simp] theorem State.flush_base (s : State) (b : Nat) : (State.flush s b).base = s.base := by
  unfold State.flush
  repeat' first
    | with_reducible rfl
    | with_reducible assumption
    | with_reducible refine (State.flushQueue_base _ _ _ _).trans ?_
    | with_reducible refine State.foldl_keep (fun s a => ?_) ?_
    | with_reducible refine (State.pair_base (by assumption)).trans ?_
    | with_reducible refine State.ite_keep ?_ ?_
    | split

@[simp] theorem State.cmpFault_base (s : State) (kind : Nat) (u : Nat) : (State.cmpFault s kind u).base = s.base := by
  unfold State.cmpFault
  repeat' first
    | with_reducible rfl
    | with_reducible assumption
    | with_reducible refine (State.bump_base _ _ _ _ _).trans ?_
    | with_reducible refine (State.report_base _ _).trans ?_
    | with_reducible refine State.foldl_keep (fun s a => ?_) ?_
    | with_reducible refine (State.pair_base (by assumption)).trans ?_
    | (intro x; refine State.step_have (s := s) x ?_ (fun hx => ?_); subst x)
    | intro x
    | (lift_lets -underBinder; intro x; refine State.step_have (s := s) x ?_ (fun hx => ?_); subst x)
    | (lift_lets -underBinder; intro x)
    | with_reducible refine State.ite_keep ?_ ?_
    | split

@[simp] theorem State.selfTest_base (s : State) (segs : List Nat) (central : Bool) (chk : Chk) : (State.selfTest s segs central chk).1.base = s.base := by
  unfold State.selfTest
  repeat' first
    | with_reducible rfl
    | with_reducible assumption
    | with_reducible refine (State.cmpFault_base _ _ _).trans ?_
    | with_reducible refine (State.fence_base _ _ _ _ _ _).trans ?_
    | with_reducible refine (State.transient_base _ _ _ _ _ _ _).trans ?_
    | with_reducible refine (State.bump_base _ _ _ _ _).trans ?_
    | with_reducible refine (State.setFrozen_base _ _).trans ?_
    | with_reducible refine (State.setObj_base _ _ _).trans ?_
    | with_reducible refine State.foldl_keep (fun s a => ?_) ?_
    | with_reducible refine (State.pair_base (by assumption)).trans ?_
    | (intro x; refine State.step_have (s := s) x ?_ (fun hx => ?_); subst x)
    | intro x
    | (lift_lets -underBinder; intro x; refine State.step_have (s := s) x ?_ (fun hx => ?_); subst x)
    | (lift_lets -underBinder; intro x)
    | with_reducible refine State.ite_keep ?_ ?_
    | split

@[simp] theorem State.streamStop_base (s : State) (q : Nat) (d : DRt) : (State.streamStop s q d).base = s.base := by
  unfold State.streamStop
  repeat' first
    | with_reducible rfl
    | with_reducible assumption
    | with_reducible refine (State.stopConv_base _ _ _ _ _ _).trans ?_
    | with_reducible refine (State.pair_base (by assumption)).trans ?_
    | with_reducible refine State.ite_keep ?_ ?_
    | split

@[simp] theorem State.captureLost_base (s : State) (r : Rout) : (State.captureLost s r).base = s.base := by
  unfold State.captureLost
  repeat' first
    | with_reducible rfl
    | with_reducible assumption
    | with_reducible refine (State.faultRout_base _ _ _ _).trans ?_
    | with_reducible refine (State.pair_base (by assumption)).trans ?_
    | (intro x; refine State.step_have (s := s) x ?_ (fun hx => ?_); subst x)
    | intro x
    | (lift_lets -underBinder; intro x; refine State.step_have (s := s) x ?_ (fun hx => ?_); subst x)
    | (lift_lets -underBinder; intro x)
    | with_reducible refine State.ite_keep ?_ ?_
    | split

@[simp] theorem State.commitNow_base (s : State) (q : Nat) (seq : Nat) : (State.commitNow s q seq).base = s.base := by
  unfold State.commitNow
  repeat' first
    | with_reducible rfl
    | with_reducible assumption
    | with_reducible refine (State.commitD_base _ _ _).trans ?_
    | with_reducible refine (State.pair_base (by assumption)).trans ?_
    | with_reducible refine State.ite_keep ?_ ?_
    | split

@[simp] theorem State.expire_base (s : State) (b : Nat) : (State.expire s b).base = s.base := by
  unfold State.expire
  repeat' first
    | with_reducible rfl
    | with_reducible assumption
    | with_reducible refine (State.captureLost_base _ _).trans ?_
    | with_reducible refine (State.endRout_base _ _ _ _ _).trans ?_
    | with_reducible refine (State.commitNow_base _ _ _).trans ?_
    | with_reducible refine (State.streamStop_base _ _ _).trans ?_
    | with_reducible refine (State.flush_base _ _).trans ?_
    | with_reducible refine State.foldl_keep (fun s a => ?_) ?_
    | with_reducible refine (State.pair_base (by assumption)).trans ?_
    | (intro x; refine State.step_have (s := s) x ?_ (fun hx => ?_); subst x)
    | intro x
    | (lift_lets -underBinder; intro x; refine State.step_have (s := s) x ?_ (fun hx => ?_); subst x)
    | (lift_lets -underBinder; intro x)
    | with_reducible refine State.ite_keep ?_ ?_
    | split

@[simp] theorem State.endWait_base (s : State) (q : Nat) (d : DRt) : (State.endWait s q d).base = s.base := by
  unfold State.endWait
  repeat' first
    | with_reducible rfl
    | with_reducible assumption
    | with_reducible refine (State.doneD_base _ _ _).trans ?_
    | with_reducible refine (State.commitD_base _ _ _).trans ?_
    | with_reducible refine (State.pair_base (by assumption)).trans ?_
    | (intro x; refine State.step_have (s := s) x ?_ (fun hx => ?_); subst x)
    | intro x
    | (lift_lets -underBinder; intro x; refine State.step_have (s := s) x ?_ (fun hx => ?_); subst x)
    | (lift_lets -underBinder; intro x)
    | with_reducible refine State.ite_keep ?_ ?_
    | split

@[simp] theorem State.endWaits_base (s : State) (b : Nat) (every : Bool) : (State.endWaits s b every).base = s.base := by
  unfold State.endWaits
  repeat' first
    | with_reducible rfl
    | with_reducible assumption
    | with_reducible refine (State.endWait_base _ _ _).trans ?_
    | with_reducible refine State.foldl_keep (fun s a => ?_) ?_
    | with_reducible refine (State.pair_base (by assumption)).trans ?_
    | with_reducible refine State.ite_keep ?_ ?_
    | split

@[simp] theorem State.applySync_base (s : State) : (State.applySync s).base = s.base := by
  unfold State.applySync
  repeat' first
    | with_reducible rfl
    | with_reducible assumption
    | with_reducible refine (State.put_base _ _ _ _).trans ?_
    | with_reducible refine (State.setSyncWrites_base _ _).trans ?_
    | with_reducible refine (State.syncApply_base _ _).trans ?_
    | with_reducible refine (State.setSyncUpds_base _ _).trans ?_
    | with_reducible refine State.foldl_keep (fun s a => ?_) ?_
    | with_reducible refine (State.pair_base (by assumption)).trans ?_
    | (intro x; refine State.step_have (s := s) x ?_ (fun hx => ?_); subst x)
    | intro x
    | (lift_lets -underBinder; intro x; refine State.step_have (s := s) x ?_ (fun hx => ?_); subst x)
    | (lift_lets -underBinder; intro x)
    | with_reducible refine State.ite_keep ?_ ?_
    | split

@[simp] theorem State.bytesOf_base (s : State) (q : Nat) (b : Nat) : (State.bytesOf s q b).base = s.base := by
  unfold State.bytesOf
  repeat' first
    | with_reducible rfl
    | with_reducible assumption
    | with_reducible refine (State.updQueue_base _ _ _).trans ?_
    | with_reducible refine (State.acct_base _ _ _ _).trans ?_
    | with_reducible refine (State.pair_base (by assumption)).trans ?_
    | (intro x; refine State.step_have (s := s) x ?_ (fun hx => ?_); subst x)
    | intro x
    | (lift_lets -underBinder; intro x; refine State.step_have (s := s) x ?_ (fun hx => ?_); subst x)
    | (lift_lets -underBinder; intro x)
    | with_reducible refine State.ite_keep ?_ ?_
    | split

@[simp] theorem State.workOf_base (s : State) (q : Nat) : (State.workOf s q).base = s.base := by
  unfold State.workOf
  repeat' first
    | with_reducible rfl
    | with_reducible assumption
    | with_reducible refine (State.updRouts_base _ _ _).trans ?_
    | with_reducible refine (State.updQueue_base _ _ _).trans ?_
    | with_reducible refine (State.acct_base _ _ _ _).trans ?_
    | with_reducible refine (State.pair_base (by assumption)).trans ?_
    | (intro x; refine State.step_have (s := s) x ?_ (fun hx => ?_); subst x)
    | intro x
    | (lift_lets -underBinder; intro x; refine State.step_have (s := s) x ?_ (fun hx => ?_); subst x)
    | (lift_lets -underBinder; intro x)
    | with_reducible refine State.ite_keep ?_ ?_
    | split

@[simp] theorem State.acctQueue_base (s : State) (q : Nat) (b : Nat) : (State.acctQueue s q b).base = s.base := by
  unfold State.acctQueue
  repeat' first
    | with_reducible rfl
    | with_reducible assumption
    | with_reducible refine (State.bytesOf_base _ _ _).trans ?_
    | with_reducible refine (State.workOf_base _ _).trans ?_
    | with_reducible refine (State.acct_base _ _ _ _).trans ?_
    | with_reducible refine (State.updQueue_base _ _ _).trans ?_
    | with_reducible refine (State.put_base _ _ _ _).trans ?_
    | with_reducible refine (State.ringWrite_base _ _ _ _ _ _).trans ?_
    | with_reducible refine (State.pair_base (by assumption)).trans ?_
    | (intro x; refine State.step_have (s := s) x ?_ (fun hx => ?_); subst x)
    | intro x
    | (lift_lets -underBinder; intro x; refine State.step_have (s := s) x ?_ (fun hx => ?_); subst x)
    | (lift_lets -underBinder; intro x)
    | with_reducible refine State.ite_keep ?_ ?_
    | split

@[simp] theorem State.takeBinding_base (s : State) (b : Nat) : (State.takeBinding s b).base = s.base := by
  unfold State.takeBinding
  repeat' first
    | with_reducible rfl
    | with_reducible assumption
    | with_reducible refine (State.applyEpoch_base _ _).trans ?_
    | with_reducible refine (State.setDigest_base _ _).trans ?_
    | with_reducible refine (State.setObj_base _ _ _).trans ?_
    | with_reducible refine (State.pair_base (by assumption)).trans ?_
    | (intro x; refine State.step_have (s := s) x ?_ (fun hx => ?_); subst x)
    | intro x
    | (lift_lets -underBinder; intro x; refine State.step_have (s := s) x ?_ (fun hx => ?_); subst x)
    | (lift_lets -underBinder; intro x)
    | with_reducible refine State.ite_keep ?_ ?_
    | split

@[simp] theorem State.markLate_base (s : State) (b : Nat) : (State.markLate s b).base = s.base := by
  unfold State.markLate
  repeat' first
    | with_reducible rfl
    | with_reducible assumption
    | with_reducible refine (State.setQueues_base _ _).trans ?_
    | with_reducible refine (State.pair_base (by assumption)).trans ?_
    | (intro x; refine State.step_have (s := s) x ?_ (fun hx => ?_); subst x)
    | intro x
    | (lift_lets -underBinder; intro x; refine State.step_have (s := s) x ?_ (fun hx => ?_); subst x)
    | (lift_lets -underBinder; intro x)
    | with_reducible refine State.ite_keep ?_ ?_
    | split

@[simp] theorem State.formed_base (s : State) : (State.formed s).base = s.base := by
  unfold State.formed
  repeat' first
    | with_reducible rfl
    | with_reducible assumption
    | with_reducible refine (State.setBell_base _ _).trans ?_
    | with_reducible refine (State.setClosedAt_base _ _).trans ?_
    | with_reducible refine (State.tryToll_base _).trans ?_
    | with_reducible refine (State.judgeCaptures_base _ _).trans ?_
    | with_reducible refine (State.updRouts_base _ _ _).trans ?_
    | with_reducible refine (State.settle_base _ _ _).trans ?_
    | with_reducible refine State.foldl_keep (fun s a => ?_) ?_
    | with_reducible refine (State.pair_base (by assumption)).trans ?_
    | (intro x; refine State.step_have (s := s) x ?_ (fun hx => ?_); subst x)
    | intro x
    | (lift_lets -underBinder; intro x; refine State.step_have (s := s) x ?_ (fun hx => ?_); subst x)
    | (lift_lets -underBinder; intro x)
    | with_reducible refine State.ite_keep ?_ ?_
    | split

@[simp] theorem State.formResume_base (s : State) : (State.formResume s).base = s.base := by
  unfold State.formResume
  repeat' first
    | with_reducible rfl
    | with_reducible assumption
    | with_reducible refine (State.formMore_base _).trans ?_
    | with_reducible refine (State.formed_base _).trans ?_
    | with_reducible refine (State.pair_base (by assumption)).trans ?_
    | with_reducible refine State.ite_keep ?_ ?_
    | split

@[simp] theorem State.restartBells_base (s : State) : (State.restartBells s).base = s.base := by
  unfold State.restartBells
  repeat' first
    | with_reducible rfl
    | with_reducible assumption
    | with_reducible refine (State.slotReset_base _ _).trans ?_
    | with_reducible refine (State.setQueues_base _ _).trans ?_
    | with_reducible refine (State.setBell_base _ _).trans ?_
    | with_reducible refine (State.setForm_base _ _).trans ?_
    | with_reducible refine (State.setObj_base _ _ _).trans ?_
    | with_reducible refine (State.beginGroup_base _).trans ?_
    | with_reducible refine (State.formArrive_base _).trans ?_
    | with_reducible refine State.foldl_keep (fun s a => ?_) ?_
    | with_reducible refine (State.pair_base (by assumption)).trans ?_
    | (intro x; refine State.step_have (s := s) x ?_ (fun hx => ?_); subst x)
    | intro x
    | (lift_lets -underBinder; intro x; refine State.step_have (s := s) x ?_ (fun hx => ?_); subst x)
    | (lift_lets -underBinder; intro x)
    | with_reducible refine State.ite_keep ?_ ?_
    | split

@[simp] theorem State.closeSteps_base (s : State) (segs : List Nat) (centralFail : Bool) (central : Chk) : (State.closeSteps s segs centralFail central).base = s.base := by
  unfold State.closeSteps
  repeat' first
    | with_reducible rfl
    | with_reducible assumption
    | with_reducible refine (State.flush_base _ _).trans ?_
    | with_reducible refine (State.releaseAll_base _).trans ?_
    | with_reducible refine (State.selfTest_base _ _ _ _).trans ?_
    | with_reducible refine (State.histClose_base _ _).trans ?_
    | with_reducible refine (State.expire_base _ _).trans ?_
    | with_reducible refine (State.endWaits_base _ _ _).trans ?_
    | with_reducible refine (State.applySync_base _).trans ?_
    | with_reducible refine (State.acctQueue_base _ _ _).trans ?_
    | with_reducible refine (State.takeBinding_base _ _).trans ?_
    | with_reducible refine (State.markLate_base _ _).trans ?_
    | with_reducible refine (State.powerClose_base _ _).trans ?_
    | with_reducible refine (State.restartBells_base _).trans ?_
    | with_reducible refine (State.setBell_base _ _).trans ?_
    | with_reducible refine (State.beginForm_base _ _).trans ?_
    | with_reducible refine (State.formed_base _).trans ?_
    | with_reducible refine State.foldl_keep (fun s a => ?_) ?_
    | with_reducible refine (State.pair_base (by assumption)).trans ?_
    | (intro x; refine State.step_have (s := s) x ?_ (fun hx => ?_); subst x)
    | intro x
    | (lift_lets -underBinder; intro x; refine State.step_have (s := s) x ?_ (fun hx => ?_); subst x)
    | (lift_lets -underBinder; intro x)
    | with_reducible refine State.ite_keep ?_ ?_
    | split

@[simp] theorem State.closeBell_base (s : State) (segs : List Nat) (centralFail : Bool) (central : Chk) (seqr : Chk) : (State.closeBell s segs centralFail central seqr).base = s.base := by
  unfold State.closeBell
  repeat' first
    | with_reducible rfl
    | with_reducible assumption
    | with_reducible refine (State.singular_base _ _ _ _).trans ?_
    | with_reducible refine (State.closeSteps_base _ _ _ _).trans ?_
    | with_reducible refine State.foldl_keep (fun s a => ?_) ?_
    | with_reducible refine (State.pair_base (by assumption)).trans ?_
    | (intro x; refine State.step_have (s := s) x ?_ (fun hx => ?_); subst x)
    | intro x
    | (lift_lets -underBinder; intro x; refine State.step_have (s := s) x ?_ (fun hx => ?_); subst x)
    | (lift_lets -underBinder; intro x)
    | with_reducible refine State.ite_keep ?_ ?_
    | split

@[simp] theorem State.openNext_base (s : State) : (State.openNext s).base = s.base := by
  unfold State.openNext
  repeat' first
    | with_reducible rfl
    | with_reducible assumption
    | with_reducible refine (State.setObj_base _ _ _).trans ?_
    | with_reducible refine (State.bump_base _ _ _ _ _).trans ?_
    | with_reducible refine (State.acct_base _ _ _ _).trans ?_
    | with_reducible refine (State.setBell_base _ _).trans ?_
    | with_reducible refine (State.setOpenedAt_base _ _).trans ?_
    | with_reducible refine (State.setDue_base _ _).trans ?_
    | with_reducible refine (State.setOverrun_base _ _).trans ?_
    | with_reducible refine (State.setTransBell_base _ _).trans ?_
    | with_reducible refine (State.formed_base _).trans ?_
    | with_reducible refine State.foldl_keep (fun s a => ?_) ?_
    | with_reducible refine (State.pair_base (by assumption)).trans ?_
    | (intro x; refine State.step_have (s := s) x ?_ (fun hx => ?_); subst x)
    | intro x
    | (lift_lets -underBinder; intro x; refine State.step_have (s := s) x ?_ (fun hx => ?_); subst x)
    | (lift_lets -underBinder; intro x)
    | with_reducible refine State.ite_keep ?_ ?_
    | split

@[simp] theorem State.tollDigest_base (s : State) : (State.tollDigest s).base = s.base := by
  unfold State.tollDigest
  repeat' first
    | with_reducible rfl
    | with_reducible assumption
    | with_reducible refine (State.bump_base _ _ _ _ _).trans ?_
    | with_reducible refine (State.setObj_base _ _ _).trans ?_
    | with_reducible refine (State.report_base _ _).trans ?_
    | with_reducible refine (State.setGroup_base _ _).trans ?_
    | with_reducible refine (State.setMasterDig_base _ _).trans ?_
    | with_reducible refine (State.pair_base (by assumption)).trans ?_
    | (intro x; refine State.step_have (s := s) x ?_ (fun hx => ?_); subst x)
    | intro x
    | (lift_lets -underBinder; intro x; refine State.step_have (s := s) x ?_ (fun hx => ?_); subst x)
    | (lift_lets -underBinder; intro x)
    | with_reducible refine State.ite_keep ?_ ?_
    | split

@[simp] theorem State.toll_base (s : State) : (State.toll s).base = s.base := by
  unfold State.toll
  repeat' first
    | with_reducible rfl
    | with_reducible assumption
    | with_reducible refine (State.formed_base _).trans ?_
    | with_reducible refine (State.until_base _ _).trans ?_
    | with_reducible refine (State.openNext_base _).trans ?_
    | with_reducible refine (State.tollDigest_base _).trans ?_
    | with_reducible refine (State.pair_base (by assumption)).trans ?_
    | with_reducible refine State.ite_keep ?_ ?_
    | split

@[simp] theorem State.openBell0_base (s : State) : (State.openBell0 s).base = s.base := by
  unfold State.openBell0
  repeat' first
    | with_reducible rfl
    | with_reducible assumption
    | with_reducible refine (State.tickFree_base _).trans ?_
    | with_reducible refine (State.setObj_base _ _ _).trans ?_
    | with_reducible refine (State.setQueues_base _ _).trans ?_
    | with_reducible refine (State.setBell_base _ _).trans ?_
    | with_reducible refine (State.setOpenedAt_base _ _).trans ?_
    | with_reducible refine (State.setOverrun_base _ _).trans ?_
    | with_reducible refine (State.takeBinding_base _ _).trans ?_
    | with_reducible refine (State.setPstateAck_base _ _).trans ?_
    | with_reducible refine (State.powerAsk_base _).trans ?_
    | with_reducible refine (State.beginForm_base _ _).trans ?_
    | with_reducible refine (State.setDue_base _ _).trans ?_
    | with_reducible refine (State.formed_base _).trans ?_
    | with_reducible refine (State.pair_base (by assumption)).trans ?_
    | (intro x; refine State.step_have (s := s) x ?_ (fun hx => ?_); subst x)
    | intro x
    | (lift_lets -underBinder; intro x; refine State.step_have (s := s) x ?_ (fun hx => ?_); subst x)
    | (lift_lets -underBinder; intro x)
    | with_reducible refine State.ite_keep ?_ ?_
    | split

@[simp] theorem State.overrunNow_base (s : State) : (State.overrunNow s).base = s.base := by
  unfold State.overrunNow
  repeat' first
    | with_reducible rfl
    | with_reducible assumption
    | with_reducible refine (State.formed_base _).trans ?_
    | with_reducible refine (State.until_base _ _).trans ?_
    | with_reducible refine (State.setOverrun_base _ _).trans ?_
    | with_reducible refine (State.bump_base _ _ _ _ _).trans ?_
    | with_reducible refine (State.report_base _ _).trans ?_
    | with_reducible refine (State.pair_base (by assumption)).trans ?_
    | (intro x; refine State.step_have (s := s) x ?_ (fun hx => ?_); subst x)
    | intro x
    | (lift_lets -underBinder; intro x; refine State.step_have (s := s) x ?_ (fun hx => ?_); subst x)
    | (lift_lets -underBinder; intro x)
    | with_reducible refine State.ite_keep ?_ ?_
    | split

@[simp] theorem State.paceOver_base (s : State) : (State.paceOver s).base = s.base := by
  unfold State.paceOver
  repeat' first
    | with_reducible rfl
    | with_reducible assumption
    | with_reducible refine (State.until_base _ _).trans ?_
    | with_reducible refine (State.paceBreak_base _ _).trans ?_
    | with_reducible refine (State.updForm_base _ _).trans ?_
    | with_reducible refine (State.formMore_base _).trans ?_
    | with_reducible refine (State.formed_base _).trans ?_
    | with_reducible refine (State.pair_base (by assumption)).trans ?_
    | with_reducible refine State.ite_keep ?_ ?_
    | split

end Sys2Proof.Machine
end

