-- ==== Sys2Proof/Laws/Base/RedOps.lean ====
section
/-! SUPPORT. The operations of Machine/RedOps.lean leave the configuration, the waiting commands and host memory as they are. -/

namespace Sys2Proof.Machine

@[simp] theorem State.updRed_base (s : State) (g : Nat) (tag : Nat) (f : RedCtx → RedCtx) : (State.updRed s g tag f).base = s.base := by
  unfold State.updRed
  repeat' first
    | with_reducible rfl
    | with_reducible assumption
    | with_reducible refine (State.setReds_base _ _).trans ?_
    | with_reducible refine (State.pair_base (by assumption)).trans ?_
    | with_reducible refine State.ite_keep ?_ ?_
    | split

@[simp] theorem State.failRed_base (s : State) (q : Nat) (seq : Nat) (g : Nat) (tag : Nat) (cause : Nat) : (State.failRed s q seq g tag cause).base = s.base := by
  unfold State.failRed
  repeat' first
    | with_reducible rfl
    | with_reducible assumption
    | with_reducible refine (State.setReds_base _ _).trans ?_
    | with_reducible refine (State.dupd_base _ _ _ _).trans ?_
    | with_reducible refine (State.pair_base (by assumption)).trans ?_
    | (intro x; refine State.step_have (s := s) x ?_ (fun hx => ?_); subst x)
    | intro x
    | (lift_lets -underBinder; intro x; refine State.step_have (s := s) x ?_ (fun hx => ?_); subst x)
    | (lift_lets -underBinder; intro x)
    | with_reducible refine State.ite_keep ?_ ?_
    | split

@[simp] theorem State.sendRed_base (s : State) (ftype : Nat) (dst : Nat) (g : Nat) (tag : Nat) (count : Nat) (op : Nat) (err : Bool) (l : List (Nat × Nat)) : (State.sendRed s ftype dst g tag count op err l).base = s.base := by
  unfold State.sendRed
  repeat' first
    | with_reducible rfl
    | with_reducible assumption
    | with_reducible refine (State.sendTo_base _ _).trans ?_
    | with_reducible refine State.foldl_keep (fun s a => ?_) ?_
    | with_reducible refine (State.pair_base (by assumption)).trans ?_
    | (intro x; refine State.step_have (s := s) x ?_ (fun hx => ?_); subst x)
    | intro x
    | (lift_lets -underBinder; intro x; refine State.step_have (s := s) x ?_ (fun hx => ?_); subst x)
    | (lift_lets -underBinder; intro x)
    | with_reducible refine State.ite_keep ?_ ?_
    | split

@[simp] theorem State.redNoLan_base (s : State) (q : Nat) (seq : Nat) : (State.redNoLan s q seq).base = s.base := by
  unfold State.redNoLan
  repeat' first
    | with_reducible rfl
    | with_reducible assumption
    | with_reducible refine (State.setReds_base _ _).trans ?_
    | with_reducible refine (State.dupd_base _ _ _ _).trans ?_
    | with_reducible refine State.foldl_keep (fun s a => ?_) ?_
    | with_reducible refine (State.pair_base (by assumption)).trans ?_
    | (intro x; refine State.step_have (s := s) x ?_ (fun hx => ?_); subst x)
    | intro x
    | (lift_lets -underBinder; intro x; refine State.step_have (s := s) x ?_ (fun hx => ?_); subst x)
    | (lift_lets -underBinder; intro x)
    | with_reducible refine State.ite_keep ?_ ?_
    | split

@[simp] theorem State.finishRed_base (s : State) (q : Nat) (seq : Nat) (r : RedD) (ins : List (Nat × Nat)) (outs : List (Nat × Nat)) (e : Except Nat TmEntry) : (State.finishRed s q seq r ins outs e).base = s.base := by
  unfold State.finishRed
  repeat' first
    | with_reducible rfl
    | with_reducible assumption
    | with_reducible refine (State.setReds_base _ _).trans ?_
    | with_reducible refine (State.refuseD_base _ _ _ _ _).trans ?_
    | with_reducible refine (State.access_base _ _ _ _ _ _ _ _).trans ?_
    | with_reducible refine (State.dupd_base _ _ _ _).trans ?_
    | with_reducible refine (State.pair_base (by assumption)).trans ?_
    | (intro x; refine State.step_have (s := s) x ?_ (fun hx => ?_); subst x)
    | intro x
    | (lift_lets -underBinder; intro x; refine State.step_have (s := s) x ?_ (fun hx => ?_); subst x)
    | (lift_lets -underBinder; intro x)
    | with_reducible refine State.ite_keep ?_ ?_
    | split

@[simp] theorem State.redWrite_base (s : State) (q : Nat) (seq : Nat) : (State.redWrite s q seq).base = s.base := by
  unfold State.redWrite
  repeat' first
    | with_reducible rfl
    | with_reducible assumption
    | with_reducible refine (State.wres_base _ _ _).trans ?_
    | with_reducible refine (State.finishRed_base _ _ _ _ _ _ _).trans ?_
    | with_reducible refine State.foldl_keep (fun s a => ?_) ?_
    | with_reducible refine State.reading_keep (fun s => ?_) ?_
    | with_reducible refine State.readThen_from (fun s => ?_) (fun s x h => ?_) ?_
    | with_reducible refine (State.pair_base (by assumption)).trans ?_
    | (intro x; refine State.step_have (s := s) x ?_ (fun hx => ?_); subst x)
    | intro x
    | (lift_lets -underBinder; intro x; refine State.step_have (s := s) x ?_ (fun hx => ?_); subst x)
    | (lift_lets -underBinder; intro x)
    | with_reducible refine State.ite_keep ?_ ?_
    | split

@[simp] theorem State.redWhole_base (s : State) (q : Nat) (seq : Nat) (g : Nat) (tag : Nat) (outs : List (Nat × Nat)) : (State.redWhole s q seq g tag outs).base = s.base := by
  unfold State.redWhole
  repeat' first
    | with_reducible rfl
    | with_reducible assumption
    | with_reducible refine (State.updRed_base _ _ _ _).trans ?_
    | with_reducible refine (State.redWrite_base _ _ _).trans ?_
    | with_reducible refine State.foldl_keep (fun s a => ?_) ?_
    | with_reducible refine (State.pair_base (by assumption)).trans ?_
    | (intro x; refine State.step_have (s := s) x ?_ (fun hx => ?_); subst x)
    | intro x
    | (lift_lets -underBinder; intro x; refine State.step_have (s := s) x ?_ (fun hx => ?_); subst x)
    | (lift_lets -underBinder; intro x)
    | with_reducible refine State.ite_keep ?_ ?_
    | split

@[simp] theorem State.climb_base (s : State) (g : Nat) (tag : Nat) (x0 : Nat) : (State.climb s g tag x0).base = s.base := by
  induction x0 generalizing s with
  | zero =>
    unfold State.climb
    repeat' first
      | with_reducible rfl
      | with_reducible assumption
      | with_reducible refine (State.redNoLan_base _ _ _).trans ?_
      | with_reducible refine (State.failRed_base _ _ _ _ _ _).trans ?_
      | with_reducible refine (State.updRed_base _ _ _ _).trans ?_
      | with_reducible refine (State.sendRed_base _ _ _ _ _ _ _ _ _).trans ?_
      | with_reducible refine (State.redWhole_base _ _ _ _ _ _).trans ?_
      | with_reducible refine State.foldl_keep (fun s a => ?_) ?_
      | with_reducible refine (State.pair_base (by assumption)).trans ?_
      | (intro x; refine State.step_have (s := s) x ?_ (fun hx => ?_); subst x)
      | intro x
      | (lift_lets -underBinder; intro x; refine State.step_have (s := s) x ?_ (fun hx => ?_); subst x)
      | (lift_lets -underBinder; intro x)
      | with_reducible refine State.ite_keep ?_ ?_
      | split
  | succ n ih =>
    unfold State.climb
    repeat' first
      | with_reducible rfl
      | with_reducible assumption
      | with_reducible refine (State.redNoLan_base _ _ _).trans ?_
      | with_reducible refine (State.failRed_base _ _ _ _ _ _).trans ?_
      | with_reducible refine (State.updRed_base _ _ _ _).trans ?_
      | with_reducible refine (State.sendRed_base _ _ _ _ _ _ _ _ _).trans ?_
      | with_reducible refine (State.redWhole_base _ _ _ _ _ _).trans ?_
      | with_reducible refine (ih _).trans ?_
      | with_reducible refine State.foldl_keep (fun s a => ?_) ?_
      | with_reducible refine (State.pair_base (by assumption)).trans ?_
      | (intro x; refine State.step_have (s := s) x ?_ (fun hx => ?_); subst x)
      | intro x
      | (lift_lets -underBinder; intro x; refine State.step_have (s := s) x ?_ (fun hx => ?_); subst x)
      | (lift_lets -underBinder; intro x)
      | with_reducible refine State.ite_keep ?_ ?_
      | split

@[simp] theorem State.redReady_base (s : State) (q : Nat) (seq : Nat) : (State.redReady s q seq).base = s.base := by
  unfold State.redReady
  repeat' first
    | with_reducible rfl
    | with_reducible assumption
    | with_reducible refine (State.setReds_base _ _).trans ?_
    | with_reducible refine (State.stopConv_base _ _ _ _ _ _).trans ?_
    | with_reducible refine (State.updRed_base _ _ _ _).trans ?_
    | with_reducible refine (State.climb_base _ _ _ _).trans ?_
    | with_reducible refine (State.pair_base (by assumption)).trans ?_
    | (intro x; refine State.step_have (s := s) x ?_ (fun hx => ?_); subst x)
    | intro x
    | (lift_lets -underBinder; intro x; refine State.step_have (s := s) x ?_ (fun hx => ?_); subst x)
    | (lift_lets -underBinder; intro x)
    | with_reducible refine State.ite_keep ?_ ?_
    | split

@[simp] theorem State.redRefusal_base (s : State) (q : Nat) (r : RedD) : (State.redRefusal s q r).1.base = s.base := by
  unfold State.redRefusal
  repeat' first
    | with_reducible rfl
    | with_reducible assumption
    | with_reducible refine (State.wres_base _ _ _).trans ?_
    | with_reducible refine (State.pair_base (by assumption)).trans ?_
    | (intro x; refine State.step_have (s := s) x ?_ (fun hx => ?_); subst x)
    | intro x
    | (lift_lets -underBinder; intro x; refine State.step_have (s := s) x ?_ (fun hx => ?_); subst x)
    | (lift_lets -underBinder; intro x)
    | with_reducible refine State.ite_keep ?_ ?_
    | split

@[simp] theorem State.redChecks_base (s : State) (q : Nat) (d : DRt) (chk : Chk) : (State.redChecks s q d chk).base = s.base := by
  unfold State.redChecks
  repeat' first
    | with_reducible rfl
    | with_reducible assumption
    | with_reducible refine (State.transient_base _ _ _ _ _ _ _).trans ?_
    | with_reducible refine (State.fence_base _ _ _ _ _ _).trans ?_
    | with_reducible refine State.foldl_keep (fun s a => ?_) ?_
    | with_reducible refine (State.pair_base (by assumption)).trans ?_
    | (intro x; refine State.step_have (s := s) x ?_ (fun hx => ?_); subst x)
    | intro x
    | (lift_lets -underBinder; intro x; refine State.step_have (s := s) x ?_ (fun hx => ?_); subst x)
    | (lift_lets -underBinder; intro x)
    | with_reducible refine State.ite_keep ?_ ?_
    | split

@[simp] theorem State.redResolve_base (s : State) (q : Nat) (d : DRt) (r : RedD) (chk : Chk) : (State.redResolve s q d r chk).1.base = s.base := by
  unfold State.redResolve
  repeat' first
    | with_reducible rfl
    | with_reducible assumption
    | with_reducible refine (State.redRefusal_base _ _ _).trans ?_
    | with_reducible refine (State.twigFault_base _ _ _ _ _ _).trans ?_
    | with_reducible refine State.foldl_keep (fun s a => ?_) ?_
    | with_reducible refine (State.pair_base (by assumption)).trans ?_
    | (intro x; refine State.step_have (s := s) x ?_ (fun hx => ?_); subst x)
    | intro x
    | (lift_lets -underBinder; intro x; refine State.step_have (s := s) x ?_ (fun hx => ?_); subst x)
    | (lift_lets -underBinder; intro x)
    | with_reducible refine State.ite_keep ?_ ?_
    | split

@[simp] theorem State.runRed_base (s : State) (q : Nat) (d : DRt) (r : RedD) (chk : Chk) (e : TmEntry) : (State.runRed s q d r chk e).base = s.base := by
  unfold State.runRed
  repeat' first
    | with_reducible rfl
    | with_reducible assumption
    | with_reducible refine (State.refuseD_base _ _ _ _ _).trans ?_
    | with_reducible refine (State.dupd_base _ _ _ _).trans ?_
    | with_reducible refine (State.setReds_base _ _).trans ?_
    | with_reducible refine (State.redChecks_base _ _ _ _).trans ?_
    | with_reducible refine (State.readBeats_base _ _ _ _ _).trans ?_
    | with_reducible refine (State.redReady_base _ _ _).trans ?_
    | with_reducible refine State.foldl_keep (fun s a => ?_) ?_
    | with_reducible refine (State.pair_base (by assumption)).trans ?_
    | (intro x; refine State.step_have (s := s) x ?_ (fun hx => ?_); subst x)
    | intro x
    | (lift_lets -underBinder; intro x; refine State.step_have (s := s) x ?_ (fun hx => ?_); subst x)
    | (lift_lets -underBinder; intro x)
    | with_reducible refine State.ite_keep ?_ ?_
    | split

@[simp] theorem State.dispRed_base (s : State) (q : Nat) (d : DRt) (r : RedD) (chk : Chk) : (State.dispRed s q d r chk).base = s.base := by
  unfold State.dispRed
  repeat' first
    | with_reducible rfl
    | with_reducible assumption
    | with_reducible refine (State.refuseD_base _ _ _ _ _).trans ?_
    | with_reducible refine (State.doneD_base _ _ _).trans ?_
    | with_reducible refine (State.redResolve_base _ _ _ _ _).trans ?_
    | with_reducible refine (State.runRed_base _ _ _ _ _ _).trans ?_
    | with_reducible refine State.readThen_from (fun s => ?_) (fun s x h => ?_) ?_
    | with_reducible refine (State.pair_base (by assumption)).trans ?_
    | (intro x; refine State.step_have (s := s) x ?_ (fun hx => ?_); subst x)
    | intro x
    | (lift_lets -underBinder; intro x; refine State.step_have (s := s) x ?_ (fun hx => ?_); subst x)
    | (lift_lets -underBinder; intro x)
    | with_reducible refine State.ite_keep ?_ ?_
    | split

@[simp] theorem State.redUp_base (s : State) (p : Nat) (f : Frame) : (State.redUp s p f).base = s.base := by
  unfold State.redUp
  repeat' first
    | with_reducible rfl
    | with_reducible assumption
    | with_reducible refine (State.updRed_base _ _ _ _).trans ?_
    | with_reducible refine (State.climb_base _ _ _ _).trans ?_
    | with_reducible refine (State.updBport_base _ _ _).trans ?_
    | with_reducible refine (State.setReds_base _ _).trans ?_
    | with_reducible refine (State.pair_base (by assumption)).trans ?_
    | (intro x; refine State.step_have (s := s) x ?_ (fun hx => ?_); subst x)
    | intro x
    | (lift_lets -underBinder; intro x; refine State.step_have (s := s) x ?_ (fun hx => ?_); subst x)
    | (lift_lets -underBinder; intro x)
    | with_reducible refine State.ite_keep ?_ ?_
    | split

@[simp] theorem State.redSpace_base (s : State) : (State.redSpace s).base = s.base := by
  unfold State.redSpace
  repeat' first
    | with_reducible rfl
    | with_reducible assumption
    | with_reducible refine (State.redUp_base _ _ _).trans ?_
    | with_reducible refine (State.updBport_base _ _ _).trans ?_
    | with_reducible refine State.foldl_keep (fun s a => ?_) ?_
    | with_reducible refine (State.pair_base (by assumption)).trans ?_
    | (intro x; refine State.step_have (s := s) x ?_ (fun hx => ?_); subst x)
    | intro x
    | (lift_lets -underBinder; intro x; refine State.step_have (s := s) x ?_ (fun hx => ?_); subst x)
    | (lift_lets -underBinder; intro x)
    | with_reducible refine State.ite_keep ?_ ?_
    | split

@[simp] theorem State.redDown_base (s : State) (f : Frame) : (State.redDown s f).base = s.base := by
  unfold State.redDown
  repeat' first
    | with_reducible rfl
    | with_reducible assumption
    | with_reducible refine (State.sendTo_base _ _).trans ?_
    | with_reducible refine (State.failRed_base _ _ _ _ _ _).trans ?_
    | with_reducible refine (State.updRed_base _ _ _ _).trans ?_
    | with_reducible refine (State.redWhole_base _ _ _ _ _ _).trans ?_
    | with_reducible refine State.foldl_keep (fun s a => ?_) ?_
    | with_reducible refine (State.pair_base (by assumption)).trans ?_
    | (intro x; refine State.step_have (s := s) x ?_ (fun hx => ?_); subst x)
    | intro x
    | (lift_lets -underBinder; intro x; refine State.step_have (s := s) x ?_ (fun hx => ?_); subst x)
    | (lift_lets -underBinder; intro x)
    | with_reducible refine State.ite_keep ?_ ?_
    | split

@[simp] theorem State.redLosses_base (s : State) : (State.redLosses s).base = s.base := by
  unfold State.redLosses
  repeat' first
    | with_reducible rfl
    | with_reducible assumption
    | with_reducible refine (State.failRed_base _ _ _ _ _ _).trans ?_
    | with_reducible refine State.foldl_keep (fun s a => ?_) ?_
    | with_reducible refine (State.pair_base (by assumption)).trans ?_
    | with_reducible refine State.ite_keep ?_ ?_
    | split

@[simp] theorem State.redTimeout_base (s : State) (q : Nat) (seq : Nat) : (State.redTimeout s q seq).base = s.base := by
  unfold State.redTimeout
  repeat' first
    | with_reducible rfl
    | with_reducible assumption
    | with_reducible refine (State.failRed_base _ _ _ _ _ _).trans ?_
    | with_reducible refine (State.redSpace_base _).trans ?_
    | with_reducible refine (State.pair_base (by assumption)).trans ?_
    | with_reducible refine State.ite_keep ?_ ?_
    | split

end Sys2Proof.Machine
end

