-- ==== Sys2Proof/Laws/Base/BelfryOps.lean ====
section
/-! SUPPORT. The operations of Machine/BelfryOps.lean leave the configuration, the waiting commands and host memory as they are. -/

namespace Sys2Proof.Machine

@[simp] theorem State.flushPort_base (s : State) (p : Nat) (x0 : Nat) : (State.flushPort s p x0).base = s.base := by
  induction x0 generalizing s with
  | zero =>
    unfold State.flushPort
    repeat' first
      | with_reducible rfl
      | with_reducible assumption
      | with_reducible refine (State.updBport_base _ _ _).trans ?_
      | with_reducible refine (State.emit_base _ _ _).trans ?_
      | with_reducible refine (State.pair_base (by assumption)).trans ?_
      | (intro x; refine State.step_have (s := s) x ?_ (fun hx => ?_); subst x)
      | intro x
      | (lift_lets -underBinder; intro x; refine State.step_have (s := s) x ?_ (fun hx => ?_); subst x)
      | (lift_lets -underBinder; intro x)
      | with_reducible refine State.ite_keep ?_ ?_
      | split
  | succ n ih =>
    unfold State.flushPort
    repeat' first
      | with_reducible rfl
      | with_reducible assumption
      | with_reducible refine (ih _).trans ?_
      | with_reducible refine (State.updBport_base _ _ _).trans ?_
      | with_reducible refine (State.emit_base _ _ _).trans ?_
      | with_reducible refine (State.pair_base (by assumption)).trans ?_
      | (intro x; refine State.step_have (s := s) x ?_ (fun hx => ?_); subst x)
      | intro x
      | (lift_lets -underBinder; intro x; refine State.step_have (s := s) x ?_ (fun hx => ?_); subst x)
      | (lift_lets -underBinder; intro x)
      | with_reducible refine State.ite_keep ?_ ?_
      | split

@[simp] theorem State.trainPort_base (s : State) (p : Nat) : (State.trainPort s p).base = s.base := by
  unfold State.trainPort
  repeat' first
    | with_reducible rfl
    | with_reducible assumption
    | with_reducible refine (State.updBport_base _ _ _).trans ?_
    | with_reducible refine (State.emit_base _ _ _).trans ?_
    | with_reducible refine (State.pair_base (by assumption)).trans ?_
    | with_reducible refine State.ite_keep ?_ ?_
    | split

@[simp] theorem State.linkTake_base (s : State) (p : Nat) (f : Frame) : (State.linkTake s p f).base = s.base := by
  unfold State.linkTake
  repeat' first
    | with_reducible rfl
    | with_reducible assumption
    | with_reducible refine (State.updBport_base _ _ _).trans ?_
    | with_reducible refine (State.transient_base _ _ _ _ _ _ _).trans ?_
    | with_reducible refine (State.flushPort_base _ _ _).trans ?_
    | with_reducible refine State.foldl_keep (fun s a => ?_) ?_
    | with_reducible refine (State.pair_base (by assumption)).trans ?_
    | (intro x; refine State.step_have (s := s) x ?_ (fun hx => ?_); subst x)
    | intro x
    | (lift_lets -underBinder; intro x; refine State.step_have (s := s) x ?_ (fun hx => ?_); subst x)
    | (lift_lets -underBinder; intro x)
    | with_reducible refine State.ite_keep ?_ ?_
    | split

@[simp] theorem State.onTrain_base (s : State) (p : Nat) (f : Frame) : (State.onTrain s p f).base = s.base := by
  unfold State.onTrain
  repeat' first
    | with_reducible rfl
    | with_reducible assumption
    | with_reducible refine (State.updBport_base _ _ _).trans ?_
    | with_reducible refine (State.put_base _ _ _ _).trans ?_
    | with_reducible refine (State.keepParent_base _ _ ?_).trans ?_
    | with_reducible refine (State.setUnit_base _ _ _ _).trans ?_
    | with_reducible refine (State.flushPort_base _ _ _).trans ?_
    | with_reducible refine (State.calibrate_base _ _).trans ?_
    | with_reducible refine (State.formArrive_base _).trans ?_
    | with_reducible refine (State.pair_base (by assumption)).trans ?_
    | (intro x; refine State.step_have (s := s) x ?_ (fun hx => ?_); subst x)
    | intro x
    | (lift_lets -underBinder; intro x; refine State.step_have (s := s) x ?_ (fun hx => ?_); subst x)
    | (lift_lets -underBinder; intro x)
    | with_reducible refine State.ite_keep ?_ ?_
    | split

@[simp] theorem State.onCalReq_base (s : State) (p : Nat) (f : Frame) : (State.onCalReq s p f).base = s.base := by
  unfold State.onCalReq
  repeat' first
    | with_reducible rfl
    | with_reducible assumption
    | with_reducible refine (State.sendOn_base _ _ _).trans ?_
    | with_reducible refine (State.pair_base (by assumption)).trans ?_
    | with_reducible refine State.ite_keep ?_ ?_
    | split

@[simp] theorem State.onCalRsp_base (s : State) (p : Nat) (f : Frame) : (State.onCalRsp s p f).base = s.base := by
  unfold State.onCalRsp
  repeat' first
    | with_reducible rfl
    | with_reducible assumption
    | with_reducible refine (State.updBport_base _ _ _).trans ?_
    | with_reducible refine (State.put_base _ _ _ _).trans ?_
    | with_reducible refine (State.setObj_base _ _ _).trans ?_
    | with_reducible refine (State.setTb_base _ _).trans ?_
    | with_reducible refine (State.setRate_base _ _).trans ?_
    | with_reducible refine (State.linkEvent_base _ _ _ _).trans ?_
    | with_reducible refine (State.pair_base (by assumption)).trans ?_
    | (intro x; refine State.step_have (s := s) x ?_ (fun hx => ?_); subst x)
    | intro x
    | (lift_lets -underBinder; intro x; refine State.step_have (s := s) x ?_ (fun hx => ?_); subst x)
    | (lift_lets -underBinder; intro x)
    | with_reducible refine State.ite_keep ?_ ?_
    | split

@[simp] theorem State.releaseGroup_base (s : State) : (State.releaseGroup s).base = s.base := by
  unfold State.releaseGroup
  repeat' first
    | with_reducible rfl
    | with_reducible assumption
    | with_reducible refine (State.openBell0_base _).trans ?_
    | with_reducible refine (State.updGroup_base _ _).trans ?_
    | with_reducible refine (State.setObj_base _ _ _).trans ?_
    | with_reducible refine (State.sendRelease_base _ _ _ _ _).trans ?_
    | with_reducible refine (State.toChildren_base _ _ _ _ _).trans ?_
    | with_reducible refine (State.linkEvent_base _ _ _ _).trans ?_
    | with_reducible refine (State.until_base _ _).trans ?_
    | with_reducible refine State.foldl_keep (fun s a => ?_) ?_
    | with_reducible refine (State.pair_base (by assumption)).trans ?_
    | (intro x; refine State.step_have (s := s) x ?_ (fun hx => ?_); subst x)
    | intro x
    | (lift_lets -underBinder; intro x; refine State.step_have (s := s) x ?_ (fun hx => ?_); subst x)
    | (lift_lets -underBinder; intro x)
    | with_reducible refine State.ite_keep ?_ ?_
    | split

@[simp] theorem State.onArrive_base (s : State) (f : Frame) : (State.onArrive s f).base = s.base := by
  unfold State.onArrive
  repeat' first
    | with_reducible rfl
    | with_reducible assumption
    | with_reducible refine (State.updGroup_base _ _).trans ?_
    | with_reducible refine (State.releaseGroup_base _).trans ?_
    | with_reducible refine (State.formArrive_base _).trans ?_
    | with_reducible refine (State.tryToll_base _).trans ?_
    | with_reducible refine (State.pair_base (by assumption)).trans ?_
    | (intro x; refine State.step_have (s := s) x ?_ (fun hx => ?_); subst x)
    | intro x
    | (lift_lets -underBinder; intro x; refine State.step_have (s := s) x ?_ (fun hx => ?_); subst x)
    | (lift_lets -underBinder; intro x)
    | with_reducible refine State.ite_keep ?_ ?_
    | split

@[simp] theorem State.tardy_base (s : State) (late : Bool) (src : Nat) : (State.tardy s late src).base = s.base := by
  unfold State.tardy
  repeat' first
    | with_reducible rfl
    | with_reducible assumption
    | with_reducible refine (State.bump_base _ _ _ _ _).trans ?_
    | with_reducible refine (State.linkEvent_base _ _ _ _).trans ?_
    | with_reducible refine (State.pair_base (by assumption)).trans ?_
    | with_reducible refine State.ite_keep ?_ ?_
    | split

@[simp] theorem State.onRelease_base (s : State) (f : Frame) : (State.onRelease s f).base = s.base := by
  unfold State.onRelease
  repeat' first
    | with_reducible rfl
    | with_reducible assumption
    | with_reducible refine (State.toChildren_base _ _ _ _ _).trans ?_
    | with_reducible refine (State.tardy_base _ _ _).trans ?_
    | with_reducible refine (State.updGroup_base _ _).trans ?_
    | with_reducible refine (State.until_base _ _).trans ?_
    | with_reducible refine (State.openBell0_base _).trans ?_
    | with_reducible refine (State.setMasterDig_base _ _).trans ?_
    | with_reducible refine (State.formed_base _).trans ?_
    | with_reducible refine (State.toll_base _).trans ?_
    | with_reducible refine (State.pair_base (by assumption)).trans ?_
    | (intro x; refine State.step_have (s := s) x ?_ (fun hx => ?_); subst x)
    | intro x
    | (lift_lets -underBinder; intro x; refine State.step_have (s := s) x ?_ (fun hx => ?_); subst x)
    | (lift_lets -underBinder; intro x)
    | with_reducible refine State.ite_keep ?_ ?_
    | split

@[simp] theorem State.learnLost_base (s : State) (r : Nat) (cause : Nat) (tell : Bool) : (State.learnLost s r cause tell).base = s.base := by
  unfold State.learnLost
  repeat' first
    | with_reducible rfl
    | with_reducible assumption
    | with_reducible refine (State.loseRank_base _ _).trans ?_
    | with_reducible refine (State.updGroup_base _ _).trans ?_
    | with_reducible refine (State.toChildren_base _ _ _ _ _).trans ?_
    | with_reducible refine (State.sendTo_base _ _).trans ?_
    | with_reducible refine (State.tryToll_base _).trans ?_
    | with_reducible refine (State.redLosses_base _).trans ?_
    | with_reducible refine (State.pair_base (by assumption)).trans ?_
    | (intro x; refine State.step_have (s := s) x ?_ (fun hx => ?_); subst x)
    | intro x
    | (lift_lets -underBinder; intro x; refine State.step_have (s := s) x ?_ (fun hx => ?_); subst x)
    | (lift_lets -underBinder; intro x)
    | with_reducible refine State.ite_keep ?_ ?_
    | split

@[simp] theorem State.forward_base (s : State) (f : Frame) : (State.forward s f).base = s.base := by
  unfold State.forward
  repeat' first
    | with_reducible rfl
    | with_reducible assumption
    | with_reducible refine (State.linkEvent_base _ _ _ _).trans ?_
    | with_reducible refine (State.sendOn_base _ _ _).trans ?_
    | with_reducible refine (State.pair_base (by assumption)).trans ?_
    | with_reducible refine State.ite_keep ?_ ?_
    | split

@[simp] theorem State.onFrame_base (s : State) (p : Nat) (f : Frame) : (State.onFrame s p f).base = s.base := by
  unfold State.onFrame
  repeat' first
    | with_reducible rfl
    | with_reducible assumption
    | with_reducible refine (State.onTrain_base _ _ _).trans ?_
    | with_reducible refine (State.onCalReq_base _ _ _).trans ?_
    | with_reducible refine (State.onCalRsp_base _ _ _).trans ?_
    | with_reducible refine (State.forward_base _ _).trans ?_
    | with_reducible refine (State.onArrive_base _ _).trans ?_
    | with_reducible refine (State.onRelease_base _ _).trans ?_
    | with_reducible refine (State.redUp_base _ _ _).trans ?_
    | with_reducible refine (State.redDown_base _ _).trans ?_
    | with_reducible refine (State.learnLost_base _ _ _ _).trans ?_
    | with_reducible refine (State.pair_base (by assumption)).trans ?_
    | with_reducible refine State.ite_keep ?_ ?_
    | split

@[simp] theorem State.rxFrame_base (s : State) (p : Nat) (f : Frame) : (State.rxFrame s p f).base = s.base := by
  unfold State.rxFrame
  repeat' first
    | with_reducible rfl
    | with_reducible assumption
    | with_reducible refine (State.linkTake_base _ _ _).trans ?_
    | with_reducible refine (State.linkEvent_base _ _ _ _).trans ?_
    | with_reducible refine (State.onFrame_base _ _ _).trans ?_
    | with_reducible refine (State.redSpace_base _).trans ?_
    | with_reducible refine (State.pair_base (by assumption)).trans ?_
    | (intro x; refine State.step_have (s := s) x ?_ (fun hx => ?_); subst x)
    | intro x
    | (lift_lets -underBinder; intro x; refine State.step_have (s := s) x ?_ (fun hx => ?_); subst x)
    | (lift_lets -underBinder; intro x)
    | with_reducible refine State.ite_keep ?_ ?_
    | split

@[simp] theorem State.rxWords_base (s : State) (p : Nat) (l : List Nat) (rxErr : Bool) : (State.rxWords s p l rxErr).base = s.base := by
  unfold State.rxWords
  repeat' first
    | with_reducible rfl
    | with_reducible assumption
    | with_reducible refine (State.rxFrame_base _ _ _).trans ?_
    | with_reducible refine State.foldl_keep (fun s a => ?_) ?_
    | with_reducible refine (State.pair_base (by assumption)).trans ?_
    | (intro x; refine State.step_have (s := s) x ?_ (fun hx => ?_); subst x)
    | intro x
    | (lift_lets -underBinder; intro x; refine State.step_have (s := s) x ?_ (fun hx => ?_); subst x)
    | (lift_lets -underBinder; intro x)
    | with_reducible refine State.ite_keep ?_ ?_
    | split

@[simp] theorem State.retransmit_base (s : State) (p : Nat) : (State.retransmit s p).base = s.base := by
  unfold State.retransmit
  repeat' first
    | with_reducible rfl
    | with_reducible assumption
    | with_reducible refine (State.fence_base _ _ _ _ _ _).trans ?_
    | with_reducible refine (State.linkEvent_base _ _ _ _).trans ?_
    | with_reducible refine (State.updBport_base _ _ _).trans ?_
    | with_reducible refine (State.setBtx_base _ _).trans ?_
    | with_reducible refine (State.pair_base (by assumption)).trans ?_
    | (intro x; refine State.step_have (s := s) x ?_ (fun hx => ?_); subst x)
    | intro x
    | (lift_lets -underBinder; intro x; refine State.step_have (s := s) x ?_ (fun hx => ?_); subst x)
    | (lift_lets -underBinder; intro x)
    | with_reducible refine State.ite_keep ?_ ?_
    | split

@[simp] theorem State.calNow_base (s : State) (p : Nat) : (State.calNow s p).base = s.base := by
  unfold State.calNow
  repeat' first
    | with_reducible rfl
    | with_reducible assumption
    | with_reducible refine (State.calibrate_base _ _).trans ?_
    | with_reducible refine (State.pair_base (by assumption)).trans ?_
    | with_reducible refine State.ite_keep ?_ ?_
    | split

@[simp] theorem State.lockFell_base (s : State) (p : Nat) : (State.lockFell s p).base = s.base := by
  unfold State.lockFell
  repeat' first
    | with_reducible rfl
    | with_reducible assumption
    | with_reducible refine (State.keepParent_base _ _ ?_).trans ?_
    | with_reducible refine (State.updBport_base _ _ _).trans ?_
    | with_reducible refine (State.setUnit_base _ _ _ _).trans ?_
    | with_reducible refine (State.pair_base (by assumption)).trans ?_
    | (intro x; refine State.step_have (s := s) x ?_ (fun hx => ?_); subst x)
    | intro x
    | (lift_lets -underBinder; intro x; refine State.step_have (s := s) x ?_ (fun hx => ?_); subst x)
    | (lift_lets -underBinder; intro x)
    | with_reducible refine State.ite_keep ?_ ?_
    | split

@[simp] theorem State.lockRose_base (s : State) (p : Nat) : (State.lockRose s p).base = s.base := by
  unfold State.lockRose
  repeat' first
    | with_reducible rfl
    | with_reducible assumption
    | with_reducible refine (State.updBport_base _ _ _).trans ?_
    | with_reducible refine (State.trainPort_base _ _).trans ?_
    | with_reducible refine (State.pair_base (by assumption)).trans ?_
    | (intro x; refine State.step_have (s := s) x ?_ (fun hx => ?_); subst x)
    | intro x
    | (lift_lets -underBinder; intro x; refine State.step_have (s := s) x ?_ (fun hx => ?_); subst x)
    | (lift_lets -underBinder; intro x)
    | with_reducible refine State.ite_keep ?_ ?_
    | split

@[simp] theorem State.retrainFailed_base (s : State) (p : Nat) : (State.retrainFailed s p).base = s.base := by
  unfold State.retrainFailed
  repeat' first
    | with_reducible rfl
    | with_reducible assumption
    | with_reducible refine (State.updBport_base _ _ _).trans ?_
    | with_reducible refine (State.fence_base _ _ _ _ _ _).trans ?_
    | with_reducible refine (State.linkEvent_base _ _ _ _).trans ?_
    | with_reducible refine (State.pair_base (by assumption)).trans ?_
    | with_reducible refine State.ite_keep ?_ ?_
    | split

@[simp] theorem State.aliveNow_base (s : State) : (State.aliveNow s).base = s.base := by
  unfold State.aliveNow
  repeat' first
    | with_reducible rfl
    | with_reducible assumption
    | with_reducible refine (State.sendTo_base _ _).trans ?_
    | with_reducible refine (State.updGroup_base _ _).trans ?_
    | with_reducible refine (State.pair_base (by assumption)).trans ?_
    | (intro x; refine State.step_have (s := s) x ?_ (fun hx => ?_); subst x)
    | intro x
    | (lift_lets -underBinder; intro x; refine State.step_have (s := s) x ?_ (fun hx => ?_); subst x)
    | (lift_lets -underBinder; intro x)
    | with_reducible refine State.ite_keep ?_ ?_
    | split

@[simp] theorem State.silent_base (s : State) (r : Nat) : (State.silent s r).base = s.base := by
  unfold State.silent
  repeat' first
    | with_reducible rfl
    | with_reducible assumption
    | with_reducible refine (State.learnLost_base _ _ _ _).trans ?_
    | with_reducible refine (State.pair_base (by assumption)).trans ?_
    | with_reducible refine State.ite_keep ?_ ?_
    | split

@[simp] theorem State.formTimeout_base (s : State) : (State.formTimeout s).base = s.base := by
  unfold State.formTimeout
  repeat' first
    | with_reducible rfl
    | with_reducible assumption
    | with_reducible refine (State.releaseGroup_base _).trans ?_
    | with_reducible refine (State.pair_base (by assumption)).trans ?_
    | with_reducible refine State.ite_keep ?_ ?_
    | split

@[simp] theorem State.formAlone_base (s : State) : (State.formAlone s).base = s.base := by
  unfold State.formAlone
  repeat' first
    | with_reducible rfl
    | with_reducible assumption
    | with_reducible refine (State.aloneGroup_base _).trans ?_
    | with_reducible refine (State.openBell0_base _).trans ?_
    | with_reducible refine (State.pair_base (by assumption)).trans ?_
    | with_reducible refine State.ite_keep ?_ ?_
    | split

end Sys2Proof.Machine
end

