-- ==== Sys2Proof/Laws/Base/Bells.lean ====
section
/-! SUPPORT. The operations of Machine/Bells.lean leave the configuration, the waiting commands and host memory as they are. -/

namespace Sys2Proof.Machine

@[simp] theorem State.deadlineAt_base (s : State) (q : Nat) (seq : Nat) : (State.deadlineAt s q seq).base = s.base := by
  unfold State.deadlineAt
  repeat' first
    | with_reducible rfl
    | with_reducible assumption
    | with_reducible refine (State.endRout_base _ _ _ _ _).trans ?_
    | with_reducible refine (State.commitNow_base _ _ _).trans ?_
    | with_reducible refine (State.pair_base (by assumption)).trans ?_
    | with_reducible refine State.ite_keep ?_ ?_
    | split

@[simp] theorem State.streamTimeout_base (s : State) (q : Nat) (seq : Nat) : (State.streamTimeout s q seq).base = s.base := by
  unfold State.streamTimeout
  repeat' first
    | with_reducible rfl
    | with_reducible assumption
    | with_reducible refine (State.streamStop_base _ _ _).trans ?_
    | with_reducible refine (State.pair_base (by assumption)).trans ?_
    | with_reducible refine State.ite_keep ?_ ?_
    | split

@[simp] theorem State.bellWaitAt_base (s : State) (q : Nat) (seq : Nat) : (State.bellWaitAt s q seq).base = s.base := by
  unfold State.bellWaitAt
  repeat' first
    | with_reducible rfl
    | with_reducible assumption
    | with_reducible refine (State.endWait_base _ _ _).trans ?_
    | with_reducible refine (State.pair_base (by assumption)).trans ?_
    | with_reducible refine State.ite_keep ?_ ?_
    | split

end Sys2Proof.Machine
end

