-- ==== Sys2Proof/Laws/Base/Descriptors.lean ====
section
/-! SUPPORT. The operations of Machine/Descriptors.lean leave the configuration, the waiting commands and host memory as they are. -/

namespace Sys2Proof.Machine

@[simp] theorem State.sapTake_base (s : State) (q : Nat) (want : Desc → Bool) : (State.sapTake s q want).base = s.base := by
  unfold State.sapTake
  repeat' first
    | with_reducible rfl
    | with_reducible assumption
    | with_reducible refine (State.setsOf_base _ _ _ _).trans ?_
    | with_reducible refine (State.take_base _ _ _).trans ?_
    | with_reducible refine (State.updQueue_base _ _ _).trans ?_
    | with_reducible refine (State.setSapTurn_base _ _).trans ?_
    | with_reducible refine State.reading_keep (fun s => ?_) ?_
    | with_reducible refine (State.pair_base (by assumption)).trans ?_
    | (intro x; refine State.step_have (s := s) x ?_ (fun hx => ?_); subst x)
    | intro x
    | (lift_lets -underBinder; intro x; refine State.step_have (s := s) x ?_ (fun hx => ?_); subst x)
    | (lift_lets -underBinder; intro x)
    | with_reducible refine State.ite_keep ?_ ?_
    | split

theorem State.dispatch_base (s : State) (q : Nat) (want : Desc → Bool) {f : State → DRt → State} (hf : ∀ s d, (f s d).base = s.base) : (s.dispatch q want f).base = s.base := by
  unfold State.dispatch
  repeat' first
    | with_reducible rfl
    | with_reducible assumption
    | with_reducible refine (State.sapTake_base _ _ _).trans ?_
    | with_reducible refine (hf _ _).trans ?_
    | with_reducible refine State.reading_keep (fun s => ?_) ?_
    | with_reducible refine (State.pair_base (by assumption)).trans ?_
    | (intro x; refine State.step_have (s := s) x ?_ (fun hx => ?_); subst x)
    | intro x
    | (lift_lets -underBinder; intro x; refine State.step_have (s := s) x ?_ (fun hx => ?_); subst x)
    | (lift_lets -underBinder; intro x)
    | with_reducible refine State.ite_keep ?_ ?_
    | split

@[simp] theorem State.startConv_base (q : Nat) (ks : TileChks) (s : State) (d : DRt) : (State.startConv q ks s d).base = s.base := by
  unfold State.startConv
  repeat' first
    | with_reducible rfl
    | with_reducible assumption
    | with_reducible refine (State.dispConv_base _ _ _ _ _).trans ?_
    | with_reducible refine (State.pair_base (by assumption)).trans ?_
    | with_reducible refine State.ite_keep ?_ ?_
    | split

@[simp] theorem State.startRout_base (q : Nat) (s : State) (d : DRt) : (State.startRout q s d).base = s.base := by
  unfold State.startRout
  repeat' first
    | with_reducible rfl
    | with_reducible assumption
    | with_reducible refine (State.refuseD_base _ _ _ _ _).trans ?_
    | with_reducible refine (State.dispRout_base _ _ _).trans ?_
    | with_reducible refine (State.pair_base (by assumption)).trans ?_
    | with_reducible refine State.ite_keep ?_ ?_
    | split

@[simp] theorem State.startRed_base (q : Nat) (chk : Chk) (s : State) (d : DRt) : (State.startRed q chk s d).base = s.base := by
  unfold State.startRed
  repeat' first
    | with_reducible rfl
    | with_reducible assumption
    | with_reducible refine (State.dispRed_base _ _ _ _ _).trans ?_
    | with_reducible refine (State.pair_base (by assumption)).trans ?_
    | with_reducible refine State.ite_keep ?_ ?_
    | split

@[simp] theorem State.startCtl_base (q : Nat) (s : State) (d : DRt) : (State.startCtl q s d).base = s.base := by
  unfold State.startCtl
  repeat' first
    | with_reducible rfl
    | with_reducible assumption
    | with_reducible refine (State.refuseD_base _ _ _ _ _).trans ?_
    | with_reducible refine (State.dupd_base _ _ _ _).trans ?_
    | with_reducible refine (State.doneD_base _ _ _).trans ?_
    | with_reducible refine (State.pair_base (by assumption)).trans ?_
    | with_reducible refine State.ite_keep ?_ ?_
    | split

@[simp] theorem State.waitTimeout_base (s : State) (q : Nat) (seq : Nat) : (State.waitTimeout s q seq).base = s.base := by
  unfold State.waitTimeout
  repeat' first
    | with_reducible rfl
    | with_reducible assumption
    | with_reducible refine (State.refuseD_base _ _ _ _ _).trans ?_
    | with_reducible refine (State.pair_base (by assumption)).trans ?_
    | with_reducible refine State.ite_keep ?_ ?_
    | split

@[simp] theorem State.commitAt_base (s : State) (q : Nat) (seq : Nat) : (State.commitAt s q seq).base = s.base := by
  unfold State.commitAt
  repeat' first
    | with_reducible rfl
    | with_reducible assumption
    | with_reducible refine (State.commitD_base _ _ _).trans ?_
    | with_reducible refine (State.pair_base (by assumption)).trans ?_
    | with_reducible refine State.ite_keep ?_ ?_
    | split

end Sys2Proof.Machine
end

