-- ==== Sys2Proof/Laws/Base/Doorbells.lean ====
section
/-! SUPPORT. The operations of Machine/Doorbells.lean leave the configuration, the waiting commands and host memory as they are. -/

namespace Sys2Proof.Machine

@[simp] theorem State.tailTo_base (s : State) (q : Nat) (index : Nat) : (State.tailTo s q index).base = s.base := by
  unfold State.tailTo
  repeat' first
    | with_reducible rfl
    | with_reducible assumption
    | with_reducible refine (State.put_base _ _ _ _).trans ?_
    | with_reducible refine (State.askRing_base _ _ _).trans ?_
    | with_reducible refine (State.setObj_base _ _ _).trans ?_
    | with_reducible refine (State.powerAsk_base _).trans ?_
    | with_reducible refine (State.formResume_base _).trans ?_
    | with_reducible refine (State.pair_base (by assumption)).trans ?_
    | (intro x; refine State.step_have (s := s) x ?_ (fun hx => ?_); subst x)
    | intro x
    | (lift_lets -underBinder; intro x; refine State.step_have (s := s) x ?_ (fun hx => ?_); subst x)
    | (lift_lets -underBinder; intro x)
    | with_reducible refine State.ite_keep ?_ ?_
    | split

@[simp] theorem State.doorbell_base (s : State) (w : Nat) : (State.doorbell s w).base = s.base := by
  unfold State.doorbell
  repeat' first
    | with_reducible rfl
    | with_reducible assumption
    | with_reducible refine (State.tailTo_base _ _ _).trans ?_
    | with_reducible refine (State.put_base _ _ _ _).trans ?_
    | with_reducible refine (State.badDoorbell_base _ _).trans ?_
    | with_reducible refine (State.pair_base (by assumption)).trans ?_
    | with_reducible refine State.ite_keep ?_ ?_
    | split

end Sys2Proof.Machine
end

