-- ==== Sys2Proof/Laws/Base/MemResp.lean ====
section
/-! SUPPORT. The operations of Machine/MemResp.lean leave the configuration, the waiting commands and host memory as they are. -/

namespace Sys2Proof.Machine

@[simp] theorem State.updRun_base (s : State) (p : Nat) (f : PortRun → PortRun) : (State.updRun s p f).base = s.base := by
  unfold State.updRun
  repeat' first
    | with_reducible rfl
    | with_reducible assumption
    | with_reducible refine (State.setRuns_base _ _).trans ?_
    | with_reducible refine (State.pair_base (by assumption)).trans ?_
    | with_reducible refine State.ite_keep ?_ ?_
    | split

@[simp] theorem State.addRun_base (s : State) (p : Nat) (e : RunEl) : (State.addRun s p e).base = s.base := by
  unfold State.addRun
  repeat' first
    | with_reducible rfl
    | with_reducible assumption
    | with_reducible refine (State.updRun_base _ _ _).trans ?_
    | with_reducible refine State.foldl_keep (fun s a => ?_) ?_
    | with_reducible refine (State.pair_base (by assumption)).trans ?_
    | (intro x; refine State.step_have (s := s) x ?_ (fun hx => ?_); subst x)
    | intro x
    | (lift_lets -underBinder; intro x; refine State.step_have (s := s) x ?_ (fun hx => ?_); subst x)
    | (lift_lets -underBinder; intro x)
    | with_reducible refine State.ite_keep ?_ ?_
    | split

@[simp] theorem State.settleRun_base (s : State) (p : Nat) (n : Nat) (e : RunEl) : (State.settleRun s p n e).base = s.base := by
  unfold State.settleRun
  repeat' first
    | with_reducible rfl
    | with_reducible assumption
    | with_reducible refine (State.updRun_base _ _ _).trans ?_
    | with_reducible refine State.foldl_keep (fun s a => ?_) ?_
    | with_reducible refine (State.pair_base (by assumption)).trans ?_
    | (intro x; refine State.step_have (s := s) x ?_ (fun hx => ?_); subst x)
    | intro x
    | (lift_lets -underBinder; intro x; refine State.step_have (s := s) x ?_ (fun hx => ?_); subst x)
    | (lift_lets -underBinder; intro x)
    | with_reducible refine State.ite_keep ?_ ?_
    | split

@[simp] theorem State.fencePort_base (s : State) (p : Nat) (cause : Nat) (addr : Nat) (c : Ctx) : (State.fencePort s p cause addr c).base = s.base := by
  unfold State.fencePort
  repeat' first
    | with_reducible rfl
    | with_reducible assumption
    | with_reducible refine (State.updRun_base _ _ _).trans ?_
    | with_reducible refine (State.report_base _ _).trans ?_
    | with_reducible refine (State.fence_base _ _ _ _ _ _).trans ?_
    | with_reducible refine (State.pair_base (by assumption)).trans ?_
    | with_reducible refine State.ite_keep ?_ ?_
    | split

@[simp] theorem State.dropReq_base (s : State) (r : MemReq) : (State.dropReq s r).base = s.base := by
  unfold State.dropReq
  repeat' first
    | with_reducible rfl
    | with_reducible assumption
    | with_reducible refine (State.setReqs_base _ _).trans ?_
    | with_reducible refine (State.retag_base _).trans ?_
    | with_reducible refine (State.pair_base (by assumption)).trans ?_
    | with_reducible refine State.ite_keep ?_ ?_
    | split

@[simp] theorem State.writeStop_base (s : State) (q : Nat) (seq : Nat) (code : Nat) : (State.writeStop s q seq code).base = s.base := by
  unfold State.writeStop
  repeat' first
    | with_reducible rfl
    | with_reducible assumption
    | with_reducible refine (State.stopConv_base _ _ _ _ _ _).trans ?_
    | with_reducible refine (State.pair_base (by assumption)).trans ?_
    | with_reducible refine State.ite_keep ?_ ?_
    | split

@[simp] theorem State.routWriteFail_base (s : State) (q : Nat) (seq : Nat) (code : Nat) : (State.routWriteFail s q seq code).base = s.base := by
  unfold State.routWriteFail
  repeat' first
    | with_reducible rfl
    | with_reducible assumption
    | with_reducible refine (State.faultRout_base _ _ _ _).trans ?_
    | with_reducible refine (State.rupd_base _ _ _ _).trans ?_
    | with_reducible refine (State.nextHdr_base _ _ _).trans ?_
    | with_reducible refine (State.pair_base (by assumption)).trans ?_
    | (intro x; refine State.step_have (s := s) x ?_ (fun hx => ?_); subst x)
    | intro x
    | (lift_lets -underBinder; intro x; refine State.step_have (s := s) x ?_ (fun hx => ?_); subst x)
    | (lift_lets -underBinder; intro x)
    | with_reducible refine State.ite_keep ?_ ?_
    | split

@[simp] theorem State.routAnswered_base (s : State) (q : Nat) (seq : Nat) : (State.routAnswered s q seq).base = s.base := by
  unfold State.routAnswered
  repeat' first
    | with_reducible rfl
    | with_reducible assumption
    | with_reducible refine (State.nextHdr_base _ _ _).trans ?_
    | with_reducible refine (State.settle_base _ _ _).trans ?_
    | with_reducible refine (State.pair_base (by assumption)).trans ?_
    | with_reducible refine State.ite_keep ?_ ?_
    | split

@[simp] theorem State.evlogFail_base (s : State) (addr : Nat) : (State.evlogFail s addr).base = s.base := by
  unfold State.evlogFail
  repeat' first
    | with_reducible rfl
    | with_reducible assumption
    | with_reducible refine (State.setEvOut_base _ _).trans ?_
    | with_reducible refine (State.setEvbuf_base _ _).trans ?_
    | with_reducible refine (State.setObj_base _ _ _).trans ?_
    | with_reducible refine (State.report_base _ _).trans ?_
    | with_reducible refine (State.pair_base (by assumption)).trans ?_
    | (intro x; refine State.step_have (s := s) x ?_ (fun hx => ?_); subst x)
    | intro x
    | (lift_lets -underBinder; intro x; refine State.step_have (s := s) x ?_ (fun hx => ?_); subst x)
    | (lift_lets -underBinder; intro x)
    | with_reducible refine State.ite_keep ?_ ?_
    | split

@[simp] theorem State.evlogDone_base (s : State) : (State.evlogDone s).base = s.base := by
  unfold State.evlogDone
  repeat' first
    | with_reducible rfl
    | with_reducible assumption
    | with_reducible refine (State.setEvOut_base _ _).trans ?_
    | with_reducible refine (State.bump_base _ _ _ _ _).trans ?_
    | with_reducible refine (State.setObj_base _ _ _).trans ?_
    | with_reducible refine (State.pair_base (by assumption)).trans ?_
    | (intro x; refine State.step_have (s := s) x ?_ (fun hx => ?_); subst x)
    | intro x
    | (lift_lets -underBinder; intro x; refine State.step_have (s := s) x ?_ (fun hx => ?_); subst x)
    | (lift_lets -underBinder; intro x)
    | with_reducible refine State.ite_keep ?_ ?_
    | split

@[simp] theorem State.ringGot_base (s : State) (q : Nat) (seq : Nat) (raw : Nat) : (State.ringGot s q seq raw).base = s.base := by
  unfold State.ringGot
  repeat' first
    | with_reducible rfl
    | with_reducible assumption
    | with_reducible refine (State.updQueue_base _ _ _).trans ?_
    | with_reducible refine (State.drainFetched_base _ _ _).trans ?_
    | with_reducible refine (State.endReset_base _ _).trans ?_
    | with_reducible refine (State.formResume_base _).trans ?_
    | with_reducible refine (State.pair_base (by assumption)).trans ?_
    | (intro x; refine State.step_have (s := s) x ?_ (fun hx => ?_); subst x)
    | intro x
    | (lift_lets -underBinder; intro x; refine State.step_have (s := s) x ?_ (fun hx => ?_); subst x)
    | (lift_lets -underBinder; intro x)
    | with_reducible refine State.ite_keep ?_ ?_
    | split

@[simp] theorem State.resume_base (s : State) (a : Act) : (State.resume s a).base = s.base := by
  unfold State.resume
  repeat' first
    | with_reducible rfl
    | with_reducible assumption
    | with_reducible refine (State.convReady_base _ _ _).trans ?_
    | with_reducible refine (State.formResume_base _).trans ?_
    | with_reducible refine (State.redReady_base _ _ _).trans ?_
    | with_reducible refine (State.redWrite_base _ _ _).trans ?_
    | with_reducible refine (State.redSpace_base _).trans ?_
    | with_reducible refine State.foldl_keep (fun s a => ?_) ?_
    | with_reducible refine (State.pair_base (by assumption)).trans ?_
    | (intro x; refine State.step_have (s := s) x ?_ (fun hx => ?_); subst x)
    | intro x
    | (lift_lets -underBinder; intro x; refine State.step_have (s := s) x ?_ (fun hx => ?_); subst x)
    | (lift_lets -underBinder; intro x)
    | with_reducible refine State.ite_keep ?_ ?_
    | split

@[simp] theorem State.walkAnswer_base (s : State) (id : Nat) (ok : Bool) : (State.walkAnswer s id ok).base = s.base := by
  unfold State.walkAnswer
  repeat' first
    | with_reducible rfl
    | with_reducible assumption
    | with_reducible refine (State.updWalk_base _ _ _).trans ?_
    | with_reducible refine (State.walkStep_base _ _).trans ?_
    | with_reducible refine (State.walkPump_base _).trans ?_
    | with_reducible refine (State.resume_base _ _).trans ?_
    | with_reducible refine State.foldl_keep (fun s a => ?_) ?_
    | with_reducible refine (State.pair_base (by assumption)).trans ?_
    | (intro x; refine State.step_have (s := s) x ?_ (fun hx => ?_); subst x)
    | intro x
    | (lift_lets -underBinder; intro x; refine State.step_have (s := s) x ?_ (fun hx => ?_); subst x)
    | (lift_lets -underBinder; intro x)
    | with_reducible refine State.ite_keep ?_ ?_
    | split

@[simp] theorem State.actAnswer_base (s : State) (a : Act) (r : MemReq) : (State.actAnswer s a r).base = s.base := by
  unfold State.actAnswer
  repeat' first
    | with_reducible rfl
    | with_reducible assumption
    | with_reducible refine (State.setReads_base _ _).trans ?_
    | with_reducible refine (State.resume_base _ _).trans ?_
    | with_reducible refine State.foldl_keep (fun s a => ?_) ?_
    | with_reducible refine (State.pair_base (by assumption)).trans ?_
    | (intro x; refine State.step_have (s := s) x ?_ (fun hx => ?_); subst x)
    | intro x
    | (lift_lets -underBinder; intro x; refine State.step_have (s := s) x ?_ (fun hx => ?_); subst x)
    | (lift_lets -underBinder; intro x)
    | with_reducible refine State.ite_keep ?_ ?_
    | split

@[simp] theorem State.answered_base (s : State) (r : MemReq) : (State.answered s r).base = s.base := by
  unfold State.answered
  repeat' first
    | with_reducible rfl
    | with_reducible assumption
    | with_reducible refine (State.walkAnswer_base _ _ _).trans ?_
    | with_reducible refine (State.actAnswer_base _ _ _).trans ?_
    | with_reducible refine (State.convReady_base _ _ _).trans ?_
    | with_reducible refine (State.ringGot_base _ _ _ _).trans ?_
    | with_reducible refine (State.routAnswered_base _ _ _).trans ?_
    | with_reducible refine (State.redReady_base _ _ _).trans ?_
    | with_reducible refine (State.redSpace_base _).trans ?_
    | with_reducible refine (State.evlogDone_base _).trans ?_
    | with_reducible refine (State.checkFail_base _ _).trans ?_
    | with_reducible refine (State.checkNext_base _).trans ?_
    | with_reducible refine (State.park_base _ _ _).trans ?_
    | with_reducible refine (State.acct_base _ _ _ _).trans ?_
    | with_reducible refine (State.pair_base (by assumption)).trans ?_
    | with_reducible refine State.ite_keep ?_ ?_
    | split

@[simp] theorem State.failed_base (s : State) (r : MemReq) (bad : Nat) : (State.failed s r bad).base = s.base := by
  unfold State.failed
  repeat' first
    | with_reducible rfl
    | with_reducible assumption
    | with_reducible refine (State.setMemErr_base _ _).trans ?_
    | with_reducible refine (State.put_base _ _ _ _).trans ?_
    | with_reducible refine (State.walkAnswer_base _ _ _).trans ?_
    | with_reducible refine (State.actAnswer_base _ _ _).trans ?_
    | with_reducible refine (State.writeStop_base _ _ _ _).trans ?_
    | with_reducible refine (State.convReady_base _ _ _).trans ?_
    | with_reducible refine (State.ringReadFail_base _ _ _).trans ?_
    | with_reducible refine (State.endReset_base _ _).trans ?_
    | with_reducible refine (State.formResume_base _).trans ?_
    | with_reducible refine (State.park_base _ _ _).trans ?_
    | with_reducible refine (State.ringWriteFail_base _ _ _ _).trans ?_
    | with_reducible refine (State.acct_base _ _ _ _).trans ?_
    | with_reducible refine (State.routWriteFail_base _ _ _ _).trans ?_
    | with_reducible refine (State.redReady_base _ _ _).trans ?_
    | with_reducible refine (State.redSpace_base _).trans ?_
    | with_reducible refine (State.evlogFail_base _ _).trans ?_
    | with_reducible refine (State.checkLost_base _ _).trans ?_
    | with_reducible refine (State.checkNext_base _).trans ?_
    | with_reducible refine State.foldl_keep (fun s a => ?_) ?_
    | with_reducible refine (State.pair_base (by assumption)).trans ?_
    | (intro x; refine State.step_have (s := s) x ?_ (fun hx => ?_); subst x)
    | intro x
    | (lift_lets -underBinder; intro x; refine State.step_have (s := s) x ?_ (fun hx => ?_); subst x)
    | (lift_lets -underBinder; intro x)
    | with_reducible refine State.ite_keep ?_ ?_
    | split

@[simp] theorem State.failOrRetry_base (s : State) (r : MemReq) (bad : Nat) (cause : Nat) : (State.failOrRetry s r bad cause).base = s.base := by
  unfold State.failOrRetry
  repeat' first
    | with_reducible rfl
    | with_reducible assumption
    | with_reducible refine (State.bump_base _ _ _ _ _).trans ?_
    | with_reducible refine (State.addRun_base _ _ _).trans ?_
    | with_reducible refine (State.updRun_base _ _ _).trans ?_
    | with_reducible refine (State.reissue_base _ _).trans ?_
    | with_reducible refine (State.settleRun_base _ _ _ _).trans ?_
    | with_reducible refine (State.failed_base _ _ _).trans ?_
    | with_reducible refine (State.pair_base (by assumption)).trans ?_
    | (intro x; refine State.step_have (s := s) x ?_ (fun hx => ?_); subst x)
    | intro x
    | (lift_lets -underBinder; intro x; refine State.step_have (s := s) x ?_ (fun hx => ?_); subst x)
    | (lift_lets -underBinder; intro x)
    | with_reducible refine State.ite_keep ?_ ?_
    | split

@[simp] theorem State.retryOk_base (s : State) (r : MemReq) : (State.retryOk s r).base = s.base := by
  unfold State.retryOk
  repeat' first
    | with_reducible rfl
    | with_reducible assumption
    | with_reducible refine (State.transient_base _ _ _ _ _ _ _).trans ?_
    | with_reducible refine (State.settleRun_base _ _ _ _).trans ?_
    | with_reducible refine (State.fencePort_base _ _ _ _ _).trans ?_
    | with_reducible refine (State.pair_base (by assumption)).trans ?_
    | (intro x; refine State.step_have (s := s) x ?_ (fun hx => ?_); subst x)
    | intro x
    | (lift_lets -underBinder; intro x; refine State.step_have (s := s) x ?_ (fun hx => ?_); subst x)
    | (lift_lets -underBinder; intro x)
    | with_reducible refine State.ite_keep ?_ ?_
    | split

@[simp] theorem State.complete_base (s : State) (r : MemReq) (bad : Nat) : (State.complete s r bad).base = s.base := by
  unfold State.complete
  repeat' first
    | with_reducible rfl
    | with_reducible assumption
    | with_reducible refine (State.setReqs_base _ _).trans ?_
    | with_reducible refine (State.answered_base _ _).trans ?_
    | with_reducible refine (State.failed_base _ _ _).trans ?_
    | with_reducible refine (State.updRun_base _ _ _).trans ?_
    | with_reducible refine (State.addRun_base _ _ _).trans ?_
    | with_reducible refine (State.retryOk_base _ _).trans ?_
    | with_reducible refine (State.failOrRetry_base _ _ _ _).trans ?_
    | with_reducible refine (State.retag_base _).trans ?_
    | with_reducible refine (State.pair_base (by assumption)).trans ?_
    | (intro x; refine State.step_have (s := s) x ?_ (fun hx => ?_); subst x)
    | intro x
    | (lift_lets -underBinder; intro x; refine State.step_have (s := s) x ?_ (fun hx => ?_); subst x)
    | (lift_lets -underBinder; intro x)
    | with_reducible refine State.ite_keep ?_ ?_
    | split

@[simp] theorem State.failShut_base (s : State) (x0 : Nat) : (State.failShut s x0).base = s.base := by
  induction x0 generalizing s with
  | zero =>
    unfold State.failShut
    repeat' first
      | with_reducible rfl
      | with_reducible assumption
      | with_reducible refine (State.setReqs_base _ _).trans ?_
      | with_reducible refine (State.failed_base _ _ _).trans ?_
      | with_reducible refine (State.retag_base _).trans ?_
      | with_reducible refine State.foldl_keep (fun s a => ?_) ?_
      | with_reducible refine (State.pair_base (by assumption)).trans ?_
      | (intro x; refine State.step_have (s := s) x ?_ (fun hx => ?_); subst x)
      | intro x
      | (lift_lets -underBinder; intro x; refine State.step_have (s := s) x ?_ (fun hx => ?_); subst x)
      | (lift_lets -underBinder; intro x)
      | with_reducible refine State.ite_keep ?_ ?_
      | split
  | succ n ih =>
    unfold State.failShut
    repeat' first
      | with_reducible rfl
      | with_reducible assumption
      | with_reducible refine (ih _).trans ?_
      | with_reducible refine (State.setReqs_base _ _).trans ?_
      | with_reducible refine (State.failed_base _ _ _).trans ?_
      | with_reducible refine (State.retag_base _).trans ?_
      | with_reducible refine State.foldl_keep (fun s a => ?_) ?_
      | with_reducible refine (State.pair_base (by assumption)).trans ?_
      | (intro x; refine State.step_have (s := s) x ?_ (fun hx => ?_); subst x)
      | intro x
      | (lift_lets -underBinder; intro x; refine State.step_have (s := s) x ?_ (fun hx => ?_); subst x)
      | (lift_lets -underBinder; intro x)
      | with_reducible refine State.ite_keep ?_ ?_
      | split

@[simp] theorem State.memTimedOut_base (s : State) (port : Nat) (tag : Nat) (wr : Bool) : (State.memTimedOut s port tag wr).base = s.base := by
  unfold State.memTimedOut
  repeat' first
    | with_reducible rfl
    | with_reducible assumption
    | with_reducible refine (State.setReqs_base _ _).trans ?_
    | with_reducible refine (State.failed_base _ _ _).trans ?_
    | with_reducible refine (State.retag_base _).trans ?_
    | with_reducible refine (State.updRun_base _ _ _).trans ?_
    | with_reducible refine (State.failOrRetry_base _ _ _ _).trans ?_
    | with_reducible refine (State.fencePort_base _ _ _ _ _).trans ?_
    | with_reducible refine (State.failShut_base _ _).trans ?_
    | with_reducible refine (State.pair_base (by assumption)).trans ?_
    | (intro x; refine State.step_have (s := s) x ?_ (fun hx => ?_); subst x)
    | intro x
    | (lift_lets -underBinder; intro x; refine State.step_have (s := s) x ?_ (fun hx => ?_); subst x)
    | (lift_lets -underBinder; intro x)
    | with_reducible refine State.ite_keep ?_ ?_
    | split

end Sys2Proof.Machine
end

