-- ==== Sys2Proof/Laws/Base/TestOps.lean ====
section
/-! SUPPORT. The operations of Machine/TestOps.lean leave the configuration, the waiting commands and host memory as they are. -/

namespace Sys2Proof.Machine

@[simp] theorem State.goOffline_base (s : State) (kind : Nat) (u : Nat) : (State.goOffline s kind u).base = s.base := by
  unfold State.goOffline
  repeat' first
    | with_reducible rfl
    | with_reducible assumption
    | with_reducible refine (State.put_base _ _ _ _).trans ?_
    | with_reducible refine (State.keepParent_base _ _ ?_).trans ?_
    | with_reducible refine (State.setUnit_base _ _ _ _).trans ?_
    | with_reducible refine (State.reroute_base _ _).trans ?_
    | with_reducible refine (State.updBport_base _ _ _).trans ?_
    | with_reducible refine (State.pair_base (by assumption)).trans ?_
    | (intro x; refine State.step_have (s := s) x ?_ (fun hx => ?_); subst x)
    | intro x
    | (lift_lets -underBinder; intro x; refine State.step_have (s := s) x ?_ (fun hx => ?_); subst x)
    | (lift_lets -underBinder; intro x)
    | with_reducible refine State.ite_keep ?_ ?_
    | split

@[simp] theorem State.startTest_base (s : State) (cmd : Nat) (kind : Nat) (u : Nat) (net : Bool) : (State.startTest s cmd kind u net).base = s.base := by
  unfold State.startTest
  repeat' first
    | with_reducible rfl
    | with_reducible assumption
    | with_reducible refine (State.setTest_base _ _).trans ?_
    | with_reducible refine (State.setIjtag_base _ _).trans ?_
    | with_reducible refine (State.setObj_base _ _ _).trans ?_
    | with_reducible refine (State.askPreempt_base _ _ _ _).trans ?_
    | with_reducible refine (State.goOffline_base _ _ _).trans ?_
    | with_reducible refine State.foldl_keep (fun s a => ?_) ?_
    | with_reducible refine (State.pair_base (by assumption)).trans ?_
    | (intro x; refine State.step_have (s := s) x ?_ (fun hx => ?_); subst x)
    | intro x
    | (lift_lets -underBinder; intro x; refine State.step_have (s := s) x ?_ (fun hx => ?_); subst x)
    | (lift_lets -underBinder; intro x)
    | with_reducible refine State.ite_keep ?_ ?_
    | split

@[simp] theorem State.drainTest_base (s : State) : (State.drainTest s).base = s.base := by
  unfold State.drainTest
  repeat' first
    | with_reducible rfl
    | with_reducible assumption
    | with_reducible refine (State.goOffline_base _ _ _).trans ?_
    | with_reducible refine (State.setObj_base _ _ _).trans ?_
    | with_reducible refine (State.bump_base _ _ _ _ _).trans ?_
    | with_reducible refine (State.pair_base (by assumption)).trans ?_
    | (intro x; refine State.step_have (s := s) x ?_ (fun hx => ?_); subst x)
    | intro x
    | (lift_lets -underBinder; intro x; refine State.step_have (s := s) x ?_ (fun hx => ?_); subst x)
    | (lift_lets -underBinder; intro x)
    | with_reducible refine State.ite_keep ?_ ?_
    | split

@[simp] theorem State.goOnline_base (s : State) (kind : Nat) (u : Nat) : (State.goOnline s kind u).base = s.base := by
  unfold State.goOnline
  repeat' first
    | with_reducible rfl
    | with_reducible assumption
    | with_reducible refine (State.setUnit_base _ _ _ _).trans ?_
    | with_reducible refine (State.convResume_base _).trans ?_
    | with_reducible refine (State.joinAll_base _).trans ?_
    | with_reducible refine (State.put_base _ _ _ _).trans ?_
    | with_reducible refine (State.domeBack_base _).trans ?_
    | with_reducible refine (State.updRun_base _ _ _).trans ?_
    | with_reducible refine (State.trainPort_base _ _).trans ?_
    | with_reducible refine (State.pair_base (by assumption)).trans ?_
    | (intro x; refine State.step_have (s := s) x ?_ (fun hx => ?_); subst x)
    | intro x
    | (lift_lets -underBinder; intro x; refine State.step_have (s := s) x ?_ (fun hx => ?_); subst x)
    | (lift_lets -underBinder; intro x)
    | with_reducible refine State.ite_keep ?_ ?_
    | split

@[simp] theorem State.bypass_base (s : State) (a : Nat) (c : Nat) : (State.bypass s a c).base = s.base := by
  unfold State.bypass
  repeat' first
    | with_reducible rfl
    | with_reducible assumption
    | with_reducible refine (State.put_base _ _ _ _).trans ?_
    | with_reducible refine (State.pair_base (by assumption)).trans ?_
    | with_reducible refine State.ite_keep ?_ ?_
    | split

@[simp] theorem State.bistFail_base (s : State) (kind : Nat) (u : Nat) : (State.bistFail s kind u).base = s.base := by
  unfold State.bistFail
  repeat' first
    | with_reducible rfl
    | with_reducible assumption
    | with_reducible refine (State.bypass_base _ _ _).trans ?_
    | with_reducible refine (State.put_base _ _ _ _).trans ?_
    | with_reducible refine (State.setUnit_base _ _ _ _).trans ?_
    | with_reducible refine (State.report_base _ _).trans ?_
    | with_reducible refine (State.found_base _ _ _).trans ?_
    | with_reducible refine (State.stop_base _ _ _ _).trans ?_
    | with_reducible refine (State.pair_base (by assumption)).trans ?_
    | (intro x; refine State.step_have (s := s) x ?_ (fun hx => ?_); subst x)
    | intro x
    | (lift_lets -underBinder; intro x; refine State.step_have (s := s) x ?_ (fun hx => ?_); subst x)
    | (lift_lets -underBinder; intro x)
    | with_reducible refine State.ite_keep ?_ ?_
    | split

@[simp] theorem State.endTest_base (s : State) (t : TestRt) (failed : List Nat) (whole : Bool) : (State.endTest s t failed whole).base = s.base := by
  unfold State.endTest
  repeat' first
    | with_reducible rfl
    | with_reducible assumption
    | with_reducible refine (State.setTest_base _ _).trans ?_
    | with_reducible refine (State.setIjtag_base _ _).trans ?_
    | with_reducible refine (State.bypass_base _ _ _).trans ?_
    | with_reducible refine (State.bistFail_base _ _ _).trans ?_
    | with_reducible refine (State.goOnline_base _ _ _).trans ?_
    | with_reducible refine (State.report_base _ _).trans ?_
    | with_reducible refine (State.setObj_base _ _ _).trans ?_
    | with_reducible refine (State.pair_base (by assumption)).trans ?_
    | (intro x; refine State.step_have (s := s) x ?_ (fun hx => ?_); subst x)
    | intro x
    | (lift_lets -underBinder; intro x; refine State.step_have (s := s) x ?_ (fun hx => ?_); subst x)
    | (lift_lets -underBinder; intro x)
    | with_reducible refine State.ite_keep ?_ ?_
    | split

@[simp] theorem State.bootTest_base (s : State) (kind : Nat) (u : Nat) (failed : List Nat) (whole : Bool) : (State.bootTest s kind u failed whole).base = s.base := by
  unfold State.bootTest
  repeat' first
    | with_reducible rfl
    | with_reducible assumption
    | with_reducible refine (State.bistFail_base _ _ _).trans ?_
    | with_reducible refine (State.pair_base (by assumption)).trans ?_
    | (intro x; refine State.step_have (s := s) x ?_ (fun hx => ?_); subst x)
    | intro x
    | (lift_lets -underBinder; intro x; refine State.step_have (s := s) x ?_ (fun hx => ?_); subst x)
    | (lift_lets -underBinder; intro x)
    | with_reducible refine State.ite_keep ?_ ?_
    | split

@[simp] theorem State.selfTestDone_base (s : State) (kind : Nat) (u : Nat) (failed : List Nat) (whole : Bool) : (State.selfTestDone s kind u failed whole).base = s.base := by
  unfold State.selfTestDone
  repeat' first
    | with_reducible rfl
    | with_reducible assumption
    | with_reducible refine (State.setTest_base _ _).trans ?_
    | with_reducible refine (State.setIjtag_base _ _).trans ?_
    | with_reducible refine (State.endTest_base _ _ _ _).trans ?_
    | with_reducible refine (State.bootTest_base _ _ _ _ _).trans ?_
    | with_reducible refine (State.pair_base (by assumption)).trans ?_
    | with_reducible refine State.ite_keep ?_ ?_
    | split

@[simp] theorem State.netTest_base (s : State) (kind : Nat) (u : Nat) : (State.netTest s kind u).base = s.base := by
  unfold State.netTest
  repeat' first
    | with_reducible rfl
    | with_reducible assumption
    | with_reducible refine (State.setIjtag_base _ _).trans ?_
    | with_reducible refine (State.setTest_base _ _).trans ?_
    | with_reducible refine (State.startTest_base _ _ _ _ _).trans ?_
    | with_reducible refine (State.pair_base (by assumption)).trans ?_
    | with_reducible refine State.ite_keep ?_ ?_
    | split

@[simp] theorem State.mapUnit_base (s : State) (r : UnitRef) : (State.mapUnit s r).base = s.base := by
  unfold State.mapUnit
  repeat' first
    | with_reducible rfl
    | with_reducible assumption
    | with_reducible refine (State.setMapped_base _ _).trans ?_
    | with_reducible refine (State.bypass_base _ _ _).trans ?_
    | with_reducible refine (State.setUnit_base _ _ _ _).trans ?_
    | with_reducible refine (State.put_base _ _ _ _).trans ?_
    | with_reducible refine (State.pair_base (by assumption)).trans ?_
    | (intro x; refine State.step_have (s := s) x ?_ (fun hx => ?_); subst x)
    | intro x
    | (lift_lets -underBinder; intro x; refine State.step_have (s := s) x ?_ (fun hx => ?_); subst x)
    | (lift_lets -underBinder; intro x)
    | with_reducible refine State.ite_keep ?_ ?_
    | split

@[simp] theorem State.applyMap_base (s : State) (m : Nat) : (State.applyMap s m).base = s.base := by
  unfold State.applyMap
  repeat' first
    | with_reducible rfl
    | with_reducible assumption
    | with_reducible refine (State.mapUnit_base _ _).trans ?_
    | with_reducible refine (State.stop_base _ _ _ _).trans ?_
    | with_reducible refine State.foldl_keep (fun s a => ?_) ?_
    | with_reducible refine (State.pair_base (by assumption)).trans ?_
    | (intro x; refine State.step_have (s := s) x ?_ (fun hx => ?_); subst x)
    | intro x
    | (lift_lets -underBinder; intro x; refine State.step_have (s := s) x ?_ (fun hx => ?_); subst x)
    | (lift_lets -underBinder; intro x)
    | with_reducible refine State.ite_keep ?_ ?_
    | split

@[simp] theorem State.evlogWrite_base (s : State) : (State.evlogWrite s).base = s.base := by
  unfold State.evlogWrite
  repeat' first
    | with_reducible rfl
    | with_reducible assumption
    | with_reducible refine (State.setEvbuf_base _ _).trans ?_
    | with_reducible refine (State.setEvOut_base _ _).trans ?_
    | with_reducible refine (State.evlogFail_base _ _).trans ?_
    | with_reducible refine (State.access_base _ _ _ _ _ _ _ _).trans ?_
    | with_reducible refine (State.pair_base (by assumption)).trans ?_
    | (intro x; refine State.step_have (s := s) x ?_ (fun hx => ?_); subst x)
    | intro x
    | (lift_lets -underBinder; intro x; refine State.step_have (s := s) x ?_ (fun hx => ?_); subst x)
    | (lift_lets -underBinder; intro x)
    | with_reducible refine State.ite_keep ?_ ?_
    | split

end Sys2Proof.Machine
end

