-- ==== Sys2Proof/Laws/Base/PowerOps.lean ====
section
/-! SUPPORT. The operations of Machine/PowerOps.lean leave the configuration, the waiting commands and host memory as they are. -/

namespace Sys2Proof.Machine

@[simp] theorem State.outside_base (s : State) (nv : Nv) : (State.outside s nv).base = s.base := by
  rfl

@[simp] theorem State.coldReset_base (s : State) : (State.coldReset s).base = s.base := by
  unfold State.coldReset
  repeat' first
    | with_reducible rfl
    | with_reducible assumption
    | with_reducible refine (State.outside_base _ _).trans ?_
    | with_reducible refine (State.pair_base (by assumption)).trans ?_
    | with_reducible refine State.ite_keep ?_ ?_
    | split

@[simp] theorem State.warmReset_base (s : State) : (State.warmReset s).base = s.base := by
  unfold State.warmReset
  repeat' first
    | with_reducible rfl
    | with_reducible assumption
    | with_reducible refine (State.outside_base _ _).trans ?_
    | with_reducible refine (State.setObjs_base _ _).trans ?_
    | with_reducible refine (State.setEvSeq_base _ _).trans ?_
    | with_reducible refine (State.setTb_base _ _).trans ?_
    | with_reducible refine (State.setRate_base _ _).trans ?_
    | with_reducible refine (State.setTestMode_base _ _).trans ?_
    | with_reducible refine (State.setBports_base _ _).trans ?_
    | with_reducible refine (State.setColdHeld_base _ _).trans ?_
    | with_reducible refine (State.setWarmHeld_base _ _).trans ?_
    | with_reducible refine (State.setWarmStart_base _ _).trans ?_
    | with_reducible refine (State.setPstateAck_base _ _).trans ?_
    | with_reducible refine (State.pair_base (by assumption)).trans ?_
    | (intro x; refine State.step_have (s := s) x ?_ (fun hx => ?_); subst x)
    | intro x
    | (lift_lets -underBinder; intro x; refine State.step_have (s := s) x ?_ (fun hx => ?_); subst x)
    | (lift_lets -underBinder; intro x)
    | with_reducible refine State.ite_keep ?_ ?_
    | split

@[simp] theorem State.sleepLoss_base (s : State) : (State.sleepLoss s).base = s.base := by
  unfold State.sleepLoss
  repeat' first
    | with_reducible rfl
    | with_reducible assumption
    | with_reducible refine (State.outside_base _ _).trans ?_
    | with_reducible refine (State.setObjs_base _ _).trans ?_
    | with_reducible refine (State.setEvSeq_base _ _).trans ?_
    | with_reducible refine (State.setTestMode_base _ _).trans ?_
    | with_reducible refine (State.setPstateAck_base _ _).trans ?_
    | with_reducible refine (State.pair_base (by assumption)).trans ?_
    | with_reducible refine State.ite_keep ?_ ?_
    | split

@[simp] theorem State.redResume_base (s : State) : (State.redResume s).base = s.base := by
  unfold State.redResume
  repeat' first
    | with_reducible rfl
    | with_reducible assumption
    | with_reducible refine (State.redReady_base _ _ _).trans ?_
    | with_reducible refine (State.climb_base _ _ _ _).trans ?_
    | with_reducible refine (State.redWrite_base _ _ _).trans ?_
    | with_reducible refine (State.redSpace_base _).trans ?_
    | with_reducible refine State.foldl_keep (fun s a => ?_) ?_
    | with_reducible refine (State.pair_base (by assumption)).trans ?_
    | (intro x; refine State.step_have (s := s) x ?_ (fun hx => ?_); subst x)
    | intro x
    | (lift_lets -underBinder; intro x; refine State.step_have (s := s) x ?_ (fun hx => ?_); subst x)
    | (lift_lets -underBinder; intro x)
    | with_reducible refine State.ite_keep ?_ ?_
    | split

@[simp] theorem State.thaw_base (s : State) (segs : Bool) (lans : Bool) : (State.thaw s segs lans).base = s.base := by
  unfold State.thaw
  repeat' first
    | with_reducible rfl
    | with_reducible assumption
    | with_reducible refine (State.convResume_base _).trans ?_
    | with_reducible refine (State.joinAll_base _).trans ?_
    | with_reducible refine (State.redResume_base _).trans ?_
    | with_reducible refine State.foldl_keep (fun s a => ?_) ?_
    | with_reducible refine (State.pair_base (by assumption)).trans ?_
    | (intro x; refine State.step_have (s := s) x ?_ (fun hx => ?_); subst x)
    | intro x
    | (lift_lets -underBinder; intro x; refine State.step_have (s := s) x ?_ (fun hx => ?_); subst x)
    | (lift_lets -underBinder; intro x)
    | with_reducible refine State.ite_keep ?_ ?_
    | split

@[simp] theorem State.throttle_base (s : State) : (State.throttle s).base = s.base := by
  unfold State.throttle
  repeat' first
    | with_reducible rfl
    | with_reducible assumption
    | with_reducible refine (State.setObj_base _ _ _).trans ?_
    | with_reducible refine (State.thaw_base _ _ _).trans ?_
    | with_reducible refine (State.pair_base (by assumption)).trans ?_
    | (intro x; refine State.step_have (s := s) x ?_ (fun hx => ?_); subst x)
    | intro x
    | (lift_lets -underBinder; intro x; refine State.step_have (s := s) x ?_ (fun hx => ?_); subst x)
    | (lift_lets -underBinder; intro x)
    | with_reducible refine State.ite_keep ?_ ?_
    | split

@[simp] theorem State.rise_base (s : State) (cause : Nat) : (State.rise s cause).base = s.base := by
  unfold State.rise
  repeat' first
    | with_reducible rfl
    | with_reducible assumption
    | with_reducible refine (State.setColdHeld_base _ _).trans ?_
    | with_reducible refine (State.setWarmHeld_base _ _).trans ?_
    | with_reducible refine (State.setRiseDue_base _ _).trans ?_
    | with_reducible refine (State.setCycle_base _ _).trans ?_
    | with_reducible refine (State.setLoaded_base _ _).trans ?_
    | with_reducible refine (State.setObj_base _ _ _).trans ?_
    | with_reducible refine (State.throttle_base _).trans ?_
    | with_reducible refine (State.pair_base (by assumption)).trans ?_
    | (intro x; refine State.step_have (s := s) x ?_ (fun hx => ?_); subst x)
    | intro x
    | (lift_lets -underBinder; intro x; refine State.step_have (s := s) x ?_ (fun hx => ?_); subst x)
    | (lift_lets -underBinder; intro x)
    | with_reducible refine State.ite_keep ?_ ?_
    | split

@[simp] theorem State.riseNow_base (s : State) : (State.riseNow s).base = s.base := by
  unfold State.riseNow
  repeat' first
    | with_reducible rfl
    | with_reducible assumption
    | with_reducible refine (State.setColdHeld_base _ _).trans ?_
    | with_reducible refine (State.setWarmHeld_base _ _).trans ?_
    | with_reducible refine (State.setRiseDue_base _ _).trans ?_
    | with_reducible refine (State.rise_base _ _).trans ?_
    | with_reducible refine (State.pair_base (by assumption)).trans ?_
    | with_reducible refine State.ite_keep ?_ ?_
    | split

@[simp] theorem State.coldRelease_base (s : State) (testMode : Bool) : (State.coldRelease s testMode).base = s.base := by
  unfold State.coldRelease
  repeat' first
    | with_reducible rfl
    | with_reducible assumption
    | with_reducible refine (State.setRiseDue_base _ _).trans ?_
    | with_reducible refine (State.setTestMode_base _ _).trans ?_
    | with_reducible refine (State.setObj_base _ _ _).trans ?_
    | with_reducible refine (State.riseNow_base _).trans ?_
    | with_reducible refine (State.pair_base (by assumption)).trans ?_
    | with_reducible refine State.ite_keep ?_ ?_
    | split

@[simp] theorem State.warmAct_base (s : State) : (State.warmAct s).base = s.base := by
  unfold State.warmAct
  repeat' first
    | with_reducible rfl
    | with_reducible assumption
    | with_reducible refine (State.sleepLoss_base _).trans ?_
    | with_reducible refine (State.setColdHeld_base _ _).trans ?_
    | with_reducible refine (State.setWarmHeld_base _ _).trans ?_
    | with_reducible refine (State.setSleepStart_base _ _).trans ?_
    | with_reducible refine (State.warmReset_base _).trans ?_
    | with_reducible refine State.foldl_keep (fun s a => ?_) ?_
    | with_reducible refine (State.pair_base (by assumption)).trans ?_
    | (intro x; refine State.step_have (s := s) x ?_ (fun hx => ?_); subst x)
    | intro x
    | (lift_lets -underBinder; intro x; refine State.step_have (s := s) x ?_ (fun hx => ?_); subst x)
    | (lift_lets -underBinder; intro x)
    | with_reducible refine State.ite_keep ?_ ?_
    | split

@[simp] theorem State.warmStart'_base (s : State) : (State.warmStart' s).base = s.base := by
  unfold State.warmStart'
  repeat' first
    | with_reducible rfl
    | with_reducible assumption
    | with_reducible refine (State.setRiseDue_base _ _).trans ?_
    | with_reducible refine (State.setWarmAsk_base _ _).trans ?_
    | with_reducible refine (State.warmAct_base _).trans ?_
    | with_reducible refine (State.pair_base (by assumption)).trans ?_
    | with_reducible refine State.ite_keep ?_ ?_
    | split

@[simp] theorem State.warmRelease_base (s : State) : (State.warmRelease s).base = s.base := by
  unfold State.warmRelease
  repeat' first
    | with_reducible rfl
    | with_reducible assumption
    | with_reducible refine (State.setRiseDue_base _ _).trans ?_
    | with_reducible refine (State.riseNow_base _).trans ?_
    | with_reducible refine (State.pair_base (by assumption)).trans ?_
    | with_reducible refine State.ite_keep ?_ ?_
    | split

@[simp] theorem State.askedNow_base (s : State) : (State.askedNow s).base = s.base := by
  unfold State.askedNow
  repeat' first
    | with_reducible rfl
    | with_reducible assumption
    | with_reducible refine (State.warmAct_base _).trans ?_
    | with_reducible refine (State.setRiseDue_base _ _).trans ?_
    | with_reducible refine State.foldl_keep (fun s a => ?_) ?_
    | with_reducible refine (State.pair_base (by assumption)).trans ?_
    | (intro x; refine State.step_have (s := s) x ?_ (fun hx => ?_); subst x)
    | intro x
    | (lift_lets -underBinder; intro x; refine State.step_have (s := s) x ?_ (fun hx => ?_); subst x)
    | (lift_lets -underBinder; intro x)
    | with_reducible refine State.ite_keep ?_ ?_
    | split

@[simp] theorem State.wakeNow_base (s : State) : (State.wakeNow s).base = s.base := by
  unfold State.wakeNow
  repeat' first
    | with_reducible rfl
    | with_reducible assumption
    | with_reducible refine (State.sleepLoss_base _).trans ?_
    | with_reducible refine (State.setSleepStart_base _ _).trans ?_
    | with_reducible refine (State.rise_base _ _).trans ?_
    | with_reducible refine (State.pair_base (by assumption)).trans ?_
    | with_reducible refine State.ite_keep ?_ ?_
    | split

@[simp] theorem State.pgFall_base (s : State) (d : Domain) : (State.pgFall s d).base = s.base := by
  unfold State.pgFall
  repeat' first
    | with_reducible rfl
    | with_reducible assumption
    | with_reducible refine (State.setPgLane_base _ _).trans ?_
    | with_reducible refine (State.setPgSpire_base _ _).trans ?_
    | with_reducible refine (State.warmReset_base _).trans ?_
    | with_reducible refine (State.setRiseDue_base _ _).trans ?_
    | with_reducible refine (State.setPgAon_base _ _).trans ?_
    | with_reducible refine (State.coldReset_base _).trans ?_
    | with_reducible refine (State.setTestMode_base _ _).trans ?_
    | with_reducible refine (State.setPgNv_base _ _).trans ?_
    | with_reducible refine (State.pair_base (by assumption)).trans ?_
    | (intro x; refine State.step_have (s := s) x ?_ (fun hx => ?_); subst x)
    | intro x
    | (lift_lets -underBinder; intro x; refine State.step_have (s := s) x ?_ (fun hx => ?_); subst x)
    | (lift_lets -underBinder; intro x)
    | with_reducible refine State.ite_keep ?_ ?_
    | split

@[simp] theorem State.pgRise_base (s : State) (d : Domain) : (State.pgRise s d).base = s.base := by
  unfold State.pgRise
  repeat' first
    | with_reducible rfl
    | with_reducible assumption
    | with_reducible refine (State.setPgLane_base _ _).trans ?_
    | with_reducible refine (State.setPgSpire_base _ _).trans ?_
    | with_reducible refine (State.setPgAon_base _ _).trans ?_
    | with_reducible refine (State.setPgNv_base _ _).trans ?_
    | with_reducible refine (State.askedNow_base _).trans ?_
    | with_reducible refine (State.riseNow_base _).trans ?_
    | with_reducible refine (State.wakeNow_base _).trans ?_
    | with_reducible refine (State.pair_base (by assumption)).trans ?_
    | (intro x; refine State.step_have (s := s) x ?_ (fun hx => ?_); subst x)
    | intro x
    | (lift_lets -underBinder; intro x; refine State.step_have (s := s) x ?_ (fun hx => ?_); subst x)
    | (lift_lets -underBinder; intro x)
    | with_reducible refine State.ite_keep ?_ ?_
    | split

@[simp] theorem State.loadVals_base (s : State) : (State.loadVals s).base = s.base := by
  unfold State.loadVals
  repeat' first
    | with_reducible rfl
    | with_reducible assumption
    | with_reducible refine (State.put_base _ _ _ _).trans ?_
    | with_reducible refine State.foldl_keep (fun s a => ?_) ?_
    | with_reducible refine (State.pair_base (by assumption)).trans ?_
    | (intro x; refine State.step_have (s := s) x ?_ (fun hx => ?_); subst x)
    | intro x
    | (lift_lets -underBinder; intro x; refine State.step_have (s := s) x ?_ (fun hx => ?_); subst x)
    | (lift_lets -underBinder; intro x)
    | with_reducible refine State.ite_keep ?_ ?_
    | split

@[simp] theorem State.nvLoad_base (s : State) (corrected : Nat) : (State.nvLoad s corrected).base = s.base := by
  unfold State.nvLoad
  repeat' first
    | with_reducible rfl
    | with_reducible assumption
    | with_reducible refine (State.loadVals_base _).trans ?_
    | with_reducible refine (State.setObj_base _ _ _).trans ?_
    | with_reducible refine (State.setWarmStart_base _ _).trans ?_
    | with_reducible refine (State.setSleepStart_base _ _).trans ?_
    | with_reducible refine (State.setLoaded_base _ _).trans ?_
    | with_reducible refine (State.bump_base _ _ _ _ _).trans ?_
    | with_reducible refine (State.applyMap_base _ _).trans ?_
    | with_reducible refine (State.pair_base (by assumption)).trans ?_
    | (intro x; refine State.step_have (s := s) x ?_ (fun hx => ?_); subst x)
    | intro x
    | (lift_lets -underBinder; intro x; refine State.step_have (s := s) x ?_ (fun hx => ?_); subst x)
    | (lift_lets -underBinder; intro x)
    | with_reducible refine State.ite_keep ?_ ?_
    | split

@[simp] theorem State.coreTest_base (s : State) (failed : List UnitRef) : (State.coreTest s failed).base = s.base := by
  unfold State.coreTest
  repeat' first
    | with_reducible rfl
    | with_reducible assumption
    | with_reducible refine (State.stop_base _ _ _ _).trans ?_
    | with_reducible refine (State.bootTest_base _ _ _ _ _).trans ?_
    | with_reducible refine (State.setObj_base _ _ _).trans ?_
    | with_reducible refine (State.beginGroup_base _).trans ?_
    | with_reducible refine (State.setUnit_base _ _ _ _).trans ?_
    | with_reducible refine (State.trainPort_base _ _).trans ?_
    | with_reducible refine (State.formArrive_base _).trans ?_
    | with_reducible refine State.foldl_keep (fun s a => ?_) ?_
    | with_reducible refine (State.pair_base (by assumption)).trans ?_
    | (intro x; refine State.step_have (s := s) x ?_ (fun hx => ?_); subst x)
    | intro x
    | (lift_lets -underBinder; intro x; refine State.step_have (s := s) x ?_ (fun hx => ?_); subst x)
    | (lift_lets -underBinder; intro x)
    | with_reducible refine State.ite_keep ?_ ?_
    | split

@[simp] theorem State.storeDone_base (s : State) (pass : Bool) : (State.storeDone s pass).base = s.base := by
  unfold State.storeDone
  repeat' first
    | with_reducible rfl
    | with_reducible assumption
    | with_reducible refine (State.setNv_base _ _).trans ?_
    | with_reducible refine (State.riseNow_base _).trans ?_
    | with_reducible refine (State.stop_base _ _ _ _).trans ?_
    | with_reducible refine (State.pair_base (by assumption)).trans ?_
    | with_reducible refine State.ite_keep ?_ ?_
    | split

@[simp] theorem State.repairDone_base (s : State) (pass : Bool) : (State.repairDone s pass).base = s.base := by
  unfold State.repairDone
  repeat' first
    | with_reducible rfl
    | with_reducible assumption
    | with_reducible refine (State.setNv_base _ _).trans ?_
    | with_reducible refine (State.put_base _ _ _ _).trans ?_
    | with_reducible refine (State.riseNow_base _).trans ?_
    | with_reducible refine (State.stop_base _ _ _ _).trans ?_
    | with_reducible refine (State.pair_base (by assumption)).trans ?_
    | with_reducible refine State.ite_keep ?_ ?_
    | split

@[simp] theorem State.pstate_base (s : State) (v : Nat) : (State.pstate s v).base = s.base := by
  unfold State.pstate
  repeat' first
    | with_reducible rfl
    | with_reducible assumption
    | with_reducible refine (State.setPstateReq_base _ _).trans ?_
    | with_reducible refine (State.powerAsk_base _).trans ?_
    | with_reducible refine (State.wakeNow_base _).trans ?_
    | with_reducible refine (State.pair_base (by assumption)).trans ?_
    | with_reducible refine State.ite_keep ?_ ?_
    | split

@[simp] theorem State.napLoss_base (s : State) : (State.napLoss s).base = s.base := by
  unfold State.napLoss
  repeat' first
    | with_reducible rfl
    | with_reducible assumption
    | with_reducible refine (State.setReads_base _ _).trans ?_
    | with_reducible refine (State.giveUp_base _ _).trans ?_
    | with_reducible refine (State.setTwigs_base _ _).trans ?_
    | with_reducible refine (State.setStore_base _ _).trans ?_
    | with_reducible refine (State.setHolds_base _ _).trans ?_
    | with_reducible refine (State.setRing_base _ _).trans ?_
    | with_reducible refine (State.setChans_base _ _).trans ?_
    | with_reducible refine State.foldl_keep (fun s a => ?_) ?_
    | with_reducible refine (State.pair_base (by assumption)).trans ?_
    | (intro x; refine State.step_have (s := s) x ?_ (fun hx => ?_); subst x)
    | intro x
    | (lift_lets -underBinder; intro x; refine State.step_have (s := s) x ?_ (fun hx => ?_); subst x)
    | (lift_lets -underBinder; intro x)
    | with_reducible refine State.ite_keep ?_ ?_
    | split

@[simp] theorem State.powerEntry_base (s : State) : (State.powerEntry s).base = s.base := by
  unfold State.powerEntry
  repeat' first
    | with_reducible rfl
    | with_reducible assumption
    | with_reducible refine (State.tellLost_base _ _).trans ?_
    | with_reducible refine (State.setObj_base _ _ _).trans ?_
    | with_reducible refine (State.setPstateAck_base _ _).trans ?_
    | with_reducible refine (State.setMoving_base _ _).trans ?_
    | with_reducible refine (State.setDraining_base _ _).trans ?_
    | with_reducible refine (State.bump_base _ _ _ _ _).trans ?_
    | with_reducible refine (State.napLoss_base _).trans ?_
    | with_reducible refine (State.setSegs_base _ _).trans ?_
    | with_reducible refine (State.pair_base (by assumption)).trans ?_
    | (intro x; refine State.step_have (s := s) x ?_ (fun hx => ?_); subst x)
    | intro x
    | (lift_lets -underBinder; intro x; refine State.step_have (s := s) x ?_ (fun hx => ?_); subst x)
    | (lift_lets -underBinder; intro x)
    | with_reducible refine State.ite_keep ?_ ?_
    | split

@[simp] theorem State.powerExit_base (s : State) : (State.powerExit s).base = s.base := by
  unfold State.powerExit
  repeat' first
    | with_reducible rfl
    | with_reducible assumption
    | with_reducible refine (State.setPstateAck_base _ _).trans ?_
    | with_reducible refine (State.setExiting_base _ _).trans ?_
    | with_reducible refine (State.setObj_base _ _ _).trans ?_
    | with_reducible refine (State.redResume_base _).trans ?_
    | with_reducible refine (State.formResume_base _).trans ?_
    | with_reducible refine (State.pair_base (by assumption)).trans ?_
    | (intro x; refine State.step_have (s := s) x ?_ (fun hx => ?_); subst x)
    | intro x
    | (lift_lets -underBinder; intro x; refine State.step_have (s := s) x ?_ (fun hx => ?_); subst x)
    | (lift_lets -underBinder; intro x)
    | with_reducible refine State.ite_keep ?_ ?_
    | split

@[simp] theorem State.thr_base (s : State) (v : Nat) : (State.thr s v).base = s.base := by
  unfold State.thr
  repeat' first
    | with_reducible rfl
    | with_reducible assumption
    | with_reducible refine (State.setThrPin_base _ _).trans ?_
    | with_reducible refine (State.setObj_base _ _ _).trans ?_
    | with_reducible refine (State.throttle_base _).trans ?_
    | with_reducible refine (State.pair_base (by assumption)).trans ?_
    | (intro x; refine State.step_have (s := s) x ?_ (fun hx => ?_); subst x)
    | intro x
    | (lift_lets -underBinder; intro x; refine State.step_have (s := s) x ?_ (fun hx => ?_); subst x)
    | (lift_lets -underBinder; intro x)
    | with_reducible refine State.ite_keep ?_ ?_
    | split

@[simp] theorem State.force_base (s : State) (v : Nat) : (State.force s v).base = s.base := by
  unfold State.force
  repeat' first
    | with_reducible rfl
    | with_reducible assumption
    | with_reducible refine (State.setObj_base _ _ _).trans ?_
    | with_reducible refine (State.throttle_base _).trans ?_
    | with_reducible refine (State.pair_base (by assumption)).trans ?_
    | with_reducible refine State.ite_keep ?_ ?_
    | split

@[simp] theorem State.tempRead_base (s : State) (readings : List Nat) : (State.tempRead s readings).base = s.base := by
  unfold State.tempRead
  repeat' first
    | with_reducible rfl
    | with_reducible assumption
    | with_reducible refine (State.take_base _ _ _).trans ?_
    | with_reducible refine (State.setObj_base _ _ _).trans ?_
    | with_reducible refine (State.throttle_base _).trans ?_
    | with_reducible refine (State.report_base _ _).trans ?_
    | with_reducible refine (State.pair_base (by assumption)).trans ?_
    | (intro x; refine State.step_have (s := s) x ?_ (fun hx => ?_); subst x)
    | intro x
    | (lift_lets -underBinder; intro x; refine State.step_have (s := s) x ?_ (fun hx => ?_); subst x)
    | (lift_lets -underBinder; intro x)
    | with_reducible refine State.ite_keep ?_ ?_
    | split

@[simp] theorem State.clocks_base (s : State) (l : Nat) (m : Nat) : (State.clocks s l m).base = s.base := by
  unfold State.clocks
  repeat' first
    | with_reducible rfl
    | with_reducible assumption
    | with_reducible refine (State.setObj_base _ _ _).trans ?_
    | with_reducible refine (State.bump_base _ _ _ _ _).trans ?_
    | with_reducible refine (State.pair_base (by assumption)).trans ?_
    | (intro x; refine State.step_have (s := s) x ?_ (fun hx => ?_); subst x)
    | intro x
    | (lift_lets -underBinder; intro x; refine State.step_have (s := s) x ?_ (fun hx => ?_); subst x)
    | (lift_lets -underBinder; intro x)
    | with_reducible refine State.ite_keep ?_ ?_
    | split

@[simp] theorem State.governor_base (s : State) : (State.governor s).base = s.base := by
  unfold State.governor
  repeat' first
    | with_reducible rfl
    | with_reducible assumption
    | with_reducible refine (State.tickFree_base _).trans ?_
    | with_reducible refine (State.setGov_base _ _).trans ?_
    | with_reducible refine (State.bump_base _ _ _ _ _).trans ?_
    | with_reducible refine State.foldl_keep (fun s a => ?_) ?_
    | (intro x; refine State.step_have (s := s) x ?_ (fun hx => ?_); subst x)
    | with_reducible refine (State.pair_base (by assumption)).trans ?_
    | with_reducible refine State.ite_keep ?_ ?_
    | split

@[simp] theorem State.wirUpdate_base (s : State) (m : Macro) (code : Nat) : (State.wirUpdate s m code).base = s.base := by
  unfold State.wirUpdate
  repeat' first
    | with_reducible rfl
    | with_reducible assumption
    | with_reducible refine (State.setWirs_base _ _).trans ?_
    | with_reducible refine (State.pair_base (by assumption)).trans ?_
    | with_reducible refine State.ite_keep ?_ ?_
    | split

end Sys2Proof.Machine
end

