-- ==== Sys2Proof/Laws/Base/FinfaOps.lean ====
section
/-! SUPPORT. The operations of Machine/FinfaOps.lean leave the configuration, the waiting commands and host memory as they are. -/

namespace Sys2Proof.Machine

@[simp] theorem State.servePut_base (s : State) (o : Obj) (sel : Nat) (v : Nat) : (State.servePut s o sel v).base = s.base := by
  unfold State.servePut
  repeat' first
    | with_reducible rfl
    | with_reducible assumption
    | with_reducible refine (State.setStage_base _ _).trans ?_
    | with_reducible refine (State.setObj_base _ _ _).trans ?_
    | with_reducible refine (State.put_base _ _ _ _).trans ?_
    | with_reducible refine (State.bindPut_base _ _ _ _).trans ?_
    | with_reducible refine (State.pair_base (by assumption)).trans ?_
    | with_reducible refine State.ite_keep ?_ ?_
    | split

@[simp] theorem State.enableQ_base (s : State) (q : Nat) : (State.enableQ s q).base = s.base := by
  unfold State.enableQ
  repeat' first
    | with_reducible rfl
    | with_reducible assumption
    | with_reducible refine (State.setQueue_base _ _ _).trans ?_
    | with_reducible refine (State.put_base _ _ _ _).trans ?_
    | with_reducible refine State.foldl_keep (fun s a => ?_) ?_
    | with_reducible refine (State.pair_base (by assumption)).trans ?_
    | (intro x; refine State.step_have (s := s) x ?_ (fun hx => ?_); subst x)
    | intro x
    | (lift_lets -underBinder; intro x; refine State.step_have (s := s) x ?_ (fun hx => ?_); subst x)
    | (lift_lets -underBinder; intro x)
    | with_reducible refine State.ite_keep ?_ ?_
    | split

@[simp] theorem State.resetQ_base (s : State) (q : Nat) : (State.resetQ s q).base = s.base := by
  unfold State.resetQ
  repeat' first
    | with_reducible rfl
    | with_reducible assumption
    | with_reducible refine (State.put_base _ _ _ _).trans ?_
    | with_reducible refine (State.updQueue_base _ _ _).trans ?_
    | with_reducible refine (State.sweepQ_base _ _ _ _ (fun r s => ?_)).trans ?_
    | with_reducible refine (State.askPreempt_base _ _ _ _).trans ?_
    | with_reducible refine (State.drainFetched_base _ _ _).trans ?_
    | with_reducible refine (State.endReset_base _ _).trans ?_
    | with_reducible refine (State.formResume_base _).trans ?_
    | with_reducible refine (State.pair_base (by assumption)).trans ?_
    | (intro x; refine State.step_have (s := s) x ?_ (fun hx => ?_); subst x)
    | intro x
    | (lift_lets -underBinder; intro x; refine State.step_have (s := s) x ?_ (fun hx => ?_); subst x)
    | (lift_lets -underBinder; intro x)
    | with_reducible refine State.ite_keep ?_ ?_
    | split

@[simp] theorem State.evlogOn_base (s : State) : (State.evlogOn s).base = s.base := by
  unfold State.evlogOn
  repeat' first
    | with_reducible rfl
    | with_reducible assumption
    | with_reducible refine (State.setEvOut_base _ _).trans ?_
    | with_reducible refine (State.setEvbuf_base _ _).trans ?_
    | with_reducible refine (State.giveUp_base _ _).trans ?_
    | with_reducible refine (State.setObj_base _ _ _).trans ?_
    | with_reducible refine (State.pair_base (by assumption)).trans ?_
    | (intro x; refine State.step_have (s := s) x ?_ (fun hx => ?_); subst x)
    | intro x
    | (lift_lets -underBinder; intro x; refine State.step_have (s := s) x ?_ (fun hx => ?_); subst x)
    | (lift_lets -underBinder; intro x)
    | with_reducible refine State.ite_keep ?_ ?_
    | split

@[simp] theorem State.startCheck_base (s : State) : (State.startCheck s).base = s.base := by
  unfold State.startCheck
  repeat' first
    | with_reducible rfl
    | with_reducible assumption
    | with_reducible refine (State.setCheck_base _ _).trans ?_
    | with_reducible refine (State.setObj_base _ _ _).trans ?_
    | with_reducible refine (State.checkReq_base _ _ _ _ _).trans ?_
    | with_reducible refine State.foldl_keep (fun s a => ?_) ?_
    | with_reducible refine (State.pair_base (by assumption)).trans ?_
    | (intro x; refine State.step_have (s := s) x ?_ (fun hx => ?_); subst x)
    | intro x
    | (lift_lets -underBinder; intro x; refine State.step_have (s := s) x ?_ (fun hx => ?_); subst x)
    | (lift_lets -underBinder; intro x)
    | with_reducible refine State.ite_keep ?_ ?_
    | split

@[simp] theorem State.restoreTo_base (s : State) (role : Nat) (vals : SMap Nat) : (State.restoreTo s role vals).base = s.base := by
  unfold State.restoreTo
  repeat' first
    | with_reducible rfl
    | with_reducible assumption
    | with_reducible refine (State.servePut_base _ _ _ _).trans ?_
    | with_reducible refine State.foldl_keep (fun s a => ?_) ?_
    | with_reducible refine (State.pair_base (by assumption)).trans ?_
    | with_reducible refine State.ite_keep ?_ ?_
    | split

@[simp] theorem State.restoreErrs_base (t s : State) (n : Nat) : (State.restoreErrs t s n).base = t.base := by
  unfold State.restoreErrs; split <;> simp

@[simp] theorem State.restoreDone_base (s : State) : (State.restoreDone s).base = s.base := by
  unfold State.restoreDone
  repeat' first
    | with_reducible rfl
    | with_reducible assumption
    | with_reducible refine (State.setNv_base _ _).trans ?_
    | with_reducible refine (State.bump_base _ _ _ _ _).trans ?_
    | with_reducible refine (State.restoreTo_base _ _ _).trans ?_
    | with_reducible refine (State.pair_base (by assumption)).trans ?_
    | with_reducible refine State.ite_keep ?_ ?_
    | split

@[simp] theorem State.epochCtl_base (s : State) (v : Nat) : (State.epochCtl s v).base = s.base := by
  unfold State.epochCtl
  repeat' first
    | with_reducible rfl
    | with_reducible assumption
    | with_reducible refine (State.setStage_base _ _).trans ?_
    | with_reducible refine (State.setObj_base _ _ _).trans ?_
    | with_reducible refine (State.pair_base (by assumption)).trans ?_
    | with_reducible refine State.ite_keep ?_ ?_
    | split

@[simp] theorem State.invalidate_base (s : State) (tenant : Nat) (tid : Nat) : (State.invalidate s tenant tid).base = s.base := by
  unfold State.invalidate
  repeat' first
    | with_reducible rfl
    | with_reducible assumption
    | with_reducible refine (State.staleWalks_base _ _).trans ?_
    | with_reducible refine (State.setInvals_base _ _).trans ?_
    | with_reducible refine State.foldl_keep (fun s a => ?_) ?_
    | with_reducible refine (State.pair_base (by assumption)).trans ?_
    | (intro x; refine State.step_have (s := s) x ?_ (fun hx => ?_); subst x)
    | intro x
    | (lift_lets -underBinder; intro x; refine State.step_have (s := s) x ?_ (fun hx => ?_); subst x)
    | (lift_lets -underBinder; intro x)
    | with_reducible refine State.ite_keep ?_ ?_
    | split

@[simp] theorem State.doWrite_base (s : State) (o : Obj) (role : Nat) (sel : Nat) (v : Nat) : (State.doWrite s o role sel v).base = s.base := by
  unfold State.doWrite
  repeat' first
    | with_reducible rfl
    | with_reducible assumption
    | with_reducible refine (State.setObj_base _ _ _).trans ?_
    | with_reducible refine (State.enableQ_base _ _).trans ?_
    | with_reducible refine (State.resetQ_base _ _).trans ?_
    | with_reducible refine (State.slotReset_base _ _).trans ?_
    | with_reducible refine (State.setHist_base _ _).trans ?_
    | with_reducible refine (State.setSyncWrites_base _ _).trans ?_
    | with_reducible refine (State.invalidate_base _ _ _).trans ?_
    | with_reducible refine (State.put_base _ _ _ _).trans ?_
    | with_reducible refine (State.evlogOn_base _).trans ?_
    | with_reducible refine (State.epochCtl_base _ _).trans ?_
    | with_reducible refine (State.setNv_base _ _).trans ?_
    | with_reducible refine (State.restoreTo_base _ _ _).trans ?_
    | with_reducible refine (State.startTest_base _ _ _ _ _).trans ?_
    | with_reducible refine (State.powerAsk_base _).trans ?_
    | with_reducible refine (State.force_base _ _).trans ?_
    | with_reducible refine (State.startCheck_base _).trans ?_
    | with_reducible refine (State.servePut_base _ _ _ _).trans ?_
    | with_reducible refine (State.pair_base (by assumption)).trans ?_
    | (intro x; refine State.step_have (s := s) x ?_ (fun hx => ?_); subst x)
    | intro x
    | (lift_lets -underBinder; intro x; refine State.step_have (s := s) x ?_ (fun hx => ?_); subst x)
    | (lift_lets -underBinder; intro x)
    | with_reducible refine State.ite_keep ?_ ?_
    | split

@[simp] theorem State.finWrite_base (s : State) (o : Obj) (role : Nat) (sel : Nat) (v : Nat) : (State.finWrite s o role sel v).1.base = s.base := by
  unfold State.finWrite
  repeat' first
    | with_reducible rfl
    | with_reducible assumption
    | with_reducible refine (State.doWrite_base _ _ _ _ _).trans ?_
    | with_reducible refine (State.pair_base (by assumption)).trans ?_
    | (intro x; refine State.step_have (s := s) x ?_ (fun hx => ?_); subst x)
    | intro x
    | (lift_lets -underBinder; intro x; refine State.step_have (s := s) x ?_ (fun hx => ?_); subst x)
    | (lift_lets -underBinder; intro x)
    | with_reducible refine State.ite_keep ?_ ?_
    | split

@[simp] theorem State.dropSeg_base (s : State) (req : Nat) : (State.dropSeg s req).base = s.base := by
  unfold State.dropSeg
  repeat' first
    | with_reducible rfl
    | with_reducible assumption
    | with_reducible refine (State.setSegs_base _ _).trans ?_
    | with_reducible refine (State.pair_base (by assumption)).trans ?_
    | with_reducible refine State.ite_keep ?_ ?_
    | split

theorem State.openSeg_keeps (s : State) (c : SegCtx) : State.OptKeeps s (State.openSeg s c) := by
  unfold State.openSeg
  repeat' first
    | with_reducible rfl
    | with_reducible assumption
    | with_reducible refine (State.dropSeg_base _ _).trans ?_
    | with_reducible refine (State.setSegs_base _ _).trans ?_
    | with_reducible refine (State.pair_base (by assumption)).trans ?_
    | with_reducible exact State.optKeeps_none
    | with_reducible refine State.optKeeps_some ?_
    | (intro x; refine State.step_have (s := s) x ?_ (fun hx => ?_); subst x)
    | intro x
    | (lift_lets -underBinder; intro x; refine State.step_have (s := s) x ?_ (fun hx => ?_); subst x)
    | (lift_lets -underBinder; intro x)
    | with_reducible refine State.ite_keep ?_ ?_
    | split

theorem State.openSeg_base {s : State} {c : SegCtx} {t : State} (h : State.openSeg s c = some t) : t.base = s.base := State.optKeeps_base h (State.openSeg_keeps _ _)

@[simp] theorem State.segRead_base (s : State) (o : Obj) (req : Nat) (sel : Nat) (off : Nat) : (State.segRead s o req sel off).1.base = s.base := by
  unfold State.segRead
  repeat' first
    | with_reducible rfl
    | with_reducible assumption
    | with_reducible refine (State.openSeg_base (by assumption)).trans ?_
    | with_reducible refine (State.dropSeg_base _ _).trans ?_
    | with_reducible refine (State.pair_base (by assumption)).trans ?_
    | (intro x; refine State.step_have (s := s) x ?_ (fun hx => ?_); subst x)
    | intro x
    | (lift_lets -underBinder; intro x; refine State.step_have (s := s) x ?_ (fun hx => ?_); subst x)
    | (lift_lets -underBinder; intro x)
    | with_reducible refine State.ite_keep ?_ ?_
    | split

@[simp] theorem State.segKeep_base (s : State) (o : Obj) (role : Nat) (c : SegCtx) : (State.segKeep s o role c).1.base = s.base := by
  unfold State.segKeep
  repeat' first
    | with_reducible rfl
    | with_reducible assumption
    | with_reducible refine (State.finWrite_base _ _ _ _ _).trans ?_
    | with_reducible refine (State.setSegs_base _ _).trans ?_
    | with_reducible refine (State.pair_base (by assumption)).trans ?_
    | (intro x; refine State.step_have (s := s) x ?_ (fun hx => ?_); subst x)
    | intro x
    | (lift_lets -underBinder; intro x; refine State.step_have (s := s) x ?_ (fun hx => ?_); subst x)
    | (lift_lets -underBinder; intro x)
    | with_reducible refine State.ite_keep ?_ ?_
    | split

@[simp] theorem State.segStart_base (s : State) (o : Obj) (role : Nat) (req : Nat) (sel : Nat) (v : Nat) : (State.segStart s o role req sel v).1.base = s.base := by
  unfold State.segStart
  repeat' first
    | with_reducible rfl
    | with_reducible assumption
    | with_reducible refine (State.openSeg_base (by assumption)).trans ?_
    | with_reducible refine (State.segKeep_base _ _ _ _).trans ?_
    | with_reducible refine (State.pair_base (by assumption)).trans ?_
    | (intro x; refine State.step_have (s := s) x ?_ (fun hx => ?_); subst x)
    | intro x
    | (lift_lets -underBinder; intro x; refine State.step_have (s := s) x ?_ (fun hx => ?_); subst x)
    | (lift_lets -underBinder; intro x)
    | with_reducible refine State.ite_keep ?_ ?_
    | split

@[simp] theorem State.segWrite_base (s : State) (o : Obj) (role : Nat) (req : Nat) (sel : Nat) (off : Nat) (v : Nat) : (State.segWrite s o role req sel off v).1.base = s.base := by
  unfold State.segWrite
  repeat' first
    | with_reducible rfl
    | with_reducible assumption
    | with_reducible refine (State.segStart_base _ _ _ _ _ _).trans ?_
    | with_reducible refine (State.segKeep_base _ _ _ _).trans ?_
    | with_reducible refine (State.dropSeg_base _ _).trans ?_
    | with_reducible refine (State.pair_base (by assumption)).trans ?_
    | with_reducible refine State.ite_keep ?_ ?_
    | split

@[simp] theorem State.respond_base (s : State) (h : FinfaHead) (src : Nat) (op : Nat) (status : Nat) (ty : Nat) (size : Nat) (index : Nat) (sub : Nat) (data : Nat) : (State.respond s h src op status ty size index sub data).base = s.base := by
  unfold State.respond
  repeat' first
    | with_reducible rfl
    | with_reducible assumption
    | with_reducible refine (State.setMoOut_base _ _).trans ?_
    | with_reducible refine (State.bump_base _ _ _ _ _).trans ?_
    | with_reducible refine (State.pair_base (by assumption)).trans ?_
    | (intro x; refine State.step_have (s := s) x ?_ (fun hx => ?_); subst x)
    | intro x
    | (lift_lets -underBinder; intro x; refine State.step_have (s := s) x ?_ (fun hx => ?_); subst x)
    | (lift_lets -underBinder; intro x)
    | with_reducible refine State.ite_keep ?_ ?_
    | split

@[simp] theorem State.perform_base (s : State) (h : FinfaHead) (op : Nat) (o : Obj) (data : Nat) : (State.perform s h op o data).1.base = s.base := by
  unfold State.perform
  repeat' first
    | with_reducible rfl
    | with_reducible assumption
    | with_reducible refine (State.finWrite_base _ _ _ _ _).trans ?_
    | with_reducible refine (State.segRead_base _ _ _ _ _).trans ?_
    | with_reducible refine (State.segWrite_base _ _ _ _ _ _ _).trans ?_
    | with_reducible refine (State.pair_base (by assumption)).trans ?_
    | (intro x; refine State.step_have (s := s) x ?_ (fun hx => ?_); subst x)
    | intro x
    | (lift_lets -underBinder; intro x; refine State.step_have (s := s) x ?_ (fun hx => ?_); subst x)
    | (lift_lets -underBinder; intro x)
    | with_reducible refine State.ite_keep ?_ ?_
    | split

@[simp] theorem State.answer_base (s : State) (h : FinfaHead) (op : Nat) (index : Nat) (sub : Nat) (data : Nat) : (State.answer s h op index sub data).base = s.base := by
  unfold State.answer
  repeat' first
    | with_reducible rfl
    | with_reducible assumption
    | with_reducible refine (State.respond_base _ _ _ _ _ _ _ _ _ _).trans ?_
    | with_reducible refine (State.dropSeg_base _ _).trans ?_
    | with_reducible refine (State.perform_base _ _ _ _ _).trans ?_
    | with_reducible refine State.foldl_keep (fun s a => ?_) ?_
    | with_reducible refine (State.pair_base (by assumption)).trans ?_
    | (intro x; refine State.step_have (s := s) x ?_ (fun hx => ?_); subst x)
    | intro x
    | (lift_lets -underBinder; intro x; refine State.step_have (s := s) x ?_ (fun hx => ?_); subst x)
    | (lift_lets -underBinder; intro x)
    | with_reducible refine State.ite_keep ?_ ?_
    | split

@[simp] theorem State.serve_base (s : State) (h : FinfaHead) (op : Nat) (index : Nat) (sub : Nat) (data : Nat) : (State.serve s h op index sub data).base = s.base := by
  unfold State.serve
  repeat' first
    | with_reducible rfl
    | with_reducible assumption
    | with_reducible refine (State.singular_base _ _ _ _).trans ?_
    | with_reducible refine (State.answer_base _ _ _ _ _ _).trans ?_
    | with_reducible refine (State.pair_base (by assumption)).trans ?_
    | (intro x; refine State.step_have (s := s) x ?_ (fun hx => ?_); subst x)
    | intro x
    | (lift_lets -underBinder; intro x; refine State.step_have (s := s) x ?_ (fun hx => ?_); subst x)
    | (lift_lets -underBinder; intro x)
    | with_reducible refine State.ite_keep ?_ ?_
    | split

@[simp] theorem State.serveWrite_base (s : State) (h : FinfaHead) (oid : Nat) (v : Nat) : (State.serveWrite s h oid v).base = s.base := by
  unfold State.serveWrite
  repeat' first
    | with_reducible rfl
    | with_reducible assumption
    | with_reducible refine (State.serve_base _ _ _ _ _ _).trans ?_
    | with_reducible refine (State.pair_base (by assumption)).trans ?_
    | with_reducible refine State.ite_keep ?_ ?_
    | split

@[simp] theorem State.segTimeout_base (s : State) (req : Nat) : (State.segTimeout s req).base = s.base := by
  unfold State.segTimeout
  repeat' first
    | with_reducible rfl
    | with_reducible assumption
    | with_reducible refine (State.dropSeg_base _ _).trans ?_
    | with_reducible refine (State.pair_base (by assumption)).trans ?_
    | with_reducible refine State.ite_keep ?_ ?_
    | split

@[simp] theorem State.invDone_base (s : State) : (State.invDone s).base = s.base := by
  unfold State.invDone
  repeat' first
    | with_reducible rfl
    | with_reducible assumption
    | with_reducible refine (State.setInvals_base _ _).trans ?_
    | with_reducible refine (State.setTwigs_base _ _).trans ?_
    | with_reducible refine (State.bump_base _ _ _ _ _).trans ?_
    | with_reducible refine (State.pair_base (by assumption)).trans ?_
    | (intro x; refine State.step_have (s := s) x ?_ (fun hx => ?_); subst x)
    | intro x
    | (lift_lets -underBinder; intro x; refine State.step_have (s := s) x ?_ (fun hx => ?_); subst x)
    | (lift_lets -underBinder; intro x)
    | with_reducible refine State.ite_keep ?_ ?_
    | split

end Sys2Proof.Machine
end

