-- ==== Sys2Proof/Laws/Base/LanternScalar.lean ====
section
/-! SUPPORT. The operations of Machine/LanternScalar.lean leave the configuration, the waiting commands and host memory as they are. -/

namespace Sys2Proof.Machine

theorem State.badWord_keeps (s : State) (u2 : Rout) (u3 : Image) (u4 : LCtx) (u5 : Lan) : (State.badWord s u2 u3 u4 u5).Keeps s := by
  unfold State.badWord
  repeat' first
    | with_reducible rfl
    | with_reducible assumption
    | with_reducible refine LEff.keeps_trans (illegal_keeps _) ?_
    | with_reducible refine (State.pair_base (by assumption)).trans ?_
    | with_reducible exact LEff.keeps_wait
    | with_reducible exact AEff.keeps_wait
    | with_reducible refine LEff.keeps_go ?_
    | with_reducible refine LEff.keeps_exc ?_
    | with_reducible refine LEff.keeps_fail ?_
    | with_reducible refine AEff.keeps_go ?_
    | with_reducible refine AEff.keeps_fail ?_
    | with_reducible refine State.ite_keep ?_ ?_
    | split

end Sys2Proof.Machine
end

