-- ==== Sys2Proof/Laws/Base/Streams.lean ====
section
/-! SUPPORT. The operations of Machine/Streams.lean leave the configuration, the waiting commands and host memory as they are. -/

namespace Sys2Proof.Machine

@[simp] theorem State.orphan_base (s : State) (t : Tile) : (State.orphan s t).base = s.base := by
  unfold State.orphan
  repeat' first
    | with_reducible rfl
    | with_reducible assumption
    | with_reducible refine (State.bump_base _ _ _ _ _).trans ?_
    | with_reducible refine (State.report_base _ _).trans ?_
    | with_reducible refine (State.pair_base (by assumption)).trans ?_
    | with_reducible refine State.ite_keep ?_ ?_
    | split

@[simp] theorem State.streamTile_base (s : State) (t : Tile) (chk : Chk) : (State.streamTile s t chk).base = s.base := by
  unfold State.streamTile
  repeat' first
    | with_reducible rfl
    | with_reducible assumption
    | with_reducible refine (State.takeTile_base _ _ _ _ _ _).trans ?_
    | with_reducible refine (State.orphan_base _ _).trans ?_
    | with_reducible refine (State.setWaitTiles_base _ _).trans ?_
    | with_reducible refine (State.put_base _ _ _ _).trans ?_
    | with_reducible refine (State.pair_base (by assumption)).trans ?_
    | (intro x; refine State.step_have (s := s) x ?_ (fun hx => ?_); subst x)
    | intro x
    | (lift_lets -underBinder; intro x; refine State.step_have (s := s) x ?_ (fun hx => ?_); subst x)
    | (lift_lets -underBinder; intro x)
    | with_reducible refine State.ite_keep ?_ ?_
    | split

@[simp] theorem State.orphanOut_base (s : State) (seg : Nat) : (State.orphanOut s seg).base = s.base := by
  unfold State.orphanOut
  repeat' first
    | with_reducible rfl
    | with_reducible assumption
    | with_reducible refine (State.setWaitTiles_base _ _).trans ?_
    | with_reducible refine (State.put_base _ _ _ _).trans ?_
    | with_reducible refine (State.orphan_base _ _).trans ?_
    | with_reducible refine (State.pair_base (by assumption)).trans ?_
    | with_reducible refine State.ite_keep ?_ ?_
    | split

end Sys2Proof.Machine
end

