-- ==== Sys2Proof/Laws/Map.lean ====
section
/-! SUPPORT. What a sparse map does: a read after a write, other keys, and the canonical form. -/

namespace Sys2Proof
variable {α : Type}

theorem SMap.look_del_same (d : α) (k : Nat) (m : SMap α) : SMap.look d (SMap.del k m) k = d := by
  induction m with
  | nil => rfl
  | cons p m ih =>
    simp only [SMap.del]
    split
    · exact ih
    · rename_i h
      simp only [SMap.look]
      rw [if_neg (fun e => h e.symm)]
      exact ih

theorem SMap.look_del_other (d : α) {k x : Nat} (h : x ≠ k) (m : SMap α) :
    SMap.look d (SMap.del k m) x = SMap.look d m x := by
  induction m with
  | nil => rfl
  | cons p m ih =>
    simp only [SMap.del]
    split
    · rename_i e
      simp only [SMap.look]
      rw [if_neg (by omega)]
      exact ih
    · simp only [SMap.look]
      rw [ih]

theorem SMap.look_ins_same (d : α) (k : Nat) (v : α) (m : SMap α) (h : ∀ p ∈ m, p.1 ≠ k) :
    SMap.look d (SMap.ins k v m) k = v := by
  induction m with
  | nil => simp [SMap.ins, SMap.look]
  | cons p m ih =>
    simp only [SMap.ins]
    split
    · simp [SMap.look]
    · simp only [SMap.look]
      rw [if_neg (fun e => h p (by simp) e.symm)]
      exact ih (fun q hq => h q (by simp [hq]))

theorem SMap.look_ins_other (d : α) {k x : Nat} (h : x ≠ k) (v : α) (m : SMap α) :
    SMap.look d (SMap.ins k v m) x = SMap.look d m x := by
  induction m with
  | nil => simp [SMap.ins, SMap.look, h]
  | cons p m ih =>
    simp only [SMap.ins]
    split
    · simp [SMap.look, h]
    · simp only [SMap.look]
      rw [ih]

theorem SMap.not_mem_del (k : Nat) (m : SMap α) : ∀ p ∈ SMap.del k m, p.1 ≠ k := by
  induction m with
  | nil => simp [SMap.del]
  | cons p m ih =>
    simp only [SMap.del]
    split
    · exact ih
    · intro q hq
      simp only [List.mem_cons] at hq
      rcases hq with rfl | hq
      · assumption
      · exact ih q hq

variable [DecidableEq α]

@[simp] theorem SMap.look_put_same (d : α) (k : Nat) (v : α) (m : SMap α) :
    SMap.look d (SMap.put d k v m) k = v := by
  unfold SMap.put
  split
  · rename_i h; rw [h]; exact SMap.look_del_same d k m
  · exact SMap.look_ins_same d k v _ (SMap.not_mem_del k m)

theorem SMap.look_put_other (d : α) {k x : Nat} (h : x ≠ k) (v : α) (m : SMap α) :
    SMap.look d (SMap.put d k v m) x = SMap.look d m x := by
  unfold SMap.put
  split
  · exact SMap.look_del_other d h m
  · rw [SMap.look_ins_other d h, SMap.look_del_other d h]

theorem SMap.look_put (d : α) (k x : Nat) (v : α) (m : SMap α) :
    SMap.look d (SMap.put d k v m) x = if x = k then v else SMap.look d m x := by
  split
  · rename_i h; subst h; exact SMap.look_put_same d x v m
  · rename_i h; exact SMap.look_put_other d h v m

theorem SMap.mem_del {k : Nat} {m : SMap α} {p : Nat × α} (h : p ∈ SMap.del k m) : p ∈ m := by
  induction m with
  | nil => simp [SMap.del] at h
  | cons q m ih =>
    simp only [SMap.del] at h
    split at h
    · exact List.mem_cons_of_mem _ (ih h)
    · simp only [List.mem_cons] at h
      rcases h with rfl | h
      · simp
      · exact List.mem_cons_of_mem _ (ih h)

theorem SMap.mem_ins {k : Nat} {v : α} {m : SMap α} {p : Nat × α} (h : p ∈ SMap.ins k v m) :
    p = (k, v) ∨ p ∈ m := by
  induction m with
  | nil => simpa [SMap.ins] using h
  | cons q m ih =>
    simp only [SMap.ins] at h
    split at h
    · simpa using h
    · simp only [List.mem_cons] at h
      rcases h with rfl | h
      · simp
      · rcases ih h with rfl | h
        · simp
        · exact Or.inr (List.mem_cons_of_mem _ h)

theorem SMap.del_wf {d : α} {k : Nat} {m : SMap α} (h : SMap.Wf d m) : SMap.Wf d (SMap.del k m) := by
  refine ⟨?_, fun p hp => h.2 p (SMap.mem_del hp)⟩
  have := h.1
  clear h
  induction m with
  | nil => simp [SMap.del]
  | cons q m ih =>
    simp only [SMap.del]
    rw [List.pairwise_cons] at this
    split
    · exact ih this.2
    · rw [List.pairwise_cons]
      exact ⟨fun p hp => this.1 p (SMap.mem_del hp), ih this.2⟩

theorem SMap.ins_sorted {k : Nat} {v : α} {m : SMap α} (h : m.Pairwise (fun p q => p.1 < q.1))
    (hk : ∀ p ∈ m, p.1 ≠ k) : (SMap.ins k v m).Pairwise (fun p q => p.1 < q.1) := by
  induction m with
  | nil => simp [SMap.ins]
  | cons q m ih =>
    have hc := List.pairwise_cons.1 h
    simp only [SMap.ins]
    split
    · rename_i hlt
      rw [List.pairwise_cons]
      refine ⟨?_, h⟩
      intro p hp
      simp only [List.mem_cons] at hp
      rcases hp with rfl | hp
      · exact hlt
      · exact Nat.lt_trans hlt (hc.1 p hp)
    · rename_i hge
      rw [List.pairwise_cons]
      refine ⟨?_, ih hc.2 (fun p hp => hk p (List.mem_cons_of_mem _ hp))⟩
      intro p hp
      rcases SMap.mem_ins hp with rfl | hp
      · have := hk q (by simp)
        simp only
        omega
      · exact hc.1 p hp

/-- A write keeps the canonical form. -/
theorem SMap.put_wf {d : α} {k : Nat} {v : α} {m : SMap α} (h : SMap.Wf d m) :
    SMap.Wf d (SMap.put d k v m) := by
  unfold SMap.put
  split
  · exact SMap.del_wf h
  · rename_i hv
    have hd := SMap.del_wf (k := k) h
    refine ⟨SMap.ins_sorted hd.1 (SMap.not_mem_del k m), ?_⟩
    intro p hp
    rcases SMap.mem_ins hp with rfl | hp
    · exact hv
    · exact hd.2 p hp

theorem SMap.nil_wf (d : α) : SMap.Wf d ([] : SMap α) := by
  simp [SMap.Wf]

end Sys2Proof
end

