-- ==== Sys2Proof/Laws/Objs.lean ====
section
/-! SUPPORT. Reading an object of the dictionary after a write of one: the object written, and every other. -/

namespace Sys2Proof

/-- A key that is not the one written, whatever the two defaults. -/
theorem SMap.look_put_ne {α : Type} [DecidableEq α] (d e : α) {k x : Nat} (h : x ≠ k) (v : α) (m : SMap α) :
    SMap.look e (SMap.put d k v m) x = SMap.look e m x := by
  unfold SMap.put
  split
  · exact SMap.look_del_other e h m
  · rw [SMap.look_ins_other e h, SMap.look_del_other e h]

/-- Different objects, or different select numbers of one object, have different keys. -/
theorem okey_ne {o n o' n' : Nat} (hn : n < 262144) (hn' : n' < 262144) (h : o ≠ o' ∨ n ≠ n') : okey o n ≠ okey o' n' := by
  unfold okey; omega

end Sys2Proof

namespace Sys2Proof.Machine

theorem State.get_put_same (s : State) (o n v : Nat) (h : o ≠ O.bgMaster) : (s.put o n v).get o n = v := by
  simp [State.get, State.put, h]

theorem State.get_put_other (s : State) {o n v o' n' : Nat} (h : okey o' n' ≠ okey o n) (hb : o' ≠ O.bgMaster) :
    (s.put o n v).get o' n' = s.get o' n' := by
  simp [State.get, State.put, hb, SMap.look_put_ne _ _ h]

/-- The objects of number `o'` are those of the state before, after a write of an object of another number. -/
theorem State.get_put_oid (s : State) {o n v o' n' : Nat} (h : o' ≠ o) (hb : o' ≠ O.bgMaster) (hn : n < 262144) (hn' : n' < 262144) :
    (s.put o n v).get o' n' = s.get o' n' :=
  State.get_put_other s (okey_ne hn' hn (Or.inl h)) hb

/-- BG_MASTER reads its own value, or INSTANCE_ID before a group has formed. -/
theorem State.bgMaster_put (s : State) {o n v k : Nat} (h : okey O.bgMaster k ≠ okey o n) (hi : okey O.instanceId 0 ≠ okey o n) :
    (s.put o n v).get O.bgMaster k = s.get O.bgMaster k := by
  simp [State.get, State.put, SMap.look_put_ne _ _ h, SMap.look_put_ne _ _ hi]

theorem State.obj_put_same (s : State) (o v : Nat) (h : o ≠ O.bgMaster) : (s.setObj o v).obj o = v := State.get_put_same s o 0 v h

theorem State.get_bump_same (s : State) (o n w k : Nat) (h : o ≠ O.bgMaster) : (s.bump o n w k).get o n = (s.get o n + k) % 2 ^ w :=
  State.get_put_same s o n _ h

/-- A write that changes no object leaves every read of the dictionary. -/
theorem State.get_of_objs {s t : State} (hv : t.variant = s.variant) (ho : t.objs = s.objs) (o n : Nat) : t.get o n = s.get o n := by
  simp [State.get, hv, ho]

end Sys2Proof.Machine
end

