-- ==== Sys2Proof/Laws/Events.lean ====
section
/-! SUPPORT. What the report of an event leaves: every object but those that count, hold or announce events (R306 to R315). -/

namespace Sys2Proof.Machine

/-- The objects that a report may write. -/
def eventObjects : List Nat :=
  [O.eventsSev0, O.eventsSev0 + 1, O.eventsSev0 + 2, O.eventsSev0 + 3, O.evcodeCount, O.firstFault, O.firstFaultValid, O.evlogPending, O.coalesced,
   O.dropsSev0, O.dropsSev0 + 1, O.dropsSev0 + 2, O.dropsSev0 + 3]

theorem evSeverity_le (c : Nat) : evSeverity c ≤ 3 := by
  unfold evSeverity
  split
  · decide
  · split
    · decide
    · split <;> decide

theorem State.get_setObj_event (s : State) {x v o n : Nat} (hx : x ∈ eventObjects) (ho : o ∉ eventObjects) (hb : o ≠ O.bgMaster) (hn : n < 262144) :
    (s.setObj x v).get o n = s.get o n :=
  State.get_put_oid s (fun e => ho (e ▸ hx)) hb (by omega) hn

theorem State.get_bump_event (s : State) {x k w m o n : Nat} (hx : x ∈ eventObjects) (hk : k < 262144) (ho : o ∉ eventObjects) (hb : o ≠ O.bgMaster)
    (hn : n < 262144) : (s.bump x k w m).get o n = s.get o n :=
  State.get_put_oid s (fun e => ho (e ▸ hx)) hb hk hn

theorem mem_sev {k : Nat} (h : k ≤ 3) : O.eventsSev0 + k ∈ eventObjects := by
  have : k = 0 ∨ k = 1 ∨ k = 2 ∨ k = 3 := by omega
  rcases this with rfl | rfl | rfl | rfl <;> decide

theorem mem_drop {k : Nat} (h : k ≤ 3) : O.dropsSev0 + k ∈ eventObjects := by
  have : k = 0 ∨ k = 1 ∨ k = 2 ∨ k = 3 := by omega
  rcases this with rfl | rfl | rfl | rfl <;> decide

theorem foldl_min_le (l : List Ev) (a : Nat) : l.foldl (fun m x => min m (evSeverity x.code)) a ≤ a := by
  induction l generalizing a with
  | nil => exact Nat.le_refl _
  | cons x l ih => exact Nat.le_trans (ih _) (Nat.min_le_left _ _)

theorem State.get_setEvbuf (s : State) (x : List Ev) (o n : Nat) : (s.setEvbuf x).get o n = s.get o n := State.get_of_objs rfl rfl o n
theorem State.get_setEvSeq (s : State) (x o n : Nat) : (s.setEvSeq x).get o n = s.get o n := State.get_of_objs rfl rfl o n
theorem State.get_setFatal (s : State) (x : List Nat) (o n : Nat) : (s.setFatalRaised x).get o n = s.get o n := State.get_of_objs rfl rfl o n

/-- An event put into the buffer, with the interrupt that announces it. -/
theorem State.get_pend (s : State) (c : Prop) [Decidable c] {o n : Nat} (ho : o ∉ eventObjects) (hb : o ≠ O.bgMaster) (hn : n < 262144) :
    (if c then s.setObj O.evlogPending 1 else s).get o n = s.get o n := by
  split
  · exact State.get_setObj_event s (by decide) ho hb hn
  · rfl

theorem State.buffer_get (s : State) (e : Ev) {o n : Nat} (ho : o ∉ eventObjects) (hb : o ≠ O.bgMaster) (hn : n < 262144) :
    (s.buffer e).get o n = s.get o n := by
  have low := foldl_min_le (s.evbuf.filter (fun x => !evFatal x)) 3
  unfold State.buffer
  dsimp only
  split <;> split
  all_goals first
    | (rw [State.get_pend _ _ ho hb hn, State.get_setEvSeq, State.get_setEvbuf]; done)
    | (by_cases h2 : (s.evbuf.filter (fun x => !evFatal x)).foldl (fun m x => min m (evSeverity x.code)) 3 < evSeverity e.code
       · rw [if_pos h2, State.get_pend _ _ ho hb hn, State.get_setEvSeq, State.get_setEvbuf, State.get_bump_event _ (mem_drop low) (by decide) ho hb hn,
           State.get_setEvbuf]
       · rw [if_neg h2, State.get_bump_event _ (mem_drop (evSeverity_le _)) (by decide) ho hb hn])

/-- A report leaves every object that is not one of events. -/
theorem State.report_get (s : State) (e : Ev) {o n : Nat} (hc : e.code < 262144) (ho : o ∉ eventObjects) (hb : o ≠ O.bgMaster) (hn : n < 262144) :
    (s.report e).get o n = s.get o n := by
  have h1 : ((s.bump (O.eventsSev0 + evSeverity e.code) 0 64 1).bump O.evcodeCount e.code 64 1).get o n = s.get o n := by
    rw [State.get_bump_event _ (by decide) hc ho hb hn, State.get_bump_event _ (mem_sev (evSeverity_le _)) (by decide) ho hb hn]
  have h2 : ∀ (t : State) (c : Prop) [Decidable c] v, t.get o n = s.get o n →
      (if c then (t.setObj O.firstFault v).setObj O.firstFaultValid 1 else t).get o n = s.get o n := by
    intro t c _ v h; split
    · rw [State.get_setObj_event _ (by decide) ho hb hn, State.get_setObj_event _ (by decide) ho hb hn, h]
    · exact h
  unfold State.report
  dsimp only
  generalize (s.bump (O.eventsSev0 + evSeverity e.code) 0 64 1).bump O.evcodeCount e.code 64 1 = t at h1 ⊢
  have h3 := fun v => h2 t (2 ≤ evSeverity e.code ∧ t.obj O.firstFaultValid = 0) v h1
  generalize hx : (if 2 ≤ evSeverity e.code ∧ t.obj O.firstFaultValid = 0 then _ else t) = x
  replace h3 : x.get o n = s.get o n := hx ▸ h3 _
  split
  · split
    · exact h3
    · rw [State.buffer_get _ _ ho hb hn, State.get_setFatal, h3]
  · split
    · exact h3
    · split
      · rw [State.get_bump_event _ (by decide) (by decide) ho hb hn, State.get_setEvbuf, h3]
      · rw [State.buffer_get _ _ ho hb hn, h3]

end Sys2Proof.Machine
end

