-- ==== Sys2Proof/Laws/Finfa.lean ====
section
/-! SUPPORT. What a request on the management port comes to once its checks pass (R352). -/

namespace Sys2Proof.Machine

/-- A request that no reset discards, and on which the dictionary's own checks pass, is answered. -/
theorem State.serve_answer {s : State} {h : FinfaHead} (hd : s.deaf = false) (hc : h.chk = .ok) (op index sub v : Nat) :
    s.serve h op index sub v = s.answer h op index sub v := by
  simp [State.serve, hd, hc, State.singular]

/-- A WRITE that passes every check is performed and answered OK. -/
theorem State.serve_write {s : State} {h : FinfaHead} {o : Obj} {v : Nat} (ht : s.takesWrite h o v = true) :
    s.serve h 2 (o.oid / 256) (o.oid % 256) v = (s.doWrite o h.role (s.selFor o h 2) v).okTo s h 2 o 0 := by
  simp only [State.takesWrite, Bool.and_eq_true, Bool.not_eq_true', decide_eq_true_eq, State.hears, objFor] at ht
  obtain ⟨⟨⟨⟨⟨⟨⟨⟨⟨⟨⟨⟨⟨⟨⟨hr, hck⟩, hm⟩, hd⟩, hl⟩, hst⟩, ho⟩, hsz⟩, hso⟩, hro⟩, hal⟩, hv⟩, hnv⟩, hw1⟩, hw2⟩, hwr⟩ := ht
  have e : o.oid / 256 * 256 + o.oid % 256 = o.oid := by omega
  replace ho := of_decide_eq_true ho
  have hf : s.finWrite o h.role (s.selFor o h 2) v = (s.doWrite o h.role (s.selFor o h 2) v, St.ok) := by
    unfold State.finWrite
    dsimp only
    rw [if_neg (by simpa using hnv), if_neg, if_neg (by simp [hwr])]
    simp only [Bool.and_eq_false_iff, beq_eq_false_iff_ne, decide_eq_false_iff_not] at hw1 hw2
    rintro (⟨a, b⟩ | ⟨a, b⟩)
    · rcases hw1 with c | c
      · exact c a
      · exact c b
    · rcases hw2 with c | c
      · exact c a
      · exact c b
  have hp : s.perform h 2 o v = (s.doWrite o h.role (s.selFor o h 2) v, St.ok, 0) := by
    unfold State.perform
    dsimp only
    rw [if_neg (by omega), if_neg (by simp [hro]), if_neg (by simp [hal]), if_neg (by simpa using hv), hf]
    have h0 : h.segOff = 0 := by simpa using hso
    simp [h0]
  rw [State.serve_answer hr (by simpa using hck)]
  unfold State.answer
  dsimp only
  rw [if_neg (by simp [hm]), if_neg (by simpa using hd), if_neg, if_neg, if_neg (by decide), if_neg (by decide), e, ho]
  · dsimp only
    rw [hp]
    rfl
  · simp only [Bool.or_eq_true, Bool.not_eq_true', Bool.and_eq_true] at hst
    simp only [Bool.and_eq_true, Bool.not_eq_true']
    rintro ⟨a, b⟩
    simp_all
  · simp only [Bool.or_eq_true, Bool.and_eq_true] at hl
    simp only [Bool.and_eq_true, Bool.not_eq_true', Bool.or_eq_true]
    rintro ⟨a, b⟩
    simp_all

/-- The same for the command that names the object. -/
theorem State.serveWrite_at {s : State} {h : FinfaHead} {o : Obj} {v oid : Nat} (e : oid = o.oid) (ht : s.takesWrite h o v = true) :
    s.serveWrite h oid v = (s.doWrite o h.role (s.selFor o h 2) v).okTo s h 2 o 0 := by
  subst e; exact State.serve_write ht

/-- An object that takes a write is the one of its number. -/
theorem State.takesWrite_find {s : State} {h : FinfaHead} {o : Obj} {v : Nat} (ht : s.takesWrite h o v = true) : Obj.find o.oid = some o := by
  simp only [State.takesWrite, Bool.and_eq_true, objFor] at ht
  obtain ⟨⟨⟨⟨⟨⟨⟨⟨⟨⟨_, ho⟩, _⟩, _⟩, _⟩, _⟩, _⟩, _⟩, _⟩, _⟩, _⟩ := ht
  have ho := of_decide_eq_true ho
  cases hf : Obj.find o.oid with
  | none => simp [hf] at ho
  | some x => rw [hf] at ho; simp [Option.filter] at ho; rw [ho.2]

end Sys2Proof.Machine
end

