-- ==== Sys2Proof/Laws/Memory.lean ====
section
/-! SUPPORT. Host memory: what a write leaves at each byte, and that every write keeps the canonical form. -/

namespace Sys2Proof.Machine

/-- The canonical form as a statement about pairs of cells. -/
theorem Memory.wf_iff (m : Memory) : Memory.wf m = true ↔ m.Pairwise (fun p q => p.1 < q.1) ∧ ∀ p ∈ m, p.2 ≠ 0 := by
  induction m with
  | nil => simp [Memory.wf]
  | cons p m ih =>
    cases m with
    | nil => simp [Memory.wf]
    | cons q m =>
      simp only [Memory.wf, Bool.and_eq_true, bne_iff_ne, decide_eq_true_eq, ih]
      constructor
      · rintro ⟨⟨hp, hlt⟩, hs, hn⟩
        refine ⟨List.pairwise_cons.mpr ⟨?_, hs⟩, ?_⟩
        · intro r hr
          rcases List.mem_cons.mp hr with rfl | hr
          · exact hlt
          · exact Nat.lt_trans hlt ((List.pairwise_cons.mp hs).1 r hr)
        · intro r hr
          rcases List.mem_cons.mp hr with rfl | hr
          · exact hp
          · exact hn r hr
      · rintro ⟨hs, hn⟩
        have h := List.pairwise_cons.mp hs
        exact ⟨⟨hn p (by simp), h.1 q (by simp)⟩, h.2, fun r hr => hn r (List.mem_cons_of_mem _ hr)⟩

theorem Memory.nil_wf : Memory.wf [] = true := rfl

/-- The cells of a run of bytes lie in the run. -/
theorem cellsAt_mem {a : Nat} {bs : List Nat} {c : Nat × Byte} (h : c ∈ cellsAt a bs) : a ≤ c.1 ∧ c.1 < a + bs.length ∧ c.2 ≠ 0 := by
  induction bs generalizing a with
  | nil => simp [cellsAt] at h
  | cons b bs ih =>
    simp only [cellsAt] at h
    split at h
    · have := ih h; simp only [List.length_cons]; exact ⟨by omega, by omega, this.2.2⟩
    · rename_i hb
      rcases List.mem_cons.mp h with rfl | h
      · simp only [List.length_cons]; exact ⟨Nat.le_refl _, by omega, hb⟩
      · have := ih h; simp only [List.length_cons]; exact ⟨by omega, by omega, this.2.2⟩

theorem cellsAt_sorted (a : Nat) (bs : List Nat) : (cellsAt a bs).Pairwise (fun p q => p.1 < q.1) := by
  induction bs generalizing a with
  | nil => exact List.Pairwise.nil
  | cons b bs ih =>
    simp only [cellsAt]
    split
    · exact ih _
    · exact List.pairwise_cons.mpr ⟨fun c hc => (cellsAt_mem hc).1, ih _⟩

/-- A write keeps the canonical form. -/
theorem putBytes_wf {a : Nat} {bs : List Nat} {m : Memory} (h : Memory.wf m = true) : Memory.wf (putBytes a bs m) = true := by
  rw [Memory.wf_iff] at h ⊢
  unfold putBytes
  refine ⟨?_, ?_⟩
  · rw [List.pairwise_append, List.pairwise_append]
    refine ⟨⟨h.1.filter _, cellsAt_sorted _ _, ?_⟩, h.1.filter _, ?_⟩
    · intro p hp q hq
      have h1 := (List.mem_filter.mp hp).2
      have h2 := (cellsAt_mem hq).1
      simp only [decide_eq_true_eq] at h1
      omega
    · intro p hp q hq
      have h2 := (List.mem_filter.mp hq).2
      simp only [decide_eq_true_eq] at h2
      rcases List.mem_append.mp hp with hp | hp
      · have h1 := (List.mem_filter.mp hp).2
        simp only [decide_eq_true_eq] at h1
        omega
      · have := (cellsAt_mem hp).2.1
        omega
  · intro p hp
    rcases List.mem_append.mp hp with hp | hp
    · rcases List.mem_append.mp hp with hp | hp
      · exact h.2 p (List.mem_filter.mp hp).1
      · exact (cellsAt_mem hp).2.2
    · exact h.2 p (List.mem_filter.mp hp).1

theorem look_append_left {m n : Memory} {x : Nat} (h : ∀ p ∈ m, p.1 ≠ x) : SMap.look 0 (m ++ n) x = SMap.look 0 n x := by
  induction m with
  | nil => rfl
  | cons p m ih =>
    have hp := h p (by simp)
    have := ih (fun q hq => h q (List.mem_cons_of_mem _ hq))
    simp only [List.cons_append, SMap.look]
    rw [if_neg (fun e => hp e.symm)]
    exact this

theorem look_none {m : Memory} {x : Nat} (h : ∀ p ∈ m, p.1 ≠ x) : SMap.look 0 m x = 0 := by
  have := look_append_left (n := []) h
  simpa [SMap.look] using this

theorem look_append_right {m n : Memory} {x : Nat} (h : ∀ p ∈ n, p.1 ≠ x) : SMap.look 0 (m ++ n) x = SMap.look 0 m x := by
  induction m with
  | nil => simpa [SMap.look] using look_none h
  | cons p m ih => simp only [List.cons_append, SMap.look, ih]

theorem look_filter {m : Memory} {x : Nat} {p : Nat × Byte → Bool} (h : ∀ c ∈ m, c.1 = x → p c = true) : SMap.look 0 (m.filter p) x = SMap.look 0 m x := by
  induction m with
  | nil => rfl
  | cons c m ih =>
    have hi := ih (fun d hd => h d (List.mem_cons_of_mem _ hd))
    by_cases hc : p c = true
    · rw [List.filter_cons_of_pos hc]
      simp only [SMap.look, hi]
    · rw [List.filter_cons_of_neg hc]
      simp only [SMap.look]
      rw [if_neg (fun e => hc (h c (by simp) e.symm))]
      exact hi

/-- Bytes outside the run written read as before. -/
theorem putBytes_outside {a x : Nat} {bs : List Nat} {m : Memory} (h : x < a ∨ a + bs.length ≤ x) :
    SMap.look 0 (putBytes a bs m) x = SMap.look 0 m x := by
  unfold putBytes
  rcases h with h | h
  · rw [look_append_right, look_append_right, look_filter]
    · intro c _ e; simp only [decide_eq_true_eq]; omega
    · intro p hp e; have := (cellsAt_mem hp).1; omega
    · intro p hp e; have := (List.mem_filter.mp hp).2; simp only [decide_eq_true_eq] at this; omega
  · rw [look_append_left, look_filter]
    · intro c _ e; simp only [decide_eq_true_eq]; omega
    · intro p hp e
      rcases List.mem_append.mp hp with hp | hp
      · have := (List.mem_filter.mp hp).2; simp only [decide_eq_true_eq] at this; omega
      · have := (cellsAt_mem hp).2.1; omega

/-- Byte `i` of the run written reads as what was written. -/
theorem cellsAt_look {a i : Nat} {bs : List Nat} (h : i < bs.length) : SMap.look 0 (cellsAt a bs) (a + i) = BitVec.ofNat 8 (nth 0 bs i) := by
  induction bs generalizing a i with
  | nil => simp at h
  | cons b bs ih =>
    simp only [cellsAt]
    cases i with
    | zero =>
      split
      · rename_i hb
        rw [look_none, nth, hb]
        intro p hp e
        have := (cellsAt_mem hp).1
        omega
      · simp [SMap.look, nth]
    | succ i =>
      have e : a + (i + 1) = (a + 1) + i := by omega
      have hi : i < bs.length := by simpa using h
      split
      · rw [e, ih hi, nth]
      · simp only [SMap.look]
        rw [if_neg (by omega), e, ih hi, nth]

theorem putBytes_inside {a i : Nat} {bs : List Nat} {m : Memory} (h : i < bs.length) :
    SMap.look 0 (putBytes a bs m) (a + i) = BitVec.ofNat 8 (nth 0 bs i) := by
  unfold putBytes
  rw [look_append_right, look_append_left, cellsAt_look h]
  · intro p hp e; have := (List.mem_filter.mp hp).2; simp only [decide_eq_true_eq] at this; omega
  · intro p hp e; have := (List.mem_filter.mp hp).2; simp only [decide_eq_true_eq] at this; omega

/-- `wrBytes` keeps the canonical form of memory, and leaves every byte outside the run as it was. -/
theorem State.wrBytes_wf {s : State} {a : Nat} {bs : List Nat} {p : Bool} (h : Memory.wf s.mem = true) : Memory.wf (s.wrBytes a bs p).mem = true := by
  simpa [State.wrBytes] using putBytes_wf h

theorem State.wrBytes_outside {s : State} {a x : Nat} {bs : List Nat} {p : Bool} (h : x < a ∨ a + bs.length ≤ x) :
    (s.wrBytes a bs p).byte x = s.byte x := by
  show (SMap.look 0 (putBytes a bs s.mem) x).toNat = _
  rw [putBytes_outside h]; rfl

theorem State.wrBytes_inside {s : State} {a i : Nat} {bs : List Nat} {p : Bool} (h : i < bs.length) :
    (s.wrBytes a bs p).byte (a + i) = nth 0 bs i % 256 := by
  show (SMap.look 0 (putBytes a bs s.mem) (a + i)).toNat = _
  rw [putBytes_inside h]; rfl

end Sys2Proof.Machine
end

