-- ==== Sys2Proof/Laws/Kept.lean ====
section
/-! SUPPORT. What READ_DATA and WRITE_RESPONSE, the two commands that bring host memory, may change of it. -/

namespace Sys2Proof.Machine

/-- `t` has the configuration and the waiting commands of `s`, and its memory is canonical when that of `s` is. -/
structure State.Kept (s t : State) : Prop where
  variant : t.variant = s.variant
  pending : t.pending = s.pending
  mem : Memory.wf s.mem = true → Memory.wf t.mem = true

theorem State.kept_of_base {s t : State} (h : t.base = s.base) : s.Kept t := by
  have h1 : t.variant = s.variant := congrArg (·.1) h
  have h2 : t.pending = s.pending := congrArg (·.2.1) h
  have h3 : t.mem = s.mem := congrArg (·.2.2) h
  exact ⟨h1, h2, fun h => by rw [h3]; exact h⟩

theorem State.Kept.trans {s t u : State} (h : s.Kept t) (k : t.Kept u) : s.Kept u :=
  ⟨k.variant.trans h.variant, k.pending.trans h.pending, fun w => k.mem (h.mem w)⟩

theorem State.wrBytes_kept (s : State) (a : Nat) (bs : List Nat) (p : Bool) : s.Kept (s.wrBytes a bs p) :=
  ⟨rfl, rfl, State.wrBytes_wf⟩

theorem State.readData_kept (s : State) (port tag data : Nat) (last : Bool) (resp : Nat) (poison : Bool) :
    s.Kept (s.readData port tag data last resp poison) := by
  unfold State.readData
  split
  · exact State.kept_of_base rfl
  refine State.Kept.trans ?_ (State.kept_of_base (State.failShut_base _ _))
  split
  · exact State.kept_of_base (State.fencePort_base _ _ _ _ _)
  dsimp only
  split
  · exact State.kept_of_base (State.fencePort_base _ _ _ _ _)
  split
  · split
    · exact State.kept_of_base (State.dropReq_base _ _)
    · exact State.kept_of_base (State.setReqs_base _ _)
  · have h1 : ∀ c : Prop, ∀ [Decidable c], s.Kept (if c then s.bump O.memportPoisonBeats port 32 1 else s) := fun c _ => by
      split
      · exact State.kept_of_base (State.bump_base _ _ _ _ _)
      · exact State.kept_of_base rfl
    have h2 : ∀ (t : State) (c : Prop), ∀ [Decidable c], ∀ a bs p, t.Kept (if c then t.wrBytes a bs p else t) := fun t c _ a bs p => by
      split
      · exact State.wrBytes_kept _ _ _ _
      · exact State.kept_of_base rfl
    split
    · exact ((h1 _).trans (h2 _ _ _ _ _)).trans (State.kept_of_base (State.setReqs_base _ _))
    · exact ((h1 _).trans (h2 _ _ _ _ _)).trans (State.kept_of_base ((State.complete_base _ _ _).trans (State.setReqs_base _ _)))

theorem State.writeResp_kept (s : State) (port tag resp : Nat) : s.Kept (s.writeResp port tag resp) := by
  unfold State.writeResp
  split
  · exact State.kept_of_base rfl
  refine State.Kept.trans ?_ (State.kept_of_base (State.failShut_base _ _))
  split
  · exact State.kept_of_base (State.fencePort_base _ _ _ _ _)
  split
  · exact State.kept_of_base (State.dropReq_base _ _)
  split
  all_goals
    dsimp only
    split
    · first
      | exact (State.wrBytes_kept _ _ _ _).trans (State.kept_of_base (State.dropReq_base _ _))
      | exact State.kept_of_base (State.dropReq_base _ _)
    · first
      | exact (State.wrBytes_kept _ _ _ _).trans (State.kept_of_base (State.complete_base _ _ _))
      | exact State.kept_of_base (State.complete_base _ _ _)

end Sys2Proof.Machine
end

