-- ==== Sys2Proof/Laws/Routines.lean ====
section
/-! SUPPORT. Routines found after an update of one, and what settling a routine leaves while one of its Lanterns runs on. -/

namespace Sys2Proof

theorem setNth_same {α : Type} (l : List α) (n : Nat) (x y : α) (h : l[n]? = some y) : (setNth l n x)[n]? = some x := by
  induction l generalizing n with
  | nil => simp at h
  | cons a l ih => cases n with
    | zero => rfl
    | succ n => simpa [setNth] using ih n (by simpa using h)

theorem setNth_other {α : Type} (l : List α) {n k : Nat} (x : α) (h : k ≠ n) : (setNth l n x)[k]? = l[k]? := by
  induction l generalizing n k with
  | nil => rfl
  | cons a l ih => cases n with
    | zero => cases k with
      | zero => exact absurd rfl h
      | succ k => rfl
    | succ n => cases k with
      | zero => rfl
      | succ k => simpa [setNth] using ih (by omega)

/-- `r'` is `r` but for what its Lanterns other than `i`, and its arrays, wait for. -/
structure Rout.Quiet (i : Nat) (r r' : Rout) : Prop where
  frame : r' = { r with lans := r'.lans, arrs := r'.arrs }
  lan : r'.lans[i]? = r.lans[i]?

theorem Rout.Quiet.refl (i : Nat) (r : Rout) : Rout.Quiet i r r := ⟨rfl, rfl⟩

theorem Rout.Quiet.trans {i : Nat} {a b c : Rout} (h : Rout.Quiet i a b) (k : Rout.Quiet i b c) : Rout.Quiet i a c := by
  refine ⟨?_, k.lan.trans h.lan⟩
  have h1 := h.frame
  have h2 := k.frame
  rw [h1] at h2
  exact h2

theorem Rout.updArr_quiet (i : Nat) (r : Rout) (j : Nat) (f : LArr → LArr) : Rout.Quiet i r (r.updArr j f) := by
  unfold Rout.updArr
  split <;> exact ⟨rfl, rfl⟩

theorem Rout.updLan_quiet {i k : Nat} (r : Rout) (f : Lan → Lan) (h : i ≠ k) : Rout.Quiet i r (r.updLan k f) := by
  unfold Rout.updLan
  split
  · exact ⟨rfl, setNth_other _ _ h⟩
  · exact ⟨rfl, rfl⟩

theorem Rout.fill_quiet {i : Nat} {l : Lan} {r : Rout} (h : r.lans[i]? = some l) (hw : l.wait = .run) (k : Nat) : Rout.Quiet i r (r.fill k) := by
  induction k with
  | zero => exact .refl i r
  | succ k ih =>
    unfold Rout.fill
    dsimp only
    have hk : ∀ w, ((r.fill k).lans[k]?).map (fun (l : Lan) => l.wait) = some w → w ≠ .run → i ≠ k := by
      intro w e ne ei
      subst ei
      rw [ih.lan, h] at e
      simp only [Option.map_some, Option.some.injEq] at e
      exact ne (e ▸ hw)
    split
    · rename_i e
      exact (ih.trans (Rout.updArr_quiet _ _ _ _)).trans (Rout.updLan_quiet _ _ (hk _ e (by simp)))
    · rename_i e
      split
      · exact ih
      · exact (ih.trans (Rout.updArr_quiet _ _ _ _)).trans (Rout.updLan_quiet _ _ (hk _ e (by simp)))
    · exact ih

theorem Rout.wake_quiet {i : Nat} {l : Lan} {r : Rout} (h : r.lans[i]? = some l) (hw : l.wait = .run) (p : LWait → Bool) : Rout.Quiet i r (r.wake p) := by
  refine ⟨rfl, ?_⟩
  show (r.lans.map _)[i]? = _
  rw [List.getElem?_map, h]
  show some (if p l.wait = true then { l with wait := .run } else l) = _
  split
  · rw [← hw]
  · rfl

end Sys2Proof

namespace Sys2Proof.Machine

theorem State.rfind_key {s : State} {q seq : Nat} {r : Rout} (h : s.rfind q seq = some r) : r.q = q ∧ r.seq = seq := by
  unfold State.rfind at h
  simpa using List.find?_some h

theorem find_map_same {q seq : Nat} {r : Rout} (f : Rout → Rout) (hf : (f r).q = q ∧ (f r).seq = seq) :
    ∀ l : List Rout, l.find? (fun r => r.q == q && r.seq == seq) = some r →
      (l.map (fun x => if x.q == q && x.seq == seq then f x else x)).find? (fun r => r.q == q && r.seq == seq) = some (f r)
  | [], h => by simp at h
  | a :: l, h => by
    rw [List.map_cons, List.find?_cons]
    rw [List.find?_cons] at h
    cases e : (a.q == q && a.seq == seq) with
    | false =>
      rw [e] at h
      simp only [Bool.false_eq_true, if_false, e]
      exact find_map_same f hf l h
    | true =>
      rw [e] at h
      obtain rfl := Option.some.inj h
      simp [hf.1, hf.2]

theorem find_map_other {q seq q' seq' : Nat} (f : Rout → Rout) (hf : ∀ r, r.q = q → r.seq = seq → (f r).q = q ∧ (f r).seq = seq)
    (h : ¬(q' = q ∧ seq' = seq)) : ∀ l : List Rout,
      (l.map (fun x => if x.q == q && x.seq == seq then f x else x)).find? (fun r => r.q == q' && r.seq == seq') =
        l.find? (fun r => r.q == q' && r.seq == seq')
  | [] => rfl
  | a :: l => by
    rw [List.map_cons, List.find?_cons, List.find?_cons, find_map_other f hf h l]
    have no : ∀ x : Rout, x.q = q → x.seq = seq → (x.q == q' && x.seq == seq') = false := by
      intro x h1 h2
      rw [h1, h2]
      simp only [Bool.and_eq_false_iff, beq_eq_false_iff_ne]
      by_cases c : q' = q
      · exact Or.inr (fun d => h ⟨c, d.symm⟩)
      · exact Or.inl (fun d => c d.symm)
    cases e : (a.q == q && a.seq == seq) with
    | false => rw [if_neg Bool.false_ne_true]
    | true =>
      rw [if_pos rfl]
      simp only [Bool.and_eq_true, beq_iff_eq] at e
      obtain ⟨h1, h2⟩ := hf a e.1 e.2
      rw [no a e.1 e.2, no (f a) h1 h2]

/-- A routine after an update of it that keeps its name. -/
theorem State.rfind_rupd_same {s : State} {q seq : Nat} {r : Rout} (f : Rout → Rout) (h : s.rfind q seq = some r)
    (hf : (f r).q = q ∧ (f r).seq = seq) : (s.rupd q seq f).rfind q seq = some (f r) := find_map_same f hf s.routs h

/-- A routine of another name after an update that keeps names. -/
theorem State.rfind_rupd_other {s : State} {q seq q' seq' : Nat} (f : Rout → Rout) (hf : ∀ r, r.q = q → r.seq = seq → (f r).q = q ∧ (f r).seq = seq)
    (h : ¬(q' = q ∧ seq' = seq)) : (s.rupd q seq f).rfind q' seq' = s.rfind q' seq' := find_map_other f hf h s.routs

/-- `t` is `s` but for the routine of one name, and that routine but for what others than Lantern `i` wait for. -/
structure State.Quiet (i q seq : Nat) (s t : State) : Prop where
  frame : t = s.setRouts t.routs
  others : ∀ q' seq', ¬(q' = q ∧ seq' = seq) → t.rfind q' seq' = s.rfind q' seq'
  rout : ∀ r, s.rfind q seq = some r → ∃ r', t.rfind q seq = some r' ∧ Rout.Quiet i r r'

theorem State.Quiet.refl (i q seq : Nat) (s : State) : State.Quiet i q seq s s := ⟨rfl, fun _ _ _ => rfl, fun r h => ⟨r, h, .refl i r⟩⟩

theorem State.Quiet.trans {i q seq : Nat} {a b c : State} (h : State.Quiet i q seq a b) (k : State.Quiet i q seq b c) : State.Quiet i q seq a c := by
  refine ⟨?_, fun q' n hn => (k.others q' n hn).trans (h.others q' n hn), ?_⟩
  · have h2 := k.frame
    rw [h.frame] at h2
    exact h2
  · intro r hr
    obtain ⟨r', h1, h2⟩ := h.rout r hr
    obtain ⟨r'', k1, k2⟩ := k.rout r' h1
    exact ⟨r'', k1, h2.trans k2⟩

/-- One transition of a routine of which Lantern `i` runs: what others wait for may move on, and nothing else. -/
theorem State.settleOne_quiet {s t : State} {q seq i : Nat} {r : Rout} {l : Lan} (hr : s.rfind q seq = some r) (hl : r.lans[i]? = some l)
    (hw : l.wait = .run) (h : s.settleOne q seq = some t) : State.Quiet i q seq s t := by
  unfold State.settleOne at h
  rw [hr] at h
  dsimp only at h
  cases hi : r.img with
  | none => rw [hi] at h; cases h
  | some img =>
  rw [hi] at h
  dsimp only at h
  by_cases hp : (r.phase != .loaded) = true
  · rw [if_pos hp] at h; cases h
  rw [if_neg hp] at h
  generalize hx : (r.fill r.lans.length).awaits (!s.waits (.rout q seq)) = x at h
  have hq : Rout.Quiet i r x := by
    rw [← hx]
    have h1 := Rout.fill_quiet hl hw r.lans.length
    exact h1.trans (Rout.wake_quiet (h1.lan.trans hl) hw _)
  have hxl : x.lans[i]? = some l := hq.lan.trans hl
  have hmem : l ∈ x.running := by
    unfold Rout.running
    rw [List.mem_filter]
    exact ⟨List.mem_of_getElem? hxl, by simp [hw]⟩
  have hall : ∀ p : LWait → Bool, p .run = false → (!x.running.isEmpty && x.running.all (fun l => p l.wait)) = false := by
    intro p hp
    rw [Bool.and_eq_false_iff]
    right
    rw [List.all_eq_false]
    exact ⟨l, hmem, by rw [hw, hp]; simp⟩
  have hall2 : ∀ w : LWait, w ≠ .run → (!x.running.isEmpty && x.running.all (fun l => l.wait == w)) = false :=
    fun w hne => hall (· == w) (by simpa using fun e : LWait.run = w => hne e.symm)
  have n1 := fun w hne => ne_true_of_eq_false (hall2 w hne)
  have n2 : ¬((!x.running.isEmpty && x.running.all (fun l => match l.wait with | .ended _ => true | _ => false)) && x.arrsIdle &&
      !s.waits (.rout q seq) && s.endOk x) = true := by
    rw [hall (fun w => match w with | .ended _ => true | _ => false) rfl]; simp
  have n3 : ¬((!x.running.isEmpty && x.running.all (fun l => l.wait == .boundary)) && x.arrsIdle) = true := by
    rw [hall2 .boundary (by simp)]; simp
  rw [if_neg (n1 .bar (by simp)), if_neg n3, if_neg (n1 .retd (by simp)), if_neg (n1 .sched (by simp))] at h
  replace h := (if_neg n2).symm.trans h
  by_cases hs : (x == r) = true
  · rw [if_pos hs] at h; cases h
  rw [if_neg hs] at h
  obtain rfl := Option.some.inj h
  have key : x.q = q ∧ x.seq = seq := by
    obtain ⟨a, b⟩ := State.rfind_key hr
    rw [hq.frame]; exact ⟨a, b⟩
  refine ⟨rfl, fun q' n hn => State.rfind_rupd_other _ (fun _ _ _ => key) hn, ?_⟩
  intro r0 h0
  rw [hr] at h0
  obtain rfl := Option.some.inj h0
  exact ⟨x, State.rfind_rupd_same _ hr key, hq⟩

/-- Settling a routine of which Lantern `i` runs. -/
theorem State.settle_quiet {s : State} {q seq i : Nat} {r : Rout} {l : Lan} (hr : s.rfind q seq = some r) (hl : r.lans[i]? = some l)
    (hw : l.wait = .run) : State.Quiet i q seq s (s.settle q seq) := by
  have main : ∀ n (s : State) (r : Rout), s.rfind q seq = some r → r.lans[i]? = some l → State.Quiet i q seq s (s.settleN q seq n) := by
    intro n
    induction n with
    | zero => exact fun s r _ _ => .refl i q seq s
    | succ n ih =>
      intro s r hr hl
      unfold State.settleN
      split
      · exact .refl i q seq s
      · rename_i t ht
        have h1 := State.settleOne_quiet hr hl hw ht
        obtain ⟨r', h2, h3⟩ := h1.rout r hr
        exact h1.trans (ih t r' h2 (h3.lan.trans hl))
  exact main _ s r hr hl

end Sys2Proof.Machine
end

