-- ==== Sys2Proof/Laws/Lantern.lean ====
section
/-! SUPPORT. What an instruction of a Lantern comes to once it issues (R184): the outcome of its meaning, the counters, and nothing beside its
routine. -/

namespace Sys2Proof.Machine

/-- A command that its Lantern's program holds next has its effect. -/
theorem State.onLan_due {s : State} {c : Instr} {i : LIss} (h : s.lanNext i = some c) (t : State) : s.onLan c i t = t := if_pos h

/-- Any other changes nothing. -/
theorem State.onLan_other {s : State} {c : Instr} {i : LIss} (h : s.lanNext i ≠ some c) (t : State) : s.onLan c i t = s := if_neg h

/-- What a Lantern that issues has next is the instruction of the word at its PC. -/
theorem LanReady.next {s : State} {i : LIss} {r : Rout} {img : Image} {l : Lan} {u : Nat} (h : LanReady s i r img l u) : s.lanNext i = img.lanNext i l := by
  unfold State.lanNext
  rw [h.rout]
  show (match r.lans[i.l]?, r.img with | some l, some g => g.lanNext i l | _, _ => none) = _
  rw [h.lan, h.image]

/-- An instruction that issues has the effect of its meaning on its logical Lantern, once it lacks no read. -/
theorem State.lanDo_run {s : State} {i : LIss} {r : Rout} {img : Image} {l : Lan} {u : Nat} {ops : Lan → Nat}
    {f : State → Rout → Image → LCtx → Lan → LEff} (h : LanReady s i r img l u)
    (hw : ((f (s.acting (lanAct i)) r img (ctxFor i r img) l).state (s.acting (lanAct i))).reads.want = none) :
    s.lanDo i ops f = State.lanRun r l i.l u ops s (((f (s.acting (lanAct i)) r img (ctxFor i r img) l).state (s.acting (lanAct i))).did s (lanAct i))
      (f (s.acting (lanAct i)) r img (ctxFor i r img) l) := by
  unfold State.lanDo
  rw [h.rout]
  dsimp only
  rw [h.lan, h.image, h.unit]
  dsimp only
  rw [if_neg (by simp [h.runs, h.awake, h.waits, h.serves, h.turn]), h.checks]
  exact State.readThen_done rfl hw

/-- An instruction that issues and completes. -/
theorem State.lanDo_go {s t : State} {i : LIss} {r : Rout} {img : Image} {l : Lan} {u : Nat} {ops : Lan → Nat}
    {f : State → Rout → Image → LCtx → Lan → LEff} (h : LanReady s i r img l u) (hf : f (s.acting (lanAct i)) r img (ctxFor i r img) l = .go t)
    (hw : t.reads.want = none) :
    s.lanDo i ops f = (((((t.did s (lanAct i)).hold 5 u r i.l).bump O.instructions u 32 1).spend (3900 * ops l)).rupd i.q i.seq
      (fun r => { r with itOps := r.itOps + ops l })).settle i.q i.seq := by
  obtain ⟨k1, k2⟩ := State.rfind_key h.rout
  rw [State.lanDo_run h (by rw [hf]; exact hw), hf, ← k1, ← k2]
  rfl

/-- An instruction that issues and raises an exception. -/
theorem State.lanDo_exc {s t : State} {i : LIss} {r : Rout} {img : Image} {l : Lan} {u cls elem code : Nat} {ops : Lan → Nat}
    {f : State → Rout → Image → LCtx → Lan → LEff} (h : LanReady s i r img l u)
    (hf : f (s.acting (lanAct i)) r img (ctxFor i r img) l = .exc t cls elem code) (hw : t.reads.want = none) :
    s.lanDo i ops f = (t.did s (lanAct i)).lanExc r l i.l u cls elem code := by
  rw [State.lanDo_run h (by rw [hf]; exact hw), hf]; rfl

/-- An instruction that issues and has to wait changes nothing. -/
theorem State.lanDo_wait {s : State} {i : LIss} {r : Rout} {img : Image} {l : Lan} {u : Nat} {ops : Lan → Nat}
    {f : State → Rout → Image → LCtx → Lan → LEff} (h : LanReady s i r img l u) (hf : f (s.acting (lanAct i)) r img (ctxFor i r img) l = .wait) :
    s.lanDo i ops f = s := by
  rw [State.lanDo_run h (by rw [hf]; rfl), hf]; rfl

theorem Rout.updLan_at {r : Rout} {n : Nat} {l l' : Lan} (h : r.lans[n]? = some l) : (r.updLan n (fun _ => l')).lans[n]? = some l' := by
  unfold Rout.updLan
  rw [h]
  exact setNth_same _ _ _ _ h

theorem Rout.updLan_key (r : Rout) (n : Nat) (f : Lan → Lan) : (r.updLan n f).q = r.q ∧ (r.updLan n f).seq = r.seq := by
  unfold Rout.updLan
  split <;> exact ⟨rfl, rfl⟩

theorem State.hold_of {r : Rout} {q seq : Nat} (k1 : r.q = q) (k2 : r.seq = seq) (s : State) (kind u l : Nat) :
    s.hold kind u r l = s.setHolds (SMap.put none (kind * 65536 + u) (some (q, seq, l)) s.holds) := by
  unfold State.hold; rw [k1, k2]

/-- Once the Lantern is left running, only the routine has changed, and the Lantern stands as it was left. -/
theorem State.updLan_settled {s : State} {i : LIss} {r : Rout} {l l' : Lan} {u n e : Nat} (hr : s.rfind i.q i.seq = some r) (hl : r.lans[i.l]? = some l)
    (hw : l'.wait = .run) :
    let t := (((((s.rupd i.q i.seq (fun r => r.updLan i.l (fun _ => l'))).hold 5 u r i.l).bump O.instructions u 32 1).spend e).rupd i.q i.seq
      (fun r => { r with itOps := r.itOps + n })).settle i.q i.seq
    t.lanAt i = some l' ∧ OnlyRoutine s t i u := by
  obtain ⟨k1, k2⟩ := State.rfind_key hr
  rw [State.hold_of k1 k2]
  intro t
  have kf : ∀ x : Rout, x.q = i.q → x.seq = i.seq → (x.updLan i.l (fun _ => l')).q = i.q ∧ (x.updLan i.l (fun _ => l')).seq = i.seq := by
    intro x a b
    obtain ⟨c, d⟩ := Rout.updLan_key x i.l (fun _ => l')
    exact ⟨c.trans a, d.trans b⟩
  have h1 : ((((s.rupd i.q i.seq (fun r => r.updLan i.l (fun _ => l'))).setHolds
      (SMap.put none (5 * 65536 + u) (some (i.q, i.seq, i.l)) s.holds)).bump O.instructions u 32 1).spend e).rfind i.q i.seq =
      some (r.updLan i.l (fun _ => l')) := State.rfind_rupd_same _ hr (kf r k1 k2)
  have h2 := State.rfind_rupd_same (fun r => { r with itOps := r.itOps + n }) h1 (kf r k1 k2)
  have h3 : ({ r.updLan i.l (fun _ => l') with itOps := (r.updLan i.l (fun _ => l')).itOps + n } : Rout).lans[i.l]? = some l' := Rout.updLan_at hl
  have q := State.settle_quiet h2 h3 hw
  refine ⟨?_, ?_, ?_⟩
  · obtain ⟨r', a, b⟩ := q.rout _ h2
    unfold State.lanAt
    rw [show t.rfind i.q i.seq = some r' from a]
    exact b.lan.trans h3
  · have hg := congrArg State.gov q.frame
    refine q.frame.trans ?_
    rw [show t.gov = _ from hg]
    rfl
  · intro q' n' hn
    refine (q.others q' n' hn).trans ((State.rfind_rupd_other (fun r => { r with itOps := r.itOps + n }) (fun _ a b => ⟨a, b⟩) hn).trans ?_)
    exact State.rfind_rupd_other (s := s) _ kf hn

theorem State.rupd_back (s : State) (a : Act) (q seq : Nat) (f : Rout → Rout) : ((s.acting a).rupd q seq f).setReads s.reads = s.rupd q seq f := rfl

/-- An instruction that touches its Lantern alone, issues and completes. -/
theorem State.lanPure_ok {s : State} {i : LIss} {r : Rout} {img : Image} {l l' : Lan} {u : Nat} {ops : Lan → Nat} {g : LCtx → Lan → LRes}
    (h : LanIssues s i r img l u) (hg : g (ctxFor i r img) l = .ok l') (hw : l'.wait = .run) :
    (s.lanPure i ops g).lanAt i = some l' ∧ OnlyRoutine s (s.lanPure i ops g) i u := by
  obtain ⟨k1, k2⟩ := State.rfind_key h.rout
  unfold State.lanPure
  rw [State.lanDo_go h.toLanReady (t := (s.acting (lanAct i)).rupd r.q r.seq (fun r => r.updLan i.l (fun _ => l'))) (by rw [hg]) rfl,
    State.did_idle (t := (s.acting (lanAct i)).rupd r.q r.seq (fun r => r.updLan i.l (fun _ => l'))) h.idle rfl h.idle.reqs, State.rupd_back, k1, k2]
  exact State.updLan_settled (e := 3900 * ops l) h.rout h.lan hw

/-- An instruction that touches its Lantern alone and is illegal. -/
theorem State.lanPure_exc {s : State} {i : LIss} {r : Rout} {img : Image} {l : Lan} {u cls elem : Nat} {ops : Lan → Nat} {g : LCtx → Lan → LRes}
    (h : LanIssues s i r img l u) (hg : g (ctxFor i r img) l = .exc cls elem) : s.lanPure i ops g = s.lanExc r l i.l u cls elem (classCode cls) := by
  unfold State.lanPure
  rw [State.lanDo_exc h.toLanReady (t := s.acting (lanAct i)) (by rw [hg]) rfl, State.did_self h.idle]

end Sys2Proof.Machine
end

