-- ==== Sys2Proof/Laws/Live.lean ====
section
/-! SUPPORT. What a block that is not live, has stopped, or is held in reset leaves undone: each operation of a command then answers the state it was given. -/

namespace Sys2Proof.Machine

/-- A command on a unit that exists, whose operation leaves the state, leaves it. -/
theorem onUnit_self {k n u : Nat} {x s : State} (hu : u < n) (h : x = s) : onUnit k n u x = .next s := by
  unfold onUnit; rw [if_pos hu, h]

theorem State.onLan_self {s t : State} (c : Instr) (i : LIss) (h : t = s) : s.onLan c i t = s := by unfold State.onLan; split <;> simp [h]
theorem State.onArr_self {s t : State} (c : Instr) (x : AIss) (h : t = s) : s.onArr c x t = s := by unfold State.onArr; split <;> simp [h]
theorem State.dispatch_dead {s : State} (h : s.live = false) (q want f) : s.dispatch q want f = s := by
  simp [State.dispatch, State.sapTake, State.nextDisp, h]
  split
  · rename_i e; split at e <;> simp_all
  · rfl
theorem State.routRuns_dead {s : State} (h : s.live = false) (r) : s.routRuns r = false := by simp [State.routRuns, h]
theorem State.lanDo_dead {s : State} (h : s.live = false) (i ops f) : s.lanDo i ops f = s := by
  unfold State.lanDo
  split
  · rfl
  · split
    · simp [State.routRuns_dead h]
    · rfl
theorem State.arrDo_dead {s : State} (h : s.live = false) (i f) : s.arrDo i f = s := by
  unfold State.arrDo
  split
  · rfl
  · split
    · simp [State.routRuns_dead h]
    · rfl
theorem State.closable_dead {s : State} (h : s.live = false) : s.closable = false := by simp [State.closable, h]
theorem State.nextDisp_dead {s : State} (h : s.live = false) (q) : s.nextDisp q = none := by
  simp [State.nextDisp, h]; split <;> simp_all
variable {s : State} (hl : s.live = false)
include hl
theorem State.doorbell_dead (w) : s.doorbell w = s := by simp [State.doorbell, hl]
theorem State.streamTile_dead (t c) : s.streamTile t c = s := by simp [State.streamTile, State.segTakes, hl]
theorem State.orphanOut_dead (t) : s.orphanOut t = s := by unfold State.orphanOut; split <;> simp [hl]
theorem State.captureTile_dead (t c) : s.captureTile t c = s := by unfold State.captureTile; split <;> simp [hl]
theorem State.closeBell_dead (t c k m) : s.closeBell t c k m = s := by simp [State.closeBell, State.closable_dead hl]
theorem State.paceOver_dead : s.paceOver = s := by unfold State.paceOver; split <;> simp [hl]
theorem State.toll_dead : s.toll = s := by simp [State.toll, hl]
theorem State.overrunNow_dead : s.overrunNow = s := by simp [State.overrunNow, hl]
theorem State.streamTimeout_dead (q n) : s.streamTimeout q n = s := by unfold State.streamTimeout; split <;> simp [State.closable_dead hl]
theorem State.deadlineAt_dead (q n) : s.deadlineAt q n = s := by unfold State.deadlineAt; split <;> simp [State.closable_dead hl]
theorem State.waitTimeout_dead (q n) : s.waitTimeout q n = s := by unfold State.waitTimeout; simp [State.nextDisp_dead hl]
theorem State.bellWaitAt_dead (q n) : s.bellWaitAt q n = s := by
  unfold State.bellWaitAt
  split
  · split <;> simp [State.closable_dead hl]
  · rfl
theorem State.iterBound_dead (q n) : s.iterBound q n = s := by unfold State.iterBound; split <;> simp [hl]
theorem State.restart_dead (q n) : s.restart q n = s := by unfold State.restart; split <;> simp [hl]
theorem State.fallback_dead (q n a b) : s.fallback q n a b = s := by
  unfold State.fallback
  split
  · split
    · split <;> simp [hl]
    · rfl
  · rfl
theorem State.redTimeout_dead (q n) : s.redTimeout q n = s := by unfold State.redTimeout; split <;> simp [hl]
theorem State.formTimeout_dead : s.formTimeout = s := by simp [State.formTimeout, State.grouping, hl]
theorem State.formAlone_dead : s.formAlone = s := by simp [State.formAlone, State.grouping, hl]
omit hl
theorem State.commitAt_stopped (hs : s.stopped = true) (q n) : s.commitAt q n = s := by unfold State.commitAt; split <;> simp [State.commitReady, State.workDone, hs]
theorem State.releaseNext_stopped (hs : s.stopped = true) (q) : s.releaseNext q = s := by simp [State.releaseNext, State.releasable, hs]
theorem State.live_held {s : State} (h : s.inReset = true) : s.live = false := by
  simp [State.inReset] at h; rcases h with h | h <;> simp [State.live, h]
theorem State.held_or {s : State} (h : s.inReset = true) : (s.coldHeld || s.warmHeld) = true := h
variable (h : s.inReset = true)
include h
theorem State.deaf_held : s.deaf = true := by simp [State.deaf, h]
theorem State.serve_held (a b c d e) : s.serve a b c d e = s := by simp [State.serve, State.deaf_held h]
theorem State.rxFrame_held (a b) : s.rxFrame a b = s := by simp [State.rxFrame, State.belfryOn, State.live_held h]
theorem State.rxWords_held (a b c) : s.rxWords a b c = s := by
  unfold State.rxWords; split
  · split
    · rfl
    · exact State.rxFrame_held h _ _
  · rfl
theorem State.readData_held (a b c d e f) : s.readData a b c d e f = s := by
  have : s.portTalks a = false := by simp [State.portTalks, State.deaf_held h]
  simp [State.readData, this]
theorem State.writeResp_held (a b c) : s.writeResp a b c = s := by
  have : s.portTalks a = false := by simp [State.portTalks, State.deaf_held h]
  simp [State.writeResp, this]
theorem State.memTimedOut_held (a b c) : s.memTimedOut a b c = s := by
  have : s.portTalks a = false := by simp [State.portTalks, State.deaf_held h]
  simp [State.memTimedOut, this]
theorem State.restoreErrs_self (s : State) (n : Nat) : s.restoreErrs s n = s := by
  unfold State.restoreErrs; split
  · next h1 h2 => rw [h1] at h2; cases h2
  · rfl
theorem State.restoreDone_held : s.restoreDone = s := by unfold State.restoreDone; split <;> simp [State.held_or h]
theorem State.nvLoad_held (a) : s.nvLoad a = s := by simp [State.inReset] at h; unfold State.nvLoad; rw [if_pos (Or.inr h)]
theorem State.coreTest_held (a) : s.coreTest a = s := by simp [State.inReset] at h; unfold State.coreTest; rw [if_pos (Or.inr (Or.inr h))]
theorem State.powerEntry_held : s.powerEntry = s := by
  unfold State.powerEntry
  split
  · rfl
  · simp [State.inReset] at h; rcases h with h | h <;> simp [h]
theorem State.powerExit_held : s.powerExit = s := by simp [State.inReset] at h; rcases h with h | h <;> simp [State.powerExit, h]
theorem State.tempRead_held (a) : s.tempRead a = s := by simp [State.inReset] at h; rcases h with h | h <;> simp [State.tempRead, h]
theorem State.clocks_held (a b) : s.clocks a b = s := by simp [State.inReset] at h; rcases h with h | h <;> simp [State.clocks, h]
theorem State.governor_held : s.governor = s := by simp [State.governor, State.live_held h]
theorem State.evlogWrite_held : s.evlogWrite = s := by
  unfold State.evlogWrite
  dsimp only
  split
  · simp [State.inReset] at h; rcases h with h | h <;> simp [h]
  · rfl
theorem State.retransmit_held (a) : s.retransmit a = s := by simp [State.retransmit, State.belfryOn, State.live_held h]
theorem State.calNow_held (a) : s.calNow a = s := by simp [State.calNow, State.belfryOn, State.live_held h]
theorem State.retrainFailed_held (a) : s.retrainFailed a = s := by simp [State.retrainFailed, State.belfryOn, State.live_held h]
theorem State.aliveNow_held : s.aliveNow = s := by simp [State.aliveNow, State.belfryOn, State.live_held h]
theorem State.silent_held (a) : s.silent a = s := by simp [State.silent, State.belfryOn, State.live_held h]

end Sys2Proof.Machine
end

