-- ==== Sys2Proof/Laws/Words.lean ====
section
/-! SUPPORT. Fields of words that are put together from fields (R182, R112). -/

namespace Sys2Proof

/-- A field above the place where two parts join is a field of the upper part. -/
theorem bits_above {a b n lo w : Nat} (hb : b < 2 ^ n) (h : n ≤ lo) : bits (a * 2 ^ n + b) lo w = bits a (lo - n) w := by
  obtain ⟨k, rfl⟩ := Nat.exists_eq_add_of_le h
  have e : (a * 2 ^ n + b) / 2 ^ n = a := by rw [Nat.mul_comm, Nat.mul_add_div (by positivity), Nat.div_eq_of_lt hb, Nat.add_zero]
  simp only [bits, Nat.shiftRight_eq_div_pow, Nat.pow_add, ← Nat.div_div_eq_div_mul, e, Nat.add_sub_cancel_left]

/-- A field below it is a field of the lower part. -/
theorem bits_below {a b n lo w : Nat} (h : lo + w ≤ n) : bits (a * 2 ^ n + b) lo w = bits b lo w := by
  obtain ⟨k, rfl⟩ := Nat.exists_eq_add_of_le h
  simp only [bits, Nat.shiftRight_eq_div_pow]
  have e : a * 2 ^ (lo + w + k) + b = b + 2 ^ lo * (2 ^ w * (a * 2 ^ k)) := by rw [Nat.pow_add, Nat.pow_add]; ring
  rw [e, Nat.add_mul_div_left _ _ (by positivity), Nat.add_mul_mod_self_left]

/-- A field that holds all of its word. -/
theorem bits_all {x w : Nat} (h : x < 2 ^ w) : bits x 0 w = x := by simp [bits, Nat.mod_eq_of_lt h]

/-- Two fields that meet are one. -/
theorem bits_join (x lo w v : Nat) : bits x (lo + w) v * 2 ^ w + bits x lo w = bits x lo (w + v) := by
  simp only [bits, Nat.shiftRight_eq_div_pow, Nat.pow_add, ← Nat.div_div_eq_div_mul]
  rw [Nat.mod_mul, Nat.add_comm, Nat.mul_comm]

end Sys2Proof
end

