-- ==== Sys2Proof/Tests/Slice0.lean ====
section
/-! SUPPORT. The model's own tests: terms that are not well formed, one theorem for each set of hypotheses of a statement, which shows a state and
operands that meet all of them, and single commands on small states, with values worked out from the spec. -/

open Sys2Proof Sys2Proof.Machine Host

namespace Sys2Proof.Tests

set_option Elab.async false

/-! Helpers. -/

/-- A state with no read under way has nothing of an act left. -/
theorem actIdle_of {s : State} {a : Act} (h : s.reads = {}) (g : s.reqs = []) : ActIdle s a :=
  ⟨fun _ x => (by rw [h] at x; cases x), fun _ x => (by rw [h] at x; cases x), fun _ x => (by rw [h] at x; cases x), fun _ x => (by rw [g] at x; cases x)⟩

/-- The outcome is a next state. -/
def fine (o : Outcome State Fault Refusal) : Bool := match o with | .next _ => true | _ => false

theorem fine_next {o : Outcome State Fault Refusal} (h : fine o = true) : ∃ t, o = .next t := by
  cases o with
  | next t => exact ⟨t, rfl⟩
  | fault f => cases h
  | refused r => cases h

theorem snd_pair {α β : Type} {p : α × β} {b : β} (h : p.2 = b) : ∃ a, p = (a, b) := ⟨p.1, by rw [← h]⟩

/-- A resolution's entry, if it has one. -/
def okOf {ε α : Type} (x : Except ε α) : Option α := match x with | .ok a => some a | .error _ => none

/-- A check's failure, if it failed. -/
def errOf {α : Type} (x : Except Nat α) : Option Nat := match x with | .ok _ => none | .error c => some c

theorem ok_pair {ε α β : Type} {p : α × Except ε β} {b : β} (h : okOf p.2 = some b) : ∃ a, p = (a, .ok b) := by
  obtain ⟨a, x⟩ := p
  cases x with
  | ok y => cases h; exact ⟨a, rfl⟩
  | error c => cases h

theorem some_ok_pair {ε α β : Type} {p : α × Except ε β} (h : (okOf p.2).isSome = true) : ∃ a b, p = (a, .ok b) := by
  obtain ⟨a, x⟩ := p
  cases x with
  | ok y => exact ⟨a, y, rfl⟩
  | error c => cases h

theorem err_pair {α β : Type} {p : α × Except Nat β} {c : Nat} (h : errOf p.2 = some c) : ∃ a, p = (a, .error c) := by
  obtain ⟨a, x⟩ := p
  cases x with
  | ok y => cases h
  | error c => cases h; exact ⟨a, rfl⟩

/-- The next state, or the reset state where there is none. -/
def after (c : Instr) (s : State) : State := match exec c s with | .next u => u | _ => State.reset

/-- The object of an index and sub-index. -/
def ob (i : Nat) : Obj := (Obj.find i).getD { oid := 0, ty := .u8, acc := .ro, pers := .none, dflL := 0, dflM := 0, bind := false }

/-- A block that has started: resets released, dictionary loaded, phase 4. -/
def up : State := ({ State.reset with coldHeld := false, loaded := true }).setObj O.startupPhase 4

/-- The common fields of a request in a role. -/
def hd (role : Nat) : FinfaHead := { fver := 1, role := role, tenant := 0, tag := 5, dst := 0, req := 7, segOff := 0, rsv := 0 }

/-- The write that the service or operator role makes. -/
def put (s : State) (role o v : Nat) : Prop := s.takesWrite (hd role) (ob o) v = true ∧ (ob o).oid = o

/-- Queue 3, disabled, with a ring of 16 entries, and the same queue enabled. -/
def upq0 : State := ((((up.put O.ringBase 3 0x10000).put O.cplBase 3 0x20000).put O.ringLog2 3 4)).setObj O.queueSelect 3
def upq : State := upq0.put O.queueState 3 1

/-- A descriptor, a descriptor in flight, and queue 3 with it as its only one. -/
def dsc (op : Nat) (b : Body) : Desc := { opcode := op, irq := false, sigEn := false, syncId := 0, user := 0, malformed := false, body := b }
def drt (d : Desc) : DRt := { seq := 0, d := d, firstBell := 0, bell := 0, offered := 0 }
def holding (d : DRt) : State := upq.updQueue 3 (fun x => { x with infl := [d] })

/-- A conversion of one element that comes on segment 2 under tag 9, and its tile, the FP32 value 1. -/
def conv1 : ConvD :=
  { convOf .convert 0 with rows := 1, rowLen := 1, srcStream := true, segBase := 2, segSpan := 1, streamTag := 9, srcTid := 1, dstTid := 2 }
def tile1 : Tile :=
  { seg := 2, tag := 9, trow := 0, tcol := 0, beats := [{ data := 0x3F800000, nlane := 1, first := true, last := true, poison := false }] }

/-- The bell open, its formation over, and the same once it is due. -/
def rung (s : State) : State := (s.setBell .open).setForm { bell := 0, budget := 0, phase := 7 }
def dueNow (s : State) : State := ((rung s).setDue 10).setCycle 20

/-! Terms that are not well formed. -/

def iss : LIss := { q := 3, seq := 0, l := 0, chk := .ok }
def ais : AIss := { q := 3, seq := 0, la := 1, chk := .ok }
def vf : VF := { d := 4, a := 1, b := 2, c := 3, ms := 1, men := 1, cnt := 3, sa := 2, f1 := 1, f2 := 2, ovf := 1, rsv := 0 }
def sf : SF := { sd := 4, sa := 2, sb := 3, ms := 1, rsv := 0, imm := 9 }
def frm (ty : Nat) : Frame :=
  { ftype := ty, hops := 0, pwords := 0, group := 0, src := 9, dst := 0, lseq := 1, credit := 32, ack := 0, arg0 := 3, arg1 := 4, payload := []
    rsv := 0 }
def fset0 : FsetF := { side := 1, fmt := 1, xmode := 0, xfmt := 0, xtid := 0, rsv := 0 }
def pass0 : PassF := { group := 1, slot := 0, dtile := 0, last := true, ahold := false, kg := 0, rsv := 0 }
def gopen0 : GopenF := { group := 1, mode := 0, dbase := 4, dcountM1 := 1, tcolsM1 := 0, outNM1 := 7, row0 := 0, col0 := 0, outTid := 0, rsv := 0 }
def gdrain0 : GdrainF := { group := 1, form := 0, close := true, rsv := 0 }

theorem test_wf_accepts : ∀ c ∈ ([.tail 262143 0xFFFFFFFF, .irqAck 0, .doorbellErrors (2 ^ 64 - 1), .streamTile tile1 .ok, .readData 0 1023 0 true 3 false,
    .finfaWrite (hd 2) 0xFFFF 0xFF 0, .vadd iss vf, .sli iss sf, .fset ais fset0, .pass ais pass0, .gopen ais gopen0, .gdrain ais gdrain0,
    .train 0 (frm 1), .fSpireOp ais 15, .fLanternIllegal iss (0xFF * 2 ^ 56), .malformed 0xFF 0 0 (2 ^ 64 - 1) .ok, .thr 7,
    .bellClose [65535] ⟨true, .transient 1 0, .ok⟩, .convert ⟨3, [(5, .twig 9)]⟩, .reduce ⟨3, .lasting 1 0 255⟩, .restoreNv ⟨hd 2, 3⟩] : List Instr), c.wf = true := by decide +kernel

theorem test_wf_refuses_queue_words : ∀ c ∈ ([.tail 262144 0, .tail 0 (2 ^ 32), .irqAck 262144, .doorbellErrors (2 ^ 64), .deadline 262144 0,
    .deadline 0 (2 ^ 32), .commit 0 (2 ^ 32), .fallbackPromotions 0 0 0 32] : List Instr), c.wf = false := by decide

theorem test_wf_refuses_tiles : ∀ c ∈ ([.streamTile { tile1 with tag := 65536 } .ok, .streamTile { tile1 with trow := 2 ^ 21 } .ok,
    .streamTile { tile1 with tcol := 1024 } .ok, .streamTile { tile1 with beats := [] } .ok, .streamTile { tile1 with beats := tile1.beats ++ tile1.beats } .ok,
    .streamTile { tile1 with beats := [{ data := 2 ^ 2048, nlane := 1, first := true, last := true, poison := false }] } .ok,
    .streamTile { tile1 with beats := [{ data := 0, nlane := 0, first := true, last := true, poison := false }] } .ok,
    .streamTile tile1 (.transient 0 0), .streamTile tile1 (.lasting 10 0 0), .streamTile tile1 (.lasting 1 0 64), .streamTile tile1 (.transient 1 (2 ^ 64)),
    .captureTile { q := 262144, seq := 0, trow := 0, tcol := 0 } .ok, .captureTile { q := 0, seq := 0, trow := 0, tcol := 1024 } .ok] : List Instr),
    c.wf = false := by decide +kernel

theorem test_wf_refuses_port_words : ∀ c ∈ ([.readData 0 1024 0 true 0 false, .readData 0 0 (2 ^ 1024) true 0 false, .readData 0 0 0 true 4 false,
    .writeResponse 0 1024 0, .writeResponse 0 0 4, .memTimeout 0 1024 true] : List Instr), c.wf = false := by decide +kernel

theorem test_wf_refuses_requests : ∀ c ∈ ([.finfaRead { hd 0 with fver := 16 } 0 0, .finfaRead { hd 4 with req := 0 } 0 0, .finfaRead { hd 0 with tenant := 4096 } 0 0,
    .finfaRead { hd 0 with tag := 256 } 0 0, .finfaRead { hd 0 with dst := 65536 } 0 0, .finfaRead { hd 0 with req := 65536 } 0 0,
    .finfaRead { hd 0 with segOff := 8192 } 0 0, .segRead (hd 0) 65536 0, .finfaNext (hd 0) 0 256 0, .abort (hd 0) 0 0 (2 ^ 128), .finfaWrite (hd 0) 0 0 (2 ^ 128),
    .devwinBase (hd 2) false 16 0, .malformed 0 0 0 (2 ^ 64) .ok, .malformed 0 0 0 0 (.transient 0 0), .finfaRead { hd 0 with rsv := 2 ^ 29 } 0 0,
    .finfaRead { hd 0 with chk := .lasting 0 0 0 } 0 0, .segTimeout 65536, .epochOpen (hd 4)] : List Instr), c.wf = false := by decide +kernel

theorem test_wf_refuses_pins_and_tests : ∀ c ∈ ([.pstateReq 8, .thr 8, .tempRead [65536], .clockMeasure (2 ^ 32) 0, .nvLoad (2 ^ 64), .restoreNv ⟨hd 2, 2 ^ 64⟩, .bellClose [65536] ⟨false, .ok, .ok⟩,
    .bellClose [] ⟨false, .transient 0 0, .ok⟩, .bellClose [] ⟨false, .ok, .lasting 10 0 0⟩, .convert ⟨0, [(0, .transient 0 0)]⟩, .reduce ⟨0, .twig (2 ^ 32)⟩,
    .selfTestDone 2 0 [64] false, .wirUpdate .core 16, .tollTimeout 65536] : List Instr), c.wf = false := by decide

theorem test_wf_refuses_lantern_fields : ∀ c ∈ ([.vadd { iss with q := 262144 } vf, .vadd { iss with seq := 2 ^ 32 } vf, .vadd { iss with chk := .transient 0 0 } vf,
    .vadd iss { vf with d := 32 }, .vadd iss { vf with a := 32 }, .vadd iss { vf with b := 32 }, .vadd iss { vf with c := 32 }, .vadd iss { vf with ms := 8 },
    .vadd iss { vf with men := 2 }, .vadd iss { vf with cnt := 8192 }, .vadd iss { vf with sa := 16 }, .vcvt iss { vf with f1 := 32 }, .vcvt iss { vf with f2 := 32 },
    .vcvt iss { vf with ovf := 2 }, .vadd iss { vf with rsv := 16 }, .sli iss { sf with sd := 16 }, .sadd iss { sf with sa := 16 }, .sadd iss { sf with sb := 16 },
    .ssel iss { sf with ms := 8 }, .sli iss { sf with rsv := 512 }, .sli iss { sf with imm := 2 ^ 32 }, .fLanternIllegal iss (0x40 * 2 ^ 56)] : List Instr),
    c.wf = false := by decide +kernel

theorem test_wf_refuses_array_fields : ∀ c ∈ ([.arrNop { ais with q := 262144 } 0, .arrNop ais (2 ^ 124), .fset ais { fset0 with side := 2 }, .fset ais { fset0 with fmt := 32 },
    .fset ais { fset0 with xmode := 4 }, .fset ais { fset0 with xfmt := 32 }, .fset ais { fset0 with xtid := 2 ^ 32 }, .fset ais { fset0 with rsv := 2 ^ 79 },
    .pass ais { pass0 with group := 64 }, .pass ais { pass0 with slot := 32 }, .pass ais { pass0 with dtile := 512 }, .pass ais { pass0 with kg := 2 ^ 20 },
    .pass ais { pass0 with rsv := 2 ^ 82 }, .gopen ais { gopen0 with mode := 4 }, .gopen ais { gopen0 with dbase := 512 }, .gopen ais { gopen0 with dcountM1 := 512 },
    .gopen ais { gopen0 with tcolsM1 := 512 }, .gopen ais { gopen0 with outNM1 := 65536 }, .gopen ais { gopen0 with row0 := 2 ^ 21 },
    .gopen ais { gopen0 with col0 := 65536 }, .gopen ais { gopen0 with outTid := 2 ^ 32 }, .gopen ais { gopen0 with rsv := 16 },
    .gdrain ais { gdrain0 with group := 64 }, .gdrain ais { gdrain0 with form := 4 }, .gdrain ais { gdrain0 with rsv := 2 ^ 115 }, .fSpireOp ais 4, .fSpireOp ais 16] : List Instr),
    c.wf = false := by decide +kernel

theorem test_wf_refuses_frames : ∀ c ∈ ([.train 0 (frm 2), .calReq 0 (frm 1), .alive 0 { frm 9 with hops := 16 }, .alive 0 { frm 9 with pwords := 256 },
    .alive 0 { frm 9 with group := 65536 }, .alive 0 { frm 9 with src := 65536 }, .alive 0 { frm 9 with dst := 65536 }, .alive 0 { frm 9 with lseq := 2 ^ 24 },
    .alive 0 { frm 9 with credit := 256 }, .alive 0 { frm 9 with ack := 2 ^ 24 }, .alive 0 { frm 9 with arg0 := 2 ^ 64 }, .alive 0 { frm 9 with arg1 := 2 ^ 64 },
    .alive 0 { frm 9 with payload := [0] }, .alive 0 { frm 9 with pwords := 1, payload := [2 ^ 64] }, .alive 0 { frm 9 with rsv := 2 ^ 40 },
    .belfryFrameDiscard 0 ⟨[2 ^ 64], false⟩] : List Instr),
    c.wf = false := by decide +kernel

/-! What meets the hypotheses of the statements: the machine as a whole. -/

theorem wit_idle : State.reset.pending = [] ∧ State.reset.inReset = true ∧ up.pending = [] ∧ up.inReset = false := by decide +kernel

theorem wit_hasUnit : up.hasUnit .toll ∧ up.hasUnit (.orphanTile 0) := by
  constructor
  · intro k u h; cases h
  · intro k u h; cases h; decide +kernel

theorem wit_noUnit : (Instr.orphanTile 65536).unit = some (1, 65536) ∧ unitCount up 1 ≤ 65536 ∧ (Instr.wirUpdate (.array 65536) 1).unit = some (2, 65536) ∧
    unitCount up 2 ≤ 65536 ∧ (Instr.writeResponse 65536 0 0).unit = some (6, 65536) ∧ unitCount up 6 ≤ 65536 ∧ (Instr.calPeriod 65536).unit = some (7, 65536) ∧
    unitCount up 7 ≤ 65536 := by decide +kernel

theorem wit_next : (∃ t, exec (.irqAck 3) up = .next t) ∧ (Instr.irqAck 3).bringsMemory = false := ⟨fine_next (by decide +kernel), rfl⟩

theorem wit_inv : State.Inv up ∧ ∃ t, step { up with pending := [.irqAck 3] } = .next t :=
  ⟨(by decide +kernel : Memory.wf up.mem = true), fine_next (by decide +kernel)⟩

theorem wit_object_write : O.tail ≠ O.bgMaster ∧ (262143 : Nat) < 262144 ∧ (O.tail, 0) ≠ (O.tail, 262143) ∧ (O.tail ≠ O.bgMaster ∨ O.tail ≠ O.instanceId) := by decide

theorem wit_reset_held : State.reset.inReset = true ∧ Instr.toll.outlivesReset = false := by decide +kernel

theorem wit_stopped : (up.setObj O.blockState 1).stopped = true ∧ Instr.toll.needsLive = true := by decide +kernel

/-! Doorbells. -/

theorem wit_tail : upq.live = true ∧ upq.tailOk 3 16 = true ∧ upq.obj O.powerState ≠ 1 ∧ upq.obj O.powerState ≠ 2 ∧
    (upq.put O.tail 3 1).tailOk 3 1 = true ∧ (upq.put O.tail 3 1).get O.tail 3 = 1 ∧ upq.obj O.powerState = 0 := by decide +kernel

theorem wit_tail_asleep : (upq.setObj O.powerState 1).live = true ∧ (upq.setObj O.powerState 1).tailOk 3 1 = true ∧
    ((upq.setObj O.powerState 1).setObj O.powerWake 0).obj O.powerWake ≠ 1 := by decide +kernel

theorem wit_doorbell_errors : up.live = true ∧ dbAck (2 ^ 63) = false ∧ (dbTail (2 ^ 63) && up.tailOk (dbQueue (2 ^ 63)) (dbIndex (2 ^ 63))) = false ∧
    dbAck (dbWord 0 3 17) = false ∧ (dbTail (dbWord 0 3 17) && upq.tailOk (dbQueue (dbWord 0 3 17)) (dbIndex (dbWord 0 3 17))) = false := by decide +kernel

/-! The management port. -/

theorem wit_malformed : up.deaf = false ∧ (let r := FinfaReq.ofBeats [0x7F, 0, 0, 0]; reqMalformed r.head r.op r.index r.sub r.data) = true ∧
    (let r := FinfaReq.ofBeats [0x12, 0, 0, 0]; reqMalformed r.head r.op r.index r.sub r.data) = true ∧ (hd 0).chk = .ok := by decide +kernel

theorem wit_refused_requests : (∃ t, exec (.finfaRead (hd 0) 0xFFFF 0) up = .next t) ∧
    ((after (.finfaRead (hd 0) 0xFFFF 0) up).moOut.map (·.status) = [St.noSuchObject]) ∧ St.noSuchObject ≠ 0 := ⟨fine_next (by decide +kernel), by decide +kernel⟩

theorem wit_next_object : up.hears (hd 0) 6 0 0 0 = true ∧ (Obj.next 0 0).isSome = true ∧ up.hears (hd 2) 6 0xFFFF 0xFF 0 = true ∧
    Obj.next 2 (0xFFFF * 256 + 0xFF) = none := by decide +kernel

theorem wit_read : let o := ob O.evlogTail
    up.hears (hd 0) 1 (o.oid / 256) (o.oid % 256) 0 = true ∧ objFor (hd 0) o.oid = some o ∧ o.ty.size ≤ 16 ∧
    up.allowed o (up.selFor o (hd 0) 1) 0 0 false = true := by decide +kernel

theorem wit_segRead : let o := ob O.firstFault
    up.hears (hd 0) 3 (o.oid / 256) (o.oid % 256) 0 = true ∧ objFor (hd 0) o.oid = some o ∧ 16 < o.ty.size ∧
    up.allowed o (up.selFor o (hd 0) 3) 0 0 false = true ∧ (up.dropSeg 7).segs.length < up.obj O.segContexts := by decide +kernel

theorem wit_segRead_small : let o := ob O.evlogTail
    up.hears (hd 0) 3 (o.oid / 256) (o.oid % 256) 0 = true ∧ objFor (hd 0) o.oid = some o ∧ o.ty.size ≤ 16 ∧ (hd 0).segOff = 0 ∧
    up.allowed o (up.selFor o (hd 0) 3) 0 0 false = true ∧ (up.dropSeg 7).segs.length < up.obj O.segContexts := by decide +kernel

theorem wit_abort : let s := up.setSegs [{ req := 7, wr := false, oid := 0, sel := 0, data := 0, last := 0, lastData := 0, status := none }]
    s.hears (hd 0) 5 0 0 0 = true ∧ (s.segOfReq 7).isSome = true := by decide +kernel

theorem wit_segWrite : let o := ob 0xF00000
    up.hears (hd 2) 4 (o.oid / 256) (o.oid % 256) 1 = true ∧ objFor (hd 2) o.oid = some o ∧ 16 < o.ty.size ∧ o.acc.readOnly = false ∧
    up.allowed o (up.selFor o (hd 2) 4) 2 0 true = true ∧ up.segOfReq 7 = none ∧ up.segs.length < up.obj O.segContexts := by decide +kernel

theorem wit_write : put up 2 O.instanceId 0xFFFE ∧ put up 1 O.evlogHead 0 ∧ (ob O.instanceId).bind = false ∧ (ob O.evlogHead).bind = false ∧
    O.instanceId ∉ actingObjects ∧ O.evlogHead ∉ actingObjects := by unfold put; decide +kernel

/-- A block whose epoch stage is open. -/
def staged : State := ((up.setStage (some {})).setObj O.epochState 1)

theorem wit_binding : ∀ s ∈ [up, staged], put s 1 O.histOwner 4095 ∧ put s 0 O.nanTrapMode 1 ∧ put s 2 (O.devwinBase 0) 0x1000000 ∧ put s 2 (O.devwinBase 15) 0 ∧
    put s 2 (O.devwinSize 0) 0 ∧ put s 2 (O.devwinSize 15) 0 ∧ ∀ o ∈ [O.histOwner, O.nanTrapMode, O.devwinBase 0, O.devwinBase 15, O.devwinSize 0, O.devwinSize 15],
    (ob o).bind = true := by unfold put; decide +kernel

theorem wit_stage : up.stage = none ∧ staged.stage = some {} := by decide +kernel

theorem wit_acting_writes : put up 1 O.archLevelRequest 1 ∧ put up 0 O.slotReset 1 ∧ put up 0 O.syncValue 5 ∧ put up 0 O.tmapInvalidate 3 ∧ put up 1 O.tmtDirBase 0x1000 ∧
    put up 1 O.tmtDirLog2 4 ∧ put up 1 O.tmtAttr 1 ∧ put up 1 O.firstFaultClear 1 ∧ put up 1 O.evlogIrqAck 1 ∧ put up 1 O.bellReset 1 := by unfold put; decide +kernel

/-- Two invalidations, with a walk of tenant domain 0 that has begun. -/
def invalidated (walks : List WalkRt) : State := ((up.setInvals [{ tenant := 0, tid := 0 }, { tenant := 1, tid := 5 }]).setReads { walks := walks })
def walk0 : WalkRt :=
  { id := 0, tenant := 0, tid := 5, dirBase := 0, dirLog2 := 4, attr := 0, begun := true, stale := true, acts := [.desc 3 0], fill := [] }

theorem wit_invalidation : (invalidated []).invals = [{ tenant := 0, tid := 0 }, { tenant := 1, tid := 5 }] ∧ (invalidated []).staleLeft 0 = false ∧
    (invalidated [walk0]).staleLeft 0 = true := by decide +kernel

theorem wit_epoch : put up 1 O.epochControl 1 ∧ put ((staged.setObj O.epochNext 1).setObj O.epochBell 2) 1 O.epochControl 2 ∧ put staged 1 O.epochControl 3 := by
  unfold put; decide +kernel

/-- A store, a repair store and a restore in progress. -/
def storing : State := up.setNv { up.nv with op := some (.store [] 1) }
def repairing : State := up.setNv { up.nv with op := some (.repair 0 1) }
def restoring : State := up.setNv { up.nv with op := some (.restore 2 3) }

theorem wit_nv : put up 1 O.nvStore 1 ∧ put up 2 O.repairStore 1 ∧ storing.nv.op = some (.store [] 1) ∧ repairing.nv.op = some (.repair 0 1) ∧
    storing.riseDue = false ∧ storing.warmHeld = false ∧ repairing.riseDue = false ∧ repairing.warmHeld = false := by unfold put; decide +kernel

theorem wit_restore : put up 1 O.nvRestore 1 ∧ put up 1 O.nvRestore 2 ∧ restoring.nv.op = some (.restore 2 3) ∧ restoring.inReset = false ∧ restoring.stage = none ∧
    ∃ x ∈ objTable, restorable 1 x = true := ⟨by unfold put; decide +kernel, by unfold put; decide +kernel, by decide +kernel, by decide +kernel, by decide +kernel,
    ob O.instanceId |> fun _ => by
      have h : objTable.any (restorable 1) = true := by decide +kernel
      exact List.any_eq_true.mp h⟩

theorem wit_queues : put upq0 1 O.queueEnable 1 ∧ upq0.selFor (ob O.queueEnable) (hd 1) 2 = 3 ∧ put upq0 1 O.queueReset 1 ∧ upq0.get O.queueState 3 = 0 ∧
    put upq 1 O.queueReset 1 ∧ upq.selFor (ob O.queueReset) (hd 1) 2 = 3 ∧ upq.get O.queueState 3 ≠ 0 ∧ upq.routs = [] := by unfold put; decide +kernel

/-! Memory ports. -/

/-- A read of two beats and a write of one byte, outstanding on port 0, and the state that has them. -/
def rd0 : MemReq := { port := 0, wr := false, tag := some 5, addr := 0x1000, beats := 2, attr := 1, tenant := 0, data := [], poison := false, owner := .conv 3 0 }
def wr0 : MemReq := { rd0 with wr := true, beats := 1, data := [7], owner := .park 3 0 }
def ported : State := up.setReqs [rd0, wr0]

theorem wit_readData : Memory.wf ported.mem = true ∧ 0 < ported.nPort ∧ ported.portTalks 0 = true ∧ ported.byTag 0 6 false = none ∧
    ported.byTag 0 5 false = some rd0 ∧ (true ≠ (rd0.got + 1 == rd0.beats)) ∧ (false = (rd0.got + 1 == rd0.beats)) ∧
    (true = ({ rd0 with got := 1 }.got + 1 == rd0.beats)) ∧ (up.setReqs [{ rd0 with got := 1 }]).byTag 0 5 false = some { rd0 with got := 1 } ∧
    rd0.late = false ∧ ported.stopped = false ∧ (up.setReqs [{ rd0 with late := true }]).byTag 0 5 false = some { rd0 with late := true } := by decide +kernel

theorem wit_writeResponse : ported.byTag 0 6 true = none ∧ ported.byTag 0 5 true = some wr0 ∧ wr0.late = false ∧
    (up.setReqs [{ wr0 with late := true }]).byTag 0 5 true = some { wr0 with late := true } := by decide +kernel

theorem wit_memTimeout : ported.stopped = false ∧ isCheck wr0.owner = false ∧ rd0.retryOf = none ∧ (ported.nextPort 0).isSome = true ∧ (ported.run 0).timeouts = 0 ∧
    0 < ((ported.updRun 0 (fun x => { x with timeouts := 1 })).run 0).timeouts ∧ ported.serves 6 0 = true ∧ ported.portTalks 0 = true ∧
    ported.inWindow rd0.span.1 rd0.span.2 = false ∧ ported.byTag 0 5 true = some wr0 ∧ (ported.inWindow wr0.span.1 wr0.span.2 = false) ∧
    ((ported.put (O.devwinBase 0) 0 0).put (O.devwinSize 0) 0 0x2000).inWindow rd0.span.1 rd0.span.2 = true := by decide +kernel

/-! Streams and events. -/

/-- A conversion that takes the stream, admitted and running. -/
def streamed : State := holding { drt (dsc 1 (.conv conv1)) with phase := .running, sent := true, streamT := 1 }

theorem wit_streamTile : tile1.seg < streamed.nSeg ∧ streamed.segTakes 2 = true ∧ (streamed.segOf 2).isSome = true ∧
    (streamed.tagged 9 2).map (fun x => (x.1, x.2.1.seq, x.2.2)) = some (3, 0, conv1) ∧ ((streamed.tagged 9 2).map (·.2.1.phase)) = some .running ∧
    tile1.framed conv1 = true ∧ conv1.gang = 1 ∧ ({ tile1 with trow := 1 } : Tile).framed conv1 = false ∧ up.tagged 9 2 = none ∧ up.bget O.hedgeTagWait 0 ≠ 0 ∧
    (up.put O.hedgeTagWait 0 0).bget O.hedgeTagWait 0 = 0 ∧ (up.put O.hedgeTagWait 0 0).tagged 9 2 = none := by decide +kernel

/-- A tile that waits on segment 2, and a captured tile on the runner ring whose channel 1 has an owner, or none. -/
def waiting : State := up.setWaitTiles [(2, some (tile1, .ok))]
def cap1 : Captured :=
  { q := 3, seq := 0, no := 0, trow := 0, tcol := 0, ch := 1, fmt := 0, codes := [(0, 0x3F800000)], scales := [], sides := [], poison := false }
def capN : CapTile := { q := 3, seq := 0, trow := 0, tcol := 0 }
def ringed : State := up.setRing [cap1]

/-- A GRAM in flight, which owns channel 1. -/
def gramR : Rout :=
  { q := 3, seq := 0, tenant := 0
    r := { kind := .gram, imageTid := 1, stageTid := 2, ctxTid := 3, srSeed := 0, srStep := 0, deadline := 0, dim := 1, captureCh := 1 } }
def capD : CapDesc := { bell := 0, q := 3, seq := 0, rows := 1, conv := { conv1 with capture := 1 } }
def owned : State := (ringed.setRouts [gramR]).setChans [(1, { owner := some (3, 0), caps := [capD] })]

theorem wit_tilesLeave : up.live = true ∧ up.awake = true ∧ 2 < up.nSeg ∧ SMap.look none waiting.waitTiles 2 = some (tile1, .ok) ∧ waiting.segFrozen = false ∧ waiting.segOf 2 ≠ none ∧ waiting.live = true ∧ waiting.awake = true ∧
    ringed.obj O.ringState ≠ 2 ∧ ringed.ring.find? (fun x => x.q == 3 && x.seq == 0 && x.trow == 0 && x.tcol == 0) = some cap1 ∧
    (SMap.look {} ringed.chans 1).owner = none ∧ (SMap.look {} owned.chans 1).owner = some (3, 0) ∧ owned.rfind 3 0 = some gramR ∧
    (SMap.look {} owned.chans 1).caps.find? (fun p => p.q == cap1.q && p.seq == cap1.seq) = some capD ∧ cap1.poison = false ∧
    owned.obj O.frontState ≠ 1 ∧ owned.frontUsed + capSize cap1 capD.conv ≤ owned.obj O.frontBufferBytes ∧ ({ cap1 with poison := true } : Captured).poison = true := by
  decide +kernel

/-- The event log at its first entry, with one event buffered. -/
def logging : State :=
  ((((up.setObj O.evlogBase 0x8000).setObj O.evlogLog2 6).setObj O.evlogEnable 1).setEvbuf [{ code := 0x0701 }])

theorem wit_evlog : put ((up.setObj O.evlogBase 0x8000).setObj O.evlogLog2 6) 1 O.evlogEnable 1 ∧ put up 1 O.evlogEnable 0 ∧ up.evOut = none ∧
    up.reqs = [] ∧ logging.evbuf = [{ code := 0x0701 }] ∧ logging.evOut = none ∧ logging.obj O.evlogEnable = 1 ∧ logging.inReset = false ∧ logging.stopped = false ∧
    logging.obj O.powerState ≠ 3 ∧ (logging.obj O.evlogTail + 2 ^ 32 - logging.obj O.evlogHead) % 2 ^ 32 < 2 ^ logging.obj O.evlogLog2 ∧
    logging.inWindow 0x8000 64 = false ∧ (logging.portOf 0x8000).isSome = true ∧ (0x8000 : Nat) % 64 = 0 := by unfold put; decide +kernel

/-! Power, throttle and sensors. -/

theorem wit_powerRequest : up.inReset = false ∧ up.stopped = false ∧ up.phase = 4 ∧ up.obj O.powerState ≠ 3 ∧ up.draining = false ∧ put up 1 O.powerRequest 1 := by
  unfold put; decide +kernel

/-- A move to DOZE, NAP or SLEEP whose drain has begun, and an exit. -/
def moving (t : Nat) : State := (up.setMoving (some (t, 0))).setDraining true
def exiting (t : Nat) : State := (up.setObj O.powerState t).setExiting true

theorem wit_powerEntry : ∀ t ∈ [1, 2, 3], (moving t).inReset = false ∧ (moving t).moving = some (t, 0) ∧ (moving t).draining = true ∧ (moving t).powerDrained t = true ∧
    (moving t).nv.op = none := by decide +kernel

theorem wit_powerExit : (exiting 1).exiting = true ∧ (exiting 1).obj O.powerState = 1 ∧ (exiting 2).obj O.powerState = 2 ∧ (exiting 2).pgLane = true ∧
    (exiting 2).pgSpire = true := by decide +kernel

theorem wit_throttle : up.inReset = false ∧ up.obj O.powerState ≠ 3 ∧ put up 1 O.throttleForce 7 ∧ up.phase ≠ 0 ∧ up.live = true := by unfold put; decide +kernel

/-- The governor acts on a window whose estimate is above the limit, but on MQ1-L not at the nominal LCLK. -/
theorem wit_governor : let s := up.setGov { fJ := up.budgetFJ + 1 }
    (s.budgetFJ < s.gov.fJ ∧ s.variant = .l ∧ s.lclk ≤ 1250000) ∧ (let t := s.setObj O.lclkKhz 1300000; t.budgetFJ < (t.setGov { fJ := t.budgetFJ + 1 }).gov.fJ ∧ ¬(t.lclk ≤ 1250000)) ∧
    ¬(up.budgetFJ < up.gov.fJ) := by decide +kernel

theorem wit_tempRead : let l := ([0x0014, 0x7FFF, 0x7FFF].take (up.obj O.tempSensors)).map (fun x => x % 65536)
    l ≠ [] ∧ (∀ x ∈ [0x0014].map (sext 16), x ≤ 20) ∧ ([0x0014].map (sext 16))[0]? = some 20 ∧
    (l.map (sext 16))[1]? = some 32767 ∧ (∀ x ∈ l.map (sext 16), x ≤ 32767) ∧ ∀ j < 1, (l.map (sext 16))[j]? ≠ some 32767 := by decide +kernel

/-! Tests, resets and start-up. -/

/-- Queries of the tests of segment 1: named, under way, and out of service. -/
def named (kind u : Nat) : State := (up.setObj O.testKind kind).setObj O.testUnit u
def testing (st kind : Nat) (cmd : Nat) : State := (up.setTest (some { cmd := cmd, kind := kind, unit := 1 })).setObj O.testState st

theorem wit_testCommand : put (named 1 1) 1 O.testCommand 1 ∧ put (named 2 1) 1 O.testCommand 2 ∧ put ((named 1 1).put O.segState 1 2) 1 O.testCommand 3 := by
  unfold put; decide +kernel

theorem wit_ijtag : up.testMode = false ∧ up.inReset = false ∧ up.phase ≠ 0 ∧ (up.setObj O.ijtagAccess 1).obj O.ijtagAccess = 1 ∧ up.loaded = true ∧
    up.obj O.powerState ≠ 3 ∧ (up.setObj O.ijtagAccess 1).testRefused 1 1 1 = false ∧ (up.setObj O.ijtagAccess 0).obj O.ijtagAccess ≠ 1 ∧
    up.testRefused 1 1 65536 = true := by decide +kernel

theorem wit_portCheck : put (up.setObj O.portCheckAddr 0x100000) 2 O.portCheck 1 := by unfold put; decide +kernel

theorem wit_selfTest : ∀ k ∈ [1, 5, 6], (testing 1 k 1).test = some { cmd := 1, kind := k, unit := 1 } ∧ (testing 1 k 1).obj O.testState = 1 ∧
    (testing 1 k 1).testDrained { cmd := 1, kind := k, unit := 1 } = true ∧ (testing 2 k 1).test = some { cmd := 1, kind := k, unit := 1 } ∧
    (testing 2 k 1).testMode = false ∧ (testing 2 k 1).obj O.testState = 2 := by decide +kernel

theorem wit_wir : up.hasMacro (.segment 0) = true ∧ up.hasMacro .core = true ∧ Macro.segment 0 ≠ .core := by decide +kernel

theorem wit_resets : up.inReset = false ∧ up.warmAsk = false ∧ up.supplied = true ∧ ((up.setObj O.powerState 2).setPgLane false).supplied = false ∧
    2 ≤ ((up.setObj O.powerState 2).setPgLane false).obj O.powerState ∧ up.obj O.powerState ≠ 3 ∧ up.obj O.powerState < 2 ∧ persOf O.instanceId = .nv ∧
    O.instanceId ≠ O.bgMaster := by decide +kernel

/-- Reset held, cold and warm; one that waits for a supply; phases 1 and 2. -/
def warmHeld : State := { State.reset with coldHeld := false, warmHeld := true }
def phase (n : Nat) : State := ({ State.reset with coldHeld := false, loaded := true }).setObj O.startupPhase n

theorem wit_release : State.reset.queues = [] ∧ State.reset.nv.storing = false ∧ State.reset.obj O.powerState ≠ 3 ∧ State.reset.coldHeld = true ∧
    State.reset.supplied = true ∧ warmHeld.coldHeld = false ∧ warmHeld.warmHeld = true ∧ warmHeld.supplied = true ∧ (warmHeld.setPgLane false).supplied = false ∧
    ((warmHeld.setPgLane false).setRiseDue true).riseDue = true ∧ (((warmHeld.setPgLane false).setRiseDue true).setPgLane true).supplied = true ∧
    ((State.reset.setPgAon false).setRiseDue true).riseDue = true ∧ (((State.reset.setPgAon false).setRiseDue true).setPgAon true).supplied = true ∧
    State.reset.testMode = false ∧ State.reset.warmAsk = false ∧ ((warmHeld.setTestMode true).setRiseDue true).testMode = true := by decide +kernel

theorem wit_startUp : (phase 1).inReset = false ∧ (phase 1).phase = 1 ∧ copyVals (phase 1).nv.copies = [] ∧ copyVals (phase 1).nv.repair = [] ∧
    (phase 1).warmStart = false ∧ (phase 1).ports ≠ [] ∧ (phase 2).phase = 2 ∧ (phase 2).stopped = false := by decide +kernel

/-! The bell. -/

/-- The next bell formed, alone and as a member of a group of four with and without its RELEASE. -/
def formed (g : Group) : State := (((up.setBell .formed).setDue 10).setCycle 20).setGroup g

theorem wit_toll : (formed {}).bell = .formed ∧ (formed {}).live = true ∧ (formed {}).group.size ≤ 1 ∧ (formed {}).queues = [] ∧
    1 < (formed { size := 4, self := 1 }).group.size ∧ (formed { size := 4, self := 1 }).group.stamp = none ∧
    (formed { size := 4, self := 1, stamp := some 100 }).group.stamp = some 100 := by decide +kernel

theorem wit_overrun : let s := (((up.setBell .open).setDue 10).setCycle 20)
    s.live = true ∧ s.overrun = false ∧ s.bell ≠ .none ∧ ¬(s.bell = .formed ∧ s.closedAt + s.obj O.bellCloseCycles ≤ s.openedAt + 4 * (s.due - s.openedAt)) := by
  decide +kernel

theorem wit_paceBreaks : let s := (up.setBell .forming).setForm { bell := 1, budget := 100, phase := 3, waiting := some 3, turn := [{ q := 3, seq := 0 }] }
    s.live = true ∧ s.form.waiting = some 3 ∧ s.form.turn = [{ q := 3, seq := 0 }] ∧ s.form.phase = 3 := by decide +kernel

/-- A bell due to close, with one slot fed. -/
def closing : State := (dueNow up).setHist [(16383, { ring := [0x3F800000], curMax := 0x40000000, elements := 3, fed := true })]

theorem wit_close : up.closable = false ∧ closing.closable = true ∧ closing.queues = [] ∧ closing.routs = [] ∧ closing.frozen = false ∧ closing.syncWrites = [] ∧
    closing.syncUpds = [] ∧ closing.obj O.bellResetState ≠ 1 ∧ closing.stage = none ∧ closing.moving = none ∧ (16383 : Nat) < 16384 ∧
    (closing.hist.map (fun x => (x.2.fed, x.2.reset))) = [(true, false)] ∧ (∀ c i l, Chk.ok ≠ .lasting c i l) ∧
    ((closing.setObj O.bellResetState 1).closable = true ∧ (closing.setObj O.bellResetState 1).obj O.bellResetState = 1) :=
  ⟨by decide +kernel, by decide +kernel, rfl, rfl, by decide +kernel, rfl, rfl, by decide +kernel, rfl, rfl, by decide, by decide +kernel, (fun _ _ _ h => nomatch h), by decide +kernel⟩

/-- A group of one and of four that forms, seen by its master and by a member. -/
def grouping (self size : Nat) : State := ((phase 3).setGroup { self := self, size := size }).setObj O.bgRank self

theorem wit_grouping : ∀ n ∈ [1, 4], (grouping 0 n).grouping = true ∧ (grouping 0 n).draining = false ∧ (grouping 0 n).stage = none ∧
    (grouping 0 n).isMaster = true ∧ (grouping 0 n).phase = 3 ∧ (grouping 1 4).grouping = true ∧ (grouping 1 4).isMaster = false := by decide +kernel

theorem wit_grouping_sizes : (grouping 0 1).group.size ≤ 1 ∧ 1 < (grouping 0 4).group.size := by decide

/-- A routine past its deadline, in flight in a bell that closes. -/
def late : Rout := { gramR with r := { gramR.r with kind := .solve, deadline := 1 } }
def lateS : State := (dueNow (holding { drt (dsc 0x12 (.rout late.r)) with phase := .running })).setRouts [late]

theorem wit_streamTimeout : let s := dueNow streamed
    s.closable = true ∧ ((s.dfind 3 0).map (fun d => (streamOf d, d.phase, decide (d.tilesIn.length < conv1.tiles), d.firstBell + d.streamT))) =
      some (some conv1, .running, true, 1) ∧ s.bellNo = 0 := by decide +kernel

theorem wit_deadline : lateS.closable = true ∧ lateS.rfind 3 0 = some late ∧ late.ended = false ∧ late.r.deadline ≠ 0 ∧
    late.admBell + late.r.deadline ≤ lateS.bellNo + 1 := by decide +kernel

theorem wit_bellWaitEnd : let d := { drt (dsc 0x31 (.bellWait 1)) with phase := .running }
    let s := dueNow (holding d)
    s.closable = true ∧ s.dfind 3 0 = some d ∧ d.d.malformed = false ∧ d.noSync = false ∧ d.d.body = .bellWait 1 ∧ d.firstBell + 1 - 1 ≤ s.bellNo ∧ d.phase = .running := by
  decide +kernel

/-! Descriptors. -/

/-- A control descriptor at its dispatch. -/
def ctl (op : Nat) (b : Body) : DRt := drt (dsc op b)
def atDispatch (d : DRt) : State := rung (holding d)

theorem wit_controls : ∀ p ∈ ([(0x00, .nop), (0x30, .fence false), (0x32, .signal 1 true 0), (0x33, .wait 1 0 0), (0x31, .bellWait 0), (0x31, .bellWait 4)] : List (Nat × Body)),
    (atDispatch (ctl p.1 p.2)).phase = 4 ∧ (atDispatch (ctl p.1 p.2)).nextDisp 3 = some (ctl p.1 p.2) ∧ (ctl p.1 p.2).d.malformed = false ∧
    (ctl p.1 p.2).d.opcode = p.1 ∧ (ctl p.1 p.2).noSync = false ∧ waitLate (ctl p.1 p.2) = false ∧
    ((bellWaitEnd (ctl p.1 p.2) = none) ↔ p.2 ≠ .bellWait 4) ∧ ({ ctl p.1 p.2 with tgtBad := true } : DRt).noSync = true ∧
    (atDispatch { ctl p.1 p.2 with tgtBad := true }).nextDisp 3 = some { ctl p.1 p.2 with tgtBad := true } := by decide +kernel

theorem wit_malformed_descriptor : let d := { ctl 0 .nop with d := { dsc 0 .nop with malformed := true } }
    d.d.malformed = true ∧ (atDispatch d).nextDisp 3 = some d := by decide +kernel

theorem wit_waitTimeout : let d := { ctl 0x33 (.wait 1 0 5) with aux0 := 1 }
    waitLate d = true ∧ (atDispatch d).nextDisp 3 = some d := by decide +kernel

/-- A conversion of one element from memory to memory, whose tensor is cached. -/
def entry : TmEntry :=
  { base := 9, fmt := 0, attr := 1, addr := 0x4000, extent := 0x1000, offset := 0, rows := 1, rowLen := 1, rowStride := 1, colStride := 1 }
def cached : TwigEntry := { kind := 8, unit := 0, tenant := 0, tid := 9, ent := entry }
def convM : ConvD := { conv1 with srcStream := false, segBase := 0, srcTid := 9, dstTid := 9, streamTag := 0 }
def convS (op : ConvOp) (k : Nat) : State := (atDispatch (drt (dsc k (.conv { convM with op := op })))).setTwigs [cached]

theorem wit_conversions : ∀ p ∈ ([(.convert, 1), (.quant, 2), (.dequant, 3), (.stats, 4)] : List (ConvOp × Nat)),
    (convS p.1 p.2).phase = 4 ∧ ((convS p.1 p.2).nextDisp 3).isSome = true ∧ convM.rows ≠ 0 ∧ convM.rowLen ≠ 0 ∧ ({ convM with rows := 0 } : ConvD).rows = 0 ∧
    (convS p.1 p.2).dispHeld (drt (dsc p.2 (.conv { convM with op := p.1 }))) { convM with op := p.1 } = false := by decide +kernel

/-- What the dispatch of the conversion comes to: what it lacks, and whether its checks pass. -/
def convTry (s : State) : Option Want × Option (Nat × Nat) :=
  let x := (s.acting (.desc 3 0)).convRefusal 3 (drt (dsc 1 (.conv convM))) convM
  (x.1.reads.want, match x.2 with | .ok _ => none | .error e => some e)

/-- The same conversion with a walk answered: tensor 9 does not exist. -/
def convLost : State :=
  (atDispatch (drt (dsc 1 (.conv convM)))).setReads { res := [{ act := .desc 3 0, tenant := 0, tid := 9, stale := false, ent := none, code := 0x0601 }] }

theorem wit_conversion_accepted : convTry (convS .convert 1) = (none, none) ∧ convM.inert = false ∧ convM.srcStream = false ∧
    ({ convM with op := .stats } : ConvD).inert = true := by decide +kernel

theorem wit_conversion_refused : convTry convLost = (none, some (0x0601, 9)) := by decide +kernel

/-- Nothing is cached: the dispatch lacks the walk of tensor 9, in a tenant domain that has a directory. -/
def convCold : State := ((atDispatch (drt (dsc 1 (.conv convM)))).put O.tmtDirBase 0 0x10000).put O.tmtDirLog2 0 4

theorem wit_conversion_lacks : convTry convCold = (some (.walk 8 0 0 9), some (0, 9)) ∧
    (convCold.ask (.desc 3 0) (.walk 8 0 0 9)).reads.res.length ≤ convCold.reads.res.length := by decide +kernel

theorem wit_conversion_held : (streamed.dispHeld { drt (dsc 1 (.conv conv1)) with seq := 1 } conv1 = true) ∧ conv1.rows ≠ 0 := by decide +kernel

theorem wit_rounding : convM.isRequant = false ∧ convM.escEn = false ∧ convM.scaleSrc = 0 ∧ convM.op = .convert ∧ convM.sf.isFloat = true ∧
    ({ convM with op := .quant } : ConvD).isRequant = false ∧ ({ convM with op := .dequant } : ConvD).isRequant = false := by decide +kernel

/-! Routines. -/

/-- A routine descriptor at its dispatch, with its routine. -/
def routD (k : RKind) (dim : Nat) : RoutD :=
  { gramR.r with kind := k, dim := dim, niter := 1, rhsCols := 1, tokens := 1, layers := dim }
def routS (k : RKind) (op dim hdr : Nat) : State :=
  (atDispatch (drt (dsc op (.rout (routD k dim))))).setRouts [{ gramR with r := routD k dim, hdrCode := hdr }]

theorem wit_routines : ∀ p ∈ ([(.gram, 0x10), (.root, 0x11), (.solve, 0x12), (.precond, 0x13)] : List (RKind × Nat)), ∀ n ∈ [0, 4],
    (routS p.1 p.2 n 0).phase = 4 ∧ (routS p.1 p.2 n 0).nextDisp 3 = some (drt (dsc p.2 (.rout (routD p.1 n)))) ∧
    (routS p.1 p.2 n 0).rfind 3 0 = some { gramR with r := routD p.1 n, hdrCode := 0 } ∧ (routD p.1 n).isNoop = (n == 0) ∧
    (routS p.1 p.2 n 0).testDrains = false ∧ ({ gramR with r := routD p.1 n, hdrCode := 0x0401 } : Rout).hdrCode ≠ 0 := by decide +kernel

theorem wit_routine_test_drains : ((routS .root 0x11 4 0).setObj O.testState 1 |>.setTest (some { cmd := 1, kind := 2, unit := 0 })).testDrains = true := by decide +kernel

/-- What the dispatch of routine `r` comes to: what it lacks, and the failed check. -/
def routTry (s : State) (r : Rout) (d : DRt) : Option Want × Option Nat :=
  let x := (s.acting (.desc 3 0)).checkRout r d
  (x.1.reads.want, errOf x.2)

/-- The same with the walk of its image answered: there is no such tensor. -/
def routLost : State :=
  (routS .root 0x11 4 0).setReads { res := [{ act := .desc 3 0, tenant := 0, tid := 1, stale := false, ent := none, code := 0x0601 }] }

theorem wit_routine_check_fails : routTry routLost { gramR with r := routD .root 4 } (drt (dsc 0x11 (.rout (routD .root 4)))) = (none, some 0x0601) := by
  decide +kernel

/-- Host memory with the image of a ROOT at 0x10000, all tensors of the routine cached, and its code in the image store. -/
def imageHeader : Nat :=
  2 + 2 ^ 8 + 0x00800810 * 2 ^ 32 + (1 + 2 ^ 8 + 16 * 2 ^ 16) * 2 ^ 64 + 2 ^ 96 + 136 * 2 ^ 160 + 128 * 2 ^ 320 + 2 ^ 352
def imageMem : Memory := ((toBytes 128 imageHeader).zipIdx.filter (fun x => x.1 != 0)).map (fun x => (0x10000 + x.2, BitVec.ofNat 8 x.1))
def tensor (tid addr : Nat) : TwigEntry := { cached with tid := tid, ent := { entry with base := tid, addr := addr, extent := 0x100000 } }
def rootD : RoutD := { routD .root 4 with outTid := 5, inTid := 6, residTol := 0x3F800000 }
def rootDRt : DRt := drt (dsc 0x11 (.rout rootD))
def rootR : Rout := { gramR with r := rootD }
def rootImage : Image := { Image.ofHeader imageHeader with code := [0, 0, 0, 0] }
def rootCold : State :=
  ((((atDispatch rootDRt).setRouts [rootR]).setMem imageMem).setTwigs
    [tensor 1 0x10000, tensor 2 0x200000, tensor 3 0x400000, tensor 5 0x600000, tensor 6 0x800000]).setStore
    [{ tenant := 0, tid := 1, digest := 0, bytes := 136, img := some rootImage, sched := [] }]
/-- The beats of the image's and the two objects' headers have been read. -/
def rootS : State := rootCold.setReads { got := [512, 0xC000, 0x10000].map (fun b => (.desc 3 0, b)) }

theorem wit_routine_starts : routTry rootS rootR rootDRt = (none, none) := by decide +kernel

theorem wit_routine_lacks : routTry rootCold rootR rootDRt = (some (.beats [512] 1 0), some 0) ∧
    (rootCold.ask (.desc 3 0) (.beats [512] 1 0)).reads.res.length ≤ rootCold.reads.res.length := by decide +kernel

theorem wit_routine_no_input : Memory.wf imageMem = true ∧ rootS.nextDisp 3 = some rootDRt ∧ rootS.rfind 3 0 = some rootR ∧ rootR.hdrCode = 0 ∧
    ((okOf ((rootS.acting (.desc 3 0)).checkRout rootR rootDRt).2).map
      (fun r => (r.r.kind, r.samples.map (·.init), r.lans.length))) = some (.root, [false], 1) := by decide +kernel

/-- The same routine as a GRAM, whose channel accepts it, passes its checks and starts. -/
def gramS : State × Rout × DRt :=
  let d := drt (dsc 0x10 (.rout { rootD with kind := .gram, captureCh := 1 }))
  let g := { rootR with r := { rootD with kind := .gram, captureCh := 1 }, chOk := true }
  let h := imageHeader - 1
  let m := ((toBytes 128 h).zipIdx.filter (fun x => x.1 != 0)).map (fun x => (0x10000 + x.2, BitVec.ofNat 8 x.1))
  ((((atDispatch d).setRouts [g]).setMem m).setTwigs rootCold.twigs |>.setStore [{ tenant := 0, tid := 1, digest := 0, bytes := 136, img := some rootImage, sched := [] }] |>.setReads rootS.reads, g, d)

theorem wit_gram_starts : routTry gramS.1 gramS.2.1 gramS.2.2 = (none, none) ∧
    ((okOf ((gramS.1.acting (.desc 3 0)).checkRout gramS.2.1 gramS.2.2).2).map (fun r => r.r.kind)) = some .gram := by decide +kernel

/-! Reduces. -/

def redD (n : Nat) : RedD := { srcTid := 9, dstTid := 9, count := n, rtag := 5, rgroup := 0, rop := 0, inPair := false, outPair := false }
def redDRt (n : Nat) : DRt := { drt (dsc 0x20 (.reduce (redD n))) with grp := (0, 1, 1) }
def redS (n : Nat) : State := (atDispatch (redDRt n)).setTwigs [{ cached with ent := { entry with rows := 4, extent := 64 } }]

theorem wit_reduce : ∀ n ∈ [0, 3], (redS n).phase = 4 ∧ (redS n).nextDisp 3 = some (redDRt n) ∧ (redDRt n).d.malformed = false ∧ (redDRt n).d.opcode = 0x20 ∧
    (redDRt n).noSync = false ∧ (redDRt n).d.body = .reduce (redD n) := by decide +kernel

/-- What the dispatch of the reduction comes to: what it lacks, and the failed check. -/
def redTry (s : State) (chk : Chk) : Option Want × Option (Nat × Nat) :=
  let x := (s.acting (.desc 3 0)).redResolve 3 (redDRt 3) (redD 3) chk
  (x.1.reads.want, match x.2 with | .ok _ => none | .error e => some e)

/-- The state in which its checks have passed. -/
def redT : State := (((redS 3).acting (.desc 3 0)).redResolve 3 (redDRt 3) (redD 3) .ok).1.did (redS 3) (.desc 3 0)

theorem wit_reduce_accepted : redTry (redS 3) .ok = (none, none) ∧ redTry (redS 3) (.lasting 1 0 255) = (none, none) ∧
    grpRank (redDRt 3).grp redT.group.self = some 0 ∧ repeats (redDRt 3).grp.2.1 (redDRt 3).grp.2.2 = false ∧ redT.pairHeld 0 5 = false := by decide +kernel

theorem wit_reduce_refused : redTry (((redS 3).setTwigs []).setReads { res := [{ act := .desc 3 0, tenant := 0, tid := 9, stale := false, ent := none, code := 0x0601 }] })
    .ok = (none, some (0x0601, 9)) ∧ grpRank (1, 2, 1) redT.group.self = none ∧ repeats 2 0 = true := by decide +kernel

theorem wit_reduce_lacks : let s := (((redS 3).setTwigs []).put O.tmtDirBase 0 0x10000).put O.tmtDirLog2 0 4
    redTry s .ok = (some (.walk 8 0 0 9), some (0, 9)) ∧ (s.ask (.desc 3 0) (.walk 8 0 0 9)).reads.res.length ≤ s.reads.res.length := by decide +kernel

theorem wit_reduce_pair_held : ((redS 3).updQueue 3 (fun x => { x with infl := [redDRt 3, { redDRt 3 with seq := 1, sent := true, phase := .running }] })).pairHeld 0 5 = true := by
  decide +kernel

theorem wit_reduceTimeout : let s := rung (holding { redDRt 3 with phase := .running, sent := true })
    s.live = true ∧ s.dfind 3 0 = some { redDRt 3 with phase := .running, sent := true } := by decide +kernel

/-! Commit and release. -/

theorem wit_commit : let d := { drt (dsc 0 .nop) with phase := .done }
    let s := rung (holding d)
    s.dfind 3 0 = some d ∧ s.commitReady 3 d = true ∧ (rung (holding { d with phase := .running })).commitReady 3 { d with phase := .running } = false := by
  decide +kernel

theorem wit_release_record : let d := { drt (dsc 0 .nop) with phase := .parked }
    let s := rung (holding d)
    up.releasable 3 = none ∧ s.releasable 3 = some d ∧ (s.queue 3).resetFrom = false ∧ s.get O.queueState 3 = 1 ∧ d.trapHalt = false ∧ d.status = 0 ∧
    s.sapling = false ∧ ({ d with status := 0x0101, seq := 0xFFFFFFFF } : DRt).status ≠ 0 ∧ s.get O.errPolicy 3 ≠ 1 := by decide +kernel

theorem wit_release_reset : let d := { drt (dsc 0 .nop) with phase := .parked }
    let s := ((rung (holding d)).put O.queueState 3 2).updQueue 3 (fun x => { x with resetFrom := true })
    s.releasable 3 = some d ∧ (s.queue 3).resetFrom = true := by decide +kernel

/-! Routines and arrays under way. -/

/-- A Lantern with FP32 and integer elements, an image whose words are those of `c`, and a routine of kind `k` that runs on it. -/
def lan0 : Lan :=
  ((({ vl := 3 } : Lan).vput 1 0 0x3F800000).vput 2 0 0x40000000).vput 1 1 0x7FA00000 |>.vput 2 1 5 |>.vput 3 2 7 |>.sput 2 5 |>.mput 1 (BitVec.ofNat 4096 5)
def wordOf (c : Instr) : Nat := ((lanWord c).map (·.2)).getD 0
def imgC (c : Instr) : Image :=
  { Image.ofHeader 0 with arrays := 2, lanterns := 2, code := List.replicate 4 (wordOf c), arrWords := 4
                          arr := List.replicate 4 (((arrWord c).map (·.2)).getD 0), stageBytes := 64 }
def img0 : Image := imgC (.arrNop ais 0)
def routI (g : Image) (k : RKind) (l : Lan) : Rout :=
  { q := 3, seq := 0, tenant := 0, r := { gramR.r with kind := k }, phase := .loaded, itersOpen := 1, img := some g
    lans := [l, { wait := .bar }], arrs := [{}, {}], lanMap := [0, 1], arrMap := [0, 1] }
def runI (g : Image) (k : RKind) (l : Lan) : State := up.setRouts [routI g k l]
def rout0 : RKind → Lan → Rout := routI img0
def running : RKind → Lan → State := runI img0

/-- The root routine with some field changed. -/
def changed (f : Rout → Rout) : State := up.setRouts [f (rout0 .root lan0)]

theorem wit_iterBound : let r := { rout0 .root lan0 with preempt := true }
    (changed (fun _ => r)).rfind 3 0 = some r ∧ up.live = true ∧ r.preemptReset = false ∧ r.phase = .loaded := by decide +kernel

/-- A routine that waits for its restart. -/
def stopped (pre : Bool) (n : Nat) : Rout := { rout0 .root lan0 with phase := .restart, preempted := pre, restarts := n, ctxEnt := some { entry with extent := 0x100000 } }
def restartS (pre : Bool) (n : Nat) : State := changed (fun _ => stopped pre n)

theorem wit_restart : ∀ p ∈ ([(true, 0), (false, 0), (false, 1000)] : List (Bool × Nat)), (restartS p.1 p.2).rfind 3 0 = some (stopped p.1 p.2) ∧
    (restartS p.1 p.2).live = true ∧ (stopped p.1 p.2).phase = .restart ∧ (restartS p.1 p.2).awake = true ∧ (restartS p.1 p.2).draining = false ∧
    (restartS p.1 p.2).testDrains = false ∧ (restartS p.1 p.2).waits (.rout 3 0) = false ∧ (restartS p.1 p.2).arrOf 0 = some 0 ∧
    (restartS p.1 p.2).lanOf 0 = some 0 ∧ (stopped p.1 p.2).ckptSeq = 0 ∧ (stopped p.1 p.2).img = some img0 ∧ (stopped p.1 p.2).ctxEnt.isSome = true ∧
    (stopped p.1 p.2).preempt = false := by
  decide +kernel

/-- What a restart comes to: what it lacks, and the code of a read that failed. -/
def restartTry (s : State) (r : Rout) : Option Want × Option Nat :=
  let x := (s.acting (.restart 3 0)).ckptRead r img0 { entry with extent := 0x100000 }
  (x.1.reads.want, errOf x.2)

/-- The first `n` beats of the context area have been read. -/
def ckptS (n : Nat) : State := (restartS true 0).setReads { got := (List.range n).map (fun b => (.restart 3 0, 128 + b)) }

theorem wit_restart_reads : restartTry (restartS true 0) (stopped true 0) = (none, none) ∧
    (let r := { stopped true 0 with ckptSeq := 1 }
     restartTry (ckptS 192) r = (none, none) ∧ restartTry ((ckptS 192).setMemErr [(128, 1)]) r = (none, some 0x0604) ∧
     (restartTry (ckptS 191) r).1 = some (.beats [319] 1 0) ∧
     ((ckptS 191).ask (.restart 3 0) (.beats [319] 1 0)).reads.res.length ≤ (ckptS 191).reads.res.length) := by decide +kernel

theorem wit_restart_reset : let r := { stopped false 0 with preempt := true, preemptReset := true }
    (changed (fun _ => r)).rfind 3 0 = some r ∧ r.phase = .restart ∧ (changed (fun _ => r)).waits (.rout 3 0) = false := by decide +kernel

theorem wit_restart_no_units : ((List.range 64).foldl (fun s n => s.put O.arrayState n 1) (restartS true 0)).arrOf 0 = none := by decide +kernel

theorem wit_restart_limits : (restartS false 0).obj O.routineRestartLimit ≤ 1000 ∧ 0 < (restartS false 0).obj O.routineRestartLimit := by decide +kernel

/-- The oldest promotion of a fall-back array, whose entries lie in staging from `0x4000` on, and the reads of them. -/
def promo31 : Promo := { slot := 31, group := 1, dtile := 0, num := 0, vals := [] }
def slowArr : LArr := { slow := true, pend := [promo31] }
def promoR (l : Nat) : Rout := { rout0 .root lan0 with arrs := [slowArr], stageEnt := some { entry with extent := l } }
def promoS (l : Nat) : State := changed (fun _ => promoR l)

theorem wit_promotion : (promoS 0).rfind 3 0 = some (promoR 0) ∧ (promoS 0).serviceLan = some 0 ∧ ((promoR 0).arrs.map (·.pend)) = [[promo31]] ∧
    (promoR 0).phase = .loaded ∧ (promoS 0).awake = true ∧ (promoS 0).lanFrozen = false ∧ (promoR 0).img = some img0 ∧
    (promoS 0).domeBusy (promoR 0) img0 0 0 1 = false ∧ promoSlot slowArr promo31 = 0 := by decide +kernel

/-- What the service comes to: what it lacks, and the code of a read that failed. -/
def promoTry (s : State) (l : Nat) : Option Want × Option Nat :=
  let x := (s.acting (.dome 3 0 0)).domeRead (promoR l) img0 0 0 1
  (x.1.reads.want, errOf x.2)

theorem wit_promotion_reads : promoTry (promoS 0) 0 = (none, none) ∧ ((promoTry (promoS 0x1000000) 0x1000000).1.isSome) = true ∧
    ((promoS 0x1000000).ask (.dome 3 0 0) (.beats [160] 1 0)).reads.res.length ≤ (promoS 0x1000000).reads.res.length ∧
    promoTry ((promoS 0x1000000).put (O.devwinSize 0) 0 0x1000000) 0x1000000 = (none, some 0x0603) := by decide +kernel

/-- An array whose queue holds two instructions, the same with a group open, and a routine that has it as array 1. -/
def arr1 : LArr := { queued := [.ins 0 0, .ins 0 1] }
def arrG : LArr := arr1.gopen gopen0
def bind0 (side src : Nat) : StreamBind :=
  { tid := 0, side := side, src := src, base := 2, kStride := 1, xStride := 1, runM1 := 0, kgroupsM1 := 3, kg0 := 0, lan := 0 }
def arrW : LArr := { arrG with fa := some { fset0 with side := 0 }, fb := some fset0, bindA := some (bind0 0 1), bindB := some (bind0 1 1) }
def arrT : LArr := { arrW with bindA := some { bind0 0 0 with tid := 9 } }
def arrE : LArr := { arrW with posA := 4 }
def arrP : LArr := { arrW with feedA := [List.replicate 2048 .zero], feedB := [List.replicate 128 .zero] }
def arrD : LArr := { arrG with bindD := some (bind0 2 0) }
def slowG : LArr := { arrD with slow := true, pend := [{ promo31 with group := 2 }, promo31, promo31] }
def arrI (g : Image) (a : LArr) : Rout := { routI g .root lan0 with arrs := [{}, a], stageEnt := some { entry with extent := 0x1000000 } }
def arrR (a : LArr) : Rout := arrI img0 a
def arrS (a : LArr) : State := up.setRouts [arrR a]

theorem wit_arrIssues (g : Image) (a : LArr) : ArrIssues (up.setRouts [arrI g a]) ais (arrI g a) g a 1 :=
  ⟨rfl, rfl, rfl, rfl, (by decide +kernel : (up.setRouts []).routRuns (rout0 .root lan0) = true), (by decide +kernel : up.arrFrozen = false),
    (by decide +kernel : up.serves 2 1 = true), rfl, rfl⟩

theorem wit_arrIdle (g : Image) (a : LArr) : ActIdle (up.setRouts [arrI g a]) (arrAct ais) :=
  actIdle_of rfl rfl

/-- Array instructions head a queue: the image's words are theirs. -/
theorem wit_arrNext : ∀ c ∈ ([.arrNop ais 0, .arrNop ais 1, .fSpireOp ais 5, .fSpireOp ais 15, .fset ais fset0, .fset ais { fset0 with side := 0 },
    .fset ais { fset0 with rsv := 1 }, .gopen ais gopen0, .gopen ais { gopen0 with rsv := 1 }, .pass ais pass0, .gdrain ais gdrain0,
    .gdrain ais { gdrain0 with form := 3 }] : List Instr), (imgC c).arrNext ais arr1 = some c := by decide +kernel

theorem wit_arr_queues : arrG.queued = arr1.queued ∧ arrP.queued = arr1.queued ∧ arrD.queued = arr1.queued ∧ (arrS arr1).arrNext ais ≠ some (.pass ais pass0) ∧
    (∀ a ∈ [arrW, arrT, arrE, slowG], a.queued = arr1.queued) := by
  decide +kernel

theorem wit_array_instructions : fsetFault up.variant arr1 fset0 = 0 ∧ fsetFault up.variant arr1 { fset0 with rsv := 1 } ≠ 0 ∧
    gopenFault up.variant arr1 gopen0 = 0 ∧ gopenFault up.variant arr1 { gopen0 with rsv := 1 } ≠ 0 ∧ passFault arrP pass0 = 0 ∧ passFault arr1 pass0 ≠ 0 ∧
    arrP.pend = [] ∧ arrP.fa.isSome = true ∧ arrP.fb.isSome = true ∧ gdrainFault arrD gdrain0 = 0 ∧ gdrainFault arr1 gdrain0 ≠ 0 ∧ (arrD.grp 1).isSome = true ∧
    arrD.bindD.isSome = true ∧ (arrR arrD).stageEnt.isSome = true := by decide +kernel

/-- What a PASS of array `a` comes to: what it lacks, and its operands: 0 there, 1 not yet, else the code of the fault. -/
def passTry (a : LArr) (tokens : Nat := 0) : Option Want × Nat :=
  let r := arrI (imgC (.pass ais pass0)) a
  let r := { r with r := { r.r with tokens := tokens, dim := 4096 } }
  let x := ((up.setRouts [r]).acting (arrAct ais)).fill r a 1 pass0
  (x.1.reads.want, match x.2 with | .ok (some _) => 0 | .ok none => 1 | .error c => c)

theorem wit_pass_operands : passTry arrP = (none, 0) ∧ passTry arrW 64 = (none, 1) ∧ passTry arrE = (none, 0x0301) ∧
    passTry arrT = (some (.walk 2 1 0 9), 0) ∧ arrP.full pass0 = false ∧ ({ slowG with fa := arrW.fa, fb := arrW.fb } : LArr).full pass0 = true ∧
    (∀ a ∈ [arrW, arrE, arrT], passFault a pass0 = 0 ∧ a.full pass0 = false) := by decide +kernel

theorem wit_pass_walk : let s := ((up.put O.tmtDirBase 0 0x10000).put O.tmtDirLog2 0 4).setRouts [arrI (imgC (.pass ais pass0)) arrT]
    (s.ask (arrAct ais) (.walk 2 1 0 9)).reads.res.length ≤ s.reads.res.length := by decide +kernel

theorem wit_gdrain_room : ((arrD.grp 1).map (fun g => ((arrD.drain g 0).length, (arrD.drain g 3).length))) = some (2048, 0) ∧
    4 * (2 + arrD.posD + 2048) ≤ 0x1000000 ∧ (up.setRouts [arrI (imgC (.gdrain ais gdrain0)) arrD]).overlaps (arrI (imgC (.gdrain ais gdrain0)) arrD) [(0x4000 + 4 * 2, 4 * 2048)] = false ∧
    (arrI (imgC (.gdrain ais gdrain0)) arrD).gathers = false ∧ (∀ p ∈ arrD.pend, p.group ≠ 1) ∧ (∃ p ∈ slowG.pend, p.group = 1) := by decide +kernel

/-- A GDRAIN on the fall-back path reads its group's entries from staging. -/
theorem wit_gdrain_reads : let s := up.setRouts [arrI (imgC (.gdrain ais gdrain0)) { slowG with pend := [] }]
    let r := arrI (imgC (.gdrain ais gdrain0)) { slowG with pend := [] }
    (((s.acting (arrAct ais)).domeRead r (imgC (.gdrain ais gdrain0)) 1 4 2).1.reads.want.isSome) = true ∧
    (errOf (((s.put (O.devwinSize 0) 0 0x2000000).acting (arrAct ais)).domeRead r (imgC (.gdrain ais gdrain0)) 1 4 2).2) = some 0x0603 ∧
    (((s.put (O.devwinSize 0) 0 0x2000000).acting (arrAct ais)).domeRead r (imgC (.gdrain ais gdrain0)) 1 4 2).1.reads.want = none := by decide +kernel

/-! Lantern instructions. -/

/-- The fields of `f` that an instruction uses, the others 0. -/
def vmask (u : Nat) (f : VF) : VF :=
  { d := if u &&& uD != 0 then f.d else 0, a := if u &&& uA != 0 then f.a else 0, b := if u &&& uB != 0 then f.b else 0
    c := if u &&& uC != 0 then f.c else 0, ms := if u &&& uMS != 0 then f.ms else 0, men := if u &&& uMEN != 0 then f.men else 0
    cnt := if u &&& uCNT != 0 then f.cnt else 0, sa := if u &&& uSA != 0 then f.sa else 0, f1 := if u &&& uF1 != 0 then f.f1 else 0
    f2 := if u &&& uF2 != 0 then f.f2 else 0, ovf := if u &&& uOVF != 0 then f.ovf else 0, rsv := 0 }
def smask (u : Nat) (f : SF) : SF :=
  { sd := if u &&& vD != 0 then f.sd else 0, sa := if u &&& vA != 0 then f.sa else 0, sb := if u &&& vB != 0 then f.sb else 0
    ms := if u &&& vMS != 0 then f.ms else 0, rsv := 0, imm := if u &&& vI != 0 then f.imm else 0 }

theorem wit_lanIdle (g : Image) (k : RKind) (l : Lan) : ActIdle (runI g k l) (lanAct iss) :=
  actIdle_of rfl rfl

theorem wit_lanIssues (g : Image) (k : RKind) (l : Lan) (h : l.wait = .run) : LanIssues (runI g k l) iss (routI g k l) g l 0 :=
  ⟨⟨rfl, rfl, rfl, rfl, (by decide +kernel : (up.setRouts []).routRuns (rout0 .root lan0) = true), (by decide +kernel : up.lanFrozen = false), h,
    (by decide +kernel : up.serves 5 0 = true), rfl, rfl⟩, wit_lanIdle g k l⟩

def fM : VF := vmask (uD ||| uA ||| uB ||| uC ||| uVec) vf
def fR : VF := vmask (uSA ||| uVec ||| uA) vf

/-- The instructions of the tables, each with the fields that it uses. -/
def lanCmds : List Instr :=
  intRows.map (fun row => row.cmd iss (vmask (uD ||| uVec ||| row.uses) vf)) ++ fpRows.map (fun row => row.cmd iss (vmask (uD ||| uVec ||| row.uses) vf)) ++
  maskRows.map (fun row => row.cmd iss (vmask (uD ||| row.uses) vf)) ++ scaRows.map (fun row => row.cmd iss (smask (vD ||| row.uses) sf)) ++
  scaFpRows.map (fun row => row.cmd iss (smask (vD ||| row.uses) sf)) ++ intRows.map (fun row => row.cmd iss { vf with rsv := 1 }) ++
  fpRows.map (fun row => row.cmd iss { vf with cnt := 4097 }) ++ scaRows.map (fun row => row.cmd iss { sf with rsv := 1 }) ++
  scaFpRows.map (fun row => row.cmd iss { sf with rsv := 1 }) ++
  [.many iss (vmask (uD ||| uA ||| uVec) vf), .vrsum iss fR, .vrmax iss fR, .vrmin iss fR, .vrisum iss fR, .vrcsum iss (vmask (uSA ||| uVec ||| uA ||| uB) vf),
   .vsel iss (vmask (uD ||| uA ||| uB ||| uMS ||| uCNT) vf), .vcvt iss (vmask (uD ||| uA ||| uVec ||| uF1 ||| uF2 ||| uOVF) vf),
   .vpadd iss (vmask (uD ||| uA ||| uB ||| uVec) { vf with a := 2, b := 6 }), .vld iss fM, .vst iss fM, .scmpm iss (smask (vA ||| vB ||| vMS ||| vI) sf),
   .setvl iss (smask vA sf), .setvli iss (smask vI sf), .lnNop iss (smask 0 sf), .rdp iss (smask (vD ||| vI) sf),
   .rdp iss (smask (vD ||| vA ||| vI) { sf with imm := 28 }), .modew iss (smask (vA ||| vI) { sf with imm := 15 }),
   .modew iss (smask (vA ||| vI) { sf with imm := 16 }), .endloop iss (smask 0 sf), .brk iss (smask vMS sf), .boundary iss (smask 0 sf), .bar iss (smask 0 sf),
   .sched iss (smask 0 sf), .lnRet iss (smask 0 sf), .pivf iss (smask vMS sf), .pivf iss (smask vMS { sf with ms := 2 }), .lnEnd iss (smask vA sf),
   .lnStop iss (smask 0 sf), .astr iss (smask vA sf), .aiss iss (smask (vA ||| vB ||| vI) { sf with imm := 1 }), .await iss (smask vI { sf with imm := 255 }),
   .await iss (smask vI { sf with imm := 1 }), .aflg iss (smask (vD ||| vI) { sf with imm := 1 }), .fLanternIllegal iss (0xFF * 2 ^ 56)]

/-- Each of them is what the Lantern has next in a program of its word, and is well formed. -/
theorem wit_lanNext : ∀ c ∈ lanCmds, (imgC c).lanNext iss lan0 = some c ∧ c.wf = true ∧ (lanWord c).isSome = true := by decide +kernel

theorem wit_lanNext_at (g : Image) (l : Lan) (h : l.pc = 0) : g.lanNext iss l = g.lanNext iss lan0 := by unfold Image.lanNext; rw [h]; rfl

theorem wit_not_next : lanWord (.vadd iss vf) ≠ none ∧ (running .root lan0).lanNext iss ≠ some (.vadd iss { vf with d := 5 }) ∧ (2 ^ 64 - 1 : Nat) < 2 ^ 64 ∧
    (5 * 2 ^ 124 - 1 : Nat) < 5 * 2 ^ 124 := by decide +kernel

theorem wit_vector_fields : intRows.all (fun row => (vmask (uD ||| uVec ||| row.uses) vf).ok (uD ||| uVec ||| row.uses)) = true ∧
    fpRows.all (fun row => (vmask (uD ||| uVec ||| row.uses) vf).ok (uD ||| uVec ||| row.uses)) = true ∧
    maskRows.all (fun row => (vmask (uD ||| row.uses) vf).ok (uD ||| row.uses) && row.legal (vmask (uD ||| row.uses) vf)) = true ∧
    vf.count lan0.vl = some 3 ∧ ({ vf with cnt := 4096 } : VF).count lan0.vl = some 4096 ∧ ({ vf with cnt := 0x1FFF } : VF).count lan0.vl = some lan0.vl := by
  decide +kernel

theorem wit_other_vector_fields : ∀ u ∈ [uD ||| uA ||| uVec, uSA ||| uVec ||| uA, uSA ||| uVec ||| uA ||| uB, uD ||| uA ||| uB ||| uMS ||| uCNT,
    uD ||| uA ||| uVec ||| uF1 ||| uF2 ||| uOVF, uD ||| uA ||| uB ||| uVec, uD ||| uA ||| uB ||| uC ||| uVec],
    (vmask u vf).ok u = true ∧ (vmask u vf).d < 8 ∧ (vmask u vf).a < 8 ∧ (vmask u { vf with a := 2, b := 6 }).ok u = true ∧
    (vmask u { vf with a := 2, b := 6 }).d % 2 = 0 ∧ (vmask u { vf with a := 2, b := 6 }).a % 2 = 0 ∧ (vmask u { vf with a := 2, b := 6 }).b % 2 = 0 ∧
    (Fmt.ofCode 1).isSome = true ∧ (Fmt.ofCode 2).isSome = true := by decide +kernel

theorem wit_active : lan0.active vf 0 = true ∧ lan0.active vf 1 = false ∧ lan0.active vf 2 = true := by decide +kernel

theorem wit_no_elements : ({ vf with cnt := 0 } : VF).count lan0.vl = some 0 ∧ ({ vf with cnt := 0x1FFF } : VF).count 0 = some 0 ∧
    ({ vf with cnt := 4097 } : VF).count lan0.vl = none ∧ 4096 < ({ vf with cnt := 8190 } : VF).cnt ∧ ({ vf with cnt := 8190 } : VF).cnt ≠ 0x1FFF := by decide +kernel

theorem wit_scalar_fields : scaRows.all (fun row => (smask (vD ||| row.uses) sf).ok (vD ||| row.uses)) = true ∧
    scaFpRows.all (fun row => (smask (vD ||| row.uses) sf).ok (vD ||| row.uses)) = true ∧
    (∀ u ∈ [vA ||| vB ||| vMS ||| vI, vA, vI, 0, vMS, vD ||| vI, vA ||| vI, vA ||| vB ||| vI, vD ||| vA ||| vI], (smask u sf).ok u = true) ∧
    lan0.sget 2 ≤ 4096 ∧ (smask vI { sf with imm := 4096 }).imm ≤ 4096 ∧ ((rout0 .root lan0).param img0 0 9).isSome = true := by decide +kernel

theorem wit_rdp_samples : let r := { rout0 .root lan0 with samples := [{ tid := 5, init := true, bank := 1, span := 4096, step := 0, addr := 0 }] }
    (smask (vD ||| vA ||| vI) { sf with imm := 28 }).imm % 256 = 28 ∧
    (r.samples.find? (fun y => y.tid == lan0.sget 2 % 2 ^ 32 && lan0.sget 2 % 2 ^ 32 != 0)).isSome = true := by decide +kernel

theorem wit_modew : 16 ≤ (smask (vA ||| vI) { sf with imm := 16 }).imm ∧ (1 : Nat).testBit 0 = true ∧ (lan0.sput 2 3).sget 2 % 4 = 3 ∧
    (8 : Nat).testBit 3 = true ∧ 10 ≤ (lan0.sput 2 (10 * 2 ^ 8)).sget 2 / 2 ^ 8 % 32 ∧
    ¬(16 ≤ 15 ∨ ((15 : Nat).testBit 0 = true ∧ lan0.sget 2 % 4 = 3) ∨ ((15 : Nat).testBit 3 = true ∧ 10 ≤ lan0.sget 2 / 2 ^ 8 % 32)) := by decide +kernel

/-- A loop of three instructions, and levels of it. -/
def imgB (c : Instr) : Image := { img0 with code := [wordOf c, 0, wordOf c, 0x55 * 2 ^ 56, 0] }
def imgL : Image := imgB (.loop iss (smask (vA ||| vI) { sf with imm := 3 }))
def lvl (c e st : Nat) : LoopLvl := { creg := c, endw := e, start := st }

theorem wit_loop_words : let loop := smask (vA ||| vI) { sf with imm := 3 }
    let brk := smask vMS sf
    imgL.lanNext iss lan0 = some (.loop iss loop) ∧ loop.imm = 3 ∧ loop.ok (vA ||| vI) = true ∧
    (imgB (.loop iss { loop with imm := 1 })).lanNext iss lan0 = some (.loop iss { loop with imm := 1 }) ∧
    (imgB (.brk iss brk)).lanNext iss lan0 = some (.brk iss brk) ∧ (imgB (.brk iss brk)).lanNext iss { lan0 with pc := 2 } = some (.brk iss brk) ∧
    lastBefore (imgB (.brk iss brk)).code 3 = some 2 := by decide +kernel

theorem wit_loops : lastBefore imgL.code 3 = some 2 ∧ ({ lan0 with pc := 2, loops := [lvl 2 3 1] } : Lan).sget 2 ≠ 1 ∧ (lan0.sput 2 1).sget 2 = 1 ∧
    ¬(lastBefore imgL.code 3 = some 0 ∧ 1 ≤ 0) ∧ (2 ≤ 3 % 2 ^ 24 ∧ nth 0 imgL.code (0 + 3) / 2 ^ 56 = 0x55 ∧ lan0.loops.length ≤ 3) ∧ lan0.sget 2 ≠ 0 ∧
    (lan0.sput 2 0).sget 2 = 0 ∧ ¬(2 ≤ 1) ∧ lan0.loops = [] ∧ lan0.mbit 1 0 = true ∧ lan0.mbit 2 0 = false := by decide +kernel

theorem wit_waits : 0 % 16 ∈ [0, 4, 5, 7] ∧ lan0.sget 2 % 16 ∈ [0, 4, 5, 7] ∧ (lan0.sput 2 9).sget 2 % 16 = 9 ∧ (255 : Nat) % 256 = 255 ∧ 1 < img0.arrays ∧
    lan0.loops = [] ∧ lan0.inHandler = false ∧ ({ lan0 with inHandler := true } : Lan).inHandler = true ∧
    (lan0.sput 3 2).sget 3 ≠ 0 ∧ ((lan0.sput 3 2).sput 2 1).sget 2 + ((lan0.sput 3 2).sput 2 1).sget 3 ≤ img0.arrWords := by decide +kernel

theorem wit_stop : let c : Instr := .lnStop { iss with l := 1 } (smask 0 sf)
    LanIssues (up.setRouts [{ routI (imgC c) .root lan0 with lans := [{ wait := .bar }, lan0] }]) { iss with l := 1 }
      { routI (imgC c) .root lan0 with lans := [{ wait := .bar }, lan0] } (imgC c) lan0 1 ∧ (imgC c).lanNext { iss with l := 1 } lan0 = some c :=
  ⟨⟨⟨by decide +kernel, by decide +kernel, by decide +kernel, by decide +kernel, by decide +kernel, by decide +kernel, by decide, by decide +kernel, by decide +kernel,
    by decide⟩, actIdle_of rfl rfl⟩, by decide +kernel⟩

theorem wit_barrier : let r := { rout0 .root lan0 with lans := [{ wait := .bar }, { wait := .stopped }] }
    (changed (fun _ => r)).rfind 3 0 = some r ∧ r.img = some img0 ∧ r.phase = .loaded ∧ r.running ≠ [] ∧ (∀ l ∈ r.lans, l.wait = .stopped ∨ l.wait = .bar) := by
  decide +kernel

/-- The registers that bind array 1's side D, its side B from the capture channel, and its side A from tensor 9. -/
def binds (x : Nat) : Lan := (((lan0.sput 2 x).sput 3 (2 ^ 40 - 1)).sput 4 (3 + 5 * 2 ^ 32)).sput 5 (1048575 + 31 * 2 ^ 40)

theorem wit_bindings : (1 : Nat) < img0.arrays ∧ (binds (1 + 2 * 2 ^ 30)).sget 2 = 1 + 2 * 2 ^ 30 ∧ (binds (1 + 2 ^ 29 + 2 ^ 30)).sget 2 = 1 + 2 ^ 29 + 1 * 2 ^ 30 ∧
    (binds (1 + 9 * 2 ^ 32)).sget 2 = 1 + 0 * 2 ^ 30 + 9 * 2 ^ 32 ∧ (binds 0).sget 3 = 2 ^ 40 - 1 ∧ (2 ^ 40 - 1 : Nat) < 2 ^ 40 ∧
    (binds 0).sget 5 = 1048575 + 0 * 2 ^ 20 + 31 * 2 ^ 40 ∧ (rout0 .gram lan0).r.kind = .gram ∧
    ((rout0 .root lan0).arrs[1]?).bind (fun a => lastFset img0 a 0) = none ∧ (changed id).arrOf 1 = some 1 := by decide +kernel

/-- The state in which ASTR binds tensor 9. -/
def bindS (g : Image) : State := (runI g .root (binds (1 + 9 * 2 ^ 32))).setTwigs [{ cached with kind := 2, unit := 1 }]

theorem wit_binding_resolves : let g := imgC (.astr iss (smask vA sf))
    LanReady (bindS g) iss (routI g .root (binds (1 + 9 * 2 ^ 32))) g (binds (1 + 9 * 2 ^ 32)) 0 ∧ g.lanNext iss (binds (1 + 9 * 2 ^ 32)) = some (.astr iss (smask vA sf)) ∧
    (let x := ((bindS g).acting (lanAct iss)).resolve 2 (nth 1 (routI g .root lan0).arrMap 1) 0 9
     (x.1.reads.want, (okOf x.2).isSome)) = (none, true) ∧
    (let x := (((bindS g).setTwigs []).acting (lanAct iss)).resolve 2 (nth 1 (routI g .root lan0).arrMap 1) 0 9
     x.1.reads.want) = some (.walk 2 1 0 9) :=
  ⟨⟨rfl, rfl, rfl, rfl, by decide +kernel, by decide +kernel, rfl, by decide +kernel, rfl, rfl⟩, by decide +kernel, by decide +kernel, by decide +kernel⟩

theorem wit_pivots : let g := imgC (.pivf iss (smask vMS sf))
    let r := { routI g .solve lan0 with inSched := true, lam := 0x3F800000, schedPcs := [2, 3] }
    (changed (fun _ => r)).rfind 3 0 = some r ∧ (changed (fun _ => r)).routRuns r = true ∧ (changed (fun _ => r)).lanOf 0 = some 0 ∧
    (changed (fun _ => r)).lanNext iss = some (.pivf iss (smask vMS sf)) ∧ r.r.kind = .solve ∧ r.inSched = true ∧ lan0.mbit 1 0 = true ∧ lan0.mbit 2 0 = false ∧ r.lam ≠ 0 ∧ r.retry < 4 ∧
    4 ≤ ({ r with retry := 4 } : Rout).retry := by decide +kernel

/-- The routine of a SOLVE whose schedule's handler executes on Lantern 0. -/
def solveR (g : Image) : Rout := { routI g .solve lan0 with inSched := true, lam := 0x3F800000, schedPcs := [2, 3] }

theorem wit_pivot_issues (g : Image) : LanIssues (up.setRouts [solveR g]) iss (solveR g) g lan0 0 :=
  ⟨⟨rfl, rfl, rfl, rfl, (by decide +kernel : (up.setRouts []).routRuns (rout0 .root lan0) = true), (by decide +kernel : up.lanFrozen = false), rfl,
    (by decide +kernel : up.serves 5 0 = true), rfl, rfl⟩, actIdle_of rfl rfl⟩

/-- In a FACTOR step a square root of 1 meets a SOLVE_PIVOT_MIN of 2 and fails; one of 0 or less; and one of 1 under a SOLVE_PIVOT_MIN of 0 does not. -/
theorem wit_pivot_fails : let r := { solveR img0 with sched := [{ kind := 1, i := 0, j := 0, kLo := 0, kHi := 0, part := 0, partsM1 := 0, larr := 0 }] }
    let l := { lan0 with inHandler := true }
    factors r l = true ∧ factors r lan0 = false ∧ pivotFails 0x40000000 (l.vget 1 0) = true ∧ pivotFails 0 (l.vget 1 0) = false ∧ l.active vf 0 = true ∧
    pivotFails 0 0 = true ∧ pivotFails 0 (l.sget 2 % 2 ^ 32) = false ∧ pivotFails 0x40000000 (l.sget 2 % 2 ^ 32) = true := by decide +kernel

theorem wit_illegal : (imgC (.fLanternIllegal iss (0xFF * 2 ^ 56))).code[lan0.pc]? = some (0xFF * 2 ^ 56) ∧ lanOpcode (0xFF * 2 ^ 56 / 2 ^ 56 % 256) = false ∧ ({ vf with rsv := 1 } : VF).ok (uD ||| uVec ||| uA) = false ∧
    ({ sf with rsv := 1 } : SF).ok (vD ||| vA) = false ∧ ((running .root lan0).rfind 3 0).map (·.ended) = some false := by decide +kernel

/-- A Lantern that names tensor 9 in S1, the index 2 in S2 and the stride 1 in S3, with the element format `fm` in MODE. -/
def lanM (fm : W32) : Lan := ((({ lan0 with mode := fm } : Lan).sput 1 9).sput 2 2).sput 3 1
def entM : TmEntry := { entry with rows := 4, rowLen := 8, rowStride := 8 }
def memS (c : Instr) : State := ((runI (imgC c) .root (lanM 0)).setTwigs [{ cached with ent := entM }]).setMem [(0x4008, 5), (0x400A, 9), (0x4010, 4)]

theorem wit_mem_issues (c : Instr) : LanIssues (memS c) iss (routI (imgC c) .root (lanM 0)) (imgC c) (lanM 0) 0 :=
  ⟨⟨rfl, rfl, rfl, rfl, (by decide +kernel : (up.setRouts []).routRuns (rout0 .root lan0) = true), (by decide +kernel : up.lanFrozen = false), rfl,
    (by decide +kernel : up.serves 5 0 = true), rfl, rfl⟩, actIdle_of rfl rfl⟩

theorem wit_reaches (c : Instr) (hc : c = .vld iss fM ∨ c = .vst iss fM) :
    (imgC c).lanNext iss (lanM 0) = some c ∧ ∃ s1, Reaches (memS c) s1 iss (routI (imgC c) .root (lanM 0)) (lanM 0) fM 3 entM :=
  ⟨by rcases hc with rfl | rfl <;> decide +kernel,
  have h : ∃ s1, ((memS c).acting (lanAct iss)).wres 0 9 = (s1, .ok entM) := ok_pair (by rcases hc with rfl | rfl <;> decide +kernel)
  h.elim fun s1 h => ⟨s1, ⟨by decide +kernel, by decide +kernel, by decide +kernel, by decide⟩, h, fun x => absurd x (by decide +kernel),
    fun x hx => by
      have g : ((lanM 0).accessIdx fM 3).all (fun x => (x.2.map (fun k => entM.holds k (fmtNib (lanM 0).mfmt))) == some true) = true := by decide +kernel
      have g1 := List.all_eq_true.mp g x hx
      obtain ⟨e, k⟩ := x
      cases k with
      | none => cases g1
      | some k => exact ⟨k, rfl, by simpa using g1⟩⟩⟩

/-- The access has read its one beat, or not. -/
def memG : State := (memS (.vld iss fM)).setReads { got := [(lanAct iss, 128)] }

theorem wit_access_beats : LanReady memG iss (routI (imgC (.vld iss fM)) .root (lanM 0)) (imgC (.vld iss fM)) (lanM 0) 0 ∧
    (let cp := memG.listCopy (routI (imgC (.vld iss fM)) .root (lanM 0)) 9 entM
     (cp.2, (beatsOf 0x4008 4 ++ beatsOf 0x4010 4).filter (fun b => !(memG.acting (lanAct iss)).hasBeat b),
      (beatsOf 0x4008 4).filter (fun b => !((memS (.vld iss fM)).acting (lanAct iss)).hasBeat b))) = ((0, 0), [], [128]) ∧ memG.rangeBad 0x4008 4 = 0 ∧
    (∀ x ∈ [(0x4008, 4), (0x4010, 4)], memG.inWindow x.1 x.2 = false) :=
  ⟨⟨rfl, rfl, rfl, rfl, (by decide +kernel : (up.setRouts []).routRuns (rout0 .root lan0) = true), (by decide +kernel : up.lanFrozen = false), rfl,
    (by decide +kernel : up.serves 5 0 = true), rfl, rfl⟩, by decide +kernel, by decide +kernel, by decide +kernel⟩

theorem wit_access_waits : (routI (imgC (.vst iss fM)) .gram (lanM 0)).gathers = true ∧ (routI (imgC (.vst iss fM)) .root (lanM 0)).gathers = false ∧
    (let s := ((up.put O.tmtDirBase 0 0x10000).put O.tmtDirLog2 0 4).setRouts [routI (imgC (.vst iss fM)) .root (lanM 0)]
     ((s.acting (lanAct iss)).wres 0 9).1.reads.want = some (.walk 8 0 0 9) ∧
     (s.ask (lanAct iss) (.walk 8 0 0 9)).reads.res.length ≤ s.reads.res.length) := by decide +kernel

theorem wit_access_free : ∀ c ∈ [.vld iss fM, .vst iss fM], (memS c).overlaps (routI (imgC c) .root (lanM 0)) [(0x4008, 4), (0x4010, 4)] = false ∧ (memS c).rangeBad 0x4008 4 = 0 ∧
    meets 0x4008 4 (rout0 .root (lanM 0)).guarded = false ∧ (lanM 0).sget 1 % 2 ^ 32 ≠ (rout0 .root (lanM 0)).r.imageTid ∧
    (lanM 0).sget 1 % 2 ^ 32 ≠ (rout0 .root (lanM 0)).r.ctxTid ∧ entM.base ≠ (rout0 .root (lanM 0)).imgBase ∧ (rout0 .root (lanM 0)).ctxEnt = none := by
  decide +kernel

/-! The Belfry. -/

/-- Belfry port 5 locked and trained, changed by `f`. -/
def ported5 (f : BPort → BPort) : State := up.setBports [(5, f { lock := true, trained := true })]

theorem wit_taken : Taken (ported5 id) 5 (frm 9) ∧ Taken ((ported5 (fun b => { b with trained := false, lostLock := true })).put O.bportState 5 3) 5 (frm 1) ∧
    Taken (ported5 id) 5 { frm 12 with rsv := 1 } := by
  refine ⟨?_, ?_, ?_⟩ <;> exact ⟨by decide, by decide +kernel, by decide +kernel, by decide +kernel, by decide +kernel⟩

theorem wit_link_frames : ∀ t ∈ [1, 2, 3, 4, 5, 6, 7, 8, 9], (frm t).illegal = false ∧ (frm t).ftype = t := by decide +kernel

/-- A calibration exchange under way on port 5, alone and as a member whose time parent answers. -/
def calibrating (m st : Bool) (t : Nat) : State :=
  let s := (ported5 (fun b => { b with calT1 := some 77, stepped := st })).setTb (t * 2 ^ 32)
  if m then s else ((s.put O.bgMaster 0 10).put O.routePrimary 9 5).put O.bportState 5 0
def calF : Frame := { frm 3 with payload := [77], arg0 := 20000, arg1 := 30000, pwords := 1 }

theorem wit_calibration : (((calibrating true false 1000).linkTake 5 calF).bport 5).calT1 = some 77 ∧ calF.payload.head? = some 77 ∧ (frm 3).payload.head? ≠ some 77 ∧
    ((calibrating true false 1000).linkTake 5 calF).timePort ≠ some 5 ∧ ((calibrating false true 1000000).linkTake 5 calF).timePort = some 5 ∧
    ((calibrating false false 1000).linkTake 5 calF).get O.bportAsym 5 = 0 ∧ (((calibrating false false 1000).linkTake 5 calF).bports.any (fun x => x.2.stepped)) = false ∧
    (((calibrating false true 1000).linkTake 5 calF).bports.any (fun x => x.2.stepped)) = true := by decide +kernel

theorem wit_calibration_offsets : let th := fun (n : Nat) => (sext 64 (20000 + 2 ^ 64 - 77) + sext 64 (30000 + 2 ^ 64 - ((calibrating false true n).linkTake 5 calF).stamp)) / 2
    (th 1).natAbs ≤ 98304 ∧ 98304 < (th 1000000).natAbs := by decide +kernel

theorem wit_forward : (frm 9).dst = ((ported5 id).linkTake 5 (frm 9)).group.self ∧ (44 : Nat) ≠ (ported5 id).group.self ∧ (frm 9).hops < 15 ∧
    ((((ported5 id).put O.routePrimary 44 8).put O.bportState 8 0).linkTake 5 { frm 9 with dst := 44 }).route 44 = some 8 ∧
    ((ported5 id).linkTake 5 { frm 9 with dst := 44 }).route 44 = none ∧ ({ frm 9 with hops := 15 } : Frame).hops = 15 := by decide +kernel

/-- Frames not acknowledged on port 5. -/
def sent (n : Nat) (again : Bool) : SentFrame := { lseq := n, frame := frm 4, again := again }

theorem wit_acknowledged : let s := ported5 (fun b => { b with unacked := [sent 3 false, sent 4 false, sent 5 false] })
    (s.bport 5).unacked = [sent 3 false] ++ sent 4 false :: [sent 5 false] ∧ (sent 4 false).lseq = ({ frm 9 with ack := 4 } : Frame).ack ∧
    (s.bport 5).waiting = [] ∧ ∀ y ∈ [sent 3 false], y.lseq ≠ 4 ∧ y.again = false := by decide +kernel

theorem wit_link_events : Frame.ofWords [] = none ∧ (Frame.ofWords (Frame.words { frm 12 with rsv := 1 })) = some { frm 12 with rsv := 1 } ∧
    ({ frm 12 with rsv := 1 } : Frame).illegal = true ∧
    ((ported5 (fun b => { b with unacked := [sent 3 true] })).bport 5).unacked = [sent 3 true] ∧ up.live = true ∧
    ((ported5 id).put O.bportState 5 0).get O.bportState 5 = 0 ∧ ((ported5 (fun b => { b with lock := false })).bport 5).lock = false ∧ 3 ≤ up.phase ∧
    ((ported5 id).put O.bportState 5 3).get O.bportState 5 = 3 ∧ ((ported5 id).put O.bportState 5 2).get O.bportState 5 ≠ 3 ∧
    ((ported5 (fun b => { b with lostLock := true })).bport 5).lostLock = true := by decide +kernel

/-- A group of four whose rank `k` this instance is, with a bell open. -/
def grouped (k : Nat) (b : BellSt) : State := (((ported5 id).setGroup { self := k, size := 4 }).setObj O.bgRank k).setBell b
def arriveF (n : Nat) : Frame := { frm 4 with src := 1, arg0 := n, arg1 := 500, payload := [5], pwords := 1 }
def forming4 (k : Nat) : State := (((phase 3).setBports [(5, { lock := true, trained := true })]).setGroup { self := k, size := 4 }).setObj O.bgRank k

theorem wit_arrive : ((grouped 0 .open).linkTake 5 (arriveF 0)).group.base ≤ 1 ∧ 1 ∈ childrenOf (grouped 0 .open).group.live 0 ∧ (grouped 0 .open).group.arrivals = [] ∧
    (arriveF 0).arg0 = (grouped 0 .open).bellNo ∧ (0 : Nat) ≠ allOnes ∧ (grouped 0 .open).bell ≠ .none ∧ (arriveF allOnes).arg0 = allOnes ∧
    ((forming4 0).linkTake 5 (arriveF allOnes)).grouping = true ∧ (forming4 0).isMaster = true ∧ (forming4 0).childrenIn = false ∧
    ((forming4 0).updGroup (fun g => { g with arrivals := [{ rank := 1, ready := 500, low := 0, count := 5 }, { rank := 2, ready := 0, low := 0, count := 0 }] })).childrenIn
      = true := by decide +kernel

theorem wit_release_frame : let f := { frm 5 with arg0 := 0, arg1 := 500 }
    let s := ((grouped 1 .formed).linkTake 5 { f with dst := 1 })
    s.isMaster = false ∧ 1 < s.group.size ∧ f.arg0 = s.bellNo ∧ f.arg0 ≠ allOnes ∧ s.bell = .formed ∧ s.tb / 2 ^ 32 ≤ nearStamp (s.tb / 2 ^ 32) f.arg1 := by decide +kernel

/-- A reduction of one element in the group of four, at rank 0 and at rank 1. -/
def upF : Frame := { frm 6 with src := 1, arg0 := 5 + 2 ^ 32, arg1 := 0, payload := [0x3F800000], pwords := 1 }
def ctx0 (k : Nat) (own : Option (Nat × Nat)) : RedCtx :=
  { group := 0, tag := 5, owner := own, rank := k, size := 4, grp := (0, 4, 1), count := 1, sent := true }
def inRed (k : Nat) : State :=
  ((grouped k .open).updQueue 3 (fun x => { x with infl := [{ drt (dsc 0x20 (.reduce (redD 1))) with phase := .running, sent := true, grp := (0, 4, 1) }] })).setReds [ctx0 k (some (3, 0))]

/-- Sixty-four contexts are in use. -/
def fullReds : State := (grouped 0 .open).setReds ((List.range 64).map (fun n => { ctx0 0 none with tag := 100 + n }))

theorem wit_reduceUp : (fullReds.linkTake 5 upF).rxCredit = 0 ∧ (fullReds.linkTake 5 upF).findRed 0 5 = none ∧ ((grouped 0 .open).linkTake 5 upF).findRed 0 5 = none ∧ (grpRank (((grouped 0 .open).linkTake 5 upF).redGroup 0) 1) = some 1 ∧
    ((grouped 0 .open).linkTake 5 upF).rxCredit ≠ 0 ∧ ((inRed 0).linkTake 5 upF).findRed 0 5 = some (ctx0 0 (some (3, 0))) ∧ grpRank (ctx0 0 none).grp 1 = some 1 := by
  decide +kernel

theorem wit_reduceDown : let f := { frm 7 with arg0 := 5 + 2 ^ 32, arg1 := 0, payload := [0x3F800000], pwords := 1, src := 0, dst := 1 }
    ((inRed 1).linkTake 5 f).findRed 0 5 = some (ctx0 1 (some (3, 0))) ∧ (ctx0 1 (some (3, 0))).owner = some (3, 0) ∧
    ((inRed 1).linkTake 5 f).redOf (some (3, 0)) = some (redD 1) ∧ (ctx0 1 none).sent = true ∧ (ctx0 1 none).result = none ∧ (f.arg1.testBit 63) = false ∧
    ({ f with arg1 := 2 ^ 63 }.arg1.testBit 63) = true ∧ ((inRed 1).linkTake 5 f).route 3 = none ∧ { ctx0 1 none with level := 2 }.rank + 2 < 4 := by decide +kernel

theorem wit_lost : (2 : Nat) < (grouped 0 .open).group.size ∧ ¬(2 ∈ (grouped 0 .open).group.lost) ∧ ¬(2 ∈ (grouped 0 .open).group.lostNext) ∧
    ¬(2 ∈ (grouped 0 .open).group.told) ∧ 2 ≠ (grouped 0 .open).ownRank ∧ ((grouped 0 .open).loseRank 2).isMaster = true ∧ ((grouped 1 .open).loseRank 2).isMaster = false ∧
    ((grouped 1 .open).loseRank 2).group.up.head? = some 0 ∧ (grouped 0 .open).isMaster = true ∧ (grouped 0 .open).live = true ∧ (grouped 0 .open).bell ≠ .none ∧
    (grouped 1 .open).isMaster = false ∧ (grouped 1 .open).group.heardSent = false ∧ parentOf (grouped 1 .open).group.live 1 = some 0 ∧
    ((grouped 1 .open).updGroup (fun g => { g with heardSent := true })).group.heardSent = true := by decide +kernel

/-! Values of the spec's worked examples. -/

/-- R37: 300, 460 and 470 to E4M3 and E5M2 under RNE, and 300 under SR. -/
theorem test_convert_rounding : ((cvFloat .e4m3 .rne 0 true false (v32 0x43960000)).code, (cvFloat .e5m2 .rne 0 true false (v32 0x43960000)).code,
    (cvFloat .e4m3 .sr 0xB0000000 true false (v32 0x43960000)).code, (cvFloat .e4m3 .sr 0x90000000 true false (v32 0x43960000)).code,
    (cvFloat .e4m3 .rne 0 true false (v32 0x43E60000)).code) = (0x79, 0x5D, 0x7A, 0x79, 0x7E) := by decide +kernel

/-- R31: 470 overflows E4M3 under RNE, and does not under RTZ; strict mode raises OVERFLOW and INEXACT, or INEXACT alone. -/
theorem test_convert_overflow : ((cvFloat .e4m3 .rne 0 true true (v32 0x43EB0000)), (cvFloat .e4m3 .rne 0 false true (v32 0x43EB0000)).code,
    (cvFloat .e4m3 .rtz 0 false true (v32 0x43EB0000)).code, (cvFloat .e4m3 .rtz 0 false true (v32 0x43EB0000)).flags, (cvFloat .e5m2 .rne 0 true true (v32 0x43EB0000)).code) |>
    fun x => (x.1.code, x.1.flags, x.2) = (0x7E, 5, 0x7F, 0x7E, 1, 0x5F) := by decide +kernel

/-- R40 to R42: the K-group of the worked example after R43, and its four groups in one window (R121). -/
theorem test_kgroup : kgroup [Val.mul (v32 0x40400000) (v32 0x40000000), .zero, Val.mul (v32 0x3FC00000) (v32 0xBE800000),
    Val.mul (v32 0x30800000) (v32 0x3F800000), Val.mul (v32 0x3F810000) (v32 0x3F810000)] = .val 222824448 2 := by decide +kernel

theorem test_window : let a := ((({ empty := true } : AccCell).add (.val 222824448 2)).add (.val 169869312 5)).add (.val 161480704 (-2))
    (a.acc, a.ew, (a.add (.val (-134348800) 0)).acc) = (24290, 5, 23778) := by decide +kernel

/-- R75: 123,456 and -123,456 requantised to INT8, RNE. -/
theorem test_requant : let c := { convM with dstFmt := 5, zeroPoint := 3, op := .quant }
    ((requantCv c 1518500250 41 0 123456).code, (requantCv c 1518500250 41 0 (-123456)).code) = (88, 256 - 82) := by decide +kernel

/-- The example after R193: five values under VRSUM and VRCSUM. -/
theorem test_trees : let xs := [0x4B800000, 0x3F800000, 0x3F800000, 0x3F800000, 0xCB800000]
    (treeSum xs, tree pairAdd (xs.map (fun x => some (x, 0)))) = (0x40000000, some (0x40400000, 0)) := by decide +kernel

/-- The example of R61: eight values in one INT8 block, with an outlier above 64. -/
theorem test_block : let xs := [0x3F800000, 0x3F400000, 0xBF000000, 0x3D000000, 0x3B03126F, 0x44000000, 0xBE800000, 0]
    let c := { convM with op := .quant, dstFmt := 5, rowLen := 8, scaleSrc := 3, blockSize := 8, escEn := true, escThreshold := 0x42800000 }
    let env : ConvEnv := { src := fun _ k => nth 0 xs k, idx := fun _ k => k, scaleRd := fun _ => 0, sideRd := fun _ => 0, effMax := 0, expLo := 0 }
    (convTile c env 0).elts.map (fun e => (e.cv.code, e.out)) =
      [(0x40, false), (0x30, false), (0xE0, false), (2, false), (0, false), (0x80, true), (0xF0, false), (0, false)] := by decide +kernel

/-- R181: the example after R183, and R239: the dword at offset 48 of a QUANT. -/
theorem test_descriptor_fields : let raw := 2 + 0x08001200 * 2 ^ 384
    ((convOf .quant raw).rowLen, (convOf .quant raw).rnd, (convOf .quant raw).ovf, (convOf .quant raw).strict, (convOf .quant raw).scaleSrc) = (4096, 0, true, false, 1) := by
  decide +kernel

/-- The example after R331: d is 13 cycles and the offset 399.5, in units of 2^-16 cycle; the time base steps forward. -/
theorem test_calibration : let s := (((ported5 (fun b => { b with calT1 := some (1000000 * 65536) })).put O.bgMaster 0 10).put O.routePrimary 9 5).put O.bportState 5 0
    let s := s.setTb (65543454720 * 2 ^ 32)
    let f := { frm 3 with payload := [1000000 * 65536], arg0 := 65563033600, arg1 := 65568784384, pwords := 1 }
    let t := after (.calRsp 5 f) s
    (s.stamp, t.get O.bportDelay 5, t.obj O.timeOffset, (t.bport 5).stepped) = (65543454720, 13 * 65536, 26181632, true) := by decide +kernel

/-- The example after R183, a SADDI and a PASS, word by word from Tables 7.3, 7.4 and 5.3; and the opcodes of Tables 7.5 and 7.6. -/
theorem test_words : lanInstr iss 0x03204435FFF80000 =
      .vfma iss { d := 4, a := 1, b := 2, c := 3, ms := 2, men := 1, cnt := 0x1FFF, sa := 0, f1 := 0, f2 := 0, ovf := 0, rsv := 0 } ∧
    lanInstr iss 0x4212000000000005 = .saddi iss { sd := 1, sa := 2, sb := 0, ms := 0, rsv := 0, imm := 5 } ∧
    arrInstr ais 0x20440380000000040000000000000000 =
      .pass ais { group := 1, slot := 2, dtile := 3, last := true, ahold := false, kg := 4, rsv := 0 } ∧
    (List.range 256).all (fun o => lanOpcode o == ((vecInstr iss vf o).isSome || (scaInstr iss sf o).isSome)) = true := by decide +kernel

/-- A command that the program does not hold at PC changes nothing. -/
theorem test_not_next : after (.sli iss sf) (running .root lan0) = running .root lan0 := by decide +kernel

/-! Single commands. -/

theorem test_tail : (after (.tail 3 5) upq).get O.tail 3 = 5 ∧ (after (.tail 3 17) upq).get O.tail 3 = 0 ∧ (after (.tail 3 17) upq).obj O.doorbellErrors = 1 := by decide +kernel

theorem test_irqAck : (after (.irqAck 3) (upq.put O.irqPending 3 1)).get O.irqPending 3 = 0 := by decide +kernel

theorem test_read : ((after (.finfaRead (hd 0) 0x7000 0) (up.setObj O.instanceId 0)).moOut.map (fun r => (r.status, r.data, r.size))) = [(0, 0, 2)] ∧
    ((after (.finfaRead { hd 0 with dst := 9 } 0x7000 0) up).moOut.map (·.status)) = [0x0B] := by decide +kernel

theorem test_write_period : (after (.finfaWrite (hd 1) 0x1000 0 524288) up).obj 0x100000 = 524288 ∧
    ((after (.finfaWrite (hd 0) 0x1000 0 524288) up).moOut.map (·.status)) ≠ [0] := by decide +kernel

theorem test_writeResponse : let t := after (.writeResponse 0 5 0) (up.setReqs [wr0])
    (t.byte 0x1000, t.reqs, (after (.writeResponse 0 5 2) (up.setReqs [wr0])).byte 0x1000) = (7, [], 0) := by decide +kernel

theorem test_step_takes_first : ∃ t, step { upq with pending := [.irqAck 3, .toll] } = .next t ∧ t.pending = [.toll] :=
  (fine_next (by decide +kernel : fine (step { upq with pending := [.irqAck 3, .toll] }) = true)).elim fun t h =>
    ⟨t, h, by have g : (match step { upq with pending := [.irqAck 3, .toll] } with | .next u => u.pending | _ => []) = [.toll] := by decide +kernel
              rw [h] at g; exact g⟩

theorem test_no_unit : exec (.orphanTile 65536) up = .fault (.noSuchUnit 1 65536) := rfl

/-- Lantern 0 after a vector instruction, and after a scalar one. -/
def vec (c : LIss → VF → Instr) (u : Nat) (l : Lan) : Lan := ((after (c iss (vmask u vf)) (runI (imgC (c iss (vmask u vf))) .root l)).lanAt iss).getD {}
def sca (c : LIss → SF → Instr) (u : Nat) (f : SF) (l : Lan) : Lan := ((after (c iss (smask u f)) (runI (imgC (c iss (smask u f))) .root l)).lanAt iss).getD {}

theorem test_vadd : ((vec .vadd (uD ||| uVec ||| uA ||| uB) lan0).vget 4 0, (vec .vadd (uD ||| uVec ||| uA ||| uB) lan0).vget 4 1) = (0x40400000, 0) := by decide +kernel

theorem test_viaddsat : (vec .viaddsat (uD ||| uVec ||| uA ||| uB) ((lan0.vput 1 0 0x7FFFFFFF).vput 2 0 1)).vget 4 0 = 0x7FFFFFFF ∧
    (vec .viaddsat (uD ||| uVec ||| uA ||| uB) ((lan0.vput 1 0 0x80000000).vput 2 0 0xFFFFFFFF)).vget 4 0 = 0x80000000 := by decide +kernel

theorem test_shifts : (vec .vshl (uD ||| uVec ||| uA ||| uSA) (lan0.sput 2 33)).vget 4 0 = 0x7F000000 ∧
    (vec .vsra (uD ||| uVec ||| uA ||| uSA) ((lan0.vput 1 0 0x80000000).sput 2 35)).vget 4 0 = 0xF0000000 ∧
    (vec .vsrl (uD ||| uVec ||| uA ||| uSA) ((lan0.vput 1 0 0x80000000).sput 2 35)).vget 4 0 = 0x10000000 := by decide +kernel

theorem test_vneg_vabs : (vec .vneg (uD ||| uVec ||| uA) lan0).vget 4 0 = 0xBF800000 ∧ (vec .vabs (uD ||| uVec ||| uA) (lan0.vput 1 0 0xBF800000)).vget 4 0 = 0x3F800000 := by
  decide +kernel

theorem test_scalars : (sca .smul (vD ||| vA ||| vB) sf ((lan0.sput 2 (2 ^ 63)).sput 3 3)).sget 4 = 2 ^ 63 ∧ (sca .sli (vD ||| vI) { sf with imm := 0xFFFFFFFF } lan0).sget 4 = 2 ^ 64 - 1 ∧
    (sca .slih (vD ||| vI) { sf with imm := 1 } (lan0.sput 4 (2 ^ 64 - 1))).sget 4 = 2 ^ 33 - 1 ∧
    (sca .saddi (vD ||| vA ||| vI) { sf with imm := 0xFFFFFFFF } lan0).sget 4 = 4 := by decide +kernel

theorem test_loop_back : let l := ({ lan0 with pc := 2, loops := [lvl 2 3 1] } : Lan).retire imgL.code
    (l.pc, l.sget 2, l.loops.length) = (1, 4, 1) := by decide +kernel

theorem test_modew : ((sca .modew (vA ||| vI) { sf with imm := 1 } (lan0.sput 2 0x1FFE)).mode, (sca .modew (vA ||| vI) { sf with imm := 15 } (lan0.sput 2 0x0902)).mode) =
    (2, 0x0902) := by decide +kernel

theorem test_setvl_refuses : ((after (.setvli iss (smask vI { sf with imm := 4097 })) (runI (imgC (.setvli iss (smask vI { sf with imm := 4097 }))) .root lan0)).rfind 3 0).map (fun r => (r.outcome, r.code)) = some (8, 0x0501) := by
  decide +kernel

end Sys2Proof.Tests
end

section
/-! What a command may do as a whole: where it stops, and what no command changes. -/

namespace Sys2Proof.Machine

/-! Units (Table 1.2, Table 15.1). -/

/-- A wrapped block (R410) exists when the configuration has as many units of its kind. -/
theorem State.hasMacro_eq (s : State) (m : Macro) : s.hasMacro m = decide ((macroAt m).2 < unitCount s (macroAt m).1) := by
  cases m <;> rfl

theorem onUnit_present {k n u : Nat} {t : State} (h : u < n) : onUnit k n u t = .next t := if_pos h
theorem onUnit_absent {k n u : Nat} {t : State} (h : n ≤ u) : onUnit k n u t = .fault (.noSuchUnit k u) := if_neg (Nat.not_lt.mpr h)

/-- The outcome of a command that names the unit `x`, or none, and leaves `t` where it has its effect. -/
def State.guarded (s : State) (x : Option (Nat × Nat)) (t : State) : Host.Outcome State Fault Refusal :=
  match x with
  | none => .next t
  | some p => onUnit p.1 (unitCount s p.1) p.2 t

/-- The number of units of the kind that a command names guards its effect, and nothing else does. -/
theorem exec_guarded (c : Instr) (s : State) : ∃ t, exec c s = s.guarded c.unit t := by
  cases c
  case wirUpdate m code =>
    refine ⟨s.wirUpdate m code, ?_⟩
    show execWirUpdate m code s = onUnit _ _ _ _
    simp only [execWirUpdate, onUnit, State.hasMacro_eq, decide_eq_true_eq]
  all_goals exact ⟨_, rfl⟩

/-- Settles O3: the only guard of a command is the number of units of the kind that it names. -/
theorem commandsStopOnlyAtAbsentUnits : Obligations.CommandsStopOnlyAtAbsentUnits := by
  intro c s
  obtain ⟨t, ht⟩ := exec_guarded c s
  constructor
  · intro hu
    refine ⟨t, ht.trans ?_⟩
    cases h : c.unit with
    | none => rfl
    | some p => exact onUnit_present (hu _ _ h)
  · intro k u h hle
    rw [h] at ht
    exact ht.trans (onUnit_absent hle)

/-! What a command leaves: configuration, waiting commands, host memory. -/

/-- If the outcome is a next state, it has the configuration, the waiting commands and the memory of `s`. -/
def State.LeavesBase (s : State) : Host.Outcome State Fault Refusal → Prop
  | .next t => t.base = s.base
  | .fault _ | .refused _ => True

theorem State.leavesBase_orFault {p : Prop} [Decidable p] {s t : State} {e : Fault} (h : t.base = s.base) :
    s.LeavesBase (if p then .next t else .fault e) := by
  split
  · exact h
  · trivial

theorem State.leavesBase_onUnit {k n u : Nat} {s t : State} (h : t.base = s.base) : s.LeavesBase (onUnit k n u t) :=
  State.leavesBase_orFault h

theorem State.lanOp_base {s : State} {c : Instr} {i : LIss} {ops : Lan → Nat} {f : State → Rout → Image → LCtx → Lan → LEff}
    (hf : ∀ s r i c l, (f s r i c l).Keeps s) : (s.onLan c i (s.lanDo i ops f)).base = s.base :=
  State.onLan_base _ _ (State.lanDo_base _ _ _ hf)

theorem State.arrOp_base {s : State} {c : Instr} {x : AIss} {f : State → Rout → Image → LArr → Nat → AEff}
    (hf : ∀ s r i a u, (f s r i a u).Keeps s) : (s.onArr c x (s.arrDo x f)).base = s.base :=
  State.onArr_base _ _ (State.arrDo_base _ _ hf)

/-- A square root keeps them whether it retires, fails at a pivot (R161) or raises an exception. -/
theorem State.lanSqrt_base (s : State) (i : LIss) (ops : Lan → Nat) (ds : Lan → List Nat) (g : LCtx → Lan → LRes) :
    (s.lanSqrt i ops ds g).base = s.base := by
  refine State.lanDo_base _ _ _ (fun s r _ c l => ?_)
  split
  · split
    · exact LEff.keeps_go (State.pivot_base _ _)
    · exact LEff.keeps_go (State.rupd_base _ _ _ _)
  · exact LEff.keeps_exc rfl

/-- What every command keeps but READ_DATA and WRITE_RESPONSE: one line for each operation that commands perform. -/
theorem exec_leavesBase {c : Instr} (hc : c.bringsMemory = false) (s : State) : s.LeavesBase (exec c s) := by
  cases c
  case readData | writeResponse => cases hc
  case tail | irqAck | doorbellErrors =>
    exact State.doorbell_base _ _
  case streamTile => exact State.leavesBase_onUnit (State.streamTile_base _ _ _)
  case orphanTile => exact State.leavesBase_onUnit (State.orphanOut_base _ _)
  case captureTile => exact State.captureTile_base _ _ _
  case memTimeout => exact State.leavesBase_onUnit (State.memTimedOut_base _ _ _ _)
  case finfaRead | finfaWrite | segRead | segWrite | abort | finfaNext | malformed =>
    exact State.serve_base _ _ _ _ _ _
  case finfaPacketDiscard => exact State.ite_keep rfl (State.bump_base _ _ _ _ _)
  case segTimeout => exact State.segTimeout_base _ _
  case archLevelRequest | queueEnable | queueReset | slotReset | histOwner | syncValue | tmapInvalidate | tmtDirBase | devwinBase | instanceId |
      firstFaultClear | evlogEnable | evlogHead | evlogIrqAck | nanTrapMode | epochOpen | epochArm | epochAbort | nvStore | restoreDefaults |
      repairStore | test | testHold | testReturn | bellReset | powerRequest | portCheck | throttleForce =>
    exact State.serveWrite_base _ _ _ _
  case tmapInvDone => exact State.invDone_base _
  case nvStoreDone => exact State.storeDone_base _ _
  case restoreNv => exact (State.restoreErrs_base _ _ _).trans (State.serveWrite_base _ _ _ _)
  case restoreDone => exact State.restoreDone_base _
  case testDrainDone => exact State.drainTest_base _
  case selfTestDone => exact State.selfTestDone_base _ _ _ _ _
  case pstateReq => exact State.pstate_base _ _
  case powerEntry => exact State.powerEntry_base _
  case powerExitDone => exact State.powerExit_base _
  case thr => exact State.thr_base _ _
  case coldReset => exact State.ite_keep ((State.setWirs_base _ _).trans (State.coldReset_base _)) (State.coldReset_base _)
  case coldResetRelease => exact State.coldRelease_base _ _
  case warmReset => exact State.warmStart'_base _
  case warmResetRelease => exact State.warmRelease_base _
  case powerGoodFall => exact State.pgFall_base _ _
  case nvLoad => exact State.nvLoad_base _ _
  case coreTest => exact State.coreTest_base _ _
  case formationTimeout => exact State.formTimeout_base _
  case groupOfOne => exact State.formAlone_base _
  case tempRead => exact State.tempRead_base _ _
  case clockMeasure => exact State.clocks_base _ _ _
  case governorWindow => exact State.governor_base _
  case bellClose => exact State.closeBell_base _ _ _ _ _
  case paceBreaks => exact State.paceOver_base _
  case toll => exact State.toll_base _
  case fBellOverrun => exact State.overrunNow_base _
  case fStreamTimeout => exact State.streamTimeout_base _ _ _
  case deadline => exact State.deadlineAt_base _ _ _
  case fWaitTimeout => exact State.waitTimeout_base _ _ _
  case bellWaitEnd => exact State.bellWaitAt_base _ _ _
  case nop | fence | bellWait | signal | waitOp =>
    exact State.dispatch_base _ _ _ (State.startCtl_base _)
  case convert | quant | dequant | stats =>
    exact State.dispatch_base _ _ _ (State.startConv_base _ _)
  case gram | rootOp | solve | precond =>
    exact State.dispatch_base _ _ _ (State.startRout_base _)
  case reduce => exact State.dispatch_base _ _ _ (fun _ _ => (State.redSpace_base _).trans (State.startRed_base _ _ _ _))
  case commit => exact State.commitAt_base _ _ _
  case released => exact State.releaseNext_base _ _
  case evlogEntryWrite => exact State.evlogWrite_base _
  case iterBound => exact State.iterBound_base _ _ _
  case routineRestart => exact State.restart_base _ _ _
  case fallbackPromotions => exact State.fallback_base _ _ _ _ _
  case arrNop => exact State.arrOp_base (State.arrNopOp_keeps _)
  case fset => exact State.arrOp_base (State.fsetOp_keeps _)
  case pass => exact State.arrOp_base (State.passOp_keeps _)
  case gopen => exact State.arrOp_base (State.gopenOp_keeps _ _)
  case gdrain => exact State.arrOp_base (State.gdrainOp_keeps _ _)
  case vadd | vsub | vmul | vfma | vdiv | vmin | vmax | vabs | vneg | vadds | vmuls | vfmas | vpadd | viadd | visub | vimul | viaddsat | vand | vor |
      vxor | vshl | vsra | vsrl | viota | vmov | vbcast | vcmp | vicmp | vsel | mand | mor | mnot | many | vrsum | vrmax | vrmin | vrcsum | vrisum |
      vcvt =>
    exact State.onLan_base _ _ (State.lanV_base _ _ _ _)
  case vsqrt | sfsqrt =>
    exact State.onLan_base _ _ (State.lanSqrt_base _ _ _ _ _)
  case vld => exact State.lanOp_base (State.vldOp_keeps _ _)
  case vst => exact State.lanOp_base (State.vstOp_keeps _ _)
  case sli | slih | saddi | sadd | ssub | smul | sshl | sshr | sfadd | sfsub | sfmul | sfdiv | scmpm | ssel | setvl | setvli | modew | moder | loop |
      endloop | brk | lnNop =>
    exact State.onLan_base _ _ (State.lanS_base _ _ _)
  case rdp => exact State.lanOp_base (State.rdpOp_keeps _ _)
  case boundary => exact State.lanOp_base (State.boundaryOp_keeps _ _)
  case bar => exact State.lanOp_base (State.barOp_keeps _ _)
  case sched => exact State.lanOp_base (State.schedOp_keeps _ _)
  case lnRet => exact State.lanOp_base (State.retOp_keeps _ _)
  case pivf => exact State.lanOp_base (State.pivfOp_keeps _ _)
  case lnEnd => exact State.lanOp_base (State.endOp_keeps _ _)
  case lnStop => exact State.lanOp_base (State.stopOp_keeps _ _)
  case astr => exact State.lanOp_base (State.astrOp_keeps _ _)
  case aiss => exact State.lanOp_base (State.aissOp_keeps _ _)
  case await => exact State.lanOp_base (State.awaitOp_keeps _ _)
  case aflg => exact State.lanOp_base (State.aflgOp_keeps _ _)
  case train | calReq | calRsp | arrive | release | reduceUp | reduceDown | lost | alive | frameForward =>
    exact State.leavesBase_onUnit (State.rxFrame_base _ _ _)
  case bportRetransmits => exact State.leavesBase_onUnit (State.retransmit_base _ _)
  case calPeriod => exact State.leavesBase_onUnit (State.calNow_base _ _)
  case aliveInterval => exact State.aliveNow_base _
  case tollTimeout => exact State.silent_base _ _
  case reduceTimeout => exact State.redTimeout_base _ _ _
  case lockFall => exact State.leavesBase_onUnit (State.lockFell_base _ _)
  case powerGoodRise => exact State.pgRise_base _ _
  case lockRise => exact State.leavesBase_onUnit (State.lockRose_base _ _)
  case retrainTimeout => exact State.leavesBase_onUnit (State.retrainFailed_base _ _)
  case belfryFrameDiscard => exact State.leavesBase_onUnit (State.rxWords_base _ _ _ _)
  case fDescMalformed => exact State.dispatch_base _ _ _ (fun _ _ => State.refuseD_base _ _ _ _ _)
  case fSpireOp => exact State.arrOp_base State.spireOp_keeps
  case fLanternIllegal => exact State.lanOp_base State.badWord_keeps
  case repairStoreDone => exact State.repairDone_base _ _
  case ijtagUnitSelfTest => exact State.netTest_base _ _ _
  case wirUpdate =>
    exact State.leavesBase_orFault (State.wirUpdate_base _ _ _)

/-- Every command but the two answers of a memory port leaves host memory too. -/
theorem exec_base {c : Instr} {s t : State} (hc : c.bringsMemory = false) (h : exec c s = .next t) : t.base = s.base := by
  have k := exec_leavesBase hc s
  rwa [h] at k

theorem onUnit_kept {k n u : Nat} {s t x : State} (hk : s.Kept x) (h : onUnit k n u x = .next t) : s.Kept t := by
  unfold onUnit at h
  split at h
  · cases h; exact hk
  · cases h

/-- Every command keeps the configuration, the waiting commands and the canonical form of memory. -/
theorem exec_kept {c : Instr} {s t : State} (h : exec c s = .next t) : s.Kept t := by
  cases hc : c.bringsMemory with
  | false => exact State.kept_of_base (exec_base hc h)
  | true =>
    unfold Instr.bringsMemory at hc
    split at hc
    · exact onUnit_kept (State.readData_kept _ _ _ _ _ _ _) h
    · exact onUnit_kept (State.writeResp_kept _ _ _ _) h
    · cases hc

/-- Settles O4, from what each operation keeps. -/
theorem commandsKeepConfigurationAndQueue : Obligations.CommandsKeepConfigurationAndQueue := by
  intro c s t h
  obtain ⟨hv, hp, _⟩ := exec_kept h
  exact ⟨hv, hp⟩

end Sys2Proof.Machine
end

section
/-! Writes that act at once (R359), and invalidations of cached translations (R282). -/

namespace Sys2Proof

/-- An element of `mapIf` comes from one of the list: changed where `p` holds of it, as it was elsewhere. -/
theorem mem_mapIf {α : Type} {p : α → Bool} {f : α → α} {l : List α} {x : α} (h : x ∈ mapIf p f l) :
    ∃ y ∈ l, (p y = true ∧ x = f y) ∨ (p y = false ∧ x = y) := by
  obtain ⟨y, hy, rfl⟩ := List.mem_map.mp h
  refine ⟨y, hy, ?_⟩
  cases hp : p y <;> simp

/-- Invalidation `v` drops cached translation `e`: of its tenant domain, and of its tensor, as a tensor or as a view's base, or of any when it names none. -/
def Inval.hits (v : Inval) (e : TwigEntry) : Bool := e.tenant == v.tenant && (v.tid == 0 || e.tid == v.tid || e.ent.base == v.tid)

theorem Inval.hits_iff {v : Inval} {e : TwigEntry} :
    v.hits e = true ↔ e.tenant = v.tenant ∧ (v.tid = 0 ∨ e.tid = v.tid ∨ e.ent.base = v.tid) := by
  simp [Inval.hits, or_assoc]

end Sys2Proof

namespace Sys2Proof.Machine

theorem State.invalidate_invals (s : State) (n tid : Nat) : (s.invalidate n tid).invals = s.invals ++ [{ tenant := n, tid := tid }] := rfl

theorem State.invalidate_walks_stale {s : State} {n tid : Nat} {w : WalkRt} (h : w ∈ (s.invalidate n tid).reads.walks) (hb : w.begun = true)
    (hn : w.tenant = n) : w.stale = true := by
  obtain ⟨y, -, ⟨-, rfl⟩ | ⟨hp, rfl⟩⟩ := mem_mapIf h
  · rfl
  · simp [hb, hn] at hp

theorem State.invalidate_res_stale {s : State} {n tid : Nat} {x : WalkRes} (h : x ∈ (s.invalidate n tid).reads.res) (hn : x.tenant = n) :
    x.stale = true := by
  obtain ⟨y, -, ⟨-, rfl⟩ | ⟨hp, rfl⟩⟩ := mem_mapIf h
  · rfl
  · simp [hn] at hp

/-- An invalidation waits while an access needs a walk that began before it. -/
theorem State.invDone_waits {s : State} {v : Inval} {l : List Inval} (h : s.invals = v :: l) (hs : s.staleLeft v.tenant = true) : s.invDone = s := by
  simp [State.invDone, h, hs]

/-- The oldest invalidation that need not wait completes: it drops its translations and counts. -/
theorem State.invDone_completes {s : State} {v : Inval} {l : List Inval} (h : s.invals = v :: l) (hs : s.staleLeft v.tenant = false) :
    s.invDone = ((s.setInvals l).setTwigs (s.twigs.filter (fun e => !v.hits e))).bump O.tmapInvDone v.tenant 32 1 := by
  simp [State.invDone, h, hs, Inval.hits]

theorem State.bump_twigs (s : State) (o n w k : Nat) : (s.bump o n w k).twigs = s.twigs := rfl
theorem State.bump_invals (s : State) (o n w k : Nat) : (s.bump o n w k).invals = s.invals := rfl

theorem State.invDone_twigs {s : State} {v : Inval} {l : List Inval} (h : s.invals = v :: l) (hs : s.staleLeft v.tenant = false) (e : TwigEntry) :
    e ∈ s.invDone.twigs ↔ e ∈ s.twigs ∧ ¬ v.hits e = true := by
  rw [State.invDone_completes h hs, State.bump_twigs, State.setTwigs_twigs, List.mem_filter, Bool.not_eq_true, Bool.not_eq_true']

theorem State.byte_of_base {s t : State} (h : t.base = s.base) (a : Nat) : t.byte a = s.byte a := by
  have hm : t.mem = s.mem := congrArg (·.2.2) h
  rw [State.byte, State.byte, hm]

/-- A write that passes its checks leaves what the object's write does, and the answer OK. -/
theorem State.serveWrite_does {s t : State} {h : FinfaHead} {o : Obj} {v oid : Nat} (ht : s.takesWrite h o v = true) (e : o.oid = oid)
    (hw : s.doWrite o h.role (s.selFor o h 2) v = t) : s.serveWrite h oid v = t.okTo s h 2 o 0 := by
  rw [State.serveWrite_at e.symm ht, hw]

/-- Settles O17: each row of the list is its object's branch of `State.doWrite`; the other parts are what `State.invalidate` and `State.invDone` do. -/
theorem commandWritesAndInvalidationsAct : Obligations.CommandWritesAndInvalidationsAct := by
  refine ⟨?_, ?_, ?_⟩
  · intro s h o v n ht hn
    subst hn
    simp only [List.forall_mem_cons, List.not_mem_nil, false_implies, implies_true, and_true]
    refine ⟨?_, ?_, ?_, ?_, ?_, ?_, ?_, ?_, ?_, ?_⟩
    all_goals
      intro e
      exact congrArg _ (State.serveWrite_does ht e (by simp [State.doWrite, e]))
  · intro s n tid
    exact ⟨State.invalidate_invals s n tid, fun w => State.invalidate_walks_stale, fun x => State.invalidate_res_stale⟩
  · intro s x l h
    refine ⟨fun hs => congrArg _ (State.invDone_waits h hs), fun hs => ⟨s.invDone, rfl, ?_, ?_, ?_, ?_, ?_⟩⟩
    · rw [State.invDone_completes h hs, State.bump_invals]; rfl
    · rw [State.invDone_completes h hs, State.get_bump_same _ _ _ _ _ (by decide)]; rfl
    · intro e he
      rwa [State.invDone_twigs h hs, Inval.hits_iff] at he
    · intro e he hne
      rw [State.invDone_twigs h hs, Inval.hits_iff]
      exact ⟨he, fun hh => hne hh.1⟩
    · exact State.byte_of_base (State.invDone_base s)

end Sys2Proof.Machine
end

section
/-! What a conversion comes to at its dispatch (R79, R245, R277), and the value of each element of a tile (R50, R54, R73). -/

namespace Sys2Proof

/-- The rounding of an exact value into the destination of a conversion with no escape codes, under random value `r` (R30 to R35, R50). -/
def ConvD.roundInto (c : ConvD) (r : Nat) (v : Val) : Cv :=
  if c.df.isFloat then cvFloat c.df c.rm r c.ovf c.strict v else cvInt c.df.width c.df.qmin c.df.qmax c.z c.rm r v

theorem qrange_noEsc (f : Fmt) : qrange f false = (f.qmin, f.qmax) := by cases f <;> rfl

theorem clipOverflow_of_no_outlier (c : ConvD) (n : Nat) {es : List EltOut} (h : ∀ e ∈ es, e.out = false) : clipOverflow c n es = es := by
  induction es with
  | nil => rfl
  | cons e es ih =>
    obtain ⟨he, hes⟩ := List.forall_mem_cons.mp h
    simp [clipOverflow, he, ih hes]

theorem dequantProd_eq (f : Fmt) (y s : Val) :
    dequantProd f y s = if f = .e4m3 ∧ (Val.mul y s).isNan = true ∧ y.isNan = false ∧ s.isNan = false then .nan y.neg? 0x400000 false else Val.mul y s := by
  simp [dequantProd, and_assoc]

section Elements
variable {c : ConvD} (hesc : c.escEn = false) (hsrc : c.scaleSrc = 0)
include hesc hsrc

theorem quantCv_noEsc (s : Val) (r : Nat) (x : Val) :
    quantCv c s r x = c.roundInto r (if c.op = .convert then x else Val.div x s) := by
  simp [quantCv, ConvD.roundInto, hesc, hsrc, qrange_noEsc]

/-- With no escape codes an element of a CONVERT or QUANT is no outlier, and its code is its value rounded once. -/
theorem quantElt_noEsc (hreq : c.isRequant = false) (env : ConvEnv) (pos r col : Nat) {e : EltOut} (he : e = quantElt c env pos r col) :
    e.out = false ∧ e.x = decodeVal c.sf (env.src e.row e.col) ∧
      e.cv = c.roundInto (c.rand e.idx) (if c.op = .convert then e.x else Val.div e.x (v32 c.scaleValue)) := by
  subst he
  simp [quantElt, quantScale, quantCv_noEsc hesc hsrc, hreq, hesc, hsrc]

/-- Such a tile has the elements of its view as they are converted, and does not stop. -/
theorem convTile_quant (hreq : c.isRequant = false) (env : ConvEnv) (t : Nat) (hop : c.op = .convert ∨ c.op = .quant) :
    (convTile c env t).stop = 0 ∧ (convTile c env t).elts = (c.elems t).map (fun p => quantElt c env p.1 p.2.1 p.2.2) := by
  have hclip : clipOverflow c 0 ((c.elems t).map (fun p => quantElt c env p.1 p.2.1 p.2.2)) =
      (c.elems t).map (fun p => quantElt c env p.1 p.2.1 p.2.2) := by
    refine clipOverflow_of_no_outlier c 0 (fun e he => ?_)
    obtain ⟨p, -, hp⟩ := List.mem_map.mp he
    exact (quantElt_noEsc hesc hsrc hreq env _ _ _ hp.symm).1
  obtain hop | hop := hop <;> simp [convTile, hop, hreq, hclip]

/-- Each element of a tile of a CONVERT or QUANT with no escape codes is its value, or its quotient by the scale in force, rounded once. -/
theorem convTile_quant_elts (hreq : c.isRequant = false) {env : ConvEnv} {t : Nat} (hop : c.op = .convert ∨ c.op = .quant) {e : EltOut}
    (he : e ∈ (convTile c env t).elts) :
    e.x = decodeVal c.sf (env.src e.row e.col) ∧
      e.cv = c.roundInto (c.rand e.idx) (if c.op = .convert then e.x else Val.div e.x (v32 c.scaleValue)) := by
  rw [(convTile_quant hesc hsrc hreq env t hop).2] at he
  obtain ⟨p, -, hp⟩ := List.mem_map.mp he
  exact (quantElt_noEsc hesc hsrc hreq env _ _ _ hp.symm).2

/-- With no escape codes an element of a floating-point DEQUANT is the product of its code's value and the scale, rounded once. -/
theorem dequantElt_float (hf : c.sf.isFloat = true) (env : ConvEnv) (side : Nat → Option Nat) (pos r col : Nat) {e : EltOut}
    (he : e = dequantElt c env side pos r col) :
    e.x = dequantProd c.df (decodeFloat c.sf (env.src e.row e.col)) (v32 c.scaleValue) ∧
      e.cv.code = (cvAny c.df c.rm (c.rand e.idx) c.ovf c.strict e.x).code := by
  subst he
  simp [dequantElt, dequantScale, hesc, hsrc, hf]

theorem convTile_dequant_elts (hf : c.sf.isFloat = true) {env : ConvEnv} {t : Nat} (hop : c.op = .dequant) {e : EltOut}
    (he : e ∈ (convTile c env t).elts) :
    e.x = dequantProd c.df (decodeFloat c.sf (env.src e.row e.col)) (v32 c.scaleValue) ∧
      e.cv.code = (cvAny c.df c.rm (c.rand e.idx) c.ovf c.strict e.x).code := by
  simp only [convTile, hop, hesc, Bool.false_and, Bool.false_eq_true, if_false] at he
  obtain ⟨p, -, hp⟩ := List.mem_map.mp he
  exact dequantElt_float hesc hsrc hf env _ _ _ _ hp.symm

end Elements

end Sys2Proof

namespace Sys2Proof.Machine

theorem State.readN_asks {ε : Type} {s : State} {a : Act} {f : State → State × ε} {w : Want} (n : Nat)
    (hw : (f (s.acting a)).1.reads.want = some w) (hr : (s.ask a w).reads.res.length ≤ s.reads.res.length) :
    State.readN a f (n + 1) s = (s.ask a w, none) := by
  rw [State.readN]
  simp only [hw]
  exact if_neg (Nat.not_lt.mpr hr)

/-- Of an act that lacks something nothing happens but that it is asked for, unless the answer is there at once (R277). -/
theorem State.readThen_asks {ε : Type} {s : State} {a : Act} {f : State → State × ε} {k : State → ε → State} {w : Want}
    (hw : (f (s.acting a)).1.reads.want = some w) (hr : (s.ask a w).reads.res.length ≤ s.reads.res.length) : s.readThen a f k = s.ask a w := by
  rw [State.readThen, State.readN_asks 511 hw hr]

theorem exec_conversion (q : Nat) (ks : TileChks) (s : State) :
    ∀ p ∈ ([(.convert ⟨q, ks⟩, 0x01), (.quant ⟨q, ks⟩, 0x02), (.dequant ⟨q, ks⟩, 0x03), (.stats ⟨q, ks⟩, 0x04)] : List (Instr × Nat)),
      exec p.1 s = .next (s.dispatch q (isOp p.2) (State.startConv q ks)) := by
  simp only [List.forall_mem_cons, List.not_mem_nil, false_implies, implies_true, and_true]
  exact ⟨rfl, rfl, rfl, rfl⟩

/-- The next descriptor of a queue, a well-formed conversion, is dispatched by the command of its opcode. -/
theorem State.dispatch_conversion {s : State} {q : Nat} {d : DRt} {c : ConvD} {op : Nat} (ks : TileChks) (hp : s.phase = 4)
    (hd : s.nextDisp q = some d) (hm : d.d.malformed = false) (hb : d.d.body = .conv c) (ho : d.d.opcode = op) :
    s.dispatch q (isOp op) (State.startConv q ks) = s.dispConv q d c ks := by
  rw [State.dispatch_go hp hd (by simp [isOp, hm, ho]), State.startConv, hb]

/-- What a conversion comes to once its checks have come out as `r`. -/
def State.afterChecks (q : Nat) (d : DRt) (c : ConvD) (ks : TileChks) (s : State) (r : Except (Nat × Nat) ConvEnts) : State :=
  match r with
  | .error (code, tid) => s.refuseConv q d.seq c code tid
  | .ok x => if c.inert && !c.srcStream then s.doneD q d.seq else s.runConv q d c ks x

section Dispatch
variable {s : State} {q : Nat} {d : DRt} {c : ConvD} {ks : TileChks} (hn : d.noSync = false)
include hn

theorem State.dispConv_noop (hb : d.d.body.isNoop = true) : s.dispConv q d c ks = s.doneD q d.seq := by
  simp [State.dispConv, hn, hb]

theorem State.dispConv_held (hb : d.d.body.isNoop = false) (hh : s.dispHeld d c = true) : s.dispConv q d c ks = s := by
  simp [State.dispConv, hn, hb, hh]

/-- One that is not held starts, or is refused, as its checks come out, once they lack no walk. -/
theorem State.dispConv_reads (hb : d.d.body.isNoop = false) (hh : s.dispHeld d c = false) :
    s.dispConv q d c ks = s.readThen (.desc q d.seq) (fun s => s.convRefusal q d c) (State.afterChecks q d c ks) := by
  simp only [State.dispConv, hn, hb, hh, Bool.false_eq_true, if_false]
  rfl

theorem State.dispConv_asks {w : Want} (hb : d.d.body.isNoop = false) (hh : s.dispHeld d c = false)
    (hw : ((s.acting (.desc q d.seq)).convRefusal q d c).1.reads.want = some w)
    (hr : (s.ask (.desc q d.seq) w).reads.res.length ≤ s.reads.res.length) : s.dispConv q d c ks = s.ask (.desc q d.seq) w := by
  rw [State.dispConv_reads hn hb hh]
  exact State.readThen_asks hw hr

theorem State.dispConv_checked {r : Except (Nat × Nat) ConvEnts} (hb : d.d.body.isNoop = false) (hh : s.dispHeld d c = false)
    (hw : ((s.acting (.desc q d.seq)).convRefusal q d c).1.reads.want = none) (hr : ((s.acting (.desc q d.seq)).convRefusal q d c).2 = r) :
    s.dispConv q d c ks =
      State.afterChecks q d c ks (((s.acting (.desc q d.seq)).convRefusal q d c).1.did s (.desc q d.seq)) r := by
  subst hr
  rw [State.dispConv_reads hn hb hh]
  exact State.readThen_done rfl hw

end Dispatch

/-- Settles O35: the dispatch by the cases of `State.dispConv`, the values from what an element of a tile is. -/
theorem conversionsStartAndRoundOnce : Obligations.ConversionsStartAndRoundOnce := by
  refine ⟨fun s q d c ks hp hd hm hn hbody p hmem ho => ?_, fun c env t hreq hesc => ⟨?_, ?_, ?_⟩⟩
  · have hdisp : exec p.1 s = .next (s.dispConv q d c ks) := by
      rw [exec_conversion q ks s p hmem, State.dispatch_conversion ks hp hd hm hbody ho]
    have hnoop : d.d.body.isNoop = (c.rows == 0 || c.rowLen == 0) := by rw [hbody]; rfl
    rw [hdisp]
    refine ⟨fun h0 => congrArg _ (State.dispConv_noop hn (by simpa [hnoop] using h0)), fun hrow hlen => ?_⟩
    have hb : d.d.body.isNoop = false := by simp [hnoop, hrow, hlen]
    refine ⟨fun hh => congrArg _ (State.dispConv_held hn hb hh), fun w hh hw hr => congrArg _ (State.dispConv_asks hn hb hh hw hr),
      fun code tid hh hw hx => congrArg _ ?_, fun e hh hw hx => ⟨fun hi => congrArg _ ?_, fun hi => congrArg _ ?_⟩⟩
    all_goals rw [State.dispConv_checked hn hb hh hw hx]
    · rfl
    · exact if_pos (by simpa using hi)
    · exact if_neg (by simpa [imp_iff_not_or] using hi)
  · intro hop hsrc
    refine ⟨(convTile_quant hesc hsrc hreq env t (.inl hop)).1, fun e he => ?_⟩
    obtain ⟨hx, hcv⟩ := convTile_quant_elts hesc hsrc hreq (.inl hop) he
    rw [if_pos hop, hx] at hcv
    exact ⟨hx, hcv⟩
  · intro hop hsrc e he
    obtain ⟨hx, hcv⟩ := convTile_quant_elts hesc hsrc hreq (.inr hop) he
    rw [if_neg (by simp [hop]), hx] at hcv
    exact ⟨hx, hcv⟩
  · intro hop hsrc hf e he
    obtain ⟨hx, hcode⟩ := convTile_dequant_elts hesc hsrc hf hop he
    exact ⟨hx.trans (dequantProd_eq _ _ _), hcode⟩

end Sys2Proof.Machine
end

section
/-! What becomes of the tiles that come on the stream ports and of those that leave the runner ring (R89, R90, R103, R108, R152). -/

namespace Sys2Proof.Machine

theorem onSeg_present {s : State} {u : Nat} {t : State} (h : u < s.nSeg) : onSeg s u t = .next t := onUnit_present h

section StreamTile
variable {s : State} {t : Tile} {u : Nat} (hs : s.segTakes t.seg = true) (hu : s.segOf t.seg = some u)
include hs hu

theorem State.streamTile_tagged {q : Nat} {d : DRt} {c : ConvD} (k : Chk) (ht : s.tagged t.tag t.seg = some (q, d, c)) :
    s.streamTile t k = s.takeTile q d c t k := by
  simp [State.streamTile, hs, hu, ht]

/-- A tile that names no descriptor is an orphan at once where HEDGE_TAG_WAIT is 0, and waits on its port otherwise (R90). -/
theorem State.streamTile_untagged (k : Chk) (ht : s.tagged t.tag t.seg = none) :
    s.streamTile t k = if s.bget O.hedgeTagWait 0 = 0 then s.orphan t
      else s.setWaitTiles (SMap.put none t.seg (some (t, k)) s.waitTiles) := by
  simp [State.streamTile, hs, hu, ht]

end StreamTile

theorem State.takeTile_ok {s : State} {t : Tile} {u : Nat} (hu : s.segOf t.seg = some u) (q : Nat) (d : DRt) (c : ConvD) :
    s.takeTile q d c t .ok = s.tileIn q d c t := by
  simp [State.takeTile, State.segChecks, hu]

section TileIn
variable {d : DRt} {c : ConvD} {t : Tile} (hp : d.phase ≠ .parked) (hd : d.phase ≠ .done)
include hp hd

/-- A tile of a gang of one that is framed as its view and is not there yet joins its descriptor (R88, R89). -/
theorem State.tileIn_joins (s : State) (q : Nat) (hf : t.framed c = true) (hg : c.gang = 1) (hnew : ∀ y ∈ d.tilesIn, y.no c ≠ t.no c) :
    s.tileIn q d c t = (s.dupd q d.seq (fun d => { d with tilesIn := d.tilesIn ++ [t] })).convReady q d.seq := by
  have hany : d.tilesIn.any (fun y => y.no c == t.no c) = false := by simpa using hnew
  simp [State.tileIn, hp, hd, hf, hg, hany]

theorem State.tileIn_misframed (s : State) (q : Nat) (hf : t.framed c = false) :
    s.tileIn q d c t = s.stopConv q d.seq 0x0201 c.mainTid (t.no c) := by
  simp [State.tileIn, hp, hd, hf]

end TileIn

/-- The tile that waits on a port is discarded, unless the Hedge is frozen or the pair is out (R90, R107, R108). -/
theorem State.orphanOut_waiting {s : State} {seg : Nat} {t : Tile} {k : Chk} (hl : s.live = true) (ha : s.awake = true) (hf : s.segFrozen = false)
    (hu : s.segOf seg ≠ none) (hw : SMap.look none s.waitTiles seg = some (t, k)) :
    s.orphanOut seg = (s.setWaitTiles (SMap.put none seg none s.waitTiles)).orphan t := by
  have hsome : (s.segOf seg).isSome = true := Option.isSome_iff_ne_none.mpr hu
  simp [State.orphanOut, hw, hl, ha, hf, hsome]

/-- A tile that the ring holds goes to the front stage, once the ring serves and no check fails. -/
theorem State.captureTile_ok {s : State} {c : CapTile} {t : Captured} (hl : s.live = true) (ha : s.awake = true) (hr : s.obj O.ringState ≠ 2)
    (ht : s.ring.find? (fun x => x.q == c.q && x.seq == c.seq && x.trow == c.trow && x.tcol == c.tcol) = some t) :
    s.captureTile c .ok = s.deliver t := by
  simp [State.captureTile, ht, hl, ha, hr]

/-- A channel with a tile of its capture `c` that does not spill: its operands, and the bytes that it takes in the front buffer (R103, log 62). -/
def holdTile (ch : Chan) (t : Captured) (c : ConvD) (ipath : Bool) : Chan :=
  { ch with tiles := ch.tiles ++ [{ q := t.q, seq := t.seq, no := t.no, bytes := capSize t c, ops := (capOperands t c ipath).1 }] }

section Deliver
variable {s : State} {t : Captured} {ch : Chan} (hch : SMap.look {} s.chans t.ch = ch)
include hch

/-- A tile with poison, and one whose capture or GRAM has ended, only leaves the ring (R108). -/
theorem State.deliver_drops
    (h : ch.owner = none ∨ ch.caps.find? (fun p => p.q == t.q && p.seq == t.seq) = none ∨ (∃ g, ch.owner = some g ∧ s.rfind g.1 g.2 = none) ∨
      t.poison = true) : s.deliver t = s.setRing (s.ring.filter (fun x => x != t)) := by
  simp only [State.deliver, hch]
  split
  · next gq gs p ho hp =>
    split
    · rfl
    · next g hg =>
      have hpoison : t.poison = true := by simpa [ho, hp, hg] using h
      simp [hpoison]
  · rfl

/-- A tile within its window, or for which the front buffer has room, joins its channel and does not spill (R103, R152). -/
theorem State.deliver_joins {gq gs : Nat} {g : Rout} {p : CapDesc} (ho : ch.owner = some (gq, gs)) (hg : s.rfind gq gs = some g)
    (hc : ch.caps.find? (fun p => p.q == t.q && p.seq == t.seq) = some p) (hp : t.poison = false)
    (hroom : tileK ch t.q t.seq ((capOperands t p.conv g.r.ipath).1.map (·.1)) / 64 ≤ ch.ready g.r.dim g.r.tokens / 64 ∨
      (s.obj O.frontState ≠ 1 ∧ s.frontUsed + capSize t p.conv ≤ s.obj O.frontBufferBytes)) :
    let ch' := holdTile ch t p.conv g.r.ipath
    s.deliver t = (((s.setRing (s.ring.filter (fun x => x != t))).setChans (SMap.put {} t.ch ch' s.chans)).bump O.frontRounded 0 32
      (capOperands t p.conv g.r.ipath).2).put O.chTokens t.ch (ch'.received g.r.dim) := by
  have hstays : (decide (ch.ready g.r.dim g.r.tokens / 64 < tileK ch t.q t.seq ((capOperands t p.conv g.r.ipath).1.map (·.1)) / 64) &&
      (s.obj O.frontState == 1 || decide (s.obj O.frontBufferBytes < s.frontUsed + capSize t p.conv))) = false := by
    obtain hin | ⟨hfront, hfits⟩ := hroom
    · rw [decide_eq_false (Nat.not_lt.mpr hin), Bool.false_and]
    · rw [decide_eq_false (Nat.not_lt.mpr hfits), beq_eq_false_iff_ne.mpr hfront, Bool.or_false, Bool.and_false]
  simp only [State.deliver, holdTile, hch, ho, hc, hg, hp, hstays, frontTakes, Bool.false_eq_true, if_false, Bool.not_false, Bool.true_or, Bool.not_true]
  rfl

end Deliver

/-- Settles O23: by what `State.streamTile`, `State.tileIn`, `State.orphanOut` and `State.deliver` come to in each case. -/
theorem tilesReachTheirDescriptorsOrLeave : Obligations.TilesReachTheirDescriptorsOrLeave := by
  refine ⟨fun s t u hseg hs hu => ⟨fun q d c ht hp hd => ?_, fun ht => ?_⟩, fun s hl ha => ⟨?_, fun c t hr ht => ?_⟩⟩
  · have htile : exec (.streamTile t .ok) s = .next (s.tileIn q d c t) := by
      rw [← State.takeTile_ok hu, ← State.streamTile_tagged hs hu .ok ht]
      exact onSeg_present hseg
    rw [htile]
    exact ⟨fun hf hg hnew => congrArg _ (State.tileIn_joins hp hd s q hf hg hnew), fun hf => congrArg _ (State.tileIn_misframed hp hd s q hf)⟩
  · have htile (k : Chk) : exec (.streamTile t k) s = .next (s.streamTile t k) := onSeg_present hseg
    simp only [htile, State.streamTile_untagged hs hu _ ht]
    exact ⟨fun h k => congrArg _ (if_neg h), fun h k => congrArg _ (if_pos h)⟩
  · intro seg t k hseg hf hu hw
    exact (onSeg_present hseg).trans (congrArg _ (State.orphanOut_waiting hl ha hf hu hw))
  · have hcap : exec (.captureTile c .ok) s = .next (s.deliver t) := congrArg _ (State.captureTile_ok hl ha hr ht)
    dsimp only
    rw [hcap]
    exact ⟨fun h => congrArg _ (State.deliver_drops rfl h), fun gq gs g p ho hg hc hp hroom => congrArg _ (State.deliver_joins rfl ho hg hc hp hroom)⟩

end Sys2Proof.Machine
end

section
/-! What a close ends (R91, R171, R222), each as a command of its own. -/

namespace Sys2Proof

/-- Where `f` keeps what `p` says of each element, `mapIf` changes what is found by `p`, and nothing else. -/
theorem find?_mapIf {α : Type} {p : α → Bool} {f : α → α} (hf : ∀ x, p (f x) = p x) (l : List α) :
    (mapIf p f l).find? p = (l.find? p).map f := by
  induction l with
  | nil => rfl
  | cons x l ih =>
    have hcons : mapIf p f (x :: l) = (if p x then f x else x) :: mapIf p f l := rfl
    cases hx : p x <;> simp [hcons, hf, hx, ih]

end Sys2Proof

namespace Sys2Proof.Machine

theorem State.dfind_seq {s : State} {q seq : Nat} {d : DRt} (h : s.dfind q seq = some d) : d.seq = seq := by
  simpa using List.find?_some h

/-- An update that keeps sequence numbers is what is read back of the descriptor. -/
theorem State.dfind_dupd_same {s : State} {q seq : Nat} {d : DRt} {f : DRt → DRt} (hf : ∀ x, (f x).seq = x.seq) (h : s.dfind q seq = some d) :
    (s.dupd q seq f).dfind q seq = some (f d) := by
  have hfind : (s.queue q).infl.find? (fun x => x.seq == seq) = some d := h
  have hq : ((s.dupd q seq f).queue q).infl = mapIf (fun x => x.seq == seq) f (s.queue q).infl := congrArg QRt.infl (SMap.look_put_same ..)
  rw [State.dfind, qfind, hq, find?_mapIf (fun x => by rw [hf]), hfind, Option.map_some]

theorem State.pairOut_iff (s : State) (c : ConvD) : s.pairOut c = true ↔ ∃ i < c.segSpan, s.segOf (c.segBase + i) = none := by
  simp [State.pairOut]

theorem streamOf_body {d : DRt} {c : ConvD} (h : streamOf d = some c) : d.d.body = .conv c := by
  obtain ⟨-, h⟩ := Option.ite_none_left_eq_some.mp h
  cases hb : d.d.body with
  | conv c' =>
    rw [hb] at h
    obtain ⟨-, hc⟩ := Option.ite_none_right_eq_some.mp h
    rw [Option.some.inj hc]
  | _ => simp [hb] at h

theorem State.streamWaits_iff {d : DRt} {c : ConvD} (s : State) (h : streamOf d = some c) :
    s.streamWaits d = true ↔ (d.phase = .admitted ∨ d.phase = .running) ∧
      ((c.srcStream = true ∧ d.tilesIn.length < c.tiles) ∨ ((∃ i < c.segSpan, s.segOf (c.segBase + i) = none) ∧ d.tilesOk.length < c.tiles)) := by
  simp [State.streamWaits, h, State.pairOut_iff]

theorem bellWaitEnd_eq_some {d : DRt} {n : Nat} (hm : d.d.malformed = false) (hs : d.noSync = false) (hb : d.d.body = .bellWait n) (hn : 0 < n) :
    bellWaitEnd d = some (d.firstBell + n - 1) := by
  simp [bellWaitEnd, hm, hs, hb, Nat.ne_of_gt hn]

section Expiry
variable {s : State} {q seq : Nat} (hc : s.closable = true)
include hc

theorem State.streamTimeout_stops {d : DRt} {c : ConvD} (hd : s.dfind q seq = some d) (ho : streamOf d = some c)
    (hw : s.streamWaits d = true) (ht : d.firstBell + d.streamT ≤ s.bellNo + 1) : s.streamTimeout q seq = s.stopConv q seq 0x0202 c.mainTid 0 := by
  simp [State.streamTimeout, hd, hc, State.streamExpired, hw, ht, State.streamStop, streamOf_body ho, State.dfind_seq hd]

theorem State.deadlineAt_ends {r : Rout} (hr : s.rfind q seq = some r) (hd : deadlineDue r s.bellNo = true) :
    s.deadlineAt q seq = (s.endRout q seq 2 0).commitNow q seq := by
  simp [State.deadlineAt, hr, hc, hd]

theorem State.bellWaitAt_ends {d : DRt} {e : Nat} (hd : s.dfind q seq = some d) (he : bellWaitEnd d = some e) (hb : e ≤ s.bellNo)
    (hp : d.phase = .admitted ∨ d.phase = .running) : s.bellWaitAt q seq = s.endWait q d := by
  obtain hp | hp := hp <;> simp [State.bellWaitAt, hd, he, hc, hb, hp]

end Expiry

/-- A BELL_WAIT that ends is done, and commits where nothing else of it is outstanding (R222, R246). -/
theorem State.endWait_eq {s : State} {q seq : Nat} {d : DRt} (h : s.dfind q seq = some d) :
    s.endWait q d =
      let u := s.dupd q seq (fun d => { d with phase := .done })
      let e : DRt := { d with phase := .done }
      if u.workDone q e then u.commitD q e else u := by
  have hfind := State.dfind_dupd_same (f := fun d => { d with phase := .done }) (fun _ => rfl) h
  simp [State.endWait, State.doneD, State.dfind_seq h, hfind]

/-- Settles O33: each expiry by the branch of its command that acts. -/
theorem expiriesEndWork : Obligations.ExpiriesEndWork := by
  refine fun s q seq hc => ⟨fun d c hd ho hp hw ht => ?_, fun r hr he hd hle => ?_, fun d n hd hm hs hb hn hle hp => ?_⟩
  · exact congrArg _ (State.streamTimeout_stops hc hd ho ((s.streamWaits_iff ho).mpr ⟨hp, hw⟩) ht)
  · have hdue : deadlineDue r s.bellNo = true := by simp [deadlineDue, he, hd, hle]
    exact congrArg _ (State.deadlineAt_ends hc hr hdue)
  · have hend := State.bellWaitAt_ends hc hd (bellWaitEnd_eq_some hm hs hb hn) hle hp
    exact congrArg _ (hend.trans (State.endWait_eq hd))

end Sys2Proof.Machine
end

section
/-! Words of fields, and the instructions that they spell (R112, R182; Tables 5.1 to 5.5 and 7.3 to 7.6). -/

namespace Sys2Proof

/-! Fields side by side, the highest first: `ns` are their widths. -/

/-- The word whose fields hold `xs`. -/
def packFields : List Nat → List Nat → Nat
  | _ :: ns, x :: xs => x * 2 ^ ns.sum + packFields ns xs
  | _, _ => 0

/-- What the fields of a word hold. -/
def fieldsOf : List Nat → Nat → List Nat
  | [], _ => []
  | n :: ns, w => bits w ns.sum n :: fieldsOf ns w

/-- Every value fits its field. -/
abbrev FieldsFit : List Nat → List Nat → Prop := List.Forall₂ (fun n x => x < 2 ^ n)

theorem packFields_lt {ns xs : List Nat} (h : FieldsFit ns xs) : packFields ns xs < 2 ^ ns.sum := by
  induction h with
  | nil => exact Nat.one_pos
  | @cons n x ns xs hx _ ih =>
    calc x * 2 ^ ns.sum + packFields ns xs < (x + 1) * 2 ^ ns.sum := by rw [Nat.add_one_mul]; omega
      _ ≤ 2 ^ n * 2 ^ ns.sum := Nat.mul_le_mul_right _ hx
      _ = 2 ^ (n :: ns).sum := by rw [List.sum_cons, Nat.pow_add]

/-- What stands above the fields of a word does not change them. -/
theorem fieldsOf_below {ns : List Nat} {m : Nat} (h : ns.sum ≤ m) (a b : Nat) : fieldsOf ns (a * 2 ^ m + b) = fieldsOf ns b := by
  induction ns with
  | nil => rfl
  | cons n ns ih =>
    rw [List.sum_cons] at h
    rw [fieldsOf, fieldsOf, bits_below (by omega), ih (by omega)]

theorem fieldsOf_packFields {ns xs : List Nat} (h : FieldsFit ns xs) : fieldsOf ns (packFields ns xs) = xs := by
  induction h with
  | nil => rfl
  | @cons n x ns xs hx hxs ih =>
    rw [packFields, fieldsOf, fieldsOf_below le_rfl, ih, bits_above (packFields_lt hxs) le_rfl, Nat.sub_self, bits_all hx]

theorem packFields_fieldsOf {ns : List Nat} {w : Nat} (h : w < 2 ^ ns.sum) : packFields ns (fieldsOf ns w) = w := by
  have low : ∀ ns : List Nat, packFields ns (fieldsOf ns w) = bits w 0 ns.sum := by
    intro ns
    induction ns with
    | nil => simp [packFields, bits, Nat.mod_one]
    | cons n ns ih =>
      have join := bits_join w 0 ns.sum n
      rw [Nat.zero_add] at join
      rw [fieldsOf, packFields, ih, join, List.sum_cons, Nat.add_comm]
  rw [low, bits_all h]

/-- The bits of a Bool field. -/
theorem toNat_bit (w lo : Nat) : (bits w lo 1 == 1).toNat = bits w lo 1 := by
  have h : bits w lo 1 < 2 := Nat.mod_lt _ (by decide)
  obtain h | h : bits w lo 1 = 0 ∨ bits w lo 1 = 1 := by omega
  all_goals rw [h]; rfl

theorem boolToNat_inj {a b : Bool} : a.toNat = b.toNat ↔ a = b := by cases a <;> cases b <;> decide

/-- Values of type `F` with the opcode `op` are the fields of a word, of widths `ns` with the opcode's first. -/
structure IsFormat {F : Type} (ns : List Nat) (op : Nat) (values : F → List Nat) (wf : F → Bool) (opcode : Nat → Nat) (read : Nat → F) (word : F → Nat) : Prop where
  word_eq : ∀ f, word f = packFields ns (op :: values f)
  read_eq : ∀ w, fieldsOf ns w = opcode w :: values (read w)
  injective : Function.Injective values
  fits : ∀ f, wf f = true → FieldsFit ns (op :: values f)

section Format
variable {F : Type} {ns : List Nat} {op : Nat} {values : F → List Nat} {wf : F → Bool} {opcode : Nat → Nat} {read : Nat → F} {word : F → Nat}

/-- What is written is read back. -/
theorem IsFormat.read_word (h : IsFormat ns op values wf opcode read word) {f : F} (hf : wf f = true) :
    word f < 2 ^ ns.sum ∧ opcode (word f) = op ∧ read (word f) = f := by
  have hfit := h.fits f hf
  have hread := h.read_eq (word f)
  rw [h.word_eq, fieldsOf_packFields hfit, ← h.word_eq, List.cons.injEq] at hread
  exact ⟨h.word_eq f ▸ packFields_lt hfit, hread.1.symm, (h.injective hread.2).symm⟩

/-- What is read, written again, is the word: no bit of it is dropped. -/
theorem IsFormat.word_read (h : IsFormat ns op values wf opcode read word) {w : Nat} (hw : w < 2 ^ ns.sum) (ho : opcode w = op) : word (read w) = w := by
  rw [h.word_eq, ← ho, ← h.read_eq, packFields_fieldsOf hw]

end Format

/-- The vector format (Table 7.3). -/
theorem VF.isFormat {op : Nat} (ho : op < 2 ^ 8) :
    IsFormat [8, 5, 5, 5, 5, 3, 1, 13, 4, 5, 5, 1, 4] op (fun f : VF => [f.d, f.a, f.b, f.c, f.ms, f.men, f.cnt, f.sa, f.f1, f.f2, f.ovf, f.rsv])
      VF.wf (bits · 56 8) VF.ofWord (VF.word op) where
  word_eq f := by simp [VF.word, packFields, Nat.add_assoc]
  read_eq w := rfl
  injective := by
    rintro ⟨⟩ ⟨⟩ h
    simpa using h
  fits f h := by simpa [VF.wf, inBits, show op < 256 from ho, and_assoc] using h

/-- The scalar format (Table 7.4). -/
theorem SF.isFormat {op : Nat} (ho : op < 2 ^ 8) :
    IsFormat [8, 4, 4, 4, 3, 9, 32] op (fun f : SF => [f.sd, f.sa, f.sb, f.ms, f.rsv, f.imm]) SF.wf (bits · 56 8) SF.ofWord (SF.word op) where
  word_eq f := by simp [SF.word, packFields, Nat.add_assoc]
  read_eq w := rfl
  injective := by
    rintro ⟨⟩ ⟨⟩ h
    simpa using h
  fits f h := by simpa [SF.wf, inBits, show op < 256 from ho, and_assoc] using h

/-- Table 5.2. -/
theorem FsetF.isFormat :
    IsFormat [4, 1, 5, 2, 5, 79, 32] 1 (fun f : FsetF => [f.side, f.fmt, f.xmode, f.xfmt, f.rsv, f.xtid]) FsetF.wf (bits · 124 4) FsetF.ofWord FsetF.word where
  word_eq f := by simp [FsetF.word, packFields, Nat.add_assoc]
  read_eq w := rfl
  injective := by
    rintro ⟨⟩ ⟨⟩ h
    simpa [and_comm, and_left_comm] using h
  fits f h := by simpa [FsetF.wf, inBits, and_comm, and_left_comm, and_assoc] using h

/-- Table 5.3, with the two parts of its reserved bits. -/
theorem PassF.isFormat :
    IsFormat [4, 6, 5, 9, 1, 1, 18, 20, 64] 2
      (fun f : PassF => [f.group, f.slot, f.dtile, f.last.toNat, f.ahold.toNat, f.rsv / 2 ^ 64, f.kg, f.rsv % 2 ^ 64])
      PassF.wf (bits · 124 4) PassF.ofWord PassF.word where
  word_eq f := by simp [PassF.word, packFields, Nat.add_assoc]
  read_eq w := by
    have hlow : bits w 0 64 < 2 ^ 64 := Nat.mod_lt _ (by decide)
    have hhigh : (bits w 84 18 * 2 ^ 64 + bits w 0 64) / 2 ^ 64 = bits w 84 18 := by omega
    have hrest : (bits w 84 18 * 2 ^ 64 + bits w 0 64) % 2 ^ 64 = bits w 0 64 := by omega
    simp only [PassF.ofWord, toNat_bit, hhigh, hrest]
    rfl
  injective := by
    rintro ⟨g, s, d, l, a, k, r⟩ ⟨g', s', d', l', a', k', r'⟩ h
    simp only [List.cons.injEq, boolToNat_inj] at h
    obtain ⟨rfl, rfl, rfl, rfl, rfl, hhigh, rfl, hlow, -⟩ := h
    have : r = r' := by omega
    rw [this]
  fits f h := by
    simp only [PassF.wf, inBits, Bool.and_eq_true, decide_eq_true_eq] at h
    obtain ⟨⟨⟨⟨hg, hs⟩, hd⟩, hk⟩, hr⟩ := h
    have hhigh : f.rsv / 2 ^ 64 < 2 ^ 18 := by omega
    have hlow : f.rsv % 2 ^ 64 < 2 ^ 64 := Nat.mod_lt _ (by decide)
    have hbit : ∀ b : Bool, b.toNat < 2 ^ 1 := Bool.toNat_lt
    simp only [List.forall₂_cons, List.forall₂_nil_left_iff, and_true]
    exact ⟨by decide, hg, hs, hd, hbit _, hbit _, hhigh, hk, hlow⟩

/-- Table 5.4. -/
theorem GopenF.isFormat :
    IsFormat [4, 6, 2, 9, 9, 9, 16, 21, 16, 4, 32] 3
      (fun f : GopenF => [f.group, f.mode, f.dbase, f.dcountM1, f.tcolsM1, f.outNM1, f.row0, f.col0, f.rsv, f.outTid])
      GopenF.wf (bits · 124 4) GopenF.ofWord GopenF.word where
  word_eq f := by simp [GopenF.word, packFields, Nat.add_assoc]
  read_eq w := rfl
  injective := by
    rintro ⟨⟩ ⟨⟩ h
    simpa [and_comm, and_left_comm] using h
  fits f h := by simpa [GopenF.wf, inBits, and_comm, and_left_comm, and_assoc] using h

/-- Table 5.5. -/
theorem GdrainF.isFormat :
    IsFormat [4, 6, 2, 1, 115] 4 (fun f : GdrainF => [f.group, f.form, f.close.toNat, f.rsv]) GdrainF.wf (bits · 124 4) GdrainF.ofWord GdrainF.word where
  word_eq f := by simp [GdrainF.word, packFields, Nat.add_assoc]
  read_eq w := by
    simp only [GdrainF.ofWord, toNat_bit]
    rfl
  injective := by
    rintro ⟨⟩ ⟨⟩ h
    simpa [boolToNat_inj] using h
  fits f h := by simpa [GdrainF.wf, inBits, Bool.toNat_le, and_assoc] using h

/-! Lantern instructions. -/

/-- Each row of Table 7.5 carries its opcode and its fields. -/
theorem lanWord_vecInstr {i : LIss} {f : VF} {op : Nat} {c : Instr} (h : vecInstr i f op = some c) :
    lanWord c = some (i, f.word op) ∧ c.wf = vecWf i f ∧ lanOpcode op = true ∧ op < 0x40 := by
  unfold vecInstr at h
  split at h <;> cases h <;> exact ⟨rfl, rfl, by decide, by decide⟩

/-- Each row of Table 7.6 carries its opcode and its fields. -/
theorem lanWord_scaInstr {i : LIss} {f : SF} {op : Nat} {c : Instr} (h : scaInstr i f op = some c) :
    lanWord c = some (i, f.word op) ∧ c.wf = scaWf i f ∧ lanOpcode op = true ∧ 0x40 ≤ op ∧ op < 2 ^ 8 := by
  unfold scaInstr at h
  split at h <;> cases h <;> exact ⟨rfl, rfl, by decide, by decide, by decide⟩

/-- A command that a Lantern's word spells: a row of Table 7.5 or 7.6, or a word of no row. -/
inductive LanSpelt (i : LIss) : Nat → Instr → Prop
  | vec {op : Nat} {f : VF} {c : Instr} (h : vecInstr i f op = some c) : LanSpelt i (f.word op) c
  | sca {op : Nat} {f : SF} {c : Instr} (h : scaInstr i f op = some c) : LanSpelt i (f.word op) c
  | none (w : Nat) : LanSpelt i w (.fLanternIllegal i w)

theorem lanWord_spelt {c : Instr} {i : LIss} {w : Nat} (h : lanWord c = some (i, w)) : LanSpelt i w c := by
  cases c
  case fLanternIllegal => cases h; exact .none w
  case vadd | vsub | vmul | vfma | vdiv | vsqrt | vmin | vmax | vabs | vneg | vadds | vmuls | vfmas | vpadd | viadd | visub | vimul | viaddsat | vand | vor
      | vxor | vshl | vsra | vsrl | viota | vmov | vbcast | vcmp | vicmp | vsel | mand | mor | mnot | many | vrsum | vrmax | vrmin | vrcsum | vrisum | vcvt
      | vld | vst =>
    cases h; exact .vec rfl
  case sli | slih | saddi | sadd | ssub | smul | sshl | sshr | sfadd | sfsub | sfmul | sfdiv | sfsqrt | scmpm | ssel | rdp | setvl | setvli | modew | moder
      | loop | endloop | brk | boundary | bar | sched | lnRet | pivf | lnEnd | lnStop | astr | aiss | await | aflg | lnNop =>
    cases h; exact .sca rfl
  all_goals cases h

theorem lanInstr_vec {i : LIss} {w : Nat} {c : Instr} (h : vecInstr i (VF.ofWord w) (bits w 56 8) = some c) : lanInstr i w = c := by
  rw [lanInstr, h]

theorem lanInstr_sca {i : LIss} {w : Nat} {c : Instr} (h : scaInstr i (SF.ofWord w) (bits w 56 8) = some c) : lanInstr i w = c := by
  have hv : vecInstr i (VF.ofWord w) (bits w 56 8) = none := by
    refine Option.eq_none_iff_forall_not_mem.mpr (fun c' hc' => ?_)
    obtain ⟨-, -, -, hlow⟩ := lanWord_vecInstr hc'
    obtain ⟨-, -, -, hhigh, -⟩ := lanWord_scaInstr h
    omega
  rw [lanInstr, hv, h]

theorem lanInstr_illegal {w : Nat} (i : LIss) (h : lanOpcode (bits w 56 8) = false) : lanInstr i w = .fLanternIllegal i w := by
  have hv : vecInstr i (VF.ofWord w) (bits w 56 8) = none := by
    refine Option.eq_none_iff_forall_not_mem.mpr (fun c hc => ?_)
    obtain ⟨-, -, hop, -⟩ := lanWord_vecInstr hc
    exact absurd (hop.symm.trans h) (by decide)
  have hs : scaInstr i (SF.ofWord w) (bits w 56 8) = none := by
    refine Option.eq_none_iff_forall_not_mem.mpr (fun c hc => ?_)
    obtain ⟨-, -, hop, -⟩ := lanWord_scaInstr hc
    exact absurd (hop.symm.trans h) (by decide)
  rw [lanInstr, hv, hs]

/-- A well-formed instruction is read back from its word. -/
theorem lanInstr_lanWord {c : Instr} {i : LIss} {w : Nat} (hc : c.wf = true) (h : lanWord c = some (i, w)) : w < 2 ^ 64 ∧ lanInstr i w = c := by
  cases lanWord_spelt h with
  | vec hrow =>
    obtain ⟨-, hwf, -, hop⟩ := lanWord_vecInstr hrow
    rw [hwf, vecWf, Bool.and_eq_true] at hc
    obtain ⟨hlt, hopc, hf⟩ := (VF.isFormat (hop.trans (by decide))).read_word hc.2
    exact ⟨hlt, lanInstr_vec (by rw [hopc, hf, hrow])⟩
  | sca hrow =>
    obtain ⟨-, hwf, -, -, hop⟩ := lanWord_scaInstr hrow
    rw [hwf, scaWf, Bool.and_eq_true] at hc
    obtain ⟨hlt, hopc, hf⟩ := (SF.isFormat hop).read_word hc.2
    exact ⟨hlt, lanInstr_sca (by rw [hopc, hf, hrow])⟩
  | none =>
    simp only [Instr.wf, inBits, Bool.and_eq_true, decide_eq_true_eq, Bool.not_eq_true'] at hc
    obtain ⟨⟨-, hlt⟩, hop⟩ := hc
    exact ⟨hlt, lanInstr_illegal i hop⟩

/-- No bit of a Lantern's word is dropped. -/
theorem lanWord_lanInstr (i : LIss) {w : Nat} (h : w < 2 ^ 64) : lanWord (lanInstr i w) = some (i, w) := by
  have hop : bits w 56 8 < 2 ^ 8 := Nat.mod_lt _ (by decide)
  cases hv : vecInstr i (VF.ofWord w) (bits w 56 8) with
  | some c => rw [lanInstr_vec hv, (lanWord_vecInstr hv).1, (VF.isFormat hop).word_read h rfl]
  | none =>
    cases hs : scaInstr i (SF.ofWord w) (bits w 56 8) with
    | some c => rw [lanInstr_sca hs, (lanWord_scaInstr hs).1, (SF.isFormat hop).word_read h rfl]
    | none => rw [lanInstr, hv, hs]; rfl

/-! Array instructions: what a word spells, by its OP (Table 5.1). -/

section ArrayOps
variable (x : AIss) {w : Nat}

theorem arrInstr_nop (h : bits w 124 4 = 0) : arrInstr x w = .arrNop x (bits w 0 124) := by simp only [arrInstr, h]
theorem arrInstr_fset (h : bits w 124 4 = 1) : arrInstr x w = .fset x (FsetF.ofWord w) := by simp only [arrInstr, h]
theorem arrInstr_pass (h : bits w 124 4 = 2) : arrInstr x w = .pass x (PassF.ofWord w) := by simp only [arrInstr, h]
theorem arrInstr_gopen (h : bits w 124 4 = 3) : arrInstr x w = .gopen x (GopenF.ofWord w) := by simp only [arrInstr, h]
theorem arrInstr_gdrain (h : bits w 124 4 = 4) : arrInstr x w = .gdrain x (GdrainF.ofWord w) := by simp only [arrInstr, h]

theorem arrInstr_reserved {op : Nat} (hop : 5 ≤ op) (h : bits w 124 4 = op) : arrInstr x w = .fSpireOp x op := by
  subst h
  unfold arrInstr
  split
  case h_6 => rfl
  all_goals omega

end ArrayOps

/-- A NOP: its reserved bits are the rest of its word. -/
theorem arrNop_isFormat : IsFormat [4, 124] 0 (fun n : Nat => [n]) (inBits 124) (bits · 124 4) (bits · 0 124) (fun n => n) where
  word_eq n := by simp [packFields]
  read_eq w := rfl
  injective := by
    intro a b h
    simpa using h
  fits n h := by simpa [inBits] using h

/-- A well-formed array instruction is read back from its word. -/
theorem arrInstr_arrWord {c : Instr} {x : AIss} {w : Nat} (hc : c.wf = true) (h : arrWord c = some (x, w)) : w < 2 ^ 128 ∧ arrInstr x w = c := by
  cases c
  case arrNop =>
    cases h
    obtain ⟨-, hwf⟩ := (Bool.and_eq_true _ _).mp hc
    obtain ⟨hlt, hop, hr⟩ := arrNop_isFormat.read_word hwf
    exact ⟨hlt, by rw [arrInstr_nop x hop, hr]⟩
  case fset =>
    cases h
    obtain ⟨-, hwf⟩ := (Bool.and_eq_true _ _).mp hc
    obtain ⟨hlt, hop, hr⟩ := FsetF.isFormat.read_word hwf
    exact ⟨hlt, by rw [arrInstr_fset x hop, hr]⟩
  case pass =>
    cases h
    obtain ⟨-, hwf⟩ := (Bool.and_eq_true _ _).mp hc
    obtain ⟨hlt, hop, hr⟩ := PassF.isFormat.read_word hwf
    exact ⟨hlt, by rw [arrInstr_pass x hop, hr]⟩
  case gopen =>
    cases h
    obtain ⟨-, hwf⟩ := (Bool.and_eq_true _ _).mp hc
    obtain ⟨hlt, hop, hr⟩ := GopenF.isFormat.read_word hwf
    exact ⟨hlt, by rw [arrInstr_gopen x hop, hr]⟩
  case gdrain =>
    cases h
    obtain ⟨-, hwf⟩ := (Bool.and_eq_true _ _).mp hc
    obtain ⟨hlt, hop, hr⟩ := GdrainF.isFormat.read_word hwf
    exact ⟨hlt, by rw [arrInstr_gdrain x hop, hr]⟩
  case fSpireOp op =>
    cases h
    obtain ⟨-, hop⟩ := (Bool.and_eq_true _ _).mp hc
    obtain ⟨hlo, hhi⟩ := of_decide_eq_true hop
    have hread : bits (op * 2 ^ 124) 124 4 = op := by simp only [bits, Nat.shiftRight_eq_div_pow]; omega
    exact ⟨by omega, arrInstr_reserved x hlo hread⟩
  all_goals cases h

/-- No bit of an array's word is dropped whose OP Table 5.1 names. -/
theorem arrWord_arrInstr (x : AIss) {w : Nat} (h : w < 5 * 2 ^ 124) : arrWord (arrInstr x w) = some (x, w) := by
  have hw : w < 2 ^ 128 := by omega
  have hop : bits w 124 4 < 5 := by simp only [bits, Nat.shiftRight_eq_div_pow]; omega
  obtain h | h | h | h | h : bits w 124 4 = 0 ∨ bits w 124 4 = 1 ∨ bits w 124 4 = 2 ∨ bits w 124 4 = 3 ∨ bits w 124 4 = 4 := by omega
  · rw [arrInstr_nop x h, arrWord, arrNop_isFormat.word_read hw h]
  · rw [arrInstr_fset x h, arrWord, FsetF.isFormat.word_read hw h]
  · rw [arrInstr_pass x h, arrWord, PassF.isFormat.word_read hw h]
  · rw [arrInstr_gopen x h, arrWord, GopenF.isFormat.word_read hw h]
  · rw [arrInstr_gdrain x h, arrWord, GdrainF.isFormat.word_read hw h]

/-- Settles O41: each format of a word is a row of fields, and each opcode names its format. -/
theorem wordsSpellInstructions : Obligations.WordsSpellInstructions :=
  ⟨fun _ _ _ => lanInstr_lanWord, fun i _ => lanWord_lanInstr i, fun _ _ _ => arrInstr_arrWord, fun x _ => arrWord_arrInstr x⟩

end Sys2Proof
end

section
/-! Instructions that are not due (log 7), and what passes on an empty queue (log 4). -/

namespace Sys2Proof

/-- Frozen cycles of one cycle (Table 14.3). -/
theorem frozenIn_one (level c : Nat) : frozenIn level c 1 = if arrayFrozenAt level c then 1 else 0 := by
  cases h : arrayFrozenAt level c <;> simp [frozenIn, h]

end Sys2Proof

namespace Sys2Proof.Machine

/-- A Lantern instruction acts only where its Lantern has it next. -/
theorem exec_lanWord {c : Instr} {i : LIss} {w : Nat} (h : lanWord c = some (i, w)) (s : State) : ∃ t, exec c s = .next (s.onLan c i t) := by
  cases c <;> cases h <;> exact ⟨_, rfl⟩

/-- An array instruction acts only at the head of its array's queue. -/
theorem exec_arrWord {c : Instr} {x : AIss} {w : Nat} (h : arrWord c = some (x, w)) (s : State) : ∃ t, exec c s = .next (s.onArr c x t) := by
  cases c <;> cases h <;> exact ⟨_, rfl⟩

/-- Settles O42: what an instruction does stands behind the guard that it is the next one. -/
theorem onlyTheNextInstructionActs : Obligations.OnlyTheNextInstructionActs := by
  refine ⟨fun s c i w hc hn => ?_, fun s c x w hc hn => ?_⟩
  · obtain ⟨t, ht⟩ := exec_lanWord hc s
    rw [ht, State.onLan_other hn]
  · obtain ⟨t, ht⟩ := exec_arrWord hc s
    rw [ht, State.onArr_other hn]

/-- A frozen cycle is a matter of counters: nothing but objects changes. -/
theorem State.freezeArrays_frame (s : State) (n : Nat) : s.freezeArrays n = s.setObjs (s.freezeArrays n).objs := by
  refine List.foldlRecOn (List.range s.nArr) _ (motive := fun t => t = s.setObjs t.objs) rfl (fun t ht a _ => ?_)
  rw [ht]
  rfl

/-- The counts of a cycle in which Table 14.3 freezes the arrays. -/
def State.countFrozen (s : State) : State :=
  if arrayFrozenAt (s.obj O.throttleLevel) s.cycle then (s.freezeArrays 1).bump O.throttleFrozen 0 32 1 else s

theorem State.countFrozen_frame (s : State) : s.countFrozen = s.setObjs s.countFrozen.objs := by
  unfold State.countFrozen
  split
  · rw [s.freezeArrays_frame 1]
    rfl
  · rfl

/-- One cycle: the counts, the cycle number, and the time base at its corrected rate (R330, R384). -/
theorem State.advance_one (s : State) :
    s.advance 1 = (s.countFrozen.setCycle (s.cycle + 1)).setTb (((s.tb : Int) + 2 ^ 48 + s.rate).toNat % 2 ^ 112) := by
  have hcount : (if frozenIn (s.obj O.throttleLevel) s.cycle 1 = 0 then s
      else (s.freezeArrays (frozenIn (s.obj O.throttleLevel) s.cycle 1)).bump O.throttleFrozen 0 32 (frozenIn (s.obj O.throttleLevel) s.cycle 1)) = s.countFrozen := by
    rw [State.countFrozen, frozenIn_one]
    split <;> rfl
  have htb : (s.tb : Int) + (1 : Nat) * ((tbCycle : Int) + s.rate) = (s.tb : Int) + 2 ^ 48 + s.rate := by
    rw [Nat.cast_one, one_mul, ← add_assoc]
    rfl
  rw [State.advance, if_neg Nat.one_ne_zero, ← htb]
  dsimp only
  rw [hcount, s.countFrozen_frame]
  rfl

/-- Settles O2: an empty queue leaves the passing of one cycle. -/
theorem emptyQueuePassesOneCycle : Obligations.EmptyQueuePassesOneCycle := by
  intro s hp
  have hidle : step s = .next s.idle := by rw [step, hp]
  rw [hidle, State.idle]
  exact ⟨fun hr => congrArg _ (if_pos hr), fun hr => congrArg _ ((if_neg (ne_true_of_eq_false hr)).trans s.advance_one)⟩

end Sys2Proof.Machine
end

section
/-! Acts whose reads are there (R277). -/

namespace Sys2Proof.Machine

/-- What follows an act that lacks nothing takes its outcome. -/
theorem State.readThen_gives {ε : Type} {s : State} {a : Act} {f : State → State × ε} (k : State → ε → State) {x : ε}
    (hw : (f (s.acting a)).1.reads.want = none) (hx : (f (s.acting a)).2 = x) : s.readThen a f k = k ((f (s.acting a)).1.did s a) x := by
  subst hx
  exact State.readThen_done rfl hw

end Sys2Proof.Machine
end

section
/-! What a routine comes to at its dispatch (R139, R143, R179). -/

namespace Sys2Proof.Machine

/-- What follows a check that passes is all that is left of its outcome. -/
theorem andThen_eq_ok {α β : Type} {p : Chked α} {k : State → α → Chked β} {y : β} (h : (andThen p k).2 = .ok y) :
    ∃ x, p.2 = .ok x ∧ (k p.1 x).2 = .ok y := by
  obtain ⟨s, x | x⟩ := p
  · cases h
  · exact ⟨x, rfl, h⟩

/-- A routine that passes every check of its dispatch stands as its first iteration starts. -/
theorem State.checkRout_eq_ok {s : State} {r r1 : Rout} {d : DRt} (h : (s.checkRout r d).2 = .ok r1) :
    ∃ i base sched c st cx, r1 = routStart r i base sched c st cx := by
  unfold State.checkRout at h
  split at h
  · cases h
  obtain ⟨-, -, h⟩ := andThen_eq_ok h
  obtain ⟨⟨i, e⟩, -, h⟩ := andThen_eq_ok h
  obtain ⟨-, -, h⟩ := andThen_eq_ok h
  obtain ⟨-, -, h⟩ := andThen_eq_ok h
  obtain ⟨sched, -, h⟩ := andThen_eq_ok h
  obtain ⟨c, -, h⟩ := andThen_eq_ok h
  obtain ⟨⟨st, cx⟩, -, h⟩ := andThen_eq_ok h
  obtain ⟨-, -, h⟩ := andThen_eq_ok h
  obtain ⟨-, -, h⟩ := andThen_eq_ok h
  obtain ⟨-, -, h⟩ := andThen_eq_ok h
  exact ⟨i, e.base, sched, c, st, cx, (Except.ok.inj h).symm⟩

theorem exec_routine (q : Nat) (s : State) :
    ∀ p ∈ ([(.gram q, 0x10), (.rootOp q, 0x11), (.solve q, 0x12), (.precond q, 0x13)] : List (Instr × Nat)),
      exec p.1 s = .next (s.dispatch q (isOp p.2) (State.startRout q)) := by
  simp only [List.forall_mem_cons, List.not_mem_nil, false_implies, implies_true, and_true]
  exact ⟨rfl, rfl, rfl, rfl⟩

/-- The next descriptor of a queue, a well-formed routine, is dispatched by the command of its opcode. -/
theorem State.dispatch_routine {s : State} {q : Nat} {d : DRt} {op : Nat} (hp : s.phase = 4) (hd : s.nextDisp q = some d)
    (hm : d.d.malformed = false) (hn : d.noSync = false) (ho : d.d.opcode = op) : s.dispatch q (isOp op) (State.startRout q) = s.dispRout q d := by
  rw [State.dispatch_go hp hd (by simp [isOp, hm, ho]), State.startRout, if_neg (ne_true_of_eq_false hn)]

/-- What a routine comes to once its checks have come out as `x`, in state `t`; one that waits for the image store leaves `s`. -/
def State.afterRoutChecks (s : State) (q seq : Nat) (t : State) (x : Except Nat Rout) : State :=
  match x with
  | .error c => if c = waitCode then s else (t.nowRuns q seq).faultRout q seq c
  | .ok r =>
    let u := (t.nowRuns q seq).rupd q seq (fun _ => t.place r true)
    if (r.r.kind = .root ∨ r.r.kind = .solve) ∧ !(r.samples.any (·.init)) then u.endRout q seq 6 0 else u

section Dispatch
variable {s : State} {q : Nat} {d : DRt} {r : Rout} (hr : s.rfind q d.seq = some r)
include hr

theorem State.dispRout_noop (hb : r.r.isNoop = true) : s.dispRout q d = (s.nowRuns q d.seq).endRout q d.seq 1 0 := by
  simp [State.dispRout, hr, hb]

theorem State.dispRout_held (hb : r.r.isNoop = false) (ht : s.testDrains = true) : s.dispRout q d = s := by
  simp [State.dispRout, hr, hb, ht]

variable (hb : r.r.isNoop = false) (ht : s.testDrains = false)
include hb ht

theorem State.dispRout_badHeader (hh : r.hdrCode ≠ 0) :
    s.dispRout q d = ((s.nowRuns q d.seq).blame r r.r.imageTid).faultRout q d.seq r.hdrCode := by
  simp [State.dispRout, hr, hb, ht, hh]

/-- One whose header was read goes on as its checks come out, once they lack no walk and no read. -/
theorem State.dispRout_reads (hh : r.hdrCode = 0) :
    s.dispRout q d = s.readThen (.desc q d.seq) (fun s => s.checkRout r d) (s.afterRoutChecks q d.seq) := by
  simp only [State.dispRout, hr, hb, ht, hh, bne_self_eq_false, Bool.false_eq_true, if_false]
  rfl

theorem State.dispRout_checked {x : Except Nat Rout} (hh : r.hdrCode = 0)
    (hw : ((s.acting (.desc q d.seq)).checkRout r d).1.reads.want = none) (hx : ((s.acting (.desc q d.seq)).checkRout r d).2 = x) :
    s.dispRout q d = s.afterRoutChecks q d.seq (((s.acting (.desc q d.seq)).checkRout r d).1.did s (.desc q d.seq)) x := by
  rw [State.dispRout_reads hr hb ht hh]
  exact State.readThen_gives _ hw hx

end Dispatch

/-- Settles O36: the dispatch by the cases of `State.dispRout`, the state of a start from what passing all checks gives. -/
theorem routinesStart : Obligations.RoutinesStart := by
  intro s q d r hp hd hm hn hr p hmem ho
  have hdisp : exec p.1 s = .next (s.dispRout q d) := by
    rw [exec_routine q s p hmem, State.dispatch_routine hp hd hm hn ho]
  rw [hdisp]
  refine ⟨fun hb => congrArg _ (State.dispRout_noop hr hb), fun hb ht => congrArg _ (State.dispRout_held hr hb ht), fun hb ht => ?_⟩
  refine ⟨fun hh => congrArg _ (State.dispRout_badHeader hr hb ht hh), fun w hh hw hlen => congrArg _ ?_, fun code hh hw hx => ?_, fun r1 hh hw hx => ?_⟩
  · rw [State.dispRout_reads hr hb ht hh]
    exact State.readThen_asks hw hlen
  · rw [State.dispRout_checked hr hb ht hh hw hx]
    rfl
  · rw [State.dispRout_checked hr hb ht hh hw hx]
    obtain ⟨i, base, sched, c, st, cx, hstart⟩ := State.checkRout_eq_ok hx
    refine ⟨⟨i, ?_⟩, ⟨rfl, rfl⟩, fun hi => congrArg _ (if_pos (by simpa using hi)), fun hi => congrArg _ (if_neg (by simpa using hi))⟩
    rw [hstart]
    exact ⟨rfl, rfl, by simp [routStart, List.map_const'], rfl, rfl, rfl⟩

end Sys2Proof.Machine
end

section
/-! Routines between their instructions: pre-emption, restart, and the fall-back service (R133, R168, R172, R205). -/

namespace Sys2Proof.Machine

section IterBound
variable {s : State} {q seq : Nat} {r : Rout} (hr : s.rfind q seq = some r) (hl : s.live = true)
include hr hl

/-- A pre-empted routine's iteration is discarded, and the request served (R172). -/
theorem State.iterBound_preempts (hp : r.preempt = true) (hph : r.phase = .loaded) :
    s.iterBound q seq = ((s.bump O.iterDiscards 0 32 1).rupd q seq (fun r => { r with itPasses := 0, itOps := 0 })).preemptNow q seq r.preemptReset := by
  simp [State.iterBound, hr, hl, hp, hph]

end IterBound

section Restart
variable {s : State} {q seq : Nat} {r : Rout} (hr : s.rfind q seq = some r) (hl : s.live = true) (hph : r.phase = .restart) (ha : s.awake = true)
  (hd : s.draining = false) (ht : s.testDrains = false) (hw : s.waits (.rout q seq) = false)
include hr hl hph ha hd ht hw

/-- A queue reset that waited ends the routine (R172). -/
theorem State.restart_reset (hp : r.preempt = true ∧ r.preemptReset = true) : s.restart q seq = s.preemptNow q seq true := by
  simp [State.restart, hr, hl, hph, ha, hd, ht, hw, hp]

variable (hp : ¬(r.preempt = true ∧ r.preemptReset = true))
include hp

theorem State.restart_noUnit (hu : s.arrOf 0 = none ∨ s.lanOf 0 = none) : s.restart q seq = s.faultRout q seq 0x010D := by
  simp [State.restart, hr, hl, hph, ha, hd, ht, hw, hp, hu]

variable (harr : s.arrOf 0 ≠ none) (hlan : s.lanOf 0 ≠ none)
include harr hlan

theorem State.restart_limit (hpre : r.preempted = false) (hn : s.obj O.routineRestartLimit ≤ r.restarts) :
    s.restart q seq = s.faultRout q seq 0x0407 := by
  simp [State.restart, hr, hl, hph, ha, hd, ht, hw, hp, harr, hlan, hpre, hn]

/-- One that may restart does so as its checkpoint reads (R168). -/
theorem State.restart_reads (hn : r.preempted = true ∨ r.restarts < s.obj O.routineRestartLimit) {i : Image} {e : TmEntry} (hi : r.img = some i)
    (he : r.ctxEnt = some e) :
    s.restart q seq = s.readThen (.restart q seq) (fun s => s.ckptRead r i e) (fun s x => s.restartNow r i x) := by
  have hlim : (!r.preempted && decide (s.obj O.routineRestartLimit ≤ r.restarts)) = false := by
    obtain hpre | hlt := hn
    · simp [hpre]
    · simp [hlt]
  simp [State.restart, hr, hl, hph, ha, hd, ht, hw, hp, harr, hlan, hlim, hi, he]

end Restart

/-- Before its first checkpoint a routine restarts as at its start (R167, R179). -/
theorem restored_start {r : Rout} (i : Image) (raw : Nat) (h : r.ckptSeq = 0) :
    (restored r i raw).lans = (List.range i.lanterns).map (fun l => { pc := nth 0 i.entries l }) ∧
      (restored r i raw).arrs = List.replicate i.arrays {} ∧ (restored r i raw).iteration = 0 ∧ (restored r i raw).lam = plusZero r.r.damp := by
  simp [restored, h, List.map_const']

/-- What the service makes of a promotion once the read of its entries has come out as `x`, in state `t` (R133). -/
def State.afterPromoRead (q seq : Nat) (r : Rout) (img : Image) (a : LArr) (la m : Nat) (p : Promo) (l : List Promo) (t : State) (x : Except Nat Unit) : State :=
  match x with
  | .error c => t.faultRout q seq c
  | .ok _ => t.fallbackDo r img a la m p l

/-- The service takes the oldest promotion of a fall-back array once what it reads is there (R133, R205). -/
theorem State.fallback_reads {s : State} {q seq la slot m : Nat} {r : Rout} {img : Image} {a : LArr} {p : Promo} {l : List Promo}
    (hr : s.rfind q seq = some r) (hm : s.serviceLan = some m) (ha : r.arrs[la]? = some a) (hi : r.img = some img) (hph : r.phase = .loaded)
    (hl : s.live = true) (haw : s.awake = true) (hf : s.lanFrozen = false) (hp : a.pend = p :: l) (hs : p.slot = slot)
    (hb : s.domeBusy r img la (promoSlot a p) 1 = false) :
    s.fallback q seq la slot =
      s.readThen (.dome q seq la) (fun s => s.domeRead r img la (promoSlot a p) 1) (State.afterPromoRead q seq r img a la m p l) := by
  simp only [State.fallback, hr, hm, ha, hi, hp]
  exact if_neg (by simp [hph, hl, haw, hf, hs, hb])

/-- Settles O39: each command by the branch of it that acts. -/
theorem routinesRestart : Obligations.RoutinesRestart := by
  intro s q seq r hr hl
  obtain ⟨hq, hseq⟩ := State.rfind_key hr
  have hbound : exec (.iterBound q seq) s = .next (s.iterBound q seq) := rfl
  have hrestart : exec (.routineRestart q seq) s = .next (s.restart q seq) := rfl
  have hfallback : ∀ la slot, exec (.fallbackPromotions q seq la slot) s = .next (s.fallback q seq la slot) := fun _ _ => rfl
  refine ⟨fun hp hph => ?_, fun hph ha hd ht hw => ?_, fun la slot a img m p l hm ha hi hph haw hf hpend hs hb => ?_⟩
  · rw [hbound, State.iterBound_preempts hr hl hp hph]
    exact ⟨fun h => by rw [h]; rfl, fun h => by rw [h]; rfl⟩
  · rw [hrestart]
    refine ⟨fun hp => congrArg _ (State.restart_reset hr hl hph ha hd ht hw hp), fun hp => ⟨fun hu => ?_, fun harr hlan => ⟨fun hpre hn => ?_, ?_⟩⟩⟩
    · exact congrArg _ (State.restart_noUnit hr hl hph ha hd ht hw hp hu)
    · exact congrArg _ (State.restart_limit hr hl hph ha hd ht hw hp harr hlan hpre hn)
    · intro hn i e hi he
      rw [State.restart_reads hr hl hph ha hd ht hw hp harr hlan hn hi he]
      refine ⟨fun w hw hlen => congrArg _ (State.readThen_asks hw hlen), fun c hw hx => congrArg _ ?_, fun raw hw hx => congrArg _ ?_,
        fun h0 raw => restored_start i raw h0⟩
      all_goals rw [State.readThen_gives _ hw hx, State.restartNow, hq, hseq]
  · rw [hfallback, State.fallback_reads hr hm ha hi hph hl haw hf hpend hs hb]
    refine ⟨fun w hw hlen => congrArg _ (State.readThen_asks hw hlen), fun c hw hx => congrArg _ ?_, fun hw hx => congrArg _ ?_⟩
    · rw [State.readThen_gives _ hw hx, State.afterPromoRead]
    · rw [State.readThen_gives _ hw hx, State.afterPromoRead, State.fallbackDo, hq, hseq]
      rfl

end Sys2Proof.Machine
end

section
/-! Reads that are there, and what reads and writes of staging leave of what an act has read (R277, R285). -/

namespace Sys2Proof.Machine

theorem State.request_reads (s : State) (m : MemReq) : (s.request m).reads = s.reads := by
  unfold State.request
  split <;> rfl

/-- An access issues requests; what the act has read stays. -/
theorem State.access_reads (s : State) (o : ReqOwner) (a n attr tenant : Nat) (data : Option (List Nat)) (p : Bool) :
    (s.access o a n attr tenant data p).reads = s.reads := by
  unfold State.access
  split
  · rfl
  · refine List.foldlRecOn (parts a n) _ (motive := fun t : State => t.reads = s.reads) rfl (fun t ht x _ => ?_)
    obtain ⟨lo, len⟩ := x
    dsimp only
    split
    · exact ht
    · exact (State.request_reads _ _).trans ht

theorem andThen_of_ok {α β : Type} {p : Chked α} {x : α} (k : State → α → Chked β) (h : p.2 = .ok x) : andThen p k = k p.1 x := by
  obtain ⟨s, y⟩ := p
  cases h
  rfl

/-- Reading what the act has read changes nothing. -/
theorem State.readAll_eq_ok {s : State} {l : List (Nat × Nat)} {attr tenant : Nat} {x : Unit} (h : (s.readAll l attr tenant).2 = .ok x) :
    (s.readAll l attr tenant).1 = s := by
  unfold State.readAll at h ⊢
  dsimp only at h ⊢
  split_ifs at h ⊢
  rfl

theorem State.readC_eq_ok {s : State} {a n attr tenant v : Nat} (h : (s.readC a n attr tenant).2 = .ok v) : (s.readC a n attr tenant).1 = s := by
  unfold State.readC at h ⊢
  obtain ⟨x, hx, -⟩ := andThen_eq_ok h
  rw [andThen_of_ok _ hx, State.readAll_eq_ok hx]
  split <;> rfl

theorem State.domeWrite_reads (s : State) (r : Rout) (img : Image) (a : LArr) (la d n : Nat) : (s.domeWrite r img a la d n).reads = s.reads := by
  unfold State.domeWrite
  split
  · rfl
  · exact State.access_reads _ _ _ _ _ _ _ _

/-- Fall-back entries that the act has read are there, and the state is as before. -/
theorem State.domeRead_eq_ok {s : State} {r : Rout} {img : Image} {la d n : Nat} (h : (s.domeRead r img la d n).2 = .ok ()) :
    (s.domeRead r img la d n).1 = s := by
  unfold State.domeRead at h ⊢
  cases hstage : domeStage r img la d n with
  | none => rfl
  | some p =>
    obtain ⟨adr, len, attr⟩ := p
    simp only [hstage] at h ⊢
    obtain ⟨x, hx, -⟩ := andThen_eq_ok h
    rw [andThen_of_ok _ hx, State.readC_eq_ok hx]

end Sys2Proof.Machine
end

section
/-! Array instructions (R112 to R133): the effect of each, and what comes of it. -/

namespace Sys2Proof

theorem passParts_length (fa fb : FsetF) : (passParts fa fb).length = if fa.fmt = 0 ∨ fb.fmt = 0 then 3 else 1 := by
  unfold passParts
  split <;> rfl

/-- The array once group `gr` has been drained: the flags in AFLG, the group closed where the instruction says so (R126). -/
def LArr.drained (b : LArr) (g : GdrainF) (gr : Grp) : LArr :=
  let b := { b with aflg := b.aflg ||| gr.flagBits }
  if g.close then b.setGrp g.group none else b

theorem LArr.drained_issuer (b : LArr) (g : GdrainF) (gr : Grp) : (b.drained g gr).issuer = b.issuer := by
  unfold LArr.drained
  cases g.close <;> rfl

end Sys2Proof

namespace Sys2Proof.Machine

/-- Logical array `x.la` has completed its instruction: it holds unit `u` (log 66), stands as `b` with the instruction gone, and its routine goes on. -/
def State.leaveArr (t : State) (x : AIss) (u : Nat) (b : LArr) : State :=
  ((t.setHolds (SMap.put none (2 * 65536 + u) (some (x.q, x.seq, x.la)) t.holds)).rupd x.q x.seq (fun r => r.updArr x.la (fun _ => b.pop))).settle x.q x.seq

section Issue
variable {s : State} {x : AIss} {r : Rout} {img : Image} {a : LArr} {u : Nat} (h : ArrIssues s x r img a u)
  {f : State → Rout → Image → LArr → Nat → AEff}
include h

/-- An instruction at the head of its array's queue comes to what its operation does. -/
theorem ArrIssues.gives {c : Instr} {t : State} (hc : exec c s = .next (s.onArr c x (s.arrDo x f))) (ht : s.arrDo x f = t) :
    img.arrNext x a = some c → exec c s = .next t := by
  intro hn
  rw [hc, State.onArr_due (h.next.trans hn), ht]

/-- One that lacks a read asks for it. -/
theorem ArrIssues.asks {w : Want} (hw : ((f (s.acting (arrAct x)) r img a u).state (s.acting (arrAct x))).reads.want = some w)
    (hlen : (s.ask (arrAct x) w).reads.res.length ≤ s.reads.res.length) : s.arrDo x f = s.ask (arrAct x) w := by
  have hrun : s.arrDo x f = s.readThen (arrAct x) (fun s => ((f s r img a u).state s, f s r img a u)) (State.arrRun r x.la u s) := by
    simp [State.arrDo, h.rout, h.arr, h.image, h.unit, h.runs, h.awake, h.serves, h.turn, h.checks, arrAct]
  rw [hrun]
  exact State.readThen_asks hw hlen

theorem ArrIssues.leaves {t : State} {b : LArr} (hf : f (s.acting (arrAct x)) r img a u = .go t b) (hw : t.reads.want = none) :
    s.arrDo x f = (t.did s (arrAct x)).leaveArr x u b := by
  obtain ⟨hq, hseq⟩ := State.rfind_key h.rout
  rw [State.arrDo_go h hf hw, State.hold_of hq hseq, hq, hseq]
  rfl

theorem ArrIssues.ends {t : State} {code : Nat} (hf : f (s.acting (arrAct x)) r img a u = .fail t code) (hw : t.reads.want = none) :
    s.arrDo x f = (t.did s (arrAct x)).faultRout x.q x.seq code := by
  obtain ⟨hq, hseq⟩ := State.rfind_key h.rout
  rw [State.arrDo_fail h hf hw, hq, hseq]

end Issue

/-- What a PASS counts once its entries are there (R116, R138, R150): `b` is the array with them. -/
def State.countPass (t : State) (r : Rout) (a b : LArr) (u : Nat) (p : PassF) : State :=
  let n := match a.fa, a.fb with | some x, some y => (passParts x y).length | _, _ => 1
  ((((t.passTiming u).bump O.passes u 32 n).countSat u a (b.pass r.r.srSeed r.r.srStep p)).spend (200 * 16384 * n)).rupd r.q r.seq
    (fun r => { presented a p r with itPasses := r.itPasses + n })

/-- The entries that a GDRAIN of group `gr` reads from staging: those of a fall-back array, unless it delivers nothing (R126, R133). -/
def State.drainRead (s : State) (r : Rout) (img : Image) (a : LArr) (la : Nat) (g : GdrainF) (gr : Grp) : Chked Unit :=
  if a.slow && g.form != 3 then s.domeRead r img la gr.dbase gr.dcount else (s, .ok ())

theorem State.drainRead_eq_ok {s : State} {r : Rout} {img : Image} {a : LArr} {la : Nat} {g : GdrainF} {gr : Grp}
    (h : (s.drainRead r img a la g gr).2 = .ok ()) : (s.drainRead r img a la g gr).1 = s := by
  unfold State.drainRead at h ⊢
  split
  · rename_i hc
    rw [if_pos hc] at h
    exact State.domeRead_eq_ok h
  · rfl

/-- MODE.DFLAG of Lantern `l`, which issued the drain of a group with flags (R126). -/
def State.flagDrain (t : State) (r : Rout) (l : Nat) (gr : Grp) : State :=
  if gr.flagBits = 0 then t else t.rupd r.q r.seq (fun r => r.updLan l (fun l => l.setMode 14))

theorem State.flagDrain_reads (t : State) (r : Rout) (l : Nat) (gr : Grp) : (t.flagDrain r l gr).reads = t.reads := by
  unfold State.flagDrain
  split <;> rfl

/-- What a GDRAIN delivers, and where it goes, once its entries are there. -/
def State.drainTo (t : State) (r : Rout) (a : LArr) (g : GdrainF) (gr : Grp) : AEff :=
  let words := drainWords r (((SMap.look {} t.chans r.r.captureCh).scale).getD 0) g.form (a.drain gr g.form)
  if words.isEmpty then .go (t.flagDrain r (a.drained g gr).issuer gr) (a.drained g gr)
  else match a.bindD, r.stageEnt with
    | some b, some e =>
      let i := b.base + a.posD
      if e.extent < 4 * (i + words.length) then .fail t 0x0502
      else if t.overlaps r [(e.addr + 4 * i, 4 * words.length)] then .wait
      else
        let b := ({ a with posD := a.posD + words.length } : LArr).drained g gr
        .go ((t.access (.rout r.q r.seq) (e.addr + 4 * i) (4 * words.length) e.attr r.tenant (some (words.flatMap (toBytes 4))) false).flagDrain r b.issuer gr) b
    | _, _ => .wait

/-- What a GDRAIN does once its entries are there, or their read has failed. -/
def State.drainAfter (r : Rout) (a : LArr) (g : GdrainF) (gr : Grp) : Chked Unit → AEff
  | (t, .error c) => .fail t c
  | (t, .ok _) => t.drainTo r a g gr

theorem State.drainAfter_error {r : Rout} {a : LArr} {g : GdrainF} {gr : Grp} {p : Chked Unit} {c : Nat} (h : p.2 = .error c) :
    State.drainAfter r a g gr p = .fail p.1 c := by
  obtain ⟨t, y⟩ := p
  cases h
  rfl

theorem State.drainAfter_ok {r : Rout} {a : LArr} {g : GdrainF} {gr : Grp} {p : Chked Unit} {v : Unit} (h : p.2 = .ok v) :
    State.drainAfter r a g gr p = p.1.drainTo r a g gr := by
  obtain ⟨t, y⟩ := p
  cases h
  rfl

/-! The effect of each instruction. -/

section Effects
variable {s : State} {r : Rout} {img : Image} {a : LArr} {u : Nat}

theorem State.fsetOp_fails {f : FsetF} (h : fsetFault s.variant a f ≠ 0) : s.fsetOp f r img a u = .fail s (fsetFault s.variant a f) := by
  simp [State.fsetOp, h]

theorem State.fsetOp_sets {f : FsetF} (h : fsetFault s.variant a f = 0) :
    s.fsetOp f r img a u = .go s (if f.side = 0 then { a with fa := some f } else { a with fb := some f }) := by
  simp [State.fsetOp, h]

theorem State.gopenOp_fails {la : Nat} {g : GopenF} (h : gopenFault s.variant a g ≠ 0) : s.gopenOp la g r img a u = .fail s (gopenFault s.variant a g) := by
  simp [State.gopenOp, h]

theorem State.gopenOp_opens {la : Nat} {g : GopenF} (h : gopenFault s.variant a g = 0) :
    s.gopenOp la g r img a u = .go (if a.slow then s.domeWrite r img (a.gopen g) la g.dbase (g.dcountM1 + 1) else s) (a.gopen g) := by
  have hslow : (a.gopen g).slow = a.slow := rfl
  simp [State.gopenOp, h, hslow]

section Pass
variable {p : PassF}

theorem State.passOp_full (h : a.full p = true) : s.passOp p r img a u = .wait := by
  simp [State.passOp, h]

theorem State.passOp_fails (hfull : a.full p = false) (h : passFault a p ≠ 0) : s.passOp p r img a u = .fail s (passFault a p) := by
  simp [State.passOp, hfull, h]

variable (hfull : a.full p = false) (hf : passFault a p = 0)
include hfull hf

theorem State.passOp_waits (h : (s.fill r a u p).2 = .ok none) : s.passOp p r img a u = .wait := by
  obtain ⟨t, ht⟩ : ∃ t, s.fill r a u p = (t, .ok none) := ⟨_, Prod.ext rfl h⟩
  simp [State.passOp, hfull, hf, ht]

theorem State.passOp_ends {c : Nat} (h : (s.fill r a u p).2 = .error c) : s.passOp p r img a u = .fail (s.fill r a u p).1 c := by
  obtain ⟨t, ht⟩ : ∃ t, s.fill r a u p = (t, .error c) := ⟨_, Prod.ext rfl h⟩
  simp [State.passOp, hfull, hf, ht]

theorem State.passOp_passes {b : LArr} (h : (s.fill r a u p).2 = .ok (some b)) :
    s.passOp p r img a u = .go ((s.fill r a u p).1.countPass r a b u p) (b.pass r.r.srSeed r.r.srStep p) := by
  obtain ⟨t, ht⟩ : ∃ t, s.fill r a u p = (t, .ok (some b)) := ⟨_, Prod.ext rfl h⟩
  simp only [State.passOp, hfull, hf, ht]
  rfl

/-- Unless the entries are not there yet, what a PASS has read or lacks is what filling them has. -/
theorem State.passOp_reads (h : (s.fill r a u p).2 ≠ .ok none) : ((s.passOp p r img a u).state s).reads = (s.fill r a u p).1.reads := by
  cases hx : (s.fill r a u p).2 with
  | error c => rw [State.passOp_ends hfull hf hx]; rfl
  | ok o =>
    cases o with
    | none => exact absurd hx h
    | some b => rw [State.passOp_passes hfull hf hx]; rfl

end Pass

section Drain
variable {la : Nat} {g : GdrainF}

theorem State.gdrainOp_waits (h : (∃ p ∈ a.pend, p.group = g.group) ∨ r.gathers = true) : s.gdrainOp la g r img a u = .wait := by
  have hguard : (a.pend.any (fun p => p.group == g.group) || r.gathers) = true := by simpa using h
  simp [State.gdrainOp, hguard]

variable (hpend : ∀ p ∈ a.pend, p.group ≠ g.group) (hgath : r.gathers = false)
include hpend hgath

theorem State.gdrainOp_fails (h : gdrainFault a g ≠ 0) : s.gdrainOp la g r img a u = .fail s (gdrainFault a g) := by
  have hguard : (a.pend.any (fun p => p.group == g.group) || r.gathers) = false := by simpa [hgath] using hpend
  simp [State.gdrainOp, hguard, h]

variable {gr : Grp} (hf : gdrainFault a g = 0) (hgr : a.grp g.group = some gr)
include hf hgr

theorem State.gdrainOp_reads : s.gdrainOp la g r img a u = State.drainAfter r a g gr (s.drainRead r img a la g gr) := by
  have hguard : (a.pend.any (fun p => p.group == g.group) || r.gathers) = false := by simpa [hgath] using hpend
  simp only [State.gdrainOp, hguard, hf, hgr]
  rfl

theorem State.gdrainOp_ends {c : Nat} (h : (s.drainRead r img a la g gr).2 = .error c) :
    s.gdrainOp la g r img a u = .fail (s.drainRead r img a la g gr).1 c := by
  rw [State.gdrainOp_reads hpend hgath hf hgr, State.drainAfter_error h]

theorem State.gdrainOp_drains (h : (s.drainRead r img a la g gr).2 = .ok ()) : s.gdrainOp la g r img a u = s.drainTo r a g gr := by
  rw [State.gdrainOp_reads hpend hgath hf hgr, State.drainAfter_ok h, State.drainRead_eq_ok h]

end Drain

section DrainTo
variable {t : State} {g : GdrainF} {gr : Grp} {words : List Nat}
  (hwords : drainWords r (((SMap.look {} t.chans r.r.captureCh).scale).getD 0) g.form (a.drain gr g.form) = words)
include hwords

theorem State.drainTo_nothing (h : words = []) : t.drainTo r a g gr = .go (t.flagDrain r a.issuer gr) (a.drained g gr) := by
  simp [State.drainTo, hwords, h, LArr.drained_issuer]

variable (h : words ≠ []) {b : StreamBind} {e : TmEntry} (hb : a.bindD = some b) (he : r.stageEnt = some e)
include h hb he

theorem State.drainTo_beyond (hext : e.extent < 4 * (b.base + a.posD + words.length)) : t.drainTo r a g gr = .fail t 0x0502 := by
  simp [State.drainTo, hwords, h, hb, he, hext]

variable (hext : 4 * (b.base + a.posD + words.length) ≤ e.extent)
include hext

theorem State.drainTo_waits (ho : t.overlaps r [(e.addr + 4 * (b.base + a.posD), 4 * words.length)] = true) : t.drainTo r a g gr = .wait := by
  simp [State.drainTo, hwords, h, hb, he, Nat.not_lt.mpr hext, ho]

theorem State.drainTo_writes (ho : t.overlaps r [(e.addr + 4 * (b.base + a.posD), 4 * words.length)] = false) :
    t.drainTo r a g gr = .go ((t.access (.rout r.q r.seq) (e.addr + 4 * (b.base + a.posD)) (4 * words.length) e.attr r.tenant
      (some (words.flatMap (toBytes 4))) false).flagDrain r a.issuer gr) ({ a with posD := a.posD + words.length }.drained g gr) := by
  simp only [State.drainTo, hwords, List.isEmpty_iff, h, hb, he, Nat.not_lt.mpr hext, ho, LArr.drained_issuer]
  rfl

end DrainTo

end Effects

/-! What comes of each instruction that its array issues. -/

section Outcomes
variable {s : State} {x : AIss} {r : Rout} {img : Image} {a : LArr} {u : Nat} (h : ArrIssues s x r img a u)
include h

theorem ArrIssues.nop_gives {rsv : Nat} {t : State} (ht : s.arrDo x (State.arrNopOp rsv) = t) :
    img.arrNext x a = some (.arrNop x rsv) → exec (.arrNop x rsv) s = .next t := h.gives rfl ht
theorem ArrIssues.reserved_gives {op : Nat} {t : State} (ht : s.arrDo x State.spireOp = t) :
    img.arrNext x a = some (.fSpireOp x op) → exec (.fSpireOp x op) s = .next t := h.gives rfl ht
theorem ArrIssues.fset_gives {f : FsetF} {t : State} (ht : s.arrDo x (State.fsetOp f) = t) :
    img.arrNext x a = some (.fset x f) → exec (.fset x f) s = .next t := h.gives rfl ht
theorem ArrIssues.gopen_gives {g : GopenF} {t : State} (ht : s.arrDo x (State.gopenOp x.la g) = t) :
    img.arrNext x a = some (.gopen x g) → exec (.gopen x g) s = .next t := h.gives rfl ht
theorem ArrIssues.pass_gives {p : PassF} {t : State} (ht : s.arrDo x (State.passOp p) = t) :
    img.arrNext x a = some (.pass x p) → exec (.pass x p) s = .next t := h.gives rfl ht
theorem ArrIssues.gdrain_gives {g : GdrainF} {t : State} (ht : s.arrDo x (State.gdrainOp x.la g) = t) :
    img.arrNext x a = some (.gdrain x g) → exec (.gdrain x g) s = .next t := h.gives rfl ht

/-- A GOPEN that passes its checks opens its group; of a fall-back array the cleared entries are written to staging (R124, R133). -/
theorem ArrIssues.gopen_opens {g : GopenF} (hg : gopenFault s.variant a g = 0) :
    s.arrDo x (State.gopenOp x.la g) = ((if a.slow then (s.acting (arrAct x)).domeWrite r img (a.gopen g) x.la g.dbase (g.dcountM1 + 1)
      else s.acting (arrAct x)).did s (arrAct x)).leaveArr x u (a.gopen g) := by
  refine h.leaves (State.gopenOp_opens hg) ?_
  split
  · exact congrArg _ (State.domeWrite_reads _ _ _ _ _ _ _)
  · rfl

section Gdrain
variable {g : GdrainF} (hpend : ∀ p ∈ a.pend, p.group ≠ g.group) (hgath : r.gathers = false) {gr : Grp} (hf : gdrainFault a g = 0)
  (hgr : a.grp g.group = some gr)
include hpend hgath hf hgr

/-- A GDRAIN lacks what the read of its entries lacks. -/
theorem ArrIssues.gdrain_asks {w : Want} (hw : ((s.acting (arrAct x)).drainRead r img a x.la g gr).1.reads.want = some w)
    (hlen : (s.ask (arrAct x) w).reads.res.length ≤ s.reads.res.length) : s.arrDo x (State.gdrainOp x.la g) = s.ask (arrAct x) w := by
  cases hy : ((s.acting (arrAct x)).drainRead r img a x.la g gr).2 with
  | ok v =>
    rw [State.drainRead_eq_ok hy] at hw
    cases hw
  | error c => exact h.asks (by rw [State.gdrainOp_ends hpend hgath hf hgr hy]; exact hw) hlen

variable (hy : ((s.acting (arrAct x)).drainRead r img a x.la g gr).2 = .ok ()) {words : List Nat}
  (hwords : drainWords r (((SMap.look {} (s.acting (arrAct x)).chans r.r.captureCh).scale).getD 0) g.form (a.drain gr g.form) = words)
include hy hwords

theorem ArrIssues.gdrain_nothing (hnil : words = []) :
    s.arrDo x (State.gdrainOp x.la g) = (((s.acting (arrAct x)).flagDrain r a.issuer gr).did s (arrAct x)).leaveArr x u (a.drained g gr) :=
  h.leaves ((State.gdrainOp_drains hpend hgath hf hgr hy).trans (State.drainTo_nothing hwords hnil)) (congrArg _ (State.flagDrain_reads _ _ _ _))

variable (hcons : words ≠ []) {b : StreamBind} {e : TmEntry} (hb : a.bindD = some b) (he : r.stageEnt = some e)
include hcons hb he

theorem ArrIssues.gdrain_beyond (hext : e.extent < 4 * (b.base + a.posD + words.length)) :
    s.arrDo x (State.gdrainOp x.la g) = ((s.acting (arrAct x)).did s (arrAct x)).faultRout x.q x.seq 0x0502 :=
  h.ends ((State.gdrainOp_drains hpend hgath hf hgr hy).trans (State.drainTo_beyond hwords hcons hb he hext)) rfl

variable (hext : 4 * (b.base + a.posD + words.length) ≤ e.extent)
include hext

theorem ArrIssues.gdrain_waits (ho : (s.acting (arrAct x)).overlaps r [(e.addr + 4 * (b.base + a.posD), 4 * words.length)] = true) :
    s.arrDo x (State.gdrainOp x.la g) = s :=
  State.arrDo_wait h ((State.gdrainOp_drains hpend hgath hf hgr hy).trans (State.drainTo_waits hwords hcons hb he hext ho))

theorem ArrIssues.gdrain_writes (ho : (s.acting (arrAct x)).overlaps r [(e.addr + 4 * (b.base + a.posD), 4 * words.length)] = false) :
    s.arrDo x (State.gdrainOp x.la g) =
      ((((s.acting (arrAct x)).access (.rout r.q r.seq) (e.addr + 4 * (b.base + a.posD)) (4 * words.length) e.attr r.tenant
        (some (words.flatMap (toBytes 4))) false).flagDrain r a.issuer gr).did s (arrAct x)).leaveArr x u
          ({ a with posD := a.posD + words.length }.drained g gr) :=
  h.leaves ((State.gdrainOp_drains hpend hgath hf hgr hy).trans (State.drainTo_writes hwords hcons hb he hext ho))
    (congrArg _ ((State.flagDrain_reads _ _ _ _).trans (State.access_reads _ _ _ _ _ _ _ _)))

end Gdrain

end Outcomes

/-- Settles O40: each instruction by the cases of its operation. -/
theorem arrayInstructionsComplete : Obligations.ArrayInstructionsComplete := by
  intro s x r img a u h
  obtain ⟨hq, hseq⟩ := State.rfind_key h.rout
  refine ⟨State.did_self, ⟨h.nop_gives (h.leaves rfl rfl), fun rsv hrsv => h.nop_gives (h.ends (if_pos (by simpa using hrsv)) rfl)⟩,
    fun op _ _ => h.reserved_gives (h.ends rfl rfl), fun f => ⟨fun hf => ?_, fun hf => ?_⟩, fun g => ⟨fun hg => ?_, fun hg => ?_⟩, fun p => ?_, fun g => ?_⟩
  · exact h.fset_gives (h.ends (State.fsetOp_fails hf) rfl)
  · exact h.fset_gives (h.leaves (State.fsetOp_sets hf) rfl)
  · exact h.gopen_gives (h.ends (State.gopenOp_fails hg) rfl)
  · refine h.gopen_gives ((h.gopen_opens hg).trans ?_)
    split <;> rfl
  · refine ⟨fun hfull => ?_, fun hfull => ⟨fun hf => ?_, fun hf => ⟨fun hy => ?_, fun hy w hw hlen => ?_, fun c hw hy => ?_, ?_⟩⟩⟩
    · exact h.pass_gives (State.arrDo_wait h (State.passOp_full hfull))
    · exact h.pass_gives (h.ends (State.passOp_fails hfull hf) rfl)
    · exact h.pass_gives (State.arrDo_wait h (State.passOp_waits hfull hf hy))
    · exact h.pass_gives (h.asks ((congrArg _ (State.passOp_reads (img := img) hfull hf hy)).trans hw) hlen)
    · exact h.pass_gives (h.ends (State.passOp_ends hfull hf hy) hw)
    · intro b fa fb hw hy hfa hfb
      refine h.pass_gives ((h.leaves (State.passOp_passes hfull hf hy) hw).trans ?_)
      rw [State.countPass, hfa, hfb, hq, hseq]
      dsimp only
      rw [passParts_length]
      rfl
  · refine ⟨fun hwait => ?_, fun hpend hgath => ⟨fun hf => ?_, fun gr hf hgr => ⟨fun w hw hlen => ?_, fun c hw hy => ?_, fun hw hy => ?_⟩⟩⟩
    · exact h.gdrain_gives (State.arrDo_wait h (State.gdrainOp_waits hwait))
    · exact h.gdrain_gives (h.ends (State.gdrainOp_fails hpend hgath hf) rfl)
    · exact h.gdrain_gives (h.gdrain_asks hpend hgath hf hgr hw hlen)
    · exact h.gdrain_gives (h.ends (State.gdrainOp_ends hpend hgath hf hgr hy) hw)
    · have hsame := State.drainRead_eq_ok hy
      rw [State.drainRead] at hsame
      dsimp only
      rw [hsame]
      refine ⟨fun hnil => ?_, fun b e hcons hb he => ⟨fun hext => ?_, fun hext => ⟨fun ho => ?_, fun ho => ?_⟩⟩⟩
      · refine h.gdrain_gives ((h.gdrain_nothing hpend hgath hf hgr hy rfl hnil).trans ?_)
        rw [State.flagDrain, hq, hseq]
        rfl
      · exact h.gdrain_gives (h.gdrain_beyond hpend hgath hf hgr hy rfl hcons hb he hext)
      · exact h.gdrain_gives (h.gdrain_waits hpend hgath hf hgr hy rfl hcons hb he hext ho)
      · refine h.gdrain_gives ((h.gdrain_writes hpend hgath hf hgr hy rfl hcons hb he hext ho).trans ?_)
        rw [State.flagDrain, hq, hseq]
        rfl

end Sys2Proof.Machine
end

section
/-! What an instruction of a Lantern comes to once it issues (R184), as a command of its own. -/

namespace Sys2Proof.Machine

section Issue
variable {s : State} {i : LIss} {r : Rout} {img : Image} {l : Lan} {u : Nat} {ops : Lan → Nat}
  {f : State → Rout → Image → LCtx → Lan → LEff}

/-- The instruction that a Lantern has next comes to what its operation does. -/
theorem LanReady.gives (h : LanReady s i r img l u) {c : Instr} {t : State} (hc : exec c s = .next (s.onLan c i (s.lanDo i ops f)))
    (ht : s.lanDo i ops f = t) : img.lanNext i l = some c → exec c s = .next t := by
  intro hn
  rw [hc, State.onLan_due (h.next.trans hn), ht]

/-- One that lacks a read asks for it. -/
theorem LanReady.asks (h : LanReady s i r img l u) {w : Want}
    (hw : ((f (s.acting (lanAct i)) r img (ctxFor i r img) l).state (s.acting (lanAct i))).reads.want = some w)
    (hlen : (s.ask (lanAct i) w).reads.res.length ≤ s.reads.res.length) : s.lanDo i ops f = s.ask (lanAct i) w := by
  have hrun : s.lanDo i ops f = s.readThen (lanAct i)
      (fun s => ((f s r img (ctxFor i r img) l).state s, f s r img (ctxFor i r img) l)) (State.lanRun r l i.l u ops s) := by
    simp [State.lanDo, h.rout, h.lan, h.image, h.unit, h.runs, h.awake, h.waits, h.serves, h.turn, h.checks, lanAct]
  rw [hrun]
  exact State.readThen_asks hw hlen

/-- One that completes is counted, and its routine goes on. -/
theorem LanReady.completes (h : LanReady s i r img l u) {t : State} (hf : f (s.acting (lanAct i)) r img (ctxFor i r img) l = .go t)
    (hw : t.reads.want = none) : s.lanDo i ops f = counted (t.did s (lanAct i)) i u (ops l) := by
  obtain ⟨hq, hseq⟩ := State.rfind_key h.rout
  rw [State.lanDo_go h hf hw, State.hold_of hq hseq]
  rfl

/-- One that had read nothing, and changes its own routine alone. -/
theorem LanIssues.updates (h : LanIssues s i r img l u) {g : Rout → Rout}
    (hf : f (s.acting (lanAct i)) r img (ctxFor i r img) l = .go ((s.acting (lanAct i)).rupd r.q r.seq g)) :
    s.lanDo i ops f = counted (s.rupd i.q i.seq g) i u (ops l) := by
  obtain ⟨hq, hseq⟩ := State.rfind_key h.rout
  rw [h.toLanReady.completes hf rfl, State.did_idle (t := (s.acting (lanAct i)).rupd r.q r.seq g) h.idle rfl h.idle.reqs, State.rupd_back, hq, hseq]

/-- One that leaves its Lantern as `l1`, and changes nothing else. -/
theorem LanIssues.leaves (h : LanIssues s i r img l u) {l1 : Lan}
    (hf : f (s.acting (lanAct i)) r img (ctxFor i r img) l = .go ((s.acting (lanAct i)).putLan r i.l l1)) :
    s.lanDo i (fun _ => 1) f = issuedAs s i l1 u := h.updates hf

end Issue

/-- The end of an act drops reads and gives up requests, and leaves the rest. -/
theorem State.did_frame (t s : State) (a : Act) : t.did s a = (t.setReqs (t.did s a).reqs).setReads (t.did s a).reads := by
  unfold State.did State.forget
  extract_lets r t1 mine t2
  unfold t2
  split <;> rfl

/-- It asks nothing of the routines. -/
theorem State.did_rupd_reqs (t s : State) (a : Act) (q seq : Nat) (f : Rout → Rout) : ((t.rupd q seq f).did s a).reqs = (t.did s a).reqs := by
  unfold State.did State.forget
  dsimp only
  split <;> split
  · rfl
  · rename_i h h'
    exact absurd h h'
  · rename_i h h'
    exact absurd h' h
  · rfl

/-- A counted instruction leaves its Lantern, when that runs on, as it stood, and nothing else beside its routine. -/
theorem counted_quiet {t : State} {i : LIss} {u n : Nat} {r : Rout} {l : Lan} (hr : t.rfind i.q i.seq = some r) (hl : r.lans[i.l]? = some l)
    (hw : l.wait = .run) : (counted t i u n).lanAt i = some l ∧ OnlyRoutine t (counted t i u n) i u := by
  have hkey := State.rfind_key hr
  have h0 : (((t.setHolds (SMap.put none (5 * 65536 + u) (some (i.q, i.seq, i.l)) t.holds)).bump O.instructions u 32 1).spend (3900 * n)).rfind i.q i.seq =
    some r := hr
  have h1 := State.rfind_rupd_same (fun r => { r with itOps := r.itOps + n }) h0 hkey
  have hq := State.settle_quiet h1 hl hw
  obtain ⟨r', hr', hquiet⟩ := hq.rout _ h1
  refine ⟨?_, hq.frame.trans ?_, fun q' n' hn => (hq.others q' n' hn).trans ?_⟩
  · rw [State.lanAt, counted, hr']
    exact hquiet.lan.trans hl
  · rw [show (counted t i u n).gov = _ from congrArg State.gov hq.frame]
    rfl
  · exact State.rfind_rupd_other (fun r => { r with itOps := r.itOps + n }) (fun _ hq hseq => ⟨hq, hseq⟩) hn

/-- An update of the routine is nothing beside it. -/
theorem OnlyRoutine.of_rupd {s t : State} {i : LIss} {u : Nat} {g : Rout → Rout}
    (hg : ∀ r, r.q = i.q → r.seq = i.seq → (g r).q = i.q ∧ (g r).seq = i.seq)
    (h : OnlyRoutine (s.rupd i.q i.seq g) t i u) : OnlyRoutine s t i u :=
  ⟨h.frame, fun q' n hn => (h.others q' n hn).trans (State.rfind_rupd_other g hg hn)⟩

/-- An instruction that leaves its Lantern running as `l1`, once it has updated its routine by `g`. -/
theorem LanReady.counted_rupd {s : State} {i : LIss} {r : Rout} {img : Image} {l l1 : Lan} {u n : Nat}
    (h : LanReady s i r img l u) {g : Rout → Rout}
    (hg : ∀ r, (g r).q = r.q ∧ (g r).seq = r.seq) (hl : (g r).lans[i.l]? = some l1) (hw : l1.wait = .run) :
    (counted (s.rupd i.q i.seq g) i u n).lanAt i = some l1 ∧ OnlyRoutine s (counted (s.rupd i.q i.seq g) i u n) i u := by
  have hkey : ∀ r, r.q = i.q → r.seq = i.seq → (g r).q = i.q ∧ (g r).seq = i.seq :=
    fun r hq hseq => ⟨(hg r).1.trans hq, (hg r).2.trans hseq⟩
  obtain ⟨hq, hseq⟩ := State.rfind_key h.rout
  obtain ⟨hlan, honly⟩ := counted_quiet (u := u) (n := n) (State.rfind_rupd_same g h.rout (hkey r hq hseq)) hl hw
  exact ⟨hlan, honly.of_rupd hkey⟩

/-- An instruction that leaves its Lantern running as `l1`, beside requests that it has issued. -/
theorem LanReady.runs_on {s t : State} {i : LIss} {r : Rout} {img : Image} {l l1 : Lan} {u : Nat} {ops : Lan → Nat}
    {g : State → Rout → Image → LCtx → Lan → LEff} (h : LanReady s i r img l u)
    (hg : g (s.acting (lanAct i)) r img (ctxFor i r img) l = .go (t.rupd r.q r.seq (fun r => r.updLan i.l (fun _ => l1))))
    (hw : t.reads.want = none) (hr : t.routs = s.routs) (hl : l1.wait = .run) :
    (s.lanDo i ops g).lanAt i = some l1 ∧ (s.lanDo i ops g).reqs = (t.did s (lanAct i)).reqs := by
  obtain ⟨hq, hseq⟩ := State.rfind_key h.rout
  rw [hq, hseq] at hg
  rw [h.completes hg hw]
  have hupd := State.rfind_rupd_same (s := t) (fun r => r.updLan i.l (fun _ => l1)) (by rw [State.rfind, hr]; exact h.rout)
    ⟨(Rout.updLan_key ..).1.trans hq, (Rout.updLan_key ..).2.trans hseq⟩
  have hdid : ((t.rupd i.q i.seq (fun r => r.updLan i.l (fun _ => l1))).did s (lanAct i)).rfind i.q i.seq = some (r.updLan i.l (fun _ => l1)) := by
    rw [State.did_frame]
    exact hupd
  obtain ⟨hlan, honly⟩ := counted_quiet (u := u) (n := ops l) hdid (Rout.updLan_at h.lan) hl
  exact ⟨hlan, (congrArg State.reqs honly.frame).trans (State.did_rupd_reqs ..)⟩

end Sys2Proof.Machine
end

section
/-! Instructions that leave their Lantern waiting, and the barrier (R172, R200 to R204). -/

namespace Sys2Proof

/-- Where no Lantern waits for room in an array's queue, none is given. -/
theorem Rout.fill_of_barred {r : Rout} (h : ∀ l ∈ r.lans, l.wait = .stopped ∨ l.wait = .bar) (k : Nat) : r.fill k = r := by
  induction k with
  | zero => rfl
  | succ k ih =>
    unfold Rout.fill
    simp only [ih]
    cases hl : r.lans[k]? with
    | none => rfl
    | some l =>
      rcases h l (List.mem_of_getElem? hl) with hw | hw <;> simp [hw]

theorem Rout.wake_of_none {r : Rout} {p : LWait → Bool} (h : ∀ l ∈ r.lans, p l.wait = false) : r.wake p = r := by
  have hmap : r.lans.map (fun l => if p l.wait then { l with wait := .run } else l) = r.lans :=
    (List.map_congr_left (fun l hl => by simp [h l hl])).trans r.lans.map_id
  rw [Rout.wake, hmap]

end Sys2Proof

namespace Sys2Proof.Machine

theorem State.waitOp_legal {ok : Bool} (h : ok = true) (n : Nat) (w : LWait) (s : State) (r : Rout) (c : LCtx) (l : Lan) :
    s.waitOp ok n w r c l = .go (s.putLan r n { l.retire c.code with wait := w }) := by
  rw [State.waitOp, h]
  rfl

theorem State.aissOp_waits {f : SF} {i : Image} {l : Lan} (hf : f.ok (vA ||| vB ||| vI) = true) (hj : f.imm % 256 < i.arrays) (hn : l.sget f.sb ≠ 0)
    (hfit : l.sget f.sa + l.sget f.sb ≤ i.arrWords) (n : Nat) (s : State) (r : Rout) (c : LCtx) :
    s.aissOp f n r i c l = .go (s.putLan r n { l.retire c.code with wait := .issue (f.imm % 256) (l.sget f.sa) (l.sget f.sb) }) := by
  simp [State.aissOp, hf, hn, Nat.not_le.mpr hj, Nat.not_lt.mpr hfit]

/-- A full barrier opens (R201). -/
theorem State.settleOne_barrier {s : State} {q seq : Nat} {r : Rout} {img : Image} (hr : s.rfind q seq = some r) (hi : r.img = some img)
    (hp : r.phase = .loaded) (hrun : r.running ≠ []) (hb : ∀ l ∈ r.lans, l.wait = .stopped ∨ l.wait = .bar) :
    s.settleOne q seq = some (s.rupd q seq (fun _ => r.wake (· == .bar))) := by
  have hnone : (r.fill r.lans.length).awaits (!s.waits (.rout q seq)) = r := by
    rw [Rout.fill_of_barred hb]
    refine Rout.wake_of_none (fun l hl => ?_)
    rcases hb l hl with hw | hw <;> rw [hw]
  have hall : (!r.running.isEmpty && r.running.all (fun l => l.wait == .bar)) = true := by
    have hbar : ∀ l ∈ r.running, l.wait = .bar := by
      intro l hl
      obtain ⟨hmem, hne⟩ := List.mem_filter.mp hl
      exact (hb l hmem).resolve_left (by simpa using hne)
    simpa [hrun] using hbar
  unfold State.settleOne
  simp only [hr, hi, hp, bne_self_eq_false, Bool.false_eq_true, if_false, hnone]
  exact if_pos hall

/-- Settles O52: each instruction by what its operation leaves its Lantern waiting for, the barrier by the first branch of a routine's
next transition. -/
theorem waitsAndBarriers : Obligations.WaitsAndBarriers := by
  refine ⟨fun s i f r img l u h => ?_, fun s q seq r img hr hi hp hrun hb => ?_⟩
  · have hready := h.toLanReady
    refine ⟨fun hf => ⟨?_, ?_, fun hl => ?_⟩, fun hf hl ho => ?_, fun hf => ⟨fun hj => ?_, fun hj hlt => ?_⟩,
      fun hf hk hloops hh => ?_, fun hf hh => ?_,
      fun hf hj hn hfit => ?_⟩
    · exact hready.gives rfl (h.leaves (State.waitOp_legal hf ..))
    · exact hready.gives rfl (h.leaves (State.waitOp_legal hf ..))
    · exact hready.gives rfl (h.leaves (State.waitOp_legal (by simp [hf, hl]) ..))
    · exact hready.gives rfl (h.leaves (State.waitOp_legal (by simpa [hf, hl] using ho) ..))
    · refine hready.gives rfl (h.leaves ((State.waitOp_legal (by simp [hf, hj]) ..).trans ?_))
      rw [if_pos hj]; rfl
    · refine hready.gives rfl (h.leaves ((State.waitOp_legal (by simp [hf, hlt]) ..).trans ?_))
      rw [if_neg hj]; rfl
    · exact hready.gives rfl (h.leaves (if_neg (by simp [hf, hk, hloops, hh])))
    · exact hready.gives rfl (h.leaves (if_neg (by simp [hf, hh])))
    · exact hready.gives rfl (h.leaves (State.aissOp_waits hf hj hn hfit ..))
  · simpa [Rout.wake] using State.settleOne_barrier hr hi hp hrun hb

end Sys2Proof.Machine
end

section
/-! What a routine's end, its boundaries and its schedule leave of what the act that runs lacks (R277): none of them reads, and an end or a pre-emption
drops what the routine's own acts have read. -/

namespace Sys2Proof.Machine

theorem State.reads_ite {p : Prop} [Decidable p] {s t u : State} (h : t.reads = s.reads) (k : u.reads = s.reads) :
    (if p then t else u).reads = s.reads := by
  split
  · exact h
  · exact k

/-- An update that leaves the reads may be made or not. -/
theorem State.reads_when {p : Prop} [Decidable p] {t u : State} (h : u.reads = t.reads) : (if p then u else t).reads = t.reads :=
  State.reads_ite h rfl

theorem State.setObj_reads (s : State) (o v : Nat) : (s.setObj o v).reads = s.reads := rfl
theorem State.bump_reads (s : State) (o n w k : Nat) : (s.bump o n w k).reads = s.reads := rfl

theorem State.buffer_reads (s : State) (e : Ev) : (s.buffer e).reads = s.reads := by
  unfold State.buffer
  extract_lets sev e put others out lo n
  have hput : ∀ t : State, (put t).reads = t.reads := fun t => by
    unfold put
    exact State.reads_when rfl
  exact State.reads_ite (hput _) (State.reads_ite (hput _) rfl)

theorem State.report_reads (s : State) (e : Ev) : (s.report e).reads = s.reads := by
  unfold State.report
  extract_lets sev e s1 s2
  have h1 : s1.reads = s.reads := rfl
  have h2 : s2.reads = s.reads := (State.reads_when ((State.setObj_reads ..).trans (State.setObj_reads ..))).trans h1
  clear_value s1 s2
  exact State.reads_ite (State.reads_ite h2 ((State.buffer_reads ..).trans h2))
    (State.reads_ite h2 (State.reads_ite h2 ((State.buffer_reads ..).trans h2)))

theorem State.put_reads (s : State) (o n v : Nat) : (s.put o n v).reads = s.reads := rfl
theorem State.rupd_reads (s : State) (q seq : Nat) (f : Rout → Rout) : (s.rupd q seq f).reads = s.reads := rfl
theorem State.dupd_reads (s : State) (q seq : Nat) (f : DRt → DRt) : (s.dupd q seq f).reads = s.reads := rfl
theorem State.letGo_reads (s : State) (q seq : Nat) : (s.letGo q seq).reads = s.reads := rfl

theorem State.setUnit_reads (s : State) (kind u st : Nat) : (s.setUnit kind u st).reads = s.reads := by
  unfold State.setUnit
  extract_lets was s1
  cases serviceOid kind with
  | none => rfl
  | some o => exact State.reads_ite (State.setObj_reads ..) (State.reads_ite (State.setObj_reads ..) rfl)

theorem State.found_reads (s : State) (kind u : Nat) : (s.found kind u).reads = s.reads := by
  unfold State.found
  extract_lets l
  split
  · rfl
  · exact State.reads_when (State.setObj_reads ..)

theorem State.logFence_reads (s : State) (kind u cause item : Nat) (c : Ctx) : (s.logFence kind u cause item c).reads = s.reads :=
  (State.bump_reads ..).trans (State.report_reads ..)

/-- The fence of a unit that is no port of memory or of the Belfry, whose requests and frames would move. -/
theorem State.fence_reads (s : State) {kind : Nat} (h6 : kind ≠ 6) (h7 : kind ≠ 7) (u cause item : Nat) (c : Ctx) :
    (s.fence kind u cause item c).reads = s.reads := by
  unfold State.fence
  extract_lets users s1 s2 s3 s4 s5
  have h1 : s1.reads = s.reads := State.reads_when rfl
  clear_value s1
  have h2 : s2.reads = s1.reads := (congrArg State.reads (if_neg h7)).trans (State.setUnit_reads ..)
  clear_value s2
  have h3 : s3.reads = s2.reads := State.reads_when (State.put_reads ..)
  clear_value s3
  have h4 : s4.reads = s3.reads := (State.found_reads ..).trans (State.logFence_reads ..)
  clear_value s4
  have h5 : s5.reads = s4.reads := by
    unfold s5
    split
    · exact State.reads_when ((State.setObj_reads ..).trans (State.setObj_reads ..))
    · rfl
  clear_value s5
  exact (congrArg State.reads (if_pos (by simpa using h6))).trans (h5.trans (h4.trans (h3.trans (h2.trans h1))))

theorem State.transient_reads (s : State) {kind : Nat} (h6 : kind ≠ 6) (h7 : kind ≠ 7) (h13 : kind ≠ 13) (u cause item : Nat) (c : Ctx) :
    (s.transient kind u cause item none c).reads = s.reads := by
  unfold State.transient
  extract_lets s1 s2 s3 k n s4 lim
  have h2 : s2.reads = s.reads := State.bump_reads ..
  have h3 : s3.reads = s.reads := (State.report_reads ..).trans h2
  have h4 : s4.reads = s.reads := (State.setTransBell_reads ..).trans h3
  refine State.reads_ite h4 ?_
  rw [if_neg h13]
  exact State.reads_ite ((State.fence_reads _ h6 h7 ..).trans h4) h4

theorem State.eccCured_reads (s : State) (r : Rout) : (s.eccCured r).reads = s.reads := by
  unfold State.eccCured
  extract_lets c s1
  have h1 : s1.reads = s.reads := List.foldlRecOn r.domeErrs _ (motive := fun t : State => t.reads = s.reads) rfl
    (fun t ht u _ => (State.transient_reads t (by decide) (by decide) (by decide) u 3 0 c).trans ht)
  exact State.reads_ite ((State.transient_reads _ (by decide) (by decide) (by decide) ..).trans h1) h1

theorem State.domeBack_reads (s : State) : s.domeBack.reads = s.reads :=
  List.foldlRecOn (s.listed O.arrayState) _ (motive := fun t : State => t.reads = s.reads) rfl
    (fun _ ht _ _ => (State.reads_when (State.put_reads ..)).trans ht)

theorem State.closeChan_reads (s : State) (r : Rout) : (s.closeChan r).reads = s.reads := State.reads_when (State.put_reads ..)

theorem State.nextHdr_reads (s : State) (q seq : Nat) : (s.nextHdr q seq).reads = s.reads := by
  unfold State.nextHdr
  cases s.rfind q seq with
  | none => rfl
  | some r =>
    refine State.reads_ite rfl ?_
    cases r.hdrs with
    | nil => rfl
    | cons x l => exact State.access_reads ..

/-- What is dropped leaves what the act that runs lacks. -/
theorem State.forget_want (s : State) (p : Act → Bool) : (s.forget p).reads.want = s.reads.want := by
  unfold State.forget
  extract_lets r s1 mine
  split <;> rfl

theorem State.endRout_want (s : State) (q seq outcome code : Nat) : (s.endRout q seq outcome code).reads.want = s.reads.want := by
  unfold State.endRout
  split
  · rfl
  rename_i r hr
  split
  · rfl
  · extract_lets passed s1 s2 its hs s3
    have h3 : s3.reads = s.reads := (State.rupd_reads ..).trans ((State.reads_when (State.bump_reads ..)).trans (State.closeChan_reads ..))
    rw [State.nextHdr_reads, State.dupd_reads, State.domeBack_reads, State.letGo_reads, State.forget_want, h3]

theorem State.preemptNow_want (s : State) (q seq : Nat) (reset : Bool) : (s.preemptNow q seq reset).reads.want = s.reads.want := by
  unfold State.preemptNow
  extract_lets s1
  cases reset with
  | true => exact State.endRout_want ..
  | false => exact State.forget_want ..

theorem State.boundaryOf_want (s : State) (r : Rout) (i : Image) : (s.boundaryOf r i).reads.want = s.reads.want := by
  unfold State.boundaryOf
  split
  · exact State.endRout_want ..
  extract_lets r1 s1 s2 r0 r2 s3
  have h1 : s1.reads = s.reads := by
    unfold s1
    split
    · exact State.access_reads ..
    · rfl
  have h3 : s3.reads = s.reads := (State.letGo_reads ..).trans ((State.rupd_reads ..).trans ((State.eccCured_reads ..).trans h1))
  clear_value s3
  split
  · rw [State.preemptNow_want, h3]
  · rw [h3]

theorem State.schedBoundary_want (s : State) (r : Rout) (i : Image) (x : SStep) : (s.schedBoundary r i x).reads.want = s.reads.want :=
  State.boundaryOf_want ..

theorem State.finishEnd_want (s : State) (r : Rout) (outcome : Nat) : (s.finishEnd r outcome).reads.want = s.reads.want := by
  unfold State.finishEnd
  extract_lets s1 l0 bad o resid iters hdr one hs s2
  have h1 : s1.reads = s.reads := State.eccCured_reads ..
  have h2 : s2.reads.want = s1.reads.want := by
    rw [State.letGo_reads, State.forget_want, State.closeChan_reads]
  split
  · rw [State.nextHdr_reads, State.dupd_reads, State.domeBack_reads, State.rupd_reads, h2, h1]
  · rw [State.endRout_want, h1]

/-- If there is a transition, it leaves what the act that runs lacks. -/
def State.LeavesWant (s : State) : Option State → Prop
  | none => True
  | some t => t.reads.want = s.reads.want

theorem State.leavesWant_ite {p : Prop} [Decidable p] {s : State} {x y : Option State} (hx : s.LeavesWant x) (hy : s.LeavesWant y) :
    s.LeavesWant (if p then x else y) := by
  split
  · exact hx
  · exact hy

theorem State.settleOne_want (s : State) (q seq : Nat) : s.LeavesWant (s.settleOne q seq) := by
  unfold State.settleOne
  split
  · trivial
  split
  · trivial
  refine State.leavesWant_ite trivial ?_
  extract_lets r run all isEnd s1
  have h1 : s1.reads.want = s.reads.want := rfl
  clear_value s1
  refine State.leavesWant_ite rfl (State.leavesWant_ite ((State.boundaryOf_want ..).trans h1) (State.leavesWant_ite rfl
    (State.leavesWant_ite ?sched (State.leavesWant_ite ?ended (State.leavesWant_ite trivial h1)))))
  case sched =>
    refine State.leavesWant_ite rfl ?_
    split
    · rfl
    · exact State.leavesWant_ite (State.leavesWant_ite ((State.schedBoundary_want ..).trans h1) (State.leavesWant_ite trivial h1)) rfl
  case ended =>
    split
    · rw [State.LeavesWant]
      split
      · exact (State.preemptNow_want ..).trans h1
      · exact (State.finishEnd_want ..).trans h1
    · trivial

theorem State.settleN_want (s : State) (q seq n : Nat) : (s.settleN q seq n).reads.want = s.reads.want := by
  induction n generalizing s with
  | zero => rfl
  | succ n ih =>
    have h := s.settleOne_want q seq
    rw [State.settleN]
    cases ht : s.settleOne q seq with
    | none => rfl
    | some t =>
      rw [ht] at h
      exact (ih t).trans h

theorem State.settle_want (s : State) (q seq : Nat) : (s.settle q seq).reads.want = s.reads.want := State.settleN_want ..

theorem State.pivot_want (s : State) (r : Rout) : (s.pivot r).reads.want = s.reads.want := by
  unfold State.pivot
  extract_lets s1 s2
  split
  · exact State.endRout_want ..
  · exact State.settle_want ..

end Sys2Proof.Machine
end

section
/-! Bindings, flags and pivot failures (R162, R202 to R204). -/

namespace Sys2Proof

theorem Rout.updArr_key (r : Rout) (j : Nat) (f : LArr → LArr) : (r.updArr j f).q = r.q ∧ (r.updArr j f).seq = r.seq := by
  unfold Rout.updArr
  split <;> exact ⟨rfl, rfl⟩

theorem setBits_low (x v : Nat) : setBits x 0 4 v = x / 16 * 16 + v % 16 := by
  rw [setBits, bits, Nat.shiftRight_zero]
  omega

/-- What ASTR reads of its four registers (R203): the binding `b`, of logical array `j`. -/
structure AstrReads (l : Lan) (f : SF) (j : Nat) (b : StreamBind) : Prop where
  array : bits (l.sget f.sa) 0 8 = j
  source : bits (l.sget f.sa) 29 1 = b.src
  side : bits (l.sget f.sa) 30 2 = b.side
  tensor : bits (l.sget f.sa) 32 32 = b.tid
  base : bits (l.sget (f.sa + 1)) 0 40 = b.base
  kStride : bits (l.sget (f.sa + 2)) 32 32 = b.kStride
  xStride : bits (l.sget (f.sa + 2)) 0 32 = b.xStride
  kg0 : bits (l.sget (f.sa + 3)) 0 20 = b.kg0
  kgroupsM1 : bits (l.sget (f.sa + 3)) 20 20 = b.kgroupsM1
  runM1 : bits (l.sget (f.sa + 3)) 40 5 = b.runM1
  unused0 : bits (l.sget f.sa) 8 21 = 0
  unused1 : bits (l.sget (f.sa + 1)) 40 24 = 0
  unused3 : bits (l.sget (f.sa + 3)) 45 19 = 0

/-- The binding that the words name beside its strides, which fill a word of their own. -/
def astrBind (l : Lan) (f : SF) (tid side src base runM1 kgm1 kg0 lan : Nat) : StreamBind :=
  { tid := tid, side := side, src := src, base := base, kStride := l.sget (f.sa + 2) / 2 ^ 32, xStride := l.sget (f.sa + 2) % 2 ^ 32
    runM1 := runM1, kgroupsM1 := kgm1, kg0 := kg0, lan := lan }

/-! The first word of a binding without a tensor, for either source. They speak of any words, so that no step computes a power. -/

theorem astrWord_source_zero (j side src tid : Nat) : j + side = j + 0 * src + side + 0 * tid := by
  rw [Nat.zero_mul, Nat.zero_mul, Nat.add_zero, Nat.add_zero]

theorem astrWord_source_one (j src side tid : Nat) : j + src + side = j + 1 * src + side + 0 * tid := by
  rw [Nat.one_mul, Nat.zero_mul, Nat.add_zero]

theorem AstrReads.of_words {l : Lan} {f : SF} {j tid side src base runM1 kgm1 kg0 : Nat} (hj : j < 256) (hsrc : src < 2) (hside : side < 4)
    (htid : tid < 2 ^ 32) (hbase : base < 2 ^ 40) (hkg0 : kg0 < 2 ^ 20) (hkgm1 : kgm1 < 2 ^ 20) (hrun : runM1 < 32)
    (h0 : l.sget f.sa = j + src * 2 ^ 29 + side * 2 ^ 30 + tid * 2 ^ 32) (h1 : l.sget (f.sa + 1) = base)
    (h3 : l.sget (f.sa + 3) = kg0 + kgm1 * 2 ^ 20 + runM1 * 2 ^ 40) (lan : Nat) :
    AstrReads l f j (astrBind l f tid side src base runM1 kgm1 kg0 lan) := by
  have h2 : l.sget (f.sa + 2) < 2 ^ 64 := BitVec.isLt _
  constructor <;> simp only [bits, astrBind, Nat.shiftRight_eq_div_pow, h0, h1, h3] <;> omega

end Sys2Proof

namespace Sys2Proof.Machine

/-- The wait of a Lantern for room for binding `b` in the queue of logical array `j`. -/
def bindWait (j : Nat) (b : StreamBind) : LWait := .bindw j b.tid b.side b.src b.base b.kStride b.xStride b.runM1 b.kgroupsM1 b.kg0

/-- The index of the last element that binding `b` reaches (R276). -/
def lastBound (b : StreamBind) : Nat :=
  b.base + (16 * (b.kgroupsM1 + 1) - 1) * b.kStride + (if b.side = 0 then 127 else 8 * b.runM1 + 7) * b.xStride

/-- What ASTR makes of the resolution of its tensor (R203). -/
def State.astrAfter (n : Nat) (r : Rout) (i : Image) (c : LCtx) (l : Lan) (j : Nat) (b : StreamBind) : State × Except Nat TmEntry → LEff
  | (s, .error code) => .exc s (if code = 0x0603 then 4 else 3) 0 code
  | (s, .ok e) =>
    match (r.arrs[j]?).bind (fun a => lastFset i a b.side) with
    | some fm =>
      if e.holds (lastBound b) (fmtNib fm) then .go (s.putLan r n { l.retire c.code with wait := bindWait j b })
      else .exc s 2 0 (classCode 2)
    | none => .go (s.putLan r n { l.retire c.code with wait := bindWait j b })

theorem State.astrAfter_reads {n : Nat} {r : Rout} {i : Image} {c : LCtx} {l : Lan} {j : Nat} {b : StreamBind} (s : State)
    (p : State × Except Nat TmEntry) :
    ((State.astrAfter n r i c l j b p).state s).reads = p.1.reads := by
  obtain ⟨t, code | e⟩ := p
  · rfl
  · unfold State.astrAfter
    dsimp only
    split
    · split <;> rfl
    · rfl

/-- A tensor that reaches as far as the binding does, or an array with no format yet. -/
theorem State.astrAfter_ok {n : Nat} {r : Rout} {i : Image} {c : LCtx} {l : Lan} {j : Nat} {b : StreamBind}
    {p : State × Except Nat TmEntry} {e : TmEntry}
    (he : p.2 = .ok e) (hfit : ∀ fm, (r.arrs[j]?).bind (fun a => lastFset i a b.side) = some fm → e.holds (lastBound b) (fmtNib fm) = true) :
    State.astrAfter n r i c l j b p = .go (p.1.putLan r n { l.retire c.code with wait := bindWait j b }) := by
  obtain ⟨t, x⟩ := p
  obtain rfl : x = .ok e := he
  unfold State.astrAfter
  dsimp only
  split
  · rename_i fm hfm
    exact if_pos (hfit fm hfm)
  · rfl

section Astr
variable {f : SF} {r : Rout} {i : Image} {l : Lan} {j : Nat} {b : StreamBind} (hb : AstrReads l f j b) (hf : f.ok vA = true) (hsa : f.sa ≤ 12)
  (hj : j < i.arrays) (hk : b.kg0 + b.kgroupsM1 ≤ 1048575)
include hb hf hsa hj hk

/-- ASTR of the Dome, or of the captured tokens of a GRAM, names no tensor. -/
theorem State.astrOp_direct (htid : b.tid = 0)
    (h : b.src = 0 ∧ b.side = 2 ∨ b.src = 1 ∧ b.side < 2 ∧ r.r.kind = .gram) (n : Nat) (s : State) (c : LCtx) :
    s.astrOp f n r i c l = .go (s.putLan r n { l.retire c.code with wait := bindWait j b }) := by
  obtain ⟨harr, hsrc, hside, hten, hbase, hks, hxs, hkg0, hkgm1, hrun, hz0, hz1, hz3⟩ := hb
  unfold State.astrOp
  simp only [harr, hsrc, hside, hten, hbase, hks, hxs, hkg0, hkgm1, hrun, hz0, hz1, hz3, htid, hf]
  rw [if_neg (by simpa using hsa), if_neg ?_, if_pos ?_]
  · rw [bindWait, htid]
  · rcases h with ⟨h1, h2⟩ | ⟨h1, h2, h3⟩ <;> simp [h1, h2]
  · rcases h with ⟨h1, h2⟩ | ⟨h1, h2, h3⟩
    · simp [h1, h2, hj, hk]
    · simp [h1, h3, hj, hk]; omega

/-- ASTR of a tensor goes on as its tensor resolves. -/
theorem State.astrOp_resolves (hsrc0 : b.src = 0) (hside2 : b.side < 2) (n : Nat) (s : State) (c : LCtx) :
    s.astrOp f n r i c l = State.astrAfter n r i c l j b (s.resolve 2 (nth j r.arrMap j) r.tenant b.tid) := by
  obtain ⟨harr, hsrc, hside, hten, hbase, hks, hxs, hkg0, hkgm1, hrun, hz0, hz1, hz3⟩ := hb
  unfold State.astrOp
  simp only [harr, hsrc, hside, hten, hbase, hks, hxs, hkg0, hkgm1, hrun, hz0, hz1, hz3, hf]
  rw [if_neg (by simpa using hsa), if_neg ?_, if_neg ?_]
  · unfold State.astrAfter
    rfl
  · simp [hsrc0]; omega
  · simp [hsrc0, hj, hk]; omega

end Astr

theorem State.aflgOp_takes {f : SF} {r : Rout} {i : Image} {l : Lan} {a : LArr} (hf : f.ok (vD ||| vI) = true) (hj : f.imm % 256 < i.arrays)
    (ha : r.arrs[f.imm % 256]? = some a) (n : Nat) (s : State) (c : LCtx) :
    s.aflgOp f n r i c l = .go (s.rupd r.q r.seq (fun r =>
      (r.updLan n (fun _ => (l.sput f.sd (l.sget f.sd / 16 * 16 + a.aflg % 16)).retire c.code)).updArr (f.imm % 256) (fun a => { a with aflg := 0 }))) := by
  unfold State.aflgOp
  dsimp only
  rw [if_neg (by simp [hf, hj]), ha, Option.map_some, Option.getD_some, setBits_low]

section Pivf
variable {f : SF} {r : Rout} {l : Lan} (hf : f.ok vMS = true) (hk : r.r.kind = .solve) (hs : r.inSched = true)
include hf hk hs

theorem State.pivfOp_passes (hm : l.mbit f.ms 0 = false) (n : Nat) (s : State) (i : Image) (c : LCtx) :
    s.pivfOp f n r i c l = .go (s.putLan r n (l.retire c.code)) := by
  simp [State.pivfOp, hf, hk, hs, hm]

theorem State.pivfOp_fails (hm : l.mbit f.ms 0 = true) (n : Nat) (s : State) (i : Image) (c : LCtx) :
    s.pivfOp f n r i c l = .go (s.pivot (r.updLan n (fun _ => l.retire c.code))) := by
  simp [State.pivfOp, hf, hk, hs, hm]

end Pivf

theorem Rout.updLan_attempts (r : Rout) (n : Nat) (f : Lan → Lan) : (r.updLan n f).lam = r.lam ∧ (r.updLan n f).retry = r.retry := by
  unfold Rout.updLan
  split <;> exact ⟨rfl, rfl⟩

/-- A pivot fails where no attempt is left (R162). -/
theorem State.pivot_ends (s : State) {r : Rout} (h : r.lam = 0 ∨ 4 ≤ r.retry) :
    s.pivot r = (s.rupd r.q r.seq (fun _ => r)).endRout r.q r.seq 3 0 := if_pos h

/-- A pivot fails where another attempt is made (R162, R218; the empty arrays are log 67). -/
theorem State.pivot_retries (s : State) {r : Rout} (h : ¬(r.lam = 0 ∨ 4 ≤ r.retry)) :
    s.pivot r = (((s.rupd r.q r.seq (fun _ => r)).bump O.dampRetries 0 32 1).rupd r.q r.seq (fun r => { r with
      lam := mul32 r.lam 0x41200000, retry := r.retry + 1, cursor := 0, redo := r.redo + r.attempt, attempt := 0
      arrs := r.arrs.map LArr.drop
      lans := r.lans.zipIdx.map (fun (l, k) =>
        if l.wait == .stopped then l else { l with wait := .sched, inHandler := false, loops := [], pc := nth 0 r.schedPcs k }) })).settle r.q r.seq :=
  if_neg h

/-- Settles O53: ASTR by its words and the resolution of its tensor, AFLG by its operation, PIVF by its mask bit and what a pivot failure does. -/
theorem arrayBindingsAndPivots : Obligations.ArrayBindingsAndPivots := by
  refine ⟨fun s i f r img l u h j side base kg0 kgm1 runM1 hn hf hsa hj hjlt hbase hkg0 hkgm1 hk hrun h1 h3 => ⟨?_, ?_, ?_⟩,
    fun s i f r img l u h a hn hf hj ha => ?_, fun s i f r img l u h hn hf hk hs => ⟨fun hm => ?_, fun hm hend => ?_, fun hm hlam hretry => ?_⟩,
    fun a => ⟨rfl, rfl, rfl, rfl, rfl, rfl, rfl⟩⟩
  · intro h0 hidle
    have hb := AstrReads.of_words (tid := 0) (side := 2) (src := 0) hj (by decide) (by decide) (Nat.two_pow_pos 32) hbase hkg0 hkgm1 hrun
      (h0.trans (astrWord_source_zero j (2 * 2 ^ 30) _ _)) h1 h3 i.l
    exact h.gives rfl (LanIssues.leaves ⟨h, hidle⟩ (State.astrOp_direct hb hf hsa hjlt hk rfl (.inl ⟨rfl, rfl⟩) ..)) hn
  · intro hside hgram h0 hidle
    have hb := AstrReads.of_words (tid := 0) (side := side) (src := 1) hj (by decide) (by omega) (Nat.two_pow_pos 32) hbase hkg0 hkgm1 hrun
      (h0.trans (astrWord_source_one j _ (side * 2 ^ 30) _)) h1 h3 i.l
    exact h.gives rfl (LanIssues.leaves ⟨h, hidle⟩ (State.astrOp_direct hb hf hsa hjlt hk rfl (.inr ⟨rfl, hside, hgram⟩) ..)) hn
  · intro tid hside htid h0
    have hb := AstrReads.of_words (tid := tid) (side := side) (src := 0) hj (by decide) (by omega) htid hbase hkg0 hkgm1 hrun (by omega) h1 h3 i.l
    have hop := State.astrOp_resolves hb hf hsa hjlt hk (r := r) rfl hside i.l (s.acting (lanAct i)) (ctxFor i r img)
    refine ⟨fun w hw hlen => ?_, fun e hw he hfit => ?_⟩
    · refine h.gives rfl (h.asks ?_ hlen) hn
      rw [hop, State.astrAfter_reads]
      exact hw
    · obtain ⟨hq, hseq⟩ := State.rfind_key h.rout
      refine h.gives rfl ((h.completes (hop.trans (State.astrAfter_ok he hfit)) hw).trans ?_) hn
      rw [State.putLan, hq, hseq]
      rfl
  · have hready := h.toLanReady
    refine ⟨_, hready.gives rfl (h.updates (State.aflgOp_takes hf hj ha ..)) hn, hready.counted_rupd (fun r => ?_) ?_ hready.waits⟩
    · exact ⟨(Rout.updArr_key ..).1.trans (Rout.updLan_key ..).1, (Rout.updArr_key ..).2.trans (Rout.updLan_key ..).2⟩
    · exact (Rout.updArr_quiet _ _ _ _).lan.trans (Rout.updLan_at h.lan)
  · have hready := h.toLanReady
    refine ⟨_, hready.gives rfl (h.updates (State.pivfOp_passes hf hk hs hm ..)) hn,
      hready.counted_rupd (fun r => Rout.updLan_key r _ _) (Rout.updLan_at h.lan) hready.waits⟩
  · obtain ⟨hq, hseq⟩ := State.rfind_key h.rout
    refine h.toLanReady.gives rfl ((h.toLanReady.completes (State.pivfOp_fails hf hk hs hm ..) (State.pivot_want ..)).trans ?_) hn
    rw [State.pivot_ends _ (by simpa [Rout.updLan_attempts] using hend), (Rout.updLan_key ..).1, (Rout.updLan_key ..).2, hq, hseq]
    rfl
  · obtain ⟨hq, hseq⟩ := State.rfind_key h.rout
    refine h.toLanReady.gives rfl ((h.toLanReady.completes (State.pivfOp_fails hf hk hs hm ..) (State.pivot_want ..)).trans ?_) hn
    rw [State.pivot_retries _ (by simpa [Rout.updLan_attempts, hlam] using hretry), (Rout.updLan_key ..).1, (Rout.updLan_key ..).2, hq, hseq]
    rfl

end Sys2Proof.Machine
end

section
/-! What resolving a tensor, asking for beats and writing a tensor's elements leave of the state (R277, R285). -/

namespace Sys2Proof.Machine

/-- A tensor that resolves leaves no more behind than an entry of a twig cache (R281). -/
theorem State.resolve_ok {s s1 : State} {kind unit tenant tid : Nat} {e : TmEntry} (h : s.resolve kind unit tenant tid = (s1, .ok e)) :
    ∃ tw, s1 = s.setTwigs tw := by
  unfold State.resolve at h
  split at h
  · cases h
  extract_lets hit at h
  split at h
  · obtain ⟨rfl, -⟩ := Prod.mk.inj h
    exact ⟨s.twigs, rfl⟩
  · split at h
    · obtain ⟨rfl, -⟩ := Prod.mk.inj h
      exact ⟨_, rfl⟩
    · split at h
      · obtain ⟨rfl, -⟩ := Prod.mk.inj h
        exact ⟨s.twigs, rfl⟩
      · cases h
      · cases h

/-- `t` is `s` but for the requests issued, and the energy that they take. -/
def State.Asked (s t : State) : Prop := t = (s.setReqs t.reqs).setGov t.gov

theorem State.Asked.trans {s t u : State} (h : s.Asked t) (k : t.Asked u) : s.Asked u := by
  unfold State.Asked at h k ⊢
  rw [h] at k
  exact k

theorem State.request_asked (s : State) (m : MemReq) : s.Asked (s.request m) := by
  unfold State.request
  split <;> rfl

theorem State.asked_foldl {α : Type} (s : State) (l : List α) (f : State → α → State) (hf : ∀ (t : State) a, t.Asked (f t a)) :
    s.Asked (l.foldl f s) :=
  List.foldlRecOn l f (motive := s.Asked) rfl (fun t ht a _ => ht.trans (hf t a))

theorem State.access_asked (s : State) (o : ReqOwner) (a n attr tenant : Nat) (data : Option (List Nat)) (p : Bool) :
    s.Asked (s.access o a n attr tenant data p) := by
  unfold State.access
  split
  · rfl
  · refine State.asked_foldl s _ _ (fun t x => ?_)
    dsimp only
    split
    · rfl
    · exact State.request_asked _ _

theorem State.readBeats_asked (s : State) (o : ReqOwner) (bs : List Nat) (attr tenant : Nat) : s.Asked (s.readBeats o bs attr tenant) :=
  State.asked_foldl s _ _ (fun t _ => t.access_asked ..)

theorem State.writeSet_asked (s : State) (o : ReqOwner) (m : List (Nat × Nat)) (attr tenant : Nat) (p : Bool) :
    s.Asked (s.writeSet o m attr tenant p) :=
  State.asked_foldl s _ _ (fun t _ => t.access_asked ..)

theorem State.Asked.reads {s t : State} (h : s.Asked t) : t.reads = s.reads := (congrArg State.reads h).trans rfl
theorem State.Asked.routs {s t : State} (h : s.Asked t) : t.routs = s.routs := (congrArg State.routs h).trans rfl

/-- Asking for beats issues requests, and answers nothing at once. -/
theorem State.ask_beats_reads (s : State) (a : Act) (bs : List Nat) (attr tenant : Nat) : (s.ask a (.beats bs attr tenant)).reads = s.reads :=
  (State.readBeats_asked ..).reads

theorem State.wants_want {s : State} (h : s.reads.want = none) (w : Want) : (s.wants w).reads.want = some w := by
  rw [State.wants, h]
  rfl

section ReadAll
variable {s : State} {l : List (Nat × Nat)} (hwin : ∀ p ∈ l, s.inWindow p.1 p.2 = false) (attr tenant : Nat)
include hwin

theorem State.readAll_has (h : (l.flatMap (fun (a, n) => beatsOf a n)).filter (fun b => !s.hasBeat b) = []) :
    s.readAll l attr tenant = (s, .ok ()) := by
  unfold State.readAll
  rw [if_neg (by simpa using hwin)]
  exact if_pos (List.isEmpty_iff.mpr h)

theorem State.readAll_lacks {bs : List Nat} (h : (l.flatMap (fun (a, n) => beatsOf a n)).filter (fun b => !s.hasBeat b) = bs) (hne : bs ≠ []) :
    s.readAll l attr tenant = (s.wants (.beats bs attr tenant), .error 0) := by
  subst h
  unfold State.readAll
  rw [if_neg (by simpa using hwin)]
  exact if_neg (by simpa only [List.isEmpty_iff] using hne)

end ReadAll

end Sys2Proof.Machine
end

section
/-! VLD and VST (R188, R189, R248). -/

namespace Sys2Proof

theorem VF.count_le {f : VF} {vl n : Nat} (h : f.count vl = some n) : n ≤ 4096 := by
  unfold VF.count at h
  split_ifs at h
  · cases h; assumption
  · cases h; exact Nat.min_le_right ..

theorem Lan.vget_vput (l : Lan) {d e d' k : Nat} (he : e < 4096) (hk : k < 4096) (x : Nat) :
    (l.vput d e x).vget d' k = if d' = d ∧ k = e then x % 2 ^ 32 else l.vget d' k := by
  have hkey : d' * 4096 + k = d * 4096 + e ↔ d' = d ∧ k = e := by omega
  unfold Lan.vget Lan.vput
  simp only [SMap.look_put, hkey]
  split
  · exact BitVec.toNat_ofNat x 32
  · rfl

/-- Register `d` of `l` with the elements of `es` written, each with the value that `g` gives. -/
def Lan.vputs (l : Lan) (d : Nat) (g : Nat × Nat → Nat) (es : List (Nat × Nat)) : Lan := es.foldl (fun l x => l.vput d x.1 (g x)) l

section Vputs
variable (d : Nat) (g : Nat × Nat → Nat)

theorem Lan.vputs_cons (l : Lan) (x : Nat × Nat) (es : List (Nat × Nat)) : l.vputs d g (x :: es) = (l.vput d x.1 (g x)).vputs d g es := rfl

theorem Lan.vputs_frame (l : Lan) (es : List (Nat × Nat)) : l.vputs d g es = { l with v := (l.vputs d g es).v } := by
  induction es generalizing l with
  | nil => rfl
  | cons x es ih => rw [Lan.vputs_cons, ih]; rfl

theorem Lan.vget_vputs_other {l : Lan} {es : List (Nat × Nat)} {d' k : Nat} (hes : ∀ x ∈ es, x.1 < 4096) (hk : k < 4096)
    (h : d' ≠ d ∨ ∀ x ∈ es, x.1 ≠ k) : (l.vputs d g es).vget d' k = l.vget d' k := by
  induction es generalizing l with
  | nil => rfl
  | cons x es ih =>
    rw [List.forall_mem_cons] at hes
    have hne : ¬(d' = d ∧ k = x.1) := fun ⟨hd, hx⟩ => h.elim (fun hne => hne hd) (fun hne => hne x (List.mem_cons_self ..) hx.symm)
    rw [Lan.vputs_cons, ih hes.2 (h.imp_right fun h y hy => h y (List.mem_cons_of_mem _ hy)), Lan.vget_vput l hes.1 hk, if_neg hne]

theorem Lan.vget_vputs_mem {l : Lan} {es : List (Nat × Nat)} (hes : ∀ x ∈ es, x.1 < 4096) (hnd : (es.map Prod.fst).Nodup)
    {x : Nat × Nat} (hx : x ∈ es) :
    (l.vputs d g es).vget d x.1 = g x % 2 ^ 32 := by
  induction es generalizing l with
  | nil => cases hx
  | cons y es ih =>
    rw [List.forall_mem_cons] at hes
    rw [List.map_cons, List.nodup_cons] at hnd
    rw [Lan.vputs_cons]
    rcases List.mem_cons.mp hx with rfl | hx
    · have hnot : ∀ z ∈ es, z.1 ≠ x.1 := fun z hz e => hnd.1 (e ▸ List.mem_map_of_mem hz)
      rw [Lan.vget_vputs_other d g hes.2 hes.1 (.inr hnot), Lan.vget_vput l hes.1 hes.1, if_pos ⟨rfl, rfl⟩]
    · exact ih hes.2 hnd.2 hx

end Vputs

/-- The elements that a VLD or VST touches, each with its index in the tensor (R188). -/
def Lan.touched (l : Lan) (f : VF) (n : Nat) : List (Nat × Nat) := (l.accessIdx f n).map (fun x => (x.1, x.2.getD 0))

theorem Lan.touched_fst (l : Lan) (f : VF) (n : Nat) : (l.touched f n).map Prod.fst = l.actives f n := by
  simp [Lan.touched, Lan.accessIdx, Function.comp_def]

theorem Lan.touched_active {l : Lan} {f : VF} {n : Nat} {x : Nat × Nat} (h : x ∈ l.touched f n) : x.1 < n ∧ l.active f x.1 = true := by
  have hmem : x.1 ∈ l.actives f n := l.touched_fst f n ▸ List.mem_map_of_mem h
  simpa [Lan.actives] using hmem

theorem Lan.touched_nodup (l : Lan) (f : VF) (n : Nat) : ((l.touched f n).map Prod.fst).Nodup :=
  l.touched_fst f n ▸ List.nodup_range.filter _

end Sys2Proof

namespace Sys2Proof.Machine

section Access
variable {s : State} {r : Rout} {l : Lan} {c : LCtx} {f : VF} {n : Nat} {k : State → Nat → TmEntry → List (Nat × Nat) → LEff} {nop : LEff}

/-- An access to a tensor that does not resolve raises an exception, or lacks its walk. -/
theorem State.lanAccess_unresolved {s1 : State} {code : Nat} (ha : Accesses l f n) (hw : s.wres r.tenant (l.sget f.a % 2 ^ 32) = (s1, .error code)) :
    s.lanAccess r l c f k nop = .exc s1 (if code = 0x0603 then 4 else 3) 0 code := by
  obtain ⟨hf, ⟨h1, h2, h3⟩, hn, hpos⟩ := ha
  obtain ⟨m, rfl⟩ := Nat.exists_eq_succ_of_ne_zero (Nat.ne_of_gt hpos)
  unfold State.lanAccess
  rw [if_neg (by simp [hf, h1, h2, h3]), hn, hw]
  rfl

theorem State.lanAccess_reaches {s1 : State} {i : LIss} {e : TmEntry} (h : Reaches s s1 i r l f n e) :
    (s.acting (lanAct i)).lanAccess r l c f k nop = k s1 (fmtNib l.mfmt) e (l.touched f n) := by
  obtain ⟨⟨hf, ⟨h1, h2, h3⟩, hn, hpos⟩, hw, h4, hin⟩ := h
  obtain ⟨m, rfl⟩ := Nat.exists_eq_succ_of_ne_zero (Nat.ne_of_gt hpos)
  have hint4 : (l.mfmt == 7 && (l.sget f.c != 1 || l.sget f.b % 2 ^ 40 % 2 != 0 ||
      ((m + 1) % 2 != 0 && l.sget f.b % 2 ^ 40 + (m + 1) - 1 != lastElem e (fmtNib l.mfmt)))) = false := by
    by_cases h7 : l.mfmt = 7
    · obtain ⟨hc, hb, hlast⟩ := h4 h7
      have hnib : fmtNib l.mfmt = 1 := by rw [h7]; rfl
      obtain hlast | hlast := hlast
      · simp only [hc, hb, show (m + 1) % 2 = 0 from hlast, bne_self_eq_false, Bool.or_self, Bool.false_and, Bool.and_false]
      · simp only [hc, hb, hnib, show _ + (m + 1) - 1 = _ from hlast, bne_self_eq_false, Bool.or_self, Bool.and_false]
    · simp [h7]
  unfold State.lanAccess
  rw [if_neg (by simp [hf, h1, h2, h3]), hn, hw]
  refine (if_neg (ne_true_of_eq_false hint4)).trans ?_
  split
  · rename_i x y hfind
    obtain ⟨k, hk, hholds⟩ := hin _ (List.mem_of_find?_eq_some hfind)
    obtain rfl : y = some k := hk
    exact absurd (List.find?_some hfind) (by simp [hholds])
  · rfl

end Access

theorem touches_of_accesses {l : Lan} {f : VF} {n : Nat} (h : Accesses l f n) : touches f l = true := by
  obtain ⟨hf, ⟨h1, h2, h3⟩, hn, hpos⟩ := h
  simp [touches, hf, h1, h2, h3, hn, hpos]

/-- A tensor that lacks its walk has not resolved. -/
theorem State.wres_lacks {s : State} {a : Act} {tenant tid : Nat} {w : Want} (h : ((s.acting a).wres tenant tid).1.reads.want = some w) :
    ∃ code, (s.acting a).wres tenant tid = (((s.acting a).wres tenant tid).1, .error code) := by
  cases hx : (s.acting a).wres tenant tid with
  | mk s1 x =>
    cases x with
    | error code => exact ⟨code, rfl⟩
    | ok e =>
      obtain ⟨tw, rfl⟩ := State.resolve_ok hx
      rw [hx] at h
      cases h

section Reached
variable {s s1 : State} {i : LIss} {r : Rout} {img : Image} {c : LCtx} {l : Lan} {f : VF} {n : Nat} {e : TmEntry}

theorem State.want_of_reaches (h : Reaches s s1 i r l f n e) : s1.reads.want = none := by
  obtain ⟨tw, rfl⟩ := State.resolve_ok h.entry
  rfl

theorem State.routs_of_reaches (h : Reaches s s1 i r l f n e) : s1.routs = s.routs := by
  obtain ⟨tw, rfl⟩ := State.resolve_ok h.entry
  rfl

/-- The bytes of elements `es` of the tensor of the Lantern's MFMT. -/
def spans (l : Lan) (e : TmEntry) (es : List (Nat × Nat)) : List (Nat × Nat) := es.map (fun x => e.at x.2 (fmtNib l.mfmt))

/-- The elements of a VLD that the copy of a PRECOND's list does not hold (R248). -/
def State.uncopied (s : State) (r : Rout) (l : Lan) (f : VF) (n : Nat) (e : TmEntry) : List (Nat × Nat) :=
  let cp := s.listCopy r (l.sget f.a % 2 ^ 32) e
  (l.touched f n).filter (fun x =>
    !(decide (cp.2.1 ≤ (e.at x.2 (fmtNib l.mfmt)).1) && decide ((e.at x.2 (fmtNib l.mfmt)).1 + (e.at x.2 (fmtNib l.mfmt)).2 ≤ cp.2.1 + cp.2.2)))

/-- The beats of them that the act has not read. -/
def State.lackOf (s : State) (r : Rout) (l : Lan) (f : VF) (n : Nat) (e : TmEntry) : List Nat :=
  ((spans l e (s.uncopied r l f n e)).flatMap (fun (a, k) => beatsOf a k)).filter (fun b => !s.hasBeat b)

/-- The Lantern once a VLD has read its elements from state `s`. -/
def State.vldLan (s : State) (r : Rout) (l : Lan) (f : VF) (n : Nat) (e : TmEntry) : Lan :=
  l.vputs f.d (fun x => e.read (s.copyRd (s.listCopy r (l.sget f.a % 2 ^ 32) e)) x.2 (fmtNib l.mfmt)) (l.touched f n)

section Vld
variable (h : Reaches s s1 i r l f n e)
include h

theorem State.vldOp_waits (ho : s1.overlaps r (spans l e (s1.uncopied r l f n e)) = true) : (s.acting (lanAct i)).vldOp f i.l r img c l = .wait :=
  (State.lanAccess_reaches h).trans (if_pos ho)

variable (ho : s1.overlaps r (spans l e (s1.uncopied r l f n e)) = false)
  (hwin : ∀ x ∈ s1.uncopied r l f n e, s1.inWindow (e.at x.2 (fmtNib l.mfmt)).1 (e.at x.2 (fmtNib l.mfmt)).2 = false)
include ho hwin

theorem State.vldOp_asks (hlack : s1.lackOf r l f n e ≠ []) :
    (s.acting (lanAct i)).vldOp f i.l r img c l = .fail (s1.wants (.beats (s1.lackOf r l f n e) e.attr r.tenant)) 0 := by
  refine (State.lanAccess_reaches h).trans ((if_neg (ne_true_of_eq_false ho)).trans ?_)
  have hread := State.readAll_lacks (s := s1) (l := spans l e (s1.uncopied r l f n e)) (List.forall_mem_map.mpr hwin) e.attr r.tenant rfl hlack
  split
  · rename_i x y hfind
    exact absurd (List.find?_some hfind) (ne_true_of_eq_false (hwin _ (List.mem_of_find?_eq_some hfind)))
  · split
    · rename_i t code heq
      cases heq.symm.trans hread
      rfl
    · rename_i t x heq
      cases heq.symm.trans hread

theorem State.vldOp_reads (hlack : s1.lackOf r l f n e = [])
    (hbad : ∀ x ∈ s1.uncopied r l f n e, s1.rangeBad (e.at x.2 (fmtNib l.mfmt)).1 (e.at x.2 (fmtNib l.mfmt)).2 = 0) :
    (s.acting (lanAct i)).vldOp f i.l r img c l =
      .go (s1.rupd r.q r.seq (fun r' => r'.updLan i.l (fun _ => (s1.vldLan r l f n e).retire c.code))) := by
  refine (State.lanAccess_reaches h).trans ((if_neg (ne_true_of_eq_false ho)).trans ?_)
  have hread := State.readAll_has (s := s1) (l := spans l e (s1.uncopied r l f n e)) (List.forall_mem_map.mpr hwin) e.attr r.tenant hlack
  split
  · rename_i x y hfind
    exact absurd (List.find?_some hfind) (ne_true_of_eq_false (hwin _ (List.mem_of_find?_eq_some hfind)))
  · split
    · rename_i t code heq
      cases heq.symm.trans hread
    · rename_i t x heq
      cases heq.symm.trans hread
      split
      · rename_i y z hfind
        exact absurd (List.find?_some hfind) (by simpa using hbad _ (List.mem_of_find?_eq_some hfind))
      · rfl

end Vld

/-- The elements that a VST writes, by their index, each with its code in MFMT. -/
def vstVals (l : Lan) (f : VF) (n : Nat) : List (Nat × Nat) :=
  (l.touched f n).map (fun x => (x.2, l.vget f.d x.1 % 2 ^ ((Fmt.ofCode l.mfmt).getD .fp32).width))

/-- The Lantern once a VST has written its elements: MODE tells of a value that is not finite in a shadow bank (R189). -/
def vstLan (r : Rout) (l : Lan) (f : VF) (n : Nat) (e : TmEntry) : Lan :=
  if (vstVals l f n).any (fun x => meets (e.at x.1 (fmtNib l.mfmt)).1 (e.at x.1 (fmtNib l.mfmt)).2 r.shadows &&
      !(decodeVal ((Fmt.ofCode l.mfmt).getD .fp32) x.2).isFin)
  then l.setMode 13 else l

theorem vstLan_cases (r : Rout) (l : Lan) (f : VF) (n : Nat) (e : TmEntry) : vstLan r l f n e = l ∨ vstLan r l f n e = l.setMode 13 := by
  unfold vstLan
  split
  · exact .inr rfl
  · exact .inl rfl

theorem vstLan_wait (r : Rout) (l : Lan) (f : VF) (n : Nat) (e : TmEntry) : (vstLan r l f n e).wait = l.wait := by
  obtain h | h := vstLan_cases r l f n e
  · rw [h]
  · rw [h]
    rfl

/-- The state in which the writes of a VST have been issued. -/
def State.vstWrites (s : State) (r : Rout) (l : Lan) (f : VF) (n : Nat) (e : TmEntry) : State :=
  s.writeSet (.rout r.q r.seq) (e.writes s.rdN (fmtNib l.mfmt) (· == lastElem e (fmtNib l.mfmt)) (vstVals l f n)) e.attr r.tenant false

section Vst
variable (h : Reaches s s1 i r l f n e) (hg : r.gathers = false)
  (hguard : ∀ x ∈ l.touched f n, meets (e.at x.2 (fmtNib l.mfmt)).1 (e.at x.2 (fmtNib l.mfmt)).2 r.guarded = false)
  (himg : l.sget f.a % 2 ^ 32 ≠ r.r.imageTid) (hctx : l.sget f.a % 2 ^ 32 ≠ r.r.ctxTid) (hbase : e.base ≠ r.imgBase)
  (hent : ∀ x, r.ctxEnt = some x → x.base ≠ e.base)
  (hwin : ∀ x ∈ l.touched f n, s1.inWindow (e.at x.2 (fmtNib l.mfmt)).1 (e.at x.2 (fmtNib l.mfmt)).2 = false)
include h hg hguard himg hctx hbase hent hwin

theorem State.vstOp_outcome : (s.acting (lanAct i)).vstOp f i.l r img c l =
    if s1.overlaps r (spans l e (l.touched f n)) then .wait
    else .go ((s1.vstWrites r l f n e).rupd r.q r.seq (fun r' => r'.updLan i.l (fun _ => (vstLan r l f n e).retire c.code))) := by
  have hown : (l.sget f.a % 2 ^ 32 == r.r.imageTid || l.sget f.a % 2 ^ 32 == r.r.ctxTid || e.base == r.imgBase ||
      (match r.ctxEnt with | some x => x.base == e.base | none => false)) = false := by
    cases hx : r.ctxEnt with
    | none => simp only [beq_eq_false_iff_ne.mpr himg, beq_eq_false_iff_ne.mpr hctx, beq_eq_false_iff_ne.mpr hbase, Bool.or_self]
    | some x =>
      simp only [beq_eq_false_iff_ne.mpr himg, beq_eq_false_iff_ne.mpr hctx, beq_eq_false_iff_ne.mpr hbase,
        beq_eq_false_iff_ne.mpr (hent x hx), Bool.or_self]
  refine (if_neg (by simp [hg])).trans ((State.lanAccess_reaches h).trans ((if_neg (ne_true_of_eq_false hown)).trans ?_))
  split
  · rename_i x y hfind
    exact absurd (List.find?_some hfind) (ne_true_of_eq_false (hguard _ (List.mem_of_find?_eq_some hfind)))
  split
  · rename_i x y hfind
    exact absurd (List.find?_some hfind) (ne_true_of_eq_false (hwin _ (List.mem_of_find?_eq_some hfind)))
  · rfl

end Vst

end Reached

/-- Settles O56: each instruction by the cases of its operation. -/
theorem loadsAndStoresReachTensors : Obligations.LoadsAndStoresReachTensors := by
  refine ⟨fun s i f r img l u n h ha => ⟨fun hn hg => ?_, fun w hw hlen => ?_⟩, fun s s1 i f r img l u n e h hr => ?_⟩
  · exact h.gives rfl (State.lanDo_wait h (if_pos (by rw [hg, touches_of_accesses ha]; rfl))) hn
  · obtain ⟨code, hcode⟩ := State.wres_lacks hw
    refine ⟨fun hn => h.gives rfl (h.asks ?_ hlen) hn, fun hn hg => h.gives rfl (h.asks ?_ hlen) hn⟩
    · rw [show State.vldOp f i.l (s.acting (lanAct i)) r img (ctxFor i r img) l = _ from State.lanAccess_unresolved ha hcode]
      exact hw
    · rw [show State.vstOp f i.l (s.acting (lanAct i)) r img (ctxFor i r img) l = _ from
        (if_neg (by simp [hg])).trans (State.lanAccess_unresolved ha hcode)]
      exact hw
  · have hcount := VF.count_le hr.count
    refine ⟨fun hn => ⟨fun ho => ?_, fun ho hwin => ⟨fun hlack => ?_, fun hlack hbad => ?_⟩⟩,
      fun hg hguard himg hctx hbase hent hwin hn => ⟨fun ho => ?_, fun ho => ?_⟩⟩
    · exact h.gives rfl (State.lanDo_wait h (State.vldOp_waits hr ho)) hn
    · refine h.gives rfl (h.asks (f := State.vldOp f i.l) ?_ ?_) hn
      · rw [State.vldOp_asks hr ho hwin hlack]
        exact State.wants_want (State.want_of_reaches hr) _
      · rw [State.ask_beats_reads]
    · have hop := State.vldOp_reads (img := img) (c := ctxFor i r img) hr ho hwin hlack hbad
      obtain ⟨hlan, -⟩ := h.runs_on (ops := vecOps f) hop (State.want_of_reaches hr) (State.routs_of_reaches hr)
        ((congrArg Lan.wait (Lan.vputs_frame ..)).trans h.waits)
      have hexec : exec (.vld i f) s = .next (s.lanDo i (vecOps f) (State.vldOp f i.l)) := h.gives rfl rfl hn
      have hlt : ∀ x ∈ l.touched f n, x.1 < 4096 := fun x hx => (Lan.touched_active hx).1.trans_le hcount
      refine ⟨_, s1.vldLan r l f n e, hexec, hlan, Lan.vputs_frame .., fun x hx => ?_, fun d k hk hd => ?_,
        State.byte_of_base (exec_base rfl hexec)⟩
      · exact Lan.vget_vputs_mem _ _ hlt (Lan.touched_nodup ..) hx
      · refine Lan.vget_vputs_other _ _ hlt hk (hd.imp_right (fun hd x hx hxk => ?_))
        obtain ⟨hxn, hact⟩ := Lan.touched_active hx
        subst hxk
        exact hd.elim (Nat.not_le.mpr hxn) (ne_true_of_eq_false · hact)
    · exact h.gives rfl (State.lanDo_wait h ((State.vstOp_outcome hr hg hguard himg hctx hbase hent hwin).trans (if_pos ho))) hn
    · have hop := (State.vstOp_outcome (img := img) (c := ctxFor i r img) hr hg hguard himg hctx hbase hent hwin).trans
        (if_neg (ne_true_of_eq_false ho))
      have hasked := State.writeSet_asked s1 (.rout r.q r.seq)
        (e.writes s1.rdN (fmtNib l.mfmt) (· == lastElem e (fmtNib l.mfmt)) (vstVals l f n)) e.attr r.tenant false
      obtain ⟨hlan, hreqs⟩ := h.runs_on (ops := vecOps f) (t := s1.vstWrites r l f n e) hop
        ((congrArg Reads.want hasked.reads).trans (State.want_of_reaches hr)) (hasked.routs.trans (State.routs_of_reaches hr))
        ((vstLan_wait ..).trans h.waits)
      have hexec : exec (.vst i f) s = .next (s.lanDo i (vecOps f) (State.vstOp f i.l)) := h.gives rfl rfl hn
      obtain ⟨hq, hseq⟩ := State.rfind_key h.rout
      refine ⟨_, vstLan r l f n e, hexec, hlan, vstLan_cases .., ?_, State.byte_of_base (exec_base rfl hexec)⟩
      · rw [hreqs, State.vstWrites, hq, hseq]
        rfl

end Sys2Proof.Machine
end

section
/-! What loops come to as an instruction retires (R198, R199). -/

namespace Sys2Proof

/-- The instruction at `p` is the last of loop `lv` (R198). -/
def LoopLvl.LastAt (code : List Nat) (p : Nat) (lv : LoopLvl) : Prop := lastBefore code lv.endw = some p ∧ lv.start ≤ p

section Loops
variable {code : List Nat} {p : Nat} {inner outer ls : List LoopLvl} {lv : LoopLvl}

theorem loopSteps_other (h : ¬lv.LastAt code p) (s : SMap W64) (next : Nat) :
    loopSteps code p (lv :: outer) s next = (lv :: (loopSteps code p outer s next).1, (loopSteps code p outer s next).2) := if_neg h

theorem loopSteps_last (h : lv.LastAt code p) (s : SMap W64) (next : Nat) :
    loopSteps code p (lv :: outer) s next =
      let s' := SMap.put 0 lv.creg (SMap.look 0 s lv.creg - 1) s
      if SMap.look 0 s lv.creg - 1 = 0 then loopSteps code p outer s' (lv.endw + 1) else (lv :: outer, s', lv.start) := if_pos h

/-- Loops that the instruction is not the last of are passed over. -/
theorem loopSteps_passes (h : ∀ x ∈ inner, ¬x.LastAt code p) (rest : List LoopLvl) (s : SMap W64) (next : Nat) :
    loopSteps code p (inner ++ rest) s next = (inner ++ (loopSteps code p rest s next).1, (loopSteps code p rest s next).2) := by
  induction inner with
  | nil => rfl
  | cons x xs ih =>
    rw [List.forall_mem_cons] at h
    rw [List.cons_append, loopSteps_other h.1, ih h.2]
    rfl

theorem loopSteps_none (h : ∀ x ∈ ls, ¬x.LastAt code p) (s : SMap W64) (next : Nat) : loopSteps code p ls s next = (ls, s, next) := by
  simpa [loopSteps] using loopSteps_passes h [] s next

/-- A loop whose counter does not come to zero repeats. -/
theorem loopSteps_repeats (hlv : lv.LastAt code p) {s : SMap W64} (hc : SMap.look 0 s lv.creg ≠ 1) (next : Nat) :
    loopSteps code p (lv :: outer) s next = (lv :: outer, SMap.put 0 lv.creg (SMap.look 0 s lv.creg - 1) s, lv.start) := by
  rw [loopSteps_last hlv]
  exact if_neg (fun h => hc (sub_eq_zero.mp h))

/-- One whose counter does ends, and so does the step where no enclosing loop has the same last instruction. -/
theorem loopSteps_ends (hlv : lv.LastAt code p) {s : SMap W64} (hc : SMap.look 0 s lv.creg = 1) (h : ∀ x ∈ outer, ¬x.LastAt code p) (next : Nat) :
    loopSteps code p (lv :: outer) s next = (outer, SMap.put 0 lv.creg 0 s, lv.endw + 1) := by
  rw [loopSteps_last hlv]
  simp only [hc, sub_self, if_true]
  exact loopSteps_none h ..

/-- No register but the loops' counters changes. -/
theorem loopSteps_look {k : Nat} (h : ∀ x ∈ ls, x.creg ≠ k) (s : SMap W64) (next : Nat) :
    SMap.look 0 (loopSteps code p ls s next).2.1 k = SMap.look 0 s k := by
  induction ls generalizing s next with
  | nil => rfl
  | cons x xs ih =>
    rw [List.forall_mem_cons] at h
    have hput : SMap.look 0 (SMap.put 0 x.creg (SMap.look 0 s x.creg - 1) s) k = SMap.look 0 s k := SMap.look_put_other _ h.1.symm ..
    by_cases hx : x.LastAt code p
    · rw [loopSteps_last hx]
      dsimp only
      split
      · exact (ih h.2 ..).trans hput
      · exact hput
    · rw [loopSteps_other hx]
      exact ih h.2 ..

end Loops

section Retire
variable {l : Lan} {code : List Nat}

theorem Lan.look_s_eq_one {k : Nat} : SMap.look 0 l.s k = 1 ↔ l.sget k = 1 := by
  rw [Lan.sget, ← BitVec.toNat_inj]
  rfl

/-- A loop counter that steps. -/
theorem Lan.toNat_counter (l : Lan) (k : Nat) : (SMap.look 0 l.s k - 1).toNat = (l.sget k + 2 ^ 64 - 1) % 2 ^ 64 := by
  rw [BitVec.toNat_sub, Nat.add_comm, ← Nat.add_sub_assoc (BitVec.isLt _).le]
  rfl

theorem Lan.put_counter (l : Lan) (k : Nat) : SMap.put 0 k (SMap.look 0 l.s k - 1) l.s = (l.sput k (l.sget k + 2 ^ 64 - 1)).s := by
  have hval : SMap.look 0 l.s k - 1 = BitVec.ofNat 64 (l.sget k + 2 ^ 64 - 1) :=
    BitVec.eq_of_toNat_eq ((l.toNat_counter k).trans (BitVec.toNat_ofNat ..).symm)
  rw [hval, Lan.sput]

theorem Lan.retire_of_steps {ls : List LoopLvl} {s : SMap W64} {p : Nat} (h : loopSteps code l.pc l.loops l.s (l.pc + 1) = (ls, s, p)) :
    l.retire code = { l with loops := ls, s := s, pc := p, dcount := (l.dcount + 1) % 2 ^ 28 } := by
  rw [Lan.retire, h]

end Retire

/-- Settles O50: what a loop step does, by where in the list of loops the stepping one stands. -/
theorem retirementStepsLoops : Obligations.RetirementStepsLoops := by
  refine fun l code => ⟨rfl, rfl, rfl, rfl, rfl, rfl, fun k hk => congrArg BitVec.toNat (loopSteps_look hk ..), fun hnone => ?_,
    fun inner lv outer hls hinner hlv => ⟨fun hc => ?_, fun hc houter => ?_⟩⟩
  · rw [Lan.retire_of_steps (loopSteps_none hnone ..)]
    exact ⟨rfl, rfl, rfl⟩
  · have hsteps := loopSteps_passes (code := code) hinner (lv :: outer) l.s (l.pc + 1)
    rw [← hls, loopSteps_repeats hlv (mt Lan.look_s_eq_one.mp hc), ← hls] at hsteps
    rw [Lan.retire_of_steps hsteps]
    refine ⟨?_, rfl, rfl⟩
    rw [Lan.sget, SMap.look_put_same, Lan.toNat_counter]
  · have hsteps := loopSteps_passes (code := code) hinner (lv :: outer) l.s (l.pc + 1)
    rw [← hls, loopSteps_ends hlv (Lan.look_s_eq_one.mpr hc) houter] at hsteps
    rw [Lan.retire_of_steps hsteps]
    refine ⟨?_, rfl, rfl⟩
    rw [Lan.sget, SMap.look_put_same]
    rfl

end Sys2Proof
end

section
/-! The reduction order (R193, R194): levels of TREE on two parts of a list, and TREE over the chunks of a list. -/

namespace Sys2Proof

section Trees
variable {α : Type} (op : α → α → α)

/-- A level makes one node of the first two leaves, and goes on behind them. -/
theorem treeLevel_pair (x y : Option α) : ∃ z, ∀ l, treeLevel op (x :: y :: l) = z :: treeLevel op l := ⟨_, fun _ => rfl⟩

theorem treeFuel_level (n : Nat) (x y : Option α) (l : List (Option α)) :
    treeFuel op (n + 1) (x :: y :: l) = treeFuel op n (treeLevel op (x :: y :: l)) := rfl

theorem treeLevel_length (l : List (Option α)) : (treeLevel op l).length = (l.length + 1) / 2 := by
  induction l using treeLevel.induct with
  | case1 => simp [treeLevel]
  | case2 => simp [treeLevel]
  | case3 x y l ih =>
    obtain ⟨z, hz⟩ := treeLevel_pair op x y
    rw [hz, List.length_cons, ih, List.length_cons, List.length_cons]
    omega

/-- A level pairs the elements of a part of even length among themselves. -/
theorem treeLevel_append {a : List (Option α)} (h : 2 ∣ a.length) (b : List (Option α)) : treeLevel op (a ++ b) = treeLevel op a ++ treeLevel op b := by
  induction a using treeLevel.induct with
  | case1 => rfl
  | case2 => simp at h
  | case3 x y a ih =>
    obtain ⟨z, hz⟩ := treeLevel_pair op x y
    rw [List.cons_append, List.cons_append, hz, hz, ih ((Nat.dvd_add_left (Nat.dvd_refl 2)).mp h), List.cons_append]

/-- Fuel beyond the length of the list changes nothing. -/
theorem treeFuel_eq {n m : Nat} {l : List (Option α)} (hn : l.length ≤ n) (hm : l.length ≤ m) : treeFuel op n l = treeFuel op m l := by
  induction n generalizing m l with
  | zero => rw [List.length_eq_zero_iff.mp (Nat.le_zero.mp hn), treeFuel, treeFuel]
  | succ n ih =>
    match l, m with
    | [], _ => rw [treeFuel, treeFuel]
    | [_], _ => rw [treeFuel, treeFuel]
    | x :: y :: l, m + 1 =>
      have hlen := treeLevel_length op (x :: y :: l)
      simp only [List.length_cons] at hn hm hlen
      rw [treeFuel_level, treeFuel_level]
      exact ih (by omega) (by omega)

/-- A level of TREE leaves its value. -/
theorem tree_treeLevel (l : List (Option α)) : tree op (treeLevel op l) = tree op l := by
  match l with
  | [] => rfl
  | [_] => rfl
  | x :: y :: l =>
    have hlen := treeLevel_length op (x :: y :: l)
    rw [tree, tree, List.length_cons (a := x), treeFuel_level]
    refine treeFuel_eq op le_rfl ?_
    simp only [List.length_cons] at hlen ⊢
    omega

theorem tree_levels (k : Nat) (l : List (Option α)) : tree op ((treeLevel op)^[k] l) = tree op l := by
  induction k generalizing l with
  | zero => rfl
  | succ k ih => rw [Function.iterate_succ_apply, ih, tree_treeLevel]

/-- `k` levels keep apart a part whose length is a multiple of 2^k. -/
theorem levels_append {k : Nat} {a : List (Option α)} (h : 2 ^ k ∣ a.length) (b : List (Option α)) :
    (treeLevel op)^[k] (a ++ b) = (treeLevel op)^[k] a ++ (treeLevel op)^[k] b := by
  induction k generalizing a b with
  | zero => rfl
  | succ k ih =>
    obtain ⟨c, hc⟩ := h
    replace hc : a.length = 2 * (2 ^ k * c) := by rw [hc, Nat.pow_succ]; ring
    have hlen : (treeLevel op a).length = 2 ^ k * c := by rw [treeLevel_length, hc]; omega
    simp only [Function.iterate_succ_apply]
    rw [treeLevel_append op ⟨_, hc⟩, ih ⟨c, hlen⟩]

theorem levels_length {k : Nat} {l : List (Option α)} (h0 : l.length ≠ 0) (h : l.length ≤ 2 ^ k) : ((treeLevel op)^[k] l).length = 1 := by
  induction k generalizing l with
  | zero => exact Nat.le_antisymm h (Nat.pos_of_ne_zero h0)
  | succ k ih =>
    have hlen := treeLevel_length op l
    rw [Nat.pow_succ] at h
    rw [Function.iterate_succ_apply]
    exact ih (by omega) (by omega)

/-- `k` levels leave of up to 2^k elements the value of their TREE. -/
theorem levels_of_le {k : Nat} {l : List (Option α)} (h0 : l.length ≠ 0) (h : l.length ≤ 2 ^ k) : (treeLevel op)^[k] l = [tree op l] := by
  obtain ⟨x, hx⟩ := List.length_eq_one_iff.mp (levels_length op h0 h)
  rw [← tree_levels op k l, hx]
  rfl

/-- The values of TREE over the consecutive chunks of `c` elements of a list. -/
def chunkTrees (c : Nat) (l : List (Option α)) : List (Option α) :=
  (List.range (ceilDiv l.length c)).map (fun i => tree op ((l.drop (c * i)).take c))

theorem chunkTrees_nil {c : Nat} (hc : 0 < c) : chunkTrees op c [] = [] := by
  rw [chunkTrees, List.length_nil, ceilDiv, Nat.zero_add, Nat.div_eq_of_lt (Nat.sub_lt hc Nat.one_pos)]
  rfl

theorem chunkTrees_step {c : Nat} (hc : 0 < c) {l : List (Option α)} (h : l.length ≠ 0) :
    chunkTrees op c l = tree op (l.take c) :: chunkTrees op c (l.drop c) := by
  have hcount : ceilDiv l.length c = ceilDiv (l.drop c).length c + 1 := by
    rw [ceilDiv, ceilDiv, List.length_drop, ← Nat.add_div_right _ hc]
    obtain hle | hlt := Nat.lt_or_ge l.length c
    · rw [Nat.sub_eq_zero_of_le hle.le, Nat.div_eq_of_lt_le (k := 1) (by omega) (by omega), Nat.div_eq_of_lt_le (k := 1) (by omega) (by omega)]
    · congr 1
      omega
  rw [chunkTrees, hcount, List.range_succ_eq_map, List.map_cons, List.map_map]
  refine congrArg (List.cons _) (List.map_congr_left (fun i _ => ?_))
  rw [List.drop_drop, Function.comp_apply, Nat.mul_succ, Nat.add_comm]

/-- `k` levels of a list are the values of TREE over its chunks of 2^k. -/
theorem levels_eq_chunkTrees (k : Nat) (l : List (Option α)) : (treeLevel op)^[k] l = chunkTrees op (2 ^ k) l := by
  induction hn : l.length using Nat.strong_induction_on generalizing l with
  | h n ih =>
    subst hn
    have hpos := Nat.two_pow_pos k
    by_cases h0 : l.length = 0
    · rw [List.length_eq_zero_iff.mp h0, chunkTrees_nil op hpos]
      exact Function.iterate_fixed rfl k
    have htail := ih _ (by rw [List.length_drop]; omega) (l.drop (2 ^ k)) rfl
    rw [chunkTrees_step op hpos h0, ← htail]
    obtain hle | hlt := Nat.lt_or_ge (2 ^ k) l.length
    · have htake : (l.take (2 ^ k)).length = 2 ^ k := List.length_take_of_le hle.le
      calc (treeLevel op)^[k] l = (treeLevel op)^[k] (l.take (2 ^ k) ++ l.drop (2 ^ k)) := by rw [List.take_append_drop]
        _ = _ := by rw [levels_append op (by rw [htake]), levels_of_le op (by omega) htake.le]; rfl
    · rw [List.take_of_length_le hlt, List.drop_of_length_le hlt, levels_of_le op h0 hlt, Function.iterate_fixed rfl k]

end Trees

/-- Settles O60: twelve levels of the list are the values of TREE over its chunks of 4,096 = 2^12, and levels leave the value of TREE. -/
theorem treesOfChunksAgree : Obligations.TreesOfChunksAgree := fun _ op l =>
  (tree_levels op 12 l).symm.trans (congrArg (tree op) (levels_eq_chunkTrees op 12 l))

end Sys2Proof
end

section
/-! What an instruction that touches its Lantern alone comes to, as a command of its own: it retires, it is illegal, or it is a square root whose
pivot fails (R161, R184, R208). -/

namespace Sys2Proof.Machine

section Alone
variable {s : State} {i : LIss} {r : Rout} {img : Image} {l l1 : Lan} {u : Nat} {ops : Lan → Nat} {ds : Lan → List Nat} {c : Instr} {g : LCtx → Lan → LRes}

/-- Command `c` leaves its Lantern as `l1`, and changes nothing beside its routine. -/
def Leaves (s : State) (i : LIss) (u : Nat) (c : Instr) (l1 : Lan) : Prop := ∃ t : State, exec c s = .next t ∧ t.lanAt i = some l1 ∧ OnlyRoutine s t i u

/-- An instruction is a square root with no pivot. -/
theorem State.lanPure_eq_lanSqrt (s : State) (i : LIss) (ops : Lan → Nat) (g : LCtx → Lan → LRes) : s.lanPure i ops g = s.lanSqrt i ops (fun _ => []) g := by
  simp only [State.lanPure, State.lanSqrt, List.any_nil, Bool.and_false, Bool.false_eq_true, if_false]

variable (h : LanIssues s i r img l u)
include h

theorem LanIssues.retires (hc : exec c s = .next (s.onLan c i (s.lanPure i ops g))) (hg : g (ctxFor i r img) l = .ok l1) (hw : l1.wait = l.wait)
    (hn : img.lanNext i l = some c) : Leaves s i u c l1 :=
  ⟨_, h.toLanReady.gives hc rfl hn, State.lanPure_ok h hg (hw.trans h.waits)⟩

theorem LanIssues.refuses (hc : exec c s = .next (s.onLan c i (s.lanPure i ops g))) (hg : g (ctxFor i r img) l = .exc 1 0) (hn : img.lanNext i l = some c) :
    exec c s = .next (s.lanExc r l i.l u 1 0 0x0501) :=
  h.toLanReady.gives hc (State.lanPure_exc h hg) hn

/-- Any instruction that raises an exception, and has changed nothing. -/
theorem LanIssues.excepts {f : State → Rout → Image → LCtx → Lan → LEff} {cls elem code : Nat}
    (hc : exec c s = .next (s.onLan c i (s.lanDo i ops f))) (hf : f (s.acting (lanAct i)) r img (ctxFor i r img) l = .exc (s.acting (lanAct i)) cls elem code)
    (hn : img.lanNext i l = some c) : exec c s = .next (s.lanExc r l i.l u cls elem code) := by
  refine h.toLanReady.gives hc ((State.lanDo_exc h.toLanReady hf rfl).trans ?_) hn
  rw [State.did_self h.idle]

theorem LanIssues.sqrt_refuses (hc : exec c s = .next (s.onLan c i (s.lanSqrt i ops ds g))) (hg : g (ctxFor i r img) l = .exc 1 0)
    (hn : img.lanNext i l = some c) : exec c s = .next (s.lanExc r l i.l u 1 0 0x0501) :=
  h.excepts hc (by rw [hg]; rfl) hn

/-- Any instruction that only leaves its Lantern as `l1`. -/
theorem LanIssues.puts {f : State → Rout → Image → LCtx → Lan → LEff} (hc : exec c s = .next (s.onLan c i (s.lanDo i ops f)))
    (hf : f (s.acting (lanAct i)) r img (ctxFor i r img) l = .go ((s.acting (lanAct i)).putLan r i.l l1)) (hw : l1.wait = l.wait)
    (hn : img.lanNext i l = some c) : Leaves s i u c l1 :=
  ⟨_, h.toLanReady.gives hc (h.updates hf) hn, h.counted_rupd (fun r => Rout.updLan_key r _ _) (Rout.updLan_at h.lan) (hw.trans h.waits)⟩

/-- A square root retires where no pivot of a FACTOR step fails. -/
theorem LanIssues.sqrt_retires (hc : exec c s = .next (s.onLan c i (s.lanSqrt i ops ds g))) (hg : g (ctxFor i r img) l = .ok l1) (hw : l1.wait = l.wait)
    (hp : ¬(factors r l = true ∧ (ds l).any (pivotFails r.pivMin) = true)) (hn : img.lanNext i l = some c) : Leaves s i u c l1 := by
  refine h.puts hc ?_ hw hn
  rw [hg]
  exact if_neg (by simpa using hp)

/-- Where one fails, so does the pivot (log 68). -/
theorem LanIssues.sqrt_fails (hc : exec c s = .next (s.onLan c i (s.lanSqrt i ops ds g))) (hg : g (ctxFor i r img) l = .ok l1)
    (hp : factors r l = true ∧ (ds l).any (pivotFails r.pivMin) = true) (hn : img.lanNext i l = some c) :
    exec c s = .next (counted (((s.acting (lanAct i)).pivot (r.updLan i.l (fun _ => l.retire img.code))).did s (lanAct i)) i u (ops l)) := by
  refine h.toLanReady.gives hc (h.completes ?_ (State.pivot_want ..)) hn
  rw [hg]
  exact if_pos (by simpa using hp)

end Alone

end Sys2Proof.Machine
end

section
/-! The shapes of vector instructions: which fields and counts are legal (R180, R183), what raising flags leaves (R191), and the elements that one
writes (R181). -/

namespace Sys2Proof

section Vec
variable {l : Lan} {c : LCtx} {u n : Nat} {f : VF} {legal : Bool} {k : Nat → Lan}

theorem Lan.vec_unused_field (h : f.ok u = false) : l.vec c u f legal k = .exc 1 0 := by
  rw [Lan.vec, h]
  rfl

theorem Lan.vec_no_count (h : f.count l.vl = none) : l.vec c u f legal k = .exc 1 0 := by
  rw [Lan.vec, h]
  exact ite_self _

theorem Lan.vec_zero (hf : f.ok u = true) (hl : legal = true) (hn : f.count l.vl = some 0) : l.vec c u f legal k = .ok (l.retire c.code) := by
  rw [Lan.vec, hf, hl, hn]
  rfl

theorem Lan.vec_pos (hf : f.ok u = true) (hl : legal = true) (hn : f.count l.vl = some n) (hpos : 0 < n) :
    l.vec c u f legal k = .ok ((k n).retire c.code) := by
  obtain ⟨m, rfl⟩ := Nat.exists_eq_succ_of_ne_zero hpos.ne'
  rw [Lan.vec, hf, hl, hn]
  rfl

/-- An instruction that leaves the Lantern as it is on no elements needs no case for them. -/
theorem Lan.vec_of_zero (hf : f.ok u = true) (hl : legal = true) (hn : f.count l.vl = some n) (h0 : k 0 = l) :
    l.vec c u f legal k = .ok ((k n).retire c.code) := by
  obtain rfl | hpos := Nat.eq_zero_or_pos n
  · rw [Lan.vec_zero hf hl hn, h0]
  · exact Lan.vec_pos hf hl hn hpos

end Vec

/-! Flags. -/

theorem Lan.raise_zero (l : Lan) : l.raise 0 = l := by
  unfold Lan.raise
  split
  · simp
  · rfl

theorem Lan.raise_frame (l : Lan) (fl : Nat) : l.raise fl = { l with mode := (l.raise fl).mode } := by
  unfold Lan.raise
  split <;> rfl

@[simp] theorem Lan.raise_vget (l : Lan) (fl d e : Nat) : (l.raise fl).vget d e = l.vget d e := by rw [Lan.raise_frame]; rfl
@[simp] theorem Lan.raise_sget (l : Lan) (fl k : Nat) : (l.raise fl).sget k = l.sget k := by rw [Lan.raise_frame]; rfl
@[simp] theorem Lan.raise_mbit (l : Lan) (fl k e : Nat) : (l.raise fl).mbit k e = l.mbit k e := by rw [Lan.raise_frame]; rfl
@[simp] theorem Lan.raise_wait (l : Lan) (fl : Nat) : (l.raise fl).wait = l.wait := by rw [Lan.raise_frame]

/-- Which flags are raised depends on MODE alone. -/
theorem Lan.raise_mode {l l1 : Lan} (h : l1.mode = l.mode) (fl : Nat) : l1.raise fl = { l1 with mode := (l.raise fl).mode } := by
  have hs : l1.strict = l.strict := by rw [Lan.strict, Lan.strict, h]
  rw [Lan.raise, Lan.raise, hs]
  split
  · rw [h]
  · rw [← h]

section Written
variable {l l1 : Lan} (fl : Nat)

theorem Lan.raise_of_v (h : l1 = { l with v := l1.v }) : l1.raise fl = { l.raise fl with v := (l1.raise fl).v } := by
  rw [Lan.raise_mode (l := l) ((congrArg Lan.mode h).trans rfl), Lan.raise_frame l]
  exact congrArg (fun x : Lan => { x with mode := (l.raise fl).mode }) h

theorem Lan.raise_of_s (h : l1 = { l with s := l1.s }) : l1.raise fl = { l.raise fl with s := (l1.raise fl).s } := by
  rw [Lan.raise_mode (l := l) ((congrArg Lan.mode h).trans rfl), Lan.raise_frame l]
  exact congrArg (fun x : Lan => { x with mode := (l.raise fl).mode }) h

theorem Lan.raise_of_m (h : l1 = { l with m := l1.m }) : l1.raise fl = { l.raise fl with m := (l1.raise fl).m } := by
  rw [Lan.raise_mode (l := l) ((congrArg Lan.mode h).trans rfl), Lan.raise_frame l]
  exact congrArg (fun x : Lan => { x with mode := (l.raise fl).mode }) h

end Written

theorem foldl_or_zero {α : Type} (es : List α) (a : Nat) : es.foldl (fun a _ => a ||| 0) a = a := by
  induction es generalizing a with
  | nil => rfl
  | cons _ es ih => rw [List.foldl_cons, ih, Nat.or_zero]

/-! Registers and elements. -/

theorem Lan.sget_sput (l : Lan) (d x k : Nat) : (l.sput d x).sget k = if k = d then x % 2 ^ 64 else l.sget k := by
  rw [Lan.sget, Lan.sput, SMap.look_put]
  split
  · exact BitVec.toNat_ofNat ..
  · rfl

theorem Lan.vget_lt (l : Lan) (d e : Nat) : l.vget d e < 2 ^ 32 := BitVec.isLt _

theorem Lan.mem_actives {l : Lan} {f : VF} {n e : Nat} : e ∈ l.actives f n ↔ e < n ∧ l.active f e = true := by simp [Lan.actives]

theorem Lan.lt_of_mem_actives {l : Lan} {f : VF} {n e : Nat} (hn : n ≤ 4096) (h : e ∈ l.actives f n) : e < 4096 := (Lan.mem_actives.mp h).1.trans_le hn

section Fold
variable {step : Lan → Nat → Lan}

theorem Lan.foldl_frame (hs : ∀ a e, step a e = { a with v := (step a e).v }) (l : Lan) (es : List Nat) :
    es.foldl step l = { l with v := (es.foldl step l).v } := by
  induction es generalizing l with
  | nil => rfl
  | cons e es ih => rw [List.foldl_cons, ih, hs]

/-- Steps that write element `e` alone, with the values that `x` gives, write the elements of a list. -/
theorem Lan.vget_foldl {x : Nat → Nat → Option Nat}
    (hs : ∀ a d e k, e < 4096 → k < 4096 → (step a e).vget d k = if k = e then (x d k).getD (a.vget d k) else a.vget d k)
    (l : Lan) {es : List Nat} (hes : ∀ e ∈ es, e < 4096) (d : Nat) {k : Nat} (hk : k < 4096) :
    (es.foldl step l).vget d k = if k ∈ es then (x d k).getD (l.vget d k) else l.vget d k := by
  induction es generalizing l with
  | nil => rfl
  | cons e es ih =>
    rw [List.forall_mem_cons] at hes
    rw [List.foldl_cons, ih _ hes.2, hs _ _ _ _ hes.1 hk]
    by_cases he : k = e
    · cases x d k <;> simp [he]
    · simp [he]

end Fold

/-- Register `d` of `l` with each element of `es` written with the value that `x` gives. -/
def Lan.puts (l : Lan) (d : Nat) (x : Nat → Nat) (es : List Nat) : Lan := es.foldl (fun a e => a.vput d e (x e)) l

theorem Lan.puts_frame (l : Lan) (d : Nat) (x : Nat → Nat) (es : List Nat) : l.puts d x es = { l with v := (l.puts d x es).v } :=
  Lan.foldl_frame (fun _ _ => rfl) l es

theorem Lan.vget_puts (l : Lan) (d : Nat) (x : Nat → Nat) {es : List Nat} (hes : ∀ e ∈ es, e < 4096) (d' : Nat) {k : Nat} (hk : k < 4096) :
    (l.puts d x es).vget d' k = if d' = d ∧ k ∈ es then x k % 2 ^ 32 else l.vget d' k := by
  rw [Lan.puts, Lan.vget_foldl (x := fun d' k => if d' = d then some (x k % 2 ^ 32) else none) _ l hes d' hk]
  · by_cases hd : d' = d <;> simp [hd]
  · intro a d' e k he hk
    rw [Lan.vget_vput a he hk]
    by_cases hd : d' = d <;> by_cases hke : k = e <;> simp [hd, hke]

section Map
variable {l : Lan} {f : VF} {n : Nat} {g : Nat → Nat × Nat}

theorem Lan.mapV_eq : l.mapV f n g =
    (l.puts f.d (fun e => (g e).1) (l.actives f n)).raise ((l.actives f n).foldl (fun a e => a ||| (g e).2) 0) := by
  simp only [Lan.mapV, List.foldl_map, Lan.puts]

theorem Lan.mapV_zero : l.mapV f 0 g = l := Lan.raise_zero l

theorem Lan.mapV_frame : l.mapV f n g = { l.raise ((l.actives f n).foldl (fun a e => a ||| (g e).2) 0) with v := (l.mapV f n g).v } := by
  rw [Lan.mapV_eq]
  exact Lan.raise_of_v _ (Lan.puts_frame ..)

theorem Lan.mapV_wait : (l.mapV f n g).wait = l.wait := by
  rw [Lan.mapV_frame]
  exact Lan.raise_wait ..

theorem Lan.vget_mapV (hn : n ≤ 4096) (d : Nat) {k : Nat} (hk : k < 4096) :
    (l.mapV f n g).vget d k = if d = f.d ∧ k < n ∧ l.active f k = true then (g k).1 % 2 ^ 32 else l.vget d k := by
  rw [Lan.mapV_eq, Lan.raise_vget, Lan.vget_puts l f.d _ (fun e => Lan.lt_of_mem_actives hn) d hk]
  simp only [Lan.mem_actives]

end Map

end Sys2Proof
end

section
/-! Integer and bitwise vector instructions (R186): their values on 32-bit patterns, and what they come to. -/

namespace Sys2Proof

/-! Two's complement. -/

theorem sext_modEq (w x : Nat) : sext w x ≡ (x : Int) [ZMOD (2 ^ w : Nat)] := by
  have hmod : ((x % 2 ^ w : Nat) : Int) ≡ (x : Int) [ZMOD (2 ^ w : Nat)] := by
    rw [Int.natCast_mod]
    exact Int.mod_modEq ..
  rw [sext]
  split
  · exact hmod
  · exact (Int.sub_modulus_modEq_iff.mpr hmod)

theorem trunc2_natCast (w n : Nat) : trunc2 w (n : Int) = n % 2 ^ w := by
  rw [trunc2, ← Int.natCast_mod, Int.toNat_natCast]

theorem trunc2_of_modEq {w n : Nat} {x : Int} (h : x ≡ (n : Int) [ZMOD (2 ^ w : Nat)]) : trunc2 w x = n % 2 ^ w := by
  rw [← trunc2_natCast, trunc2, trunc2, h]

theorem trunc2_lt (w : Nat) (x : Int) : trunc2 w x < 2 ^ w := by
  have hpos : ((2 ^ w : Nat) : Int) ≠ 0 := by positivity
  have hlt := Int.emod_lt_of_pos x (b := ((2 ^ w : Nat) : Int)) (by positivity)
  rw [trunc2]
  omega

theorem trunc2_add (w a b : Nat) : trunc2 w (sext w a + sext w b) = (a + b) % 2 ^ w :=
  trunc2_of_modEq (by rw [Nat.cast_add]; exact (sext_modEq w a).add (sext_modEq w b))

theorem trunc2_mul (w a b : Nat) : trunc2 w (sext w a * sext w b) = a * b % 2 ^ w :=
  trunc2_of_modEq (by rw [Nat.cast_mul]; exact (sext_modEq w a).mul (sext_modEq w b))

theorem trunc2_sub {w a b : Nat} (hb : b ≤ 2 ^ w) : trunc2 w (sext w a - sext w b) = (a + 2 ^ w - b) % 2 ^ w := by
  refine trunc2_of_modEq (((sext_modEq w a).sub (sext_modEq w b)).trans ?_)
  rw [Nat.cast_sub (hb.trans (Nat.le_add_left ..)), Nat.cast_add, add_sub_right_comm]
  exact Int.add_modEq_right.symm

theorem clampI_eq {lo hi : Int} (h : lo ≤ hi) (x : Int) : (clampI lo hi x).1 = max lo (min hi x) := by
  unfold clampI
  split
  · omega
  · split <;> omega

/-- The results of Table 7.5 on patterns fit a V register. -/
theorem intRows_val_lt : ∀ row ∈ intRows, ∀ (f : VF) (l : Lan) (e : Nat), row.val f l e < 2 ^ 32 := by
  have hpow : 0 < 2 ^ 32 := by decide
  simp only [intRows, List.forall_mem_cons, List.not_mem_nil, false_implies, implies_true, and_true]
  refine ⟨fun _ _ _ => Nat.mod_lt _ hpow, fun _ _ _ => Nat.mod_lt _ hpow, fun _ _ _ => Nat.mod_lt _ hpow, fun _ _ _ => trunc2_lt ..,
    fun f l e => Nat.and_lt_two_pow _ (l.vget_lt f.b e), fun f l e => Nat.or_lt_two_pow (l.vget_lt f.a e) (l.vget_lt f.b e),
    fun f l e => Nat.xor_lt_two_pow (l.vget_lt f.a e) (l.vget_lt f.b e), fun _ _ _ => Nat.mod_lt _ hpow, fun _ _ _ => trunc2_lt ..,
    fun f l e => (Nat.div_le_self ..).trans_lt (l.vget_lt f.a e), fun _ _ _ => Nat.mod_lt _ hpow, fun f l e => l.vget_lt f.a e,
    fun _ _ _ => Nat.mod_lt _ hpow, fun _ _ _ => (Nat.mod_lt _ (by decide)).trans (by decide : 2 ^ 31 < 2 ^ 32),
    fun f l e => Nat.xor_lt_two_pow (l.vget_lt f.a e) (by decide)⟩

end Sys2Proof

namespace Sys2Proof.Machine

/-- An integer instruction whose meaning has the values of its row. -/
theorem exec_intV {s : State} {i : LIss} {f : VF} {c : Instr} {g : LCtx → Lan → LRes} {uses : Nat} {val : Lan → Nat → Nat}
    (hc : exec c s = .next (s.onLan c i (s.lanV i f g))) (hg : ∀ x l, g x l = l.intV x uses f (val l)) :
    exec c s = .next (s.onLan c i (s.lanPure i (vecOps f) (fun x l => l.intV x uses f (val l)))) := by
  rw [hc, show g = fun x l => l.intV x uses f (val l) from funext fun x => funext (hg x)]
  rfl

theorem exec_intRow : ∀ row ∈ intRows, ∀ (i : LIss) (f : VF) (s : State), exec (row.cmd i f) s =
    .next (s.onLan (row.cmd i f) i (s.lanPure i (vecOps f) (fun c l => l.intV c row.uses f (row.val f l)))) := by
  simp only [intRows, List.forall_mem_cons, List.not_mem_nil, false_implies, implies_true, and_true]
  refine ⟨?viadd, ?visub, ?vimul, ?viaddsat, ?vand, ?vor, ?vxor, ?vshl, ?vsra, ?vsrl, ?viota, ?vmov, ?vbcast, ?vabs, ?vneg⟩ <;> intro i f s
  case viadd => exact exec_intV rfl (fun x l => congrArg (l.intV x _ f) (funext fun e => trunc2_add ..))
  case visub => exact exec_intV rfl (fun x l => congrArg (l.intV x _ f) (funext fun e => trunc2_sub (l.vget_lt f.b e).le))
  case vimul => exact exec_intV rfl (fun x l => congrArg (l.intV x _ f) (funext fun e => trunc2_mul ..))
  case viaddsat => exact exec_intV rfl (fun x l => congrArg (l.intV x _ f) (funext fun e => congrArg (trunc2 32) (clampI_eq (by decide) _)))
  case vshl => exact exec_intV rfl (fun x l => congrArg (l.intV x _ f) (funext fun e => by rw [Nat.shiftLeft_eq]))
  case vsra => exact exec_intV rfl (fun x l => congrArg (l.intV x _ f) (funext fun e => by rw [Nat.cast_pow]; rfl))
  case vsrl => exact exec_intV rfl (fun x l => congrArg (l.intV x _ f) (funext fun e => Nat.shiftRight_eq_div_pow ..))
  case vand | vor | vxor | viota | vmov | vbcast | vabs | vneg => exact exec_intV rfl (fun _ _ => rfl)

/-- Settles O43: each row's meaning writes the row's values, which fit the register, and raises no flag. -/
theorem integerVectorsWriteActiveElements : Obligations.IntegerVectorsWriteActiveElements := by
  intro row hrow s i f r img l u n h hn hf hcount
  have hle := VF.count_le hcount
  have hvec : l.intV (ctxFor i r img) row.uses f (row.val f l) = .ok ((l.mapV f n (fun e => (row.val f l e, 0))).retire img.code) :=
    Lan.vec_of_zero hf rfl hcount Lan.mapV_zero
  obtain ⟨t, ht, hlan, honly⟩ := h.retires (exec_intRow row hrow i f s) hvec Lan.mapV_wait hn
  refine ⟨t, _, ht, hlan, honly, ?_, fun e he ha => ?_, fun d e he hd => ?_⟩
  · have hframe := Lan.mapV_frame (l := l) (f := f) (n := n) (g := fun e => (row.val f l e, 0))
    rwa [foldl_or_zero, Lan.raise_zero] at hframe
  · rw [Lan.vget_mapV hle _ (he.trans_le hle), if_pos ⟨rfl, he, ha⟩]
    exact Nat.mod_eq_of_lt (intRows_val_lt row hrow f l e)
  · rw [Lan.vget_mapV hle _ he, if_neg hd]

end Sys2Proof.Machine
end

section
/-! FP32 vector instructions (R185), and the pivots of a VSQRT in a FACTOR step (R161, log 68). -/

namespace Sys2Proof.Machine

/-- The meaning of an FP32 vector instruction: the values of its row, and pivots of a VSQRT alone, its active operands. -/
def FpMeans (row : FpRow) : Prop :=
  ∀ (i : LIss) (f : VF) (s : State), ∃ ds : Lan → List Nat,
    exec (row.cmd i f) s = .next (s.onLan (row.cmd i f) i
      (s.lanSqrt i (vecOps f) ds (fun c l => l.fpV c row.uses f (row.ops f l) (row.val f l) (row.divz f l)))) ∧
    ∀ (l : Lan) (n min : Nat), f.count l.vl = some n →
      ((ds l).any (pivotFails min) = true ↔ row.cmd i f = .vsqrt i f ∧ ∃ e < n, l.active f e = true ∧ pivotFails min (l.vget f.a e) = true)

theorem FpMeans.of_lanPure {row : FpRow} (hne : ∀ i f, row.cmd i f ≠ .vsqrt i f)
    (h : ∀ (i : LIss) (f : VF) (s : State), exec (row.cmd i f) s = .next (s.onLan (row.cmd i f) i
      (s.lanPure i (vecOps f) (fun c l => l.fpV c row.uses f (row.ops f l) (row.val f l) (row.divz f l))))) : FpMeans row :=
  fun i f s => ⟨fun _ => [], (h i f s).trans (by rw [State.lanPure_eq_lanSqrt]), fun l n min _ => by simp [hne]⟩

theorem exec_fpRow : ∀ row ∈ fpRows, FpMeans row := by
  simp only [fpRows, List.forall_mem_cons, List.not_mem_nil, false_implies, implies_true, and_true]
  refine ⟨?vadd, ?vsub, ?vmul, ?vfma, ?vdiv, ?vsqrt, ?vmin, ?vmax, ?vadds, ?vmuls, ?vfmas⟩
  case vsqrt =>
    intro i f s
    refine ⟨fun l => (l.actives f (vecOps f l)).map (l.vget f.a), rfl, fun l n min hn => ?_⟩
    simp [vecOps, hn, Lan.mem_actives, and_assoc]
  all_goals exact .of_lanPure (fun _ _ => nofun) (fun _ _ _ => rfl)

/-- Settles O44: each row's meaning writes the row's values and raises their flags; a VSQRT has pivots beside. -/
theorem fpVectorsRoundOnce : Obligations.FpVectorsRoundOnce := by
  intro row hrow s i f r img l u n h hn hf hcount res fails
  have hle := VF.count_le hcount
  have hvec : l.fpV (ctxFor i r img) row.uses f (row.ops f l) (row.val f l) (row.divz f l) = .ok ((l.mapV f n res).retire img.code) :=
    Lan.vec_of_zero hf rfl hcount Lan.mapV_zero
  obtain ⟨ds, hc, hds⟩ := exec_fpRow row hrow i f s
  have hpivots : factors r l = true ∧ (ds l).any (pivotFails r.pivMin) = true ↔ fails := by
    rw [hds l n r.pivMin hcount, and_left_comm]
  refine ⟨fun hnot => ?_, fun hfails => ?_⟩
  · obtain ⟨t, ht, hlan, honly⟩ := h.sqrt_retires hc hvec Lan.mapV_wait (mt hpivots.mp hnot) hn
    refine ⟨t, _, ht, hlan, honly, Lan.mapV_frame, fun e he ha => ?_, fun d e he hd => ?_⟩
    · rw [Lan.vget_mapV hle _ (he.trans_le hle), if_pos ⟨rfl, he, ha⟩]
    · rw [Lan.vget_mapV hle _ he, if_neg hd]
  · have hops : vecOps f l = n := by rw [vecOps, hcount, Option.getD_some]
    rw [h.sqrt_fails hc hvec (hpivots.mpr hfails) hn, hops]

end Sys2Proof.Machine
end

section
/-! Comparisons and mask operations (R184), on the bits of M registers. -/

namespace Sys2Proof

theorem Lan.mbit_mput (l : Lan) (d : Nat) (x : BitVec 4096) (k e : Nat) : (l.mput d x).mbit k e = if k = d then x.getLsbD e else l.mbit k e := by
  rw [Lan.mbit, Lan.mget, Lan.mput, SMap.look_put]
  split <;> rfl

/-- Bit `k` after one bit of a mask has been written. -/
theorem getLsbD_setBit {k e : Nat} (hk : k < 4096) (m : BitVec 4096) (b : Bool) :
    (if b then m ||| BitVec.ofNat 4096 (2 ^ e) else m &&& ~~~BitVec.ofNat 4096 (2 ^ e)).getLsbD k = if k = e then b else m.getLsbD k := by
  have hone : (BitVec.ofNat 4096 (2 ^ e)).getLsbD k = decide (k = e) := by
    rw [BitVec.getLsbD_ofNat, Nat.testBit_two_pow]
    simp [hk, eq_comm]
  cases b with
  | false =>
    simp only [Bool.false_eq_true, if_false, BitVec.getLsbD_and, BitVec.getLsbD_not, hone]
    by_cases h : k = e <;> simp [h, hk]
  | true =>
    simp only [if_true, BitVec.getLsbD_or, hone]
    by_cases h : k = e <;> simp [h]

/-- Mask `m` with the bit of each element of `es` written with the value that `p` gives. -/
def setBitsOf (m : BitVec 4096) (p : Nat → Bool) (es : List Nat) : BitVec 4096 :=
  es.foldl (fun m e => if p e then m ||| BitVec.ofNat 4096 (2 ^ e) else m &&& ~~~BitVec.ofNat 4096 (2 ^ e)) m

theorem getLsbD_setBitsOf (m : BitVec 4096) (p : Nat → Bool) (es : List Nat) {k : Nat} (hk : k < 4096) :
    (setBitsOf m p es).getLsbD k = if k ∈ es then p k else m.getLsbD k := by
  induction es generalizing m with
  | nil => rfl
  | cons e es ih =>
    rw [setBitsOf, List.foldl_cons, ← setBitsOf, ih, getLsbD_setBit hk]
    by_cases h : k = e <;> simp [h]

theorem Lan.setMask_eq (l : Lan) (d : Nat) (es : List Nat) (p : Nat → Bool) : l.setMask d es p = l.mput d (setBitsOf (l.mget d) p es) := rfl

theorem Lan.mbit_setMask (l : Lan) (d : Nat) (es : List Nat) (p : Nat → Bool) (k : Nat) {e : Nat} (he : e < 4096) :
    (l.setMask d es p).mbit k e = if k = d ∧ e ∈ es then p e else l.mbit k e := by
  rw [Lan.setMask_eq, Lan.mbit_mput, getLsbD_setBitsOf _ _ _ he]
  by_cases hk : k = d
  · simp [hk, Lan.mbit]
  · simp [hk]

/-- With MEN unused, every element is active. -/
theorem Lan.actives_all {l : Lan} {f : VF} (h : f.men = 0) (n : Nat) : l.actives f n = List.range n :=
  List.filter_eq_self.mpr (fun _ _ => by simp [Lan.active, h])

/-- An instruction that does not use MEN has it 0. -/
theorem VF.men_of_ok {f : VF} {u : Nat} (h : f.ok u = true) (hu : u &&& uMEN = 0) : f.men = 0 := by
  have hmen : fieldOk u uMEN 1 f.men = true := by
    simp only [VF.ok, Bool.and_eq_true] at h
    tauto
  have hboth : f.men ≤ 1 ∧ f.men = 0 := by simpa [fieldOk, hu] using hmen
  exact hboth.2

end Sys2Proof

namespace Sys2Proof.Machine

/-- The meaning of an instruction that writes bits of M[D], where its fields are legal: the bits of its row, and INVALID where an element signals. -/
def MaskMeans (row : MaskRow) : Prop :=
  ∀ (i : LIss) (f : VF) (s : State), ∃ g : LCtx → Lan → LRes, exec (row.cmd i f) s = .next (s.onLan (row.cmd i f) i (s.lanPure i (vecOps f) g)) ∧
    ∀ (c : LCtx) (l : Lan), f.ok (uD ||| row.uses) = true → g c l = l.vec c (uD ||| row.uses) f (row.legal f) (fun n =>
      (l.setMask f.d (l.actives f n) (row.bit f l)).raise (if (l.actives f n).any (row.signals f l) then flInvalid else 0))

/-- One that raises no flag, and acts on elements that are all active where it uses no MEN. -/
theorem MaskMeans.of_quiet {row : MaskRow} (hs : ∀ f l e, row.signals f l e = false) {g : VF → LCtx → Lan → LRes} {es : VF → Lan → Nat → List Nat}
    (hc : ∀ i f (s : State), exec (row.cmd i f) s = .next (s.onLan (row.cmd i f) i (s.lanPure i (vecOps f) (g f))))
    (hes : ∀ f l n, f.ok (uD ||| row.uses) = true → es f l n = l.actives f n)
    (hg : ∀ f c l, g f c l = l.vec c (uD ||| row.uses) f (row.legal f) (fun n => l.setMask f.d (es f l n) (row.bit f l))) : MaskMeans row :=
  fun i f s => ⟨g f, hc i f s, fun c l hf => by simp [hg, hs, hes f l _ hf, Lan.raise_zero]⟩

theorem exec_maskRow : ∀ row ∈ maskRows, MaskMeans row := by
  simp only [maskRows, List.forall_mem_cons, List.not_mem_nil, false_implies, implies_true, and_true]
  refine ⟨?vcmp, ?vicmp, ?mand, ?mor, ?mnot⟩
  case vcmp => exact fun i f s => ⟨_, rfl, fun c l _ => rfl⟩
  case vicmp => exact .of_quiet (fun _ _ _ => rfl) (fun _ _ _ => rfl) (fun _ _ _ _ => rfl) (fun _ _ _ => rfl)
  case mand | mor | mnot =>
    exact .of_quiet (fun _ _ _ => rfl) (fun _ _ _ => rfl) (fun f l n hf => (Lan.actives_all (VF.men_of_ok hf rfl) n).symm) (fun _ _ _ => rfl)

/-- Settles O45: each row's meaning writes the row's bits, and MANY all bits alike; on no elements nothing is written. -/
theorem maskInstructionsWriteActiveBits : Obligations.MaskInstructionsWriteActiveBits := by
  intro s i f r img l u n h hcount
  refine ⟨fun row hrow hn hf hlegal => ?_, fun hn hf hd ha hpos => ?_⟩
  · obtain ⟨g, hc, hg⟩ := exec_maskRow row hrow i f s
    replace hg := hg (ctxFor i r img) l hf
    obtain rfl | hpos := Nat.eq_zero_or_pos n
    · rw [Lan.vec_zero hf hlegal hcount] at hg
      obtain ⟨t, ht, hlan, honly⟩ := h.retires hc hg rfl hn
      refine ⟨t, l, ht, hlan, honly, ?_, by simp⟩
      show l = { l.raise 0 with m := l.m }
      rw [Lan.raise_zero]
    · rw [Lan.vec_pos hf hlegal hcount hpos] at hg
      obtain ⟨t, ht, hlan, honly⟩ := h.retires hc hg (Lan.raise_wait ..) hn
      refine ⟨t, _, ht, hlan, honly, Lan.raise_of_m _ rfl, fun k e he => ?_⟩
      rw [Lan.raise_mbit, Lan.mbit_setMask _ _ _ _ _ he]
      simp only [Lan.mem_actives]
  · have hg : l.many (ctxFor i r img) f = .ok ((l.mput f.d (if (l.actives f n).any (l.mbit f.a) then BitVec.allOnes 4096 else 0)).retire img.code) :=
      Lan.vec_pos hf (by simp [hd, ha]) hcount hpos
    obtain ⟨t, ht, hlan, honly⟩ := h.retires (c := .many i f) rfl hg rfl hn
    refine ⟨t, _, ht, hlan, honly, rfl, fun k e he => ?_⟩
    rw [Lan.mbit_mput]
    split
    · cases (l.actives f n).any (l.mbit f.a) with
      | false => simp
      | true => rw [if_pos rfl, BitVec.getLsbD_allOnes, decide_eq_true he]
    · rfl

end Sys2Proof.Machine
end

section
/-! Reductions (R193, R195). -/

namespace Sys2Proof

/-- A level of TREE on sums leaves the sum of the leaves. -/
theorem sum_treeLevel (l : List (Option Int)) : ((treeLevel (· + ·) l).map (·.getD 0)).sum = (l.map (·.getD 0)).sum := by
  induction l using treeLevel.induct with
  | case1 => simp [treeLevel]
  | case2 => simp [treeLevel]
  | case3 x y l ih => cases x <;> cases y <;> simp [treeLevel, ih, add_assoc]

/-- TREE on sums is the sum. -/
theorem tree_sum (l : List (Option Int)) : (tree (· + ·) l).getD 0 = (l.map (·.getD 0)).sum := by
  have hsum : ∀ k, (((treeLevel (· + ·))^[k] l).map (·.getD 0)).sum = (l.map (·.getD 0)).sum := fun k => by
    induction k with
    | zero => rfl
    | succ k ih => rw [Function.iterate_succ_apply', sum_treeLevel, ih]
  by_cases h0 : l.length = 0
  · rw [List.length_eq_zero_iff.mp h0]
    rfl
  · rw [← hsum l.length, levels_of_le _ h0 Nat.lt_two_pow_self.le]
    simp

theorem sum_leavesOf (l : Lan) (f : VF) (n : Nat) (x : Nat → Int) :
    ((leavesOf l f n x).map (·.getD 0)).sum = (l.actives f n).foldl (fun a e => a + x e) 0 := by
  rw [← List.foldl_map, ← List.sum_eq_foldl, leavesOf, List.map_map, Lan.actives]
  induction List.range n with
  | nil => rfl
  | cons e es ih => cases h : l.active f e <;> simpa [h] using ih

/-- A reduction over a count that is not 0 writes the value of TREE, with `d` for no active element. -/
theorem Lan.redV_writes {α : Type} {l : Lan} {c : LCtx} {u n : Nat} {f : VF} {op : α → α → α} {leaf : Nat → α} {out fl : α → Nat} {empty : Nat}
    (hf : f.ok (uSA ||| uVec ||| uA ||| u) = true) (hn : f.count l.vl = some n) (hpos : 0 < n) {d : α} (hd : out d = empty ∧ fl d = 0) :
    let x := (tree op (leavesOf l f n leaf)).getD d
    l.redV c u f op leaf out fl empty = .ok (((l.sput f.sa (out x)).raise (fl x)).retire c.code) := by
  refine (Lan.vec_pos hf rfl hn hpos).trans ?_
  rw [leavesOf]
  cases htree : tree op ((List.range n).map (fun e => if l.active f e then some (leaf e) else none)) with
  | none => simp [htree, hd.1, hd.2, Lan.raise_zero]
  | some x => simp [htree]

end Sys2Proof

namespace Sys2Proof.Machine

/-- What a reduction that leaves its Lantern so comes to. -/
theorem LanIssues.reduces {s : State} {i : LIss} {f : VF} {r : Rout} {img : Image} {l : Lan} {u : Nat} {ops : Lan → Nat} {c : Instr}
    {g : LCtx → Lan → LRes} {x fl : Nat} (h : LanIssues s i r img l u) (hc : exec c s = .next (s.onLan c i (s.lanPure i ops g)))
    (hg : g (ctxFor i r img) l = .ok (((l.sput f.sa x).raise fl).retire img.code)) (hn : img.lanNext i l = some c) :
    ∃ (t : State) (l1 : Lan), exec c s = .next t ∧ t.lanAt i = some (l1.retire img.code) ∧ OnlyRoutine s t i u ∧
      l1 = { l.raise fl with s := l1.s } ∧ l1.sget f.sa = x % 2 ^ 64 ∧ ∀ k, k ≠ f.sa → l1.sget k = l.sget k := by
  obtain ⟨t, ht, hlan, honly⟩ := h.retires hc hg (Lan.raise_wait ..) hn
  refine ⟨t, _, ht, hlan, honly, Lan.raise_of_s _ rfl, ?_, fun k hk => ?_⟩
  · rw [Lan.raise_sget, Lan.sget_sput, if_pos rfl]
  · rw [Lan.raise_sget, Lan.sget_sput, if_neg hk]

/-- Settles O46: each reduction writes the value of TREE over its leaves, and TREE on sums is the sum. -/
theorem reductionsWriteTheTree : Obligations.ReductionsWriteTheTree := by
  intro s i f r img l u n h hcount hpos writes
  refine ⟨fun hf => ⟨?_, ?_⟩, fun hf => ?_⟩
  · simp only [List.forall_mem_cons, List.not_mem_nil, false_implies, implies_true, and_true]
    exact ⟨h.reduces rfl (Lan.redV_writes (u := 0) (d := (0, 0)) hf hcount hpos ⟨rfl, rfl⟩),
      h.reduces rfl (Lan.redV_writes (u := 0) (d := (0xFF800000, 0)) hf hcount hpos ⟨rfl, rfl⟩),
      h.reduces rfl (Lan.redV_writes (u := 0) (d := (0x7F800000, 0)) hf hcount hpos ⟨rfl, rfl⟩)⟩
  · have hsum := (tree_sum (leavesOf l f n (fun e => sext 32 (l.vget f.a e)))).trans (sum_leavesOf ..)
    rw [← hsum]
    exact h.reduces rfl (Lan.redV_writes (u := 0) (d := (0 : Int)) hf hcount hpos ⟨rfl, rfl⟩)
  · exact h.reduces rfl (Lan.redV_writes (u := uB) (d := ((0, 0), 0)) hf hcount hpos ⟨rfl, rfl⟩)

end Sys2Proof.Machine
end

section
/-! VSEL, VCVT and VPADD (R184, R187, R195). -/

namespace Sys2Proof

theorem Lan.vcvt_of_formats {l : Lan} {c : LCtx} {f : VF} {f1 f2 : Fmt} (h1 : Fmt.ofCode f.f1 = some f1) (h2 : Fmt.ofCode f.f2 = some f2) :
    l.vcvt c f = l.vec c (uD ||| uA ||| uVec ||| uF1 ||| uF2 ||| uOVF) f true (fun n => l.mapV f n (fun e =>
      let r := cvAny f2 l.rnd (l.rand c e) (f.ovf == 1) l.strict (decodeVal f1 (l.vget f.a e % 2 ^ f1.width))
      (r.code, r.flags))) := by
  rw [Lan.vcvt, h1, h2]

/-- The pair of registers `d` and `d + 1` of `l` with each element of `es` written with the two values that `x` gives. -/
def Lan.putPairs (l : Lan) (d : Nat) (x : Nat → Nat × Nat) (es : List Nat) : Lan :=
  es.foldl (fun a e => (a.vput d e (x e).1).vput (d + 1) e (x e).2) l

theorem Lan.putPairs_frame (l : Lan) (d : Nat) (x : Nat → Nat × Nat) (es : List Nat) :
    l.putPairs d x es = { l with v := (l.putPairs d x es).v } := Lan.foldl_frame (fun _ _ => rfl) l es

theorem Lan.vget_putPairs (l : Lan) (d : Nat) (x : Nat → Nat × Nat) {es : List Nat} (hes : ∀ e ∈ es, e < 4096) (d' : Nat) {k : Nat} (hk : k < 4096) :
    (l.putPairs d x es).vget d' k =
      if k ∈ es ∧ d' = d then (x k).1 % 2 ^ 32 else if k ∈ es ∧ d' = d + 1 then (x k).2 % 2 ^ 32 else l.vget d' k := by
  rw [Lan.putPairs, Lan.vget_foldl (x := fun d' k => if d' = d then some ((x k).1 % 2 ^ 32) else if d' = d + 1 then some ((x k).2 % 2 ^ 32) else none)
    _ l hes d' hk]
  · by_cases hd : d' = d
    · simp [hd]
    · by_cases hd1 : d' = d + 1 <;> simp [hd, hd1]
  · intro a d' e k he hk
    rw [Lan.vget_vput _ he hk, Lan.vget_vput a he hk]
    by_cases hd : d' = d
    · by_cases hke : k = e <;> simp [hd, hke]
    · by_cases hd1 : d' = d + 1 <;> by_cases hke : k = e <;> simp [hd, hd1, hke]

/-- What VPADD makes of the elements below `n` (R195). -/
def Lan.pairsAdded (l : Lan) (f : VF) (n : Nat) : Lan :=
  (l.putPairs f.d (fun e => pairAdd (l.vget f.a e, l.vget (f.a + 1) e) (l.vget f.b e, l.vget (f.b + 1) e)) (l.actives f n)).raise
    ((l.actives f n).foldl (fun a e => a ||| pairFlags (l.vget f.a e, l.vget (f.a + 1) e) (l.vget f.b e, l.vget (f.b + 1) e)) 0)

theorem Lan.vpadd_eq (l : Lan) (c : LCtx) (f : VF) :
    l.vpadd c f = l.vec c (uD ||| uA ||| uB ||| uVec) f (f.d % 2 == 0 && f.a % 2 == 0 && f.b % 2 == 0) (l.pairsAdded f) := by
  simp only [Lan.vpadd, List.foldl_map]
  rfl

end Sys2Proof

namespace Sys2Proof.Machine

/-- Settles O47: each instruction by the elements that its meaning writes. -/
theorem selectionsAndConversionsWriteElements : Obligations.SelectionsAndConversionsWriteElements := by
  intro s i f r img l u n h hcount
  have hle := VF.count_le hcount
  refine ⟨fun hn hf => ?_, fun f1 f2 hn hf h1 h2 => ?_, fun hn hf hd ha hb => ?_⟩
  · have hg : l.vsel (ctxFor i r img) f = .ok ((l.puts f.d (fun e => if l.mbit f.ms e then l.vget f.a e else l.vget f.b e) (List.range n)).retire img.code) :=
      Lan.vec_of_zero hf rfl hcount rfl
    have hframe := Lan.puts_frame l f.d (fun e => if l.mbit f.ms e then l.vget f.a e else l.vget f.b e) (List.range n)
    obtain ⟨t, ht, hlan, honly⟩ := h.retires (c := .vsel i f) rfl hg ((congrArg Lan.wait hframe).trans rfl) hn
    refine ⟨t, _, ht, hlan, honly, hframe, fun d e he => ?_⟩
    rw [Lan.vget_puts l f.d _ (fun e he => (List.mem_range.mp he).trans_le hle) d he]
    simp only [List.mem_range]
    split
    · split <;> exact Nat.mod_eq_of_lt (l.vget_lt ..)
    · rfl
  · have hg := (Lan.vcvt_of_formats (c := ctxFor i r img) h1 h2).trans (Lan.vec_of_zero (n := n) hf rfl hcount Lan.mapV_zero)
    obtain ⟨t, ht, hlan, honly⟩ := h.retires (c := .vcvt i f) rfl hg Lan.mapV_wait hn
    exact ⟨t, _, ht, hlan, honly, Lan.mapV_frame, fun d e he => Lan.vget_mapV hle d he⟩
  · intro x y
    have hg := (Lan.vpadd_eq l (ctxFor i r img) f).trans (Lan.vec_of_zero hf (by simp [hd, ha, hb]) hcount (Lan.raise_zero l))
    have hframe := Lan.putPairs_frame l f.d (fun e => pairAdd (x e) (y e)) (l.actives f n)
    obtain ⟨t, ht, hlan, honly⟩ := h.retires (c := .vpadd i f) rfl hg ((Lan.raise_wait ..).trans ((congrArg Lan.wait hframe).trans rfl)) hn
    refine ⟨t, _, ht, hlan, honly, Lan.raise_of_v _ hframe, fun d e he => ?_⟩
    rw [Lan.pairsAdded, Lan.raise_vget, Lan.vget_putPairs l f.d _ (fun e => Lan.lt_of_mem_actives hle) d he]
    simp only [Lan.mem_actives, and_assoc]
    rfl

end Sys2Proof.Machine
end

section
/-! Scalar instructions (R184, R185, R192). -/

namespace Sys2Proof

section Sca
variable {c : LCtx} {u : Nat} {f : SF} {legal : Bool} {k : Lan}

theorem scaOp_unused_field (h : f.ok u = false) : scaOp c u f legal k = .exc 1 0 := by
  rw [scaOp, h]
  rfl

theorem scaOp_illegal (h : legal = false) : scaOp c u f legal k = .exc 1 0 := by
  rw [scaOp, h]
  exact if_pos (Bool.or_true _)

theorem scaOp_legal (hf : f.ok u = true) (hl : legal = true) : scaOp c u f legal k = .ok (k.retire c.code) := by
  rw [scaOp, hf, hl]
  rfl

end Sca

end Sys2Proof

namespace Sys2Proof.Machine

/-- A scalar instruction that writes SD has the value of its row. -/
theorem exec_scaRow : ∀ row ∈ scaRows, ∀ (i : LIss) (f : SF) (s : State), exec (row.cmd i f) s =
    .next (s.onLan (row.cmd i f) i (s.lanPure i (fun _ => 1) (fun c l => l.sop c row.uses f (row.val f l)))) := by
  simp only [scaRows, List.forall_mem_cons, List.not_mem_nil, false_implies, implies_true, and_true]
  refine ⟨?sli, ?slih, ?saddi, ?sadd, ?ssub, ?smul, ?sshl, ?sshr, ?ssel, ?moder⟩ <;> intro i f s
  case sshl => simp only [← Nat.shiftLeft_eq]; rfl
  case sshr => simp only [← Nat.shiftRight_eq_div_pow]; rfl
  case sli | slih | saddi | sadd | ssub | smul | ssel | moder => rfl

/-- What a scalar FP32 instruction leaves its Lantern as, before it retires. -/
def scaFpLan (row : ScaFpRow) (f : SF) (c : LCtx) (l : Lan) : Lan :=
  let res := fpRes l.strict l.rnd (l.rand c 0) (row.ops f l) (row.val f l) (row.divz f l)
  (l.sput f.sd res.1).raise res.2

/-- The meaning of a scalar FP32 instruction: the value of its row, and a pivot of an SFSQRT alone, its operand. -/
def ScaFpMeans (row : ScaFpRow) : Prop :=
  ∀ (i : LIss) (f : SF) (s : State), ∃ ds : Lan → List Nat,
    exec (row.cmd i f) s = .next (s.onLan (row.cmd i f) i
      (s.lanSqrt i (fun _ => 1) ds (fun c l => scaOp c (vD ||| row.uses) f true (scaFpLan row f c l)))) ∧
    ∀ (l : Lan) (min : Nat), (ds l).any (pivotFails min) = true ↔ row.cmd i f = .sfsqrt i f ∧ pivotFails min (l.sget f.sa % 2 ^ 32) = true

theorem ScaFpMeans.of_lanPure {row : ScaFpRow} (hne : ∀ i f, row.cmd i f ≠ .sfsqrt i f)
    (h : ∀ (i : LIss) (f : SF) (s : State), exec (row.cmd i f) s = .next (s.onLan (row.cmd i f) i
      (s.lanPure i (fun _ => 1) (fun c l => scaOp c (vD ||| row.uses) f true (scaFpLan row f c l))))) : ScaFpMeans row :=
  fun i f s => ⟨fun _ => [], (h i f s).trans (by rw [State.lanPure_eq_lanSqrt]), fun l min => by simp [hne]⟩

theorem exec_scaFpRow : ∀ row ∈ scaFpRows, ScaFpMeans row := by
  simp only [scaFpRows, List.forall_mem_cons, List.not_mem_nil, false_implies, implies_true, and_true]
  refine ⟨?sfadd, ?sfsub, ?sfmul, ?sfdiv, ?sfsqrt⟩
  case sfsqrt => exact fun i f s => ⟨fun l => [l.sget f.sa % 2 ^ 32], rfl, fun l min => by simp⟩
  all_goals exact .of_lanPure (fun _ _ => nofun) (fun _ _ _ => rfl)

/-- RDP of a routine parameter. -/
theorem State.rdpOp_param {f : SF} {r : Rout} {img : Image} {n x : Nat} (hf : f.ok (vD ||| vI) = true) (h28 : f.imm % 256 ≠ 28)
    (hx : r.param img n (f.imm % 256) = some x) (s : State) (c : LCtx) (l : Lan) :
    s.rdpOp f n r img c l = .go (s.putLan r n ((l.sput f.sd x).retire c.code)) := by
  simp [State.rdpOp, h28, hf, hx]

/-- RDP of the sampled bank of a result object (R144). -/
theorem State.rdpOp_bank {f : SF} {r : Rout} {l : Lan} {x : Sampled} (hf : f.ok (vD ||| vA ||| vI) = true) (h28 : f.imm % 256 = 28)
    (hx : r.samples.find? (fun y => y.tid == l.sget f.sa % 2 ^ 32 && l.sget f.sa % 2 ^ 32 != 0) = some x) (n : Nat) (img : Image) (s : State) (c : LCtx) :
    s.rdpOp f n r img c l =
      .go (s.putLan r n ((l.sput f.sd (if x.init then (4096 + x.bank * x.span) / 4 else 2 ^ 64 - 1)).retire c.code)) := by
  rw [State.rdpOp]
  simp only [h28, hf, hx]
  rfl

/-- Settles O48: each row by its meaning, and each other instruction by its own. -/
theorem scalarInstructionsAct : Obligations.ScalarInstructionsAct := by
  refine ⟨fun s i f r img l u h => ⟨fun row hrow hn hf => ?_, fun row hrow hn hf => ?_, fun x k => l.sget_sput ..⟩,
    fun s i f r img l u h => ⟨fun hf => ?_, fun hf hx => ?_, fun hf hx => ?_, fun hf => ?_, fun x hf h28 hx => ?_, fun x hf h28 hx => ?_⟩⟩
  · exact h.retires (exec_scaRow row hrow i f s) (scaOp_legal hf rfl) rfl hn
  · intro res fails
    obtain ⟨ds, hc, hds⟩ := exec_scaFpRow row hrow i f s
    have hpivots : factors r l = true ∧ (ds l).any (pivotFails r.pivMin) = true ↔ fails := by rw [hds, and_left_comm]
    exact ⟨fun hnot => h.sqrt_retires hc (scaOp_legal hf rfl) (Lan.raise_wait ..) (mt hpivots.mp hnot) hn,
      fun hfails => h.sqrt_fails hc (scaOp_legal hf rfl) (hpivots.mpr hfails) hn⟩
  · exact h.retires rfl (scaOp_legal hf rfl) (Lan.raise_wait ..)
  · exact h.retires rfl (scaOp_legal hf (decide_eq_true hx)) rfl
  · exact h.retires rfl (scaOp_legal hf (decide_eq_true hx)) rfl
  · exact h.retires rfl (scaOp_legal hf rfl) rfl
  · exact h.puts rfl (State.rdpOp_param hf h28 hx ..) rfl
  · exact h.puts rfl (State.rdpOp_bank hf h28 hx ..) rfl

end Sys2Proof.Machine
end

section
/-! MODEW (R206): the fields of MODE that it writes, bit by bit. -/

namespace Sys2Proof

theorem bitAt_eq_testBit (x i : Nat) : bitAt x i = x.testBit i := by
  rw [bitAt, bits, Nat.shiftRight_eq_div_pow, Nat.testBit_eq_decide_div_mod_eq]
  rfl

/-- A word with a field replaced, as the part above the field, the field, and the part below it. -/
theorem setBits_eq (x lo w v : Nat) : setBits x lo w v = 2 ^ lo * (2 ^ w * (x / 2 ^ lo / 2 ^ w) + v % 2 ^ w) + x % 2 ^ lo := by
  have hx : 2 ^ lo * (2 ^ w * (x / 2 ^ lo / 2 ^ w) + x / 2 ^ lo % 2 ^ w) + x % 2 ^ lo = x := by rw [Nat.div_add_mod, Nat.div_add_mod]
  have hbits : bits x lo w * 2 ^ lo = 2 ^ lo * (x / 2 ^ lo % 2 ^ w) := by rw [bits, Nat.shiftRight_eq_div_pow, Nat.mul_comm]
  rw [Nat.mul_add] at hx ⊢
  rw [setBits, hbits, Nat.mul_comm (v % 2 ^ w)]
  omega

theorem testBit_setBits (x lo w v k : Nat) : (setBits x lo w v).testBit k = if lo ≤ k ∧ k < lo + w then v.testBit (k - lo) else x.testBit k := by
  rw [setBits_eq, Nat.testBit_two_pow_mul_add _ (Nat.mod_lt _ (Nat.two_pow_pos lo)), Nat.testBit_two_pow_mul_add _ (Nat.mod_lt _ (Nat.two_pow_pos w))]
  simp only [Nat.testBit_mod_two_pow, Nat.testBit_div_two_pow]
  by_cases hlo : k < lo
  · simp [hlo, Nat.not_le.mpr hlo]
  · by_cases hw : k - lo < w
    · simp [hlo, hw, Nat.not_lt.mp hlo, show k < lo + w by omega]
    · rw [if_neg hlo, if_neg hw, if_neg (by omega), show k - lo - w + w + lo = k by omega]

/-- A word that takes a field of `x`, if `sel` selects it. -/
def takeField (sel : Bool) (x lo w m : Nat) : Nat := if sel then setBits m lo w (bits x lo w) else m

theorem testBit_takeField (sel : Bool) (x lo w m k : Nat) :
    (takeField sel x lo w m).testBit k = if (lo ≤ k ∧ k < lo + w) ∧ sel = true then x.testBit k else m.testBit k := by
  have hbit : lo ≤ k ∧ k < lo + w → (bits x lo w).testBit (k - lo) = x.testBit k := fun ⟨hlo, hw⟩ => by
    rw [bits, Nat.testBit_mod_two_pow, Nat.testBit_shiftRight, decide_eq_true (by omega), Bool.true_and, Nat.add_sub_cancel' hlo]
  cases sel with
  | false => simp [takeField]
  | true =>
    rw [takeField, if_pos rfl, testBit_setBits]
    by_cases h : lo ≤ k ∧ k < lo + w
    · rw [if_pos h, if_pos ⟨h, rfl⟩, hbit h]
    · rw [if_neg h, if_neg (fun hs => h hs.1)]

/-- MODE `m` with the fields that `imm` selects taken from `x` (R206). -/
def modeTaken (imm x m : Nat) : Nat :=
  takeField (bitAt imm 3) x 8 5 (takeField (bitAt imm 2) x 3 5 (takeField (bitAt imm 1) x 2 1 (takeField (bitAt imm 0) x 0 2 m)))

theorem testBit_modeTaken (imm x m k : Nat) : (modeTaken imm x m).testBit k =
    if (k < 2 ∧ imm.testBit 0 = true) ∨ (k = 2 ∧ imm.testBit 1 = true) ∨ (3 ≤ k ∧ k < 8 ∧ imm.testBit 2 = true) ∨
      (8 ≤ k ∧ k < 13 ∧ imm.testBit 3 = true) then x.testBit k else m.testBit k := by
  have hrnd : 0 ≤ k ∧ k < 0 + 2 ↔ k < 2 := by omega
  have hstrict : 2 ≤ k ∧ k < 2 + 1 ↔ k = 2 := by omega
  simp only [modeTaken, testBit_takeField, bitAt_eq_testBit, ← ite_or, hrnd, hstrict, and_assoc]
  exact if_congr (Iff.of_eq (by ac_rfl)) rfl rfl

/-- The values that MODEW refuses. -/
def modeBad (imm x : Nat) : Bool := decide (16 ≤ imm) || (bitAt imm 0 && bits x 0 2 == 3) || (bitAt imm 3 && decide (10 ≤ bits x 8 5))

theorem modeBad_iff (imm x : Nat) :
    modeBad imm x = true ↔ 16 ≤ imm ∨ (imm.testBit 0 = true ∧ x % 4 = 3) ∨ (imm.testBit 3 = true ∧ 10 ≤ x / 2 ^ 8 % 32) := by
  simp [modeBad, bitAt_eq_testBit, bits, Nat.shiftRight_eq_div_pow, or_assoc]

theorem Lan.modew_eq (l : Lan) (c : LCtx) (f : SF) :
    l.modew c f = scaOp c (vA ||| vI) f (!modeBad f.imm (l.sget f.sa)) { l with mode := BitVec.ofNat 32 (modeTaken f.imm (l.sget f.sa) l.mode.toNat) } := rfl

end Sys2Proof

namespace Sys2Proof.Machine

/-- Settles O49: MODEW takes four fields, one after another, and each leaves the bits of the others. -/
theorem modewWritesSelectedFields : Obligations.ModewWritesSelectedFields := by
  intro s i f r img l u h hn hf x bad
  have hbad : modeBad f.imm x = true ↔ bad := modeBad_iff ..
  refine ⟨fun hb => ?_, fun hb => ?_⟩
  · exact h.refuses (c := .modew i f) rfl ((Lan.modew_eq ..).trans (scaOp_illegal (congrArg not (hbad.mpr hb)))) hn
  · have hg := (Lan.modew_eq l (ctxFor i r img) f).trans (scaOp_legal hf (by simpa using mt hbad.mp hb))
    obtain ⟨t, ht, hlan, honly⟩ := h.retires (c := .modew i f) rfl hg rfl hn
    refine ⟨t, _, ht, hlan, honly, fun k => ?_⟩
    rw [BitVec.getLsbD_ofNat, testBit_modeTaken, BitVec.testBit_toNat]
    by_cases hk : k < 32
    · rw [decide_eq_true hk, Bool.true_and]
    · rw [if_neg (by omega), BitVec.getLsbD_of_ge _ _ (Nat.not_lt.mp hk), Bool.and_false]

end Sys2Proof.Machine
end

section
/-! LOOP, ENDLOOP and BRK (R198, R199). -/

namespace Sys2Proof

section Loop
variable {l : Lan} {c : LCtx} {f : SF}

/-- A LOOP may open a level: its body has two words or more and an ENDLOOP at its end, and a level is free (R198). -/
def Lan.Opens (l : Lan) (code : List Nat) (f : SF) : Prop :=
  2 ≤ f.imm % 2 ^ 24 ∧ nth 0 code (l.pc + f.imm % 2 ^ 24) / 2 ^ 56 = 0x55 ∧ l.loops.length ≤ 3

theorem Lan.loopOp_illegal (h : ¬l.Opens c.code f) : l.loopOp c f = .exc 1 0 := by
  refine if_pos ?_
  rw [Lan.Opens] at h
  simp only [isEndloop, Bool.or_eq_true, Bool.not_eq_true', decide_eq_true_eq, beq_eq_false_iff_ne]
  omega

theorem Lan.loopOp_legal (hf : f.ok (vA ||| vI) = true) (h : l.Opens c.code f) :
    l.loopOp c f = if l.sget f.sa = 0 then .ok (l.retireTo (l.pc + f.imm % 2 ^ 24 + 1)) else .ok { l.retireTo (l.pc + 1) with
      loops := { creg := f.sa, endw := l.pc + f.imm % 2 ^ 24, start := l.pc + 1 } :: l.loops } := by
  obtain ⟨hn, hend, hfree⟩ := h
  refine if_neg ?_
  simp only [hf, isEndloop, hend, decide_eq_false (Nat.not_lt.mpr hn), decide_eq_false (Nat.not_lt.mpr hfree), beq_self_eq_true, Bool.not_true,
    Bool.or_self, Bool.false_eq_true, not_false_eq_true]

theorem Lan.brkOp_outside (h : l.loops = []) : l.brkOp c f = .exc 1 0 := by
  rw [Lan.brkOp, h]
  exact ite_self _

theorem Lan.brkOp_stays (hf : f.ok vMS = true) (h : l.loops ≠ []) (hm : l.mbit f.ms 0 = false) : l.brkOp c f = .ok (l.retire c.code) := by
  obtain ⟨lv, rest, hls⟩ := List.exists_cons_of_ne_nil h
  rw [Lan.brkOp, hf, hls, hm]
  rfl

/-- A BRK that pops the innermost loop goes on with the steps of the others after its ENDLOOP. -/
theorem Lan.brkOp_pops (hf : f.ok vMS = true) {lv : LoopLvl} {rest ls : List LoopLvl} (h : l.loops = lv :: rest) (hm : l.mbit f.ms 0 = true)
    {s : SMap W64} {p : Nat} (hsteps : loopSteps c.code l.pc rest l.s (lv.endw + 1) = (ls, s, p)) :
    l.brkOp c f = .ok { l with loops := ls, s := s, pc := p, dcount := (l.dcount + 1) % 2 ^ 28 } := by
  rw [Lan.brkOp, hf, h, hm]
  simp only [Bool.not_true, Bool.false_eq_true, if_false, if_true, hsteps]

end Loop

end Sys2Proof

namespace Sys2Proof.Machine

/-- A BRK after which an enclosing loop has stepped its counter. -/
theorem LanIssues.breaks {s : State} {i : LIss} {f : SF} {r : Rout} {img : Image} {l : Lan} {u : Nat} (h : LanIssues s i r img l u)
    (hn : img.lanNext i l = some (.brk i f)) (hf : f.ok vMS = true) {lv : LoopLvl} {rest ls : List LoopLvl} (hls : l.loops = lv :: rest)
    (hm : l.mbit f.ms 0 = true) {k x p : Nat} (hsteps : loopSteps img.code l.pc rest l.s (lv.endw + 1) = (ls, (l.sput k x).s, p)) :
    Leaves s i u (.brk i f) { l.sput k x with pc := p, dcount := (l.dcount + 1) % 2 ^ 28, loops := ls } :=
  h.retires rfl (Lan.brkOp_pops hf hls hm hsteps) rfl hn

/-- Settles O51: LOOP by whether it may open a level, BRK by the steps of the loops around the one that it pops. -/
theorem loopsOpenAndBreak : Obligations.LoopsOpenAndBreak := by
  refine ⟨fun s i f r img l u h => ⟨fun hf hopens => ⟨fun h0 => ?_, fun h0 => ?_⟩, fun hnot hn => ?_, fun hn => ?_⟩,
    fun s i f r img l u h hn hf => ⟨fun hnone => ?_, fun hsome hm => ?_, fun lv rest hls hm hrest => ?_, fun lv inner lv2 outer hls hm hinner hlv2 =>
      ⟨fun hc => ?_, fun hc houter => ?_⟩⟩⟩
  · exact h.retires rfl ((Lan.loopOp_legal (c := ctxFor i r img) hf hopens).trans (if_pos h0)) rfl
  · exact h.retires rfl ((Lan.loopOp_legal (c := ctxFor i r img) hf hopens).trans (if_neg h0)) rfl
  · exact h.refuses (c := .loop i f) rfl (Lan.loopOp_illegal (c := ctxFor i r img) hnot) hn
  · exact h.refuses (c := .endloop i f) rfl rfl hn
  · exact h.refuses (c := .brk i f) rfl (Lan.brkOp_outside hnone) hn
  · exact h.retires (c := .brk i f) rfl (Lan.brkOp_stays hf hsome hm) rfl hn
  · exact h.retires (c := .brk i f) rfl (Lan.brkOp_pops hf hls hm (loopSteps_none hrest ..)) rfl hn
  · have hsteps := loopSteps_passes (code := img.code) hinner (lv2 :: outer) l.s (lv.endw + 1)
    rw [loopSteps_repeats hlv2 (mt Lan.look_s_eq_one.mp hc), Lan.put_counter] at hsteps
    exact h.breaks hn hf hls hm hsteps
  · have hsteps := loopSteps_passes (code := img.code) hinner (lv2 :: outer) l.s (lv.endw + 1)
    rw [loopSteps_ends hlv2 (Lan.look_s_eq_one.mpr hc) houter] at hsteps
    exact h.breaks hn hf hls hm hsteps

end Sys2Proof.Machine
end

section
/-! How a routine ends with a fault (R147, R168), and the words that end it so (R183, R208). -/

namespace Sys2Proof.Machine

theorem State.rfind_of_routs {s t : State} (h : t.routs = s.routs) (q seq : Nat) : t.rfind q seq = s.rfind q seq := by
  rw [State.rfind, State.rfind, h]

theorem State.closeChan_routs (s : State) (r : Rout) : (s.closeChan r).routs = s.routs := by
  unfold State.closeChan
  split <;> rfl

theorem State.forget_routs (s : State) (p : Act → Bool) : (s.forget p).routs = s.routs := by
  unfold State.forget
  extract_lets r s1 mine
  split <;> rfl

theorem State.domeBack_routs (s : State) : s.domeBack.routs = s.routs :=
  List.foldlRecOn (s.listed O.arrayState) _ (motive := fun t : State => t.routs = s.routs) rfl
    (fun t ht _ _ => by dsimp only; split <;> exact ht)

/-- What a routine's end says of it. -/
def Rout.SameEnd (r r' : Rout) : Prop := r'.ended = r.ended ∧ r'.outcome = r.outcome ∧ r'.code = r.code

/-- The header writes that are left do not change how a routine ended. -/
theorem State.nextHdr_sameEnd {s : State} {q seq : Nat} {r : Rout} (h : s.rfind q seq = some r) :
    ∃ r', (s.nextHdr q seq).rfind q seq = some r' ∧ Rout.SameEnd r r' := by
  obtain ⟨hq, hseq⟩ := State.rfind_key h
  have hkey : ∀ f : Rout → Rout, (f r).q = r.q → (f r).seq = r.seq → (s.rupd q seq f).rfind q seq = some (f r) :=
    fun f h1 h2 => State.rfind_rupd_same f h ⟨h1.trans hq, h2.trans hseq⟩
  unfold State.nextHdr
  rw [h]
  dsimp only
  split
  · exact ⟨r, h, rfl, rfl, rfl⟩
  · split
    · rw [State.routDone, hq, hseq]
      exact ⟨_, hkey (fun r => { r with phase := .over, resultStep := stepOut r }) rfl rfl, rfl, rfl, rfl⟩
    · rename_i l _
      exact ⟨_, (State.rfind_of_routs (State.access_asked ..).routs ..).trans (hkey (fun r => { r with hdrs := l }) rfl rfl), rfl, rfl, rfl⟩

/-- A routine that has not ended ends with the outcome and the code of its end. -/
theorem State.endRout_ends {s : State} {q seq : Nat} {r : Rout} (h : s.rfind q seq = some r) (he : r.ended = false) (outcome code : Nat) :
    ∃ r', (s.endRout q seq outcome code).rfind q seq = some r' ∧ r'.ended = true ∧ r'.outcome = outcome ∧ r'.code = code := by
  have hkey := State.rfind_key h
  unfold State.endRout
  split
  · rename_i hnone
    cases h.symm.trans hnone
  rename_i r0 hr0
  obtain rfl := Option.some.inj (h.symm.trans hr0)
  rw [if_neg (ne_true_of_eq_false he)]
  extract_lets passed s1 s2 its hs s3
  have h2 : s2.rfind q seq = some r := by
    refine (State.rfind_of_routs ?_ q seq).trans h
    unfold s2
    split
    · exact State.closeChan_routs ..
    · exact State.closeChan_routs ..
  have h3 := State.rfind_rupd_same (s := s2) (fun r => { r with
    phase := .commit, ended := true, outcome := outcome, code := code, hdrs := hs, iters := its
    passes := r.passes + r.itPasses, laneOps := r.laneOps + r.itOps, itPasses := 0, itOps := 0 }) h2 hkey
  have h4 : ((s3.forget (ofRout q seq)).letGo q seq).domeBack.routs = s3.routs := (State.domeBack_routs _).trans (State.forget_routs s3 (ofRout q seq))
  obtain ⟨r', hr', hend⟩ := State.nextHdr_sameEnd (s := (((s3.forget (ofRout q seq)).letGo q seq).domeBack).dupd q seq
    (fun d => { d with bell := s3.bellNo, stopTid := r.faultTid }))
    ((State.rfind_of_routs h4 q seq).trans h3)
  exact ⟨r', hr', hend⟩

/-- A Lantern exception ends its routine with outcome FAULT. -/
theorem State.lanExc_ends {s : State} {r : Rout} {q seq : Nat} (h : s.rfind q seq = some r) (he : r.ended = false) (l : Lan) (n u cls elem code : Nat) :
    ∃ r', (s.lanExc r l n u cls elem code).rfind q seq = some r' ∧ r'.ended = true ∧ r'.outcome = 8 ∧ r'.code = code := by
  obtain ⟨hq, hseq⟩ := State.rfind_key h
  rw [State.lanExc, State.faultRout, hq, hseq]
  exact State.endRout_ends (s := s.bump O.exceptions u 32 1) h he 8 code

theorem Image.lanNext_illegal {img : Image} {l : Lan} {word : Nat} (hw : img.code[l.pc]? = some word) (ho : lanOpcode (word / 2 ^ 56 % 256) = false) (i : LIss) :
    img.lanNext i l = some (.fLanternIllegal i word) := by
  have hop : lanOpcode (bits word 56 8) = false := by rwa [bits, Nat.shiftRight_eq_div_pow]
  rw [Image.lanNext, hw, Option.map_some, lanInstr_illegal i hop]

/-- Settles O54: each word raises the exception, which ends the routine. -/
theorem illegalWordsEndTheRoutine : Obligations.IllegalWordsEndTheRoutine := by
  intro s i r img l u h
  refine ⟨fun word hw ho => ?_, fun row hrow f hbad hn => ?_, fun row hrow f hbad hn => ?_, fun row hrow f hf hn => ?_, fun row hrow f hf hn => ?_,
    fun hended r' hr' => ?_⟩
  · exact h.excepts rfl rfl (Image.lanNext_illegal hw ho i)
  · exact h.refuses (exec_intRow row hrow i f s) (hbad.elim Lan.vec_unused_field Lan.vec_no_count) hn
  · obtain ⟨ds, hc, -⟩ := exec_fpRow row hrow i f s
    exact h.sqrt_refuses hc (hbad.elim Lan.vec_unused_field Lan.vec_no_count) hn
  · exact h.refuses (exec_scaRow row hrow i f s) (scaOp_unused_field hf) hn
  · obtain ⟨ds, hc, -⟩ := exec_scaFpRow row hrow i f s
    exact h.sqrt_refuses hc (scaOp_unused_field hf) hn
  · rw [h.rout] at hended
    obtain ⟨r1, hr1, hend⟩ := State.lanExc_ends h.rout (Option.some.inj hended) l i.l u 1 0 0x0501
    obtain rfl := Option.some.inj (hr1.symm.trans hr')
    exact hend

end Sys2Proof.Machine
end

section
/-! CNT (R180): the count that it gives, the counts that it may not, and the instructions on no elements. -/

namespace Sys2Proof

section Count
variable {f : VF} {vl : Nat}

theorem VF.count_of_le (h : f.cnt ≤ 4096) : f.count vl = some f.cnt := if_pos h

theorem VF.count_vl (h : f.cnt = 0x1FFF) (hvl : vl ≤ 4096) : f.count vl = some vl := by
  rw [VF.count, if_neg (by omega), if_pos h, Nat.min_eq_left hvl]

theorem VF.count_illegal (h : 4096 < f.cnt) (hne : f.cnt ≠ 0x1FFF) : f.count vl = none := (if_neg (Nat.not_le.mpr h)).trans (if_neg hne)

end Count

theorem Lan.vcvt_no_count {l : Lan} {c : LCtx} {f : VF} (h : f.count l.vl = none) : l.vcvt c f = .exc 1 0 := by
  unfold Lan.vcvt
  split
  · exact Lan.vec_no_count h
  · rfl

end Sys2Proof

namespace Sys2Proof.Machine

section Access
variable {f : VF} {l : Lan}

theorem touches_count (h : f.count l.vl = none ∨ f.count l.vl = some 0) : touches f l = false := by
  obtain h | h := h <;> simp [touches, h]

theorem State.lanAccess_no_count (h : f.count l.vl = none) (s : State) (r : Rout) (c : LCtx) (k : State → Nat → TmEntry → List (Nat × Nat) → LEff)
    (nop : LEff) : s.lanAccess r l c f k nop = .exc s 1 0 0x0501 := by
  rw [State.lanAccess, h]
  exact ite_self _

theorem State.lanAccess_zero (hf : f.ok (uD ||| uA ||| uB ||| uC ||| uVec) = true) (hr : f.a < 16 ∧ f.b < 16 ∧ f.c < 16) (h : f.count l.vl = some 0)
    (s : State) (r : Rout) (c : LCtx) (k : State → Nat → TmEntry → List (Nat × Nat) → LEff) (nop : LEff) : s.lanAccess r l c f k nop = nop := by
  obtain ⟨ha, hb, hc⟩ := hr
  rw [State.lanAccess, if_neg (by simp [hf, ha, hb, hc]), h]
  rfl

/-- A VST that touches nothing does not wait for the tokens of a GRAM. -/
theorem State.vstOp_untouched (h : touches f l = false) (n : Nat) (s : State) (r : Rout) (img : Image) (c : LCtx) : ∃ k,
    s.vstOp f n r img c l = s.lanAccess r l c f k (.go (s.rupd r.q r.seq (fun r => r.updLan n (fun _ => l.retire c.code)))) :=
  ⟨_, if_neg (by simp [h])⟩

end Access

section Cnt
variable {s : State} {i : LIss} {f : VF} {r : Rout} {img : Image} {l : Lan} {u : Nat} (h : LanIssues s i r img l u)
include h

/-- An illegal CNT is an exception of every vector instruction. -/
theorem LanIssues.no_count (hnone : f.count l.vl = none) :
    ∀ c ∈ ([.vadd i f, .vsub i f, .vmul i f, .vfma i f, .vdiv i f, .vsqrt i f, .vmin i f, .vmax i f, .vabs i f, .vneg i f, .vadds i f, .vmuls i f,
      .vfmas i f, .vpadd i f, .viadd i f, .visub i f, .vimul i f, .viaddsat i f, .vand i f, .vor i f, .vxor i f, .vshl i f, .vsra i f, .vsrl i f,
      .viota i f, .vmov i f, .vbcast i f, .vcmp i f, .vicmp i f, .vsel i f, .mand i f, .mor i f, .mnot i f, .many i f, .vrsum i f, .vrmax i f,
      .vrmin i f, .vrcsum i f, .vrisum i f, .vcvt i f, .vld i f, .vst i f] : List Instr),
      img.lanNext i l = some c → exec c s = .next (s.lanExc r l i.l u 1 0 0x0501) := by
  simp only [List.forall_mem_cons, List.not_mem_nil, false_implies, implies_true, and_true]
  refine ⟨?_, ?_, ?_, ?_, ?_, ?vsqrt, ?_, ?_, ?_, ?_, ?_, ?_, ?_, ?_, ?_, ?_, ?_, ?_, ?_, ?_, ?_, ?_, ?_, ?_, ?_, ?_, ?_, ?_, ?_, ?_, ?_, ?_, ?_, ?_,
    ?_, ?_, ?_, ?_, ?_, ?vcvt, ?vld, ?vst⟩
  case vsqrt => exact h.sqrt_refuses rfl (Lan.vec_no_count hnone)
  case vcvt => exact h.refuses rfl (Lan.vcvt_no_count hnone)
  case vld => exact h.excepts rfl (State.lanAccess_no_count hnone ..)
  case vst =>
    obtain ⟨k, hk⟩ := State.vstOp_untouched (touches_count (.inl hnone)) i.l (s.acting (lanAct i)) r img (ctxFor i r img)
    exact h.excepts rfl (hk.trans (State.lanAccess_no_count hnone ..))
  all_goals exact h.refuses rfl (Lan.vec_no_count hnone)

end Cnt

/-- Settles O55: the count by the three ranges of CNT; on no elements each shape of instruction retires. -/
theorem cntGivesTheElementCount : Obligations.CntGivesTheElementCount := by
  refine fun s i f r img l u h => ⟨VF.count_of_le, VF.count_vl, fun hgt hne => h.no_count (VF.count_illegal hgt hne), fun hzero => ?_⟩
  intro noOp
  refine ⟨fun row hrow hf => ?_, fun row hrow hf hn => ?_, fun row hrow hf hlegal => ?_, ?_, fun hf hd ha hb => ?_, fun hf hd ha => ?_,
    fun hf h1 h2 => ?_, fun hf ha hb hc => ⟨?_, ?_⟩⟩
  · exact h.retires (exec_intRow row hrow i f s) (Lan.vec_zero hf rfl hzero) rfl
  · obtain ⟨ds, hc, hds⟩ := exec_fpRow row hrow i f s
    exact h.sqrt_retires hc (Lan.vec_zero hf rfl hzero) rfl (by simp [hds l 0 _ hzero]) hn
  · obtain ⟨g, hc, hg⟩ := exec_maskRow row hrow i f s
    exact h.retires hc ((hg _ l hf).trans (Lan.vec_zero hf hlegal hzero)) rfl
  · simp only [List.forall_mem_cons, List.not_mem_nil, false_implies, implies_true, and_true]
    refine ⟨?vrsum, ?vrisum, ?vrmax, ?vrmin, ?vrcsum, ?vsel⟩ <;> intro hf
    all_goals exact h.retires rfl (Lan.vec_zero hf rfl hzero) rfl
  · exact h.retires rfl ((Lan.vpadd_eq ..).trans (Lan.vec_zero hf (by simp [hd, ha, hb]) hzero)) rfl
  · exact h.retires rfl (Lan.vec_zero hf (by simp [hd, ha]) hzero) rfl
  · obtain ⟨f1, h1⟩ := Option.isSome_iff_exists.mp h1
    obtain ⟨f2, h2⟩ := Option.isSome_iff_exists.mp h2
    exact h.retires rfl ((Lan.vcvt_of_formats h1 h2).trans (Lan.vec_zero hf rfl hzero)) rfl
  · exact h.puts rfl (State.lanAccess_zero hf ⟨ha, hb, hc⟩ hzero ..) rfl
  · obtain ⟨k, hk⟩ := State.vstOp_untouched (touches_count (.inr hzero)) i.l (s.acting (lanAct i)) r img (ctxFor i r img)
    exact h.puts rfl (hk.trans (State.lanAccess_zero hf ⟨ha, hb, hc⟩ hzero ..)) rfl

end Sys2Proof.Machine
end

section
/-! What counters and events leave of the state (R306 to R315), and what the passing of time leaves (R330, R384). -/

namespace Sys2Proof.Machine

/-- `t` is `s` but for events and for the objects of the numbers `os`. -/
structure State.Counted (os : List Nat) (s t : State) : Prop where
  frame : t = { s with objs := t.objs, evbuf := t.evbuf, evSeq := t.evSeq, fatalRaised := t.fatalRaised }
  get : ∀ {o n : Nat}, o ∉ os → o ≠ O.bgMaster → n < 262144 → t.get o n = s.get o n

section Counted
variable {os : List Nat} {s t u : State}

theorem State.Counted.of_objs (h : t.objs = s.objs)
    (hf : t = { s with objs := t.objs, evbuf := t.evbuf, evSeq := t.evSeq, fatalRaised := t.fatalRaised }) : State.Counted os s t :=
  have hv : t.variant = s.variant := (congrArg State.variant hf).trans rfl
  ⟨hf, fun _ _ _ => State.get_of_objs hv h ..⟩

theorem State.Counted.refl (s : State) : State.Counted os s s := .of_objs rfl rfl

theorem State.Counted.trans (h : State.Counted os s t) (k : State.Counted os t u) : State.Counted os s u := by
  refine ⟨?_, fun ho hb hn => (k.get ho hb hn).trans (h.get ho hb hn)⟩
  have hu := k.frame
  rw [h.frame] at hu
  exact hu

theorem State.Counted.mono {os' : List Nat} (ho : os ⊆ os') (h : State.Counted os s t) : State.Counted os' s t :=
  ⟨h.frame, fun hn => h.get (fun hm => hn (ho hm))⟩

theorem State.Counted.ite {p : Prop} [Decidable p] (h : State.Counted os s t) (k : State.Counted os s u) : State.Counted os s (if p then t else u) := by
  split
  · exact h
  · exact k

theorem State.Counted.put (h : State.Counted os s t) {o n : Nat} (ho : o ∈ os) (hn : n < 262144) (v : Nat) : State.Counted os s (t.put o n v) :=
  h.trans ⟨rfl, fun ho' hb hn' => State.get_put_oid t (fun e => ho' (e ▸ ho)) hb hn hn'⟩

theorem State.Counted.cycle (h : State.Counted os s t) : t.cycle = s.cycle := (congrArg State.cycle h.frame).trans rfl
theorem State.Counted.due (h : State.Counted os s t) : t.due = s.due := (congrArg State.due h.frame).trans rfl
theorem State.Counted.form (h : State.Counted os s t) : t.form = s.form := (congrArg State.form h.frame).trans rfl
theorem State.Counted.openedAt (h : State.Counted os s t) : t.openedAt = s.openedAt := (congrArg State.openedAt h.frame).trans rfl
theorem State.Counted.base (h : State.Counted os s t) : t.base = s.base := (congrArg State.base h.frame).trans rfl
theorem State.Counted.queues (h : State.Counted os s t) : t.queues = s.queues := (congrArg State.queues h.frame).trans rfl

end Counted

theorem State.buffer_frame (s : State) (e : Ev) :
    s.buffer e = { s with objs := (s.buffer e).objs, evbuf := (s.buffer e).evbuf, evSeq := (s.buffer e).evSeq, fatalRaised := (s.buffer e).fatalRaised } := by
  unfold State.buffer
  extract_lets sev e put others out lo n
  split
  · unfold put; dsimp only; split <;> rfl
  · split
    · unfold put; dsimp only; split <;> rfl
    · rfl

theorem State.buffer_counted (s : State) (e : Ev) : State.Counted eventObjects s (s.buffer e) := ⟨s.buffer_frame e, s.buffer_get e⟩

/-- A report counts the event, keeps the first fault and buffers an entry; it writes no object but those of events. -/
theorem State.report_counted (s : State) {e : Ev} (hc : e.code < 262144) : State.Counted eventObjects s (s.report e) := by
  unfold State.report
  extract_lets sev e' s1 s2
  have h1 : State.Counted eventObjects s s1 := ((State.Counted.refl s).put (mem_sev (evSeverity_le _)) (by decide) _).put (by decide) hc _
  have h2 : State.Counted eventObjects s s2 := .ite ((h1.put (by decide) (by decide) _).put (by decide) (by decide) _) h1
  clear_value s2
  have hraise : State.Counted eventObjects s (s2.setFatalRaised (e'.code :: s2.fatalRaised)) := h2.trans (.of_objs rfl rfl)
  have hjoin : State.Counted eventObjects s (s2.setEvbuf (coalesce e' s2.evbuf)) := h2.trans (.of_objs rfl rfl)
  exact .ite (.ite h2 (hraise.trans (State.buffer_counted ..)))
    (.ite h2 (.ite (hjoin.put (by decide) (by decide) _) (h2.trans (State.buffer_counted ..))))

theorem State.nArr_le (s : State) : s.nArr ≤ 262144 := by
  unfold State.nArr
  cases s.variant <;> decide +kernel

/-- Frozen cycles count in FREEZE_CYCLES of the arrays and nowhere else. -/
theorem State.freezeArrays_counted (s : State) (m : Nat) {os : List Nat} (ho : O.freezeCycles ∈ os) : State.Counted os s (s.freezeArrays m) :=
  List.foldlRecOn (List.range s.nArr) _ (motive := State.Counted os s) (.refl s)
    (fun _ ht _ ha => ht.put ho ((List.mem_range.mp ha).trans_le s.nArr_le) _)

/-- Time passes: counters of frozen cycles move on, and then the cycle number and the time base. -/
theorem State.until_counted (s : State) (c : Nat) :
    ∃ (t : State) (tb : Nat), State.Counted [O.freezeCycles, O.throttleFrozen] s t ∧ s.until c = (t.setCycle (max s.cycle c)).setTb tb := by
  have hmax : max s.cycle c = s.cycle + (c - s.cycle) := by omega
  rw [hmax]
  unfold State.until State.advance
  split
  · next h => exact ⟨s, s.tb, .refl s, by rw [h]; rfl⟩
  · extract_lets f t
    have ht : State.Counted [O.freezeCycles, O.throttleFrozen] s t :=
      .ite (.refl s) ((s.freezeArrays_counted f (by decide)).put (by decide) (by decide) _)
    exact ⟨t, _, ht, by rw [ht.cycle]⟩

section Until
variable (s : State) (c : Nat)

theorem State.until_cycle : (s.until c).cycle = max s.cycle c := by
  obtain ⟨t, tb, -, h⟩ := s.until_counted c
  rw [h]; rfl

theorem State.until_due : (s.until c).due = s.due := by
  obtain ⟨t, tb, ht, h⟩ := s.until_counted c
  rw [h]; exact ht.due

theorem State.until_openedAt : (s.until c).openedAt = s.openedAt := by
  obtain ⟨t, tb, ht, h⟩ := s.until_counted c
  rw [h]; exact ht.openedAt

theorem State.until_form : (s.until c).form = s.form := by
  obtain ⟨t, tb, ht, h⟩ := s.until_counted c
  rw [h]; exact ht.form

theorem State.until_queues : (s.until c).queues = s.queues := by
  obtain ⟨t, tb, ht, h⟩ := s.until_counted c
  rw [h]; exact ht.queues

theorem State.until_obj {o : Nat} (ho : o ∉ [O.freezeCycles, O.throttleFrozen]) (hb : o ≠ O.bgMaster) : (s.until c).obj o = s.obj o := by
  obtain ⟨t, tb, ht, h⟩ := s.until_counted c
  rw [h]; exact ht.get ho hb (by decide)

theorem State.until_bellNo : (s.until c).bellNo = s.bellNo := s.until_obj c (by decide) (by decide)

end Until

end Sys2Proof.Machine
end

section
/-! The toll of a bell, its overrun, and the pace breaks of its formation (R223, R225, R226, R333). -/

namespace Sys2Proof.Machine

/-! The toll. -/

/-- What a toll reads of the bell that it ends, and host memory, are in `t` as they are in `s`. -/
structure State.SameBell (s t : State) : Prop where
  number : t.bellNo = s.bellNo
  due : t.due = s.due
  form : t.form = s.form
  queues : t.queues = s.queues
  lates : t.obj O.lateTolls = s.obj O.lateTolls
  base : t.base = s.base

theorem State.SameBell.trans {s t u : State} (h : s.SameBell t) (k : t.SameBell u) : s.SameBell u :=
  ⟨k.number.trans h.number, k.due.trans h.due, k.form.trans h.form, k.queues.trans h.queues, k.lates.trans h.lates, k.base.trans h.base⟩

theorem State.until_sameBell (s : State) (c : Nat) : s.SameBell (s.until c) :=
  ⟨s.until_bellNo c, s.until_due c, s.until_form c, s.until_queues c, s.until_obj c (by decide) (by decide), s.until_base c⟩

theorem State.Counted.sameBell {os : List Nat} {s t : State} (h : State.Counted os s t) (hn : O.bellNumber ∉ os) (hl : O.lateTolls ∉ os) : s.SameBell t :=
  ⟨h.get hn (by decide) (by decide), h.due, h.form, h.queues, h.get hl (by decide) (by decide), h.base⟩

/-- The objects that the digest summary of a bell writes (R339). -/
def digestObjects : List Nat := O.digestMismatches :: O.lastMismatchBell :: eventObjects

/-- The digest summary of the bell that tolls counts and reports a mismatch; the rest of it is the group's own. -/
theorem State.tollDigest_counted (s : State) :
    ∃ (t : State) (g : Group) (m : Option Nat), State.Counted digestObjects s t ∧ s.tollDigest = (t.setGroup g).setMasterDig m := by
  unfold State.tollDigest
  extract_lets g b s1
  split
  · exact ⟨s, s.group, s.masterDig, .refl s, rfl⟩
  have h1 : State.Counted digestObjects s s1 := ((State.Counted.refl s).put (by decide) (by decide) _).put (by decide) (by decide) _
  have hcode : 0x0802 < 262144 := by decide
  split
  exact ⟨_, _, _, .ite (.refl s) (.ite h1 (h1.trans (.mono (by decide) (State.report_counted _ hcode)))), rfl⟩

theorem State.tollDigest_cycle (s : State) : s.tollDigest.cycle = s.cycle := by
  obtain ⟨t, g, m, ht, h⟩ := s.tollDigest_counted
  rw [h]; exact ht.cycle

theorem State.tollDigest_sameBell (s : State) : s.SameBell s.tollDigest := by
  obtain ⟨t, g, m, ht, h⟩ := s.tollDigest_counted
  rw [h]
  obtain ⟨hnumber, hdue, hform, hqueues, hlates, hbase⟩ := ht.sameBell (by decide) (by decide)
  exact ⟨hnumber, hdue, hform, hqueues, hlates, hbase⟩

/-- The state of a toll, its time past the opening and its lateness counted (R226). -/
def State.tollCounted (s : State) : State :=
  let s1 := s.setObj O.lastBellCycles (min (s.cycle - s.openedAt) (2 ^ 32 - 1))
  if decide (s.due < s.cycle) then
    let s2 := (s1.bump O.lateTolls 0 32 1).setObj O.maxLateness (max (s1.obj O.maxLateness) (min (s.cycle - s.due) (2 ^ 32 - 1)))
    s2.queues.foldl (fun t (q, x) => if x.bellSeen == some s.bellNo then t.acct O.acctLateTolls q 1 else t) s2
  else s1

/-- The state in which the next bell is open, before the captures admitted into it are judged. -/
def State.opened (s : State) : State :=
  (((((s.tollCounted.setObj O.bellNumber (s.bellNo + 1)).setBell .open).setOpenedAt s.cycle).setDue (s.cycle + s.tollCounted.form.period)).setOverrun
    false).setTransBell []

theorem State.openNext_eq (s : State) : s.openNext = s.opened.formed := rfl

theorem State.acct_frame (s : State) (o q n : Nat) : s.acct o q n = (s.setObjs (s.acct o q n).objs).setQueues (s.acct o q n).queues := by
  unfold State.acct
  split <;> rfl

/-- What a toll counts is in objects and in the accounts of queues. -/
theorem State.tollCounted_frame (s : State) : s.tollCounted = (s.setObjs s.tollCounted.objs).setQueues s.tollCounted.queues := by
  unfold State.tollCounted
  extract_lets s1 s2
  split
  · refine List.foldlRecOn s2.queues _ (motive := fun t => t = (s.setObjs t.objs).setQueues t.queues) rfl (fun t ht (q, x) _ => ?_)
    dsimp only
    split
    · rw [State.acct_frame, ht]; rfl
    · exact ht
  · rfl

theorem State.tollCounted_lates (s : State) (h : s.queues = []) :
    s.tollCounted.obj O.lateTolls = if s.due < s.cycle then (s.obj O.lateTolls + 1) % 2 ^ 32 else s.obj O.lateTolls := by
  unfold State.tollCounted
  extract_lets s1 s2
  have hq : s2.queues = [] := h
  have hlast : s1.obj O.lateTolls = s.obj O.lateTolls := State.get_put_oid s (by decide) (by decide) (by decide) (by decide)
  rw [hq]
  simp only [decide_eq_true_eq]
  split
  · calc s2.obj O.lateTolls
      _ = (s1.bump O.lateTolls 0 32 1).obj O.lateTolls := State.get_put_oid _ (by decide) (by decide) (by decide) (by decide)
      _ = (s1.obj O.lateTolls + 1) % 2 ^ 32 := State.get_bump_same s1 _ _ _ _ (by decide)
      _ = (s.obj O.lateTolls + 1) % 2 ^ 32 := by rw [hlast]
  · exact hlast

theorem State.opened_due (s : State) : s.opened.due = s.cycle + s.form.period := by
  unfold State.opened
  rw [s.tollCounted_frame]
  rfl

/-- `u` is `s` with the next bell open from cycle `c` on. -/
structure State.OpensAt (s : State) (c : Nat) (u : State) : Prop where
  number : u.bellNo = s.bellNo + 1
  bell : u.bell = .open
  cycle : u.cycle = c
  openedAt : u.openedAt = c
  due : u.due = c + s.form.period
  overrun : u.overrun = false
  transBell : u.transBell = []
  byte : ∀ a, u.byte a = s.byte a
  lates : s.queues = [] → u.obj O.lateTolls = if s.due < c then (s.obj O.lateTolls + 1) % 2 ^ 32 else s.obj O.lateTolls

theorem State.opened_opensAt (s : State) : s.OpensAt s.cycle s.opened where
  number := State.obj_put_same s.tollCounted O.bellNumber _ (by decide)
  bell := rfl
  cycle := (congrArg State.cycle s.tollCounted_frame).trans rfl
  openedAt := rfl
  due := s.opened_due
  overrun := rfl
  transBell := rfl
  byte := State.byte_of_base ((congrArg State.base s.tollCounted_frame).trans rfl)
  lates h := (State.get_put_oid s.tollCounted (by decide) (by decide) (by decide) (by decide)).trans (s.tollCounted_lates h)

/-- A toll that reads of `t` what it would read of `s` opens the next bell of `s`. -/
theorem State.SameBell.opensAt {s t : State} (h : s.SameBell t) : s.OpensAt t.cycle t.opened where
  __ := t.opened_opensAt
  number := t.opened_opensAt.number.trans (by rw [h.number])
  due := t.opened_opensAt.due.trans (by rw [h.form])
  byte a := (t.opened_opensAt.byte a).trans (State.byte_of_base h.base a)
  lates hq := by rw [← h.due, ← h.lates]; exact t.opened_opensAt.lates (h.queues.trans hq)

section Toll
variable {s : State} (hbell : s.bell = .formed) (hlive : s.live = true)
include hbell hlive

theorem State.toll_guard : ¬(s.bell != .formed || !s.live) = true := by
  rw [hbell, hlive]
  decide

theorem State.toll_lone (h : s.group.size ≤ 1) : s.toll = (s.until (max s.due (s.closedAt + s.obj O.bellCloseCycles))).openNext := by
  rw [State.toll, if_neg (State.toll_guard hbell hlive), if_pos h]

theorem State.toll_waits (h : 1 < s.group.size) (hs : s.group.stamp = none) : s.toll = s := by
  rw [State.toll, if_neg (State.toll_guard hbell hlive), if_neg (Nat.not_le.mpr h), hs]

theorem State.toll_member (h : 1 < s.group.size) {t : Nat} (hs : s.group.stamp = some t) :
    s.toll = ((s.until (s.cycleOf t)).tollDigest).openNext := by
  rw [State.toll, if_neg (State.toll_guard hbell hlive), if_neg (Nat.not_le.mpr h), hs]

end Toll

/-! F_BELL_OVERRUN and PACE_BREAKS. -/

theorem State.overrunNow_raises {s : State} (hlive : s.live = true) (hover : s.overrun = false) (hbell : s.bell ≠ .none)
    (hopen : ¬(s.bell = .formed ∧ s.closedAt + s.obj O.bellCloseCycles ≤ s.openedAt + 4 * (s.due - s.openedAt))) :
    s.overrunNow = (((s.until (s.openedAt + 4 * (s.due - s.openedAt))).setOverrun true).bump O.overruns 0 32 1).report
      { code := 0x0704, payload := genPay 0 (3 * (s.due - s.openedAt)) s.bellNo } := by
  unfold State.overrunNow
  extract_lets lim ended u
  have hend : ended = false := by simpa [ended] using hopen
  rw [if_neg (by simp [hover, hend, hbell, hlive]), State.until_due, State.until_openedAt, State.until_bellNo]

theorem State.paceOver_ends {s : State} {q : Nat} {t : Turn} {rest : List Turn} (hlive : s.live = true) (hwait : s.form.waiting = some q)
    (hturn : s.form.turn = t :: rest) (hq : t.q = q) (hphase : s.form.phase = 3) :
    s.paceOver = (((s.until (s.form.since + s.form.pace)).paceBreak q).updForm (fun f => { f with turn := rest })).formMore.formed := by
  unfold State.paceOver
  rw [hwait, hturn]
  exact if_pos ⟨hq, hphase, hlive⟩

/-- A pace break counts and reports itself, and nothing waits any more. -/
theorem State.paceBreak_counted (s : State) (q : Nat) :
    ∃ t : State, State.Counted (O.paceBreaks :: eventObjects) s t ∧ t.obj O.paceBreaks = (s.obj O.paceBreaks + 1) % 2 ^ 32 ∧
      s.paceBreak q = t.updForm (fun f => { f with waiting := none }) := by
  have hcode : 0x0705 < 262144 := by decide
  refine ⟨_, ?_, ?_, rfl⟩
  · exact ((State.Counted.refl s).put (by decide) (by decide) _).trans (.mono (by decide) (State.report_counted _ hcode))
  · exact ((State.report_counted _ hcode).get (by decide) (by decide) (by decide)).trans (State.get_bump_same s _ _ _ _ (by decide))

/-- Settles O30: a toll by its three cases, and the two expiries by the branch of their command that acts. -/
theorem bellsTollOverrunAndBreak : Obligations.BellsTollOverrunAndBreak := by
  refine ⟨fun s hbell hlive => ?_, fun s hlive => ⟨?_, fun q t rest hwait hturn hq hphase => ?_⟩⟩
  · intro opens
    have hopens : ∀ {t : State} {c : Nat}, s.SameBell t → t.cycle = c → s.toll = t.openNext → opens c := by
      rintro t c hsame rfl htoll
      obtain ⟨hnumber, hopen, hcycle, hat, hdue, hover, htrans, hbyte, hlates⟩ := hsame.opensAt
      exact ⟨t.opened, congrArg _ (htoll.trans t.openNext_eq), hnumber, hopen, hcycle, hat, hdue, hover, htrans, hbyte, hlates⟩
    refine ⟨fun hlone => ?_, fun hgroup hnone => ?_, fun t hgroup hstamp => ?_⟩
    · exact hopens (s.until_sameBell _) (s.until_cycle _) (State.toll_lone hbell hlive hlone)
    · exact congrArg _ (State.toll_waits hbell hlive hgroup hnone)
    · exact hopens ((s.until_sameBell _).trans (State.tollDigest_sameBell _)) ((State.tollDigest_cycle _).trans (s.until_cycle _))
        (State.toll_member hbell hlive hgroup hstamp)
  · intro hover hbell lim u hopen
    have hexec : exec .fBellOverrun s = .next s.overrunNow := rfl
    rw [hexec, State.overrunNow_raises hlive hover hbell hopen]
  · obtain ⟨v, hcounted, hcount, hbreak⟩ := (s.until (s.form.since + s.form.pace)).paceBreak_counted q
    have hends := State.paceOver_ends hlive hwait hturn hq hphase
    rw [hbreak] at hends
    refine ⟨_, congrArg _ hends, rfl, rfl, hcounted.cycle.trans (s.until_cycle _), ?_, State.byte_of_base (hcounted.base.trans (s.until_base _))⟩
    rw [← s.until_obj (s.form.since + s.form.pace) (by decide) (by decide)]
    exact hcount

end Sys2Proof.Machine
end

section
/-! What the upkeep of a queue's rings, records and totals leaves of the state (R231, R233, R235, R265). -/

namespace Sys2Proof.Machine

theorem State.setQueue_same (s : State) (q : Nat) (x : QRt) : (s.setQueue q x).queue q = x := SMap.look_put_same ..

theorem State.setQueue_other (s : State) {q p : Nat} (x : QRt) (h : p ≠ q) : (s.setQueue q x).queue p = s.queue p := SMap.look_put_other _ h ..

/-- `t` has the descriptors in flight, the routines, the sync updates and the host memory of `s`, and every object of it but those of the numbers `os`. -/
structure State.SameWork (os : List Nat) (s t : State) : Prop where
  get : ∀ {o n : Nat}, o ∉ os → o ≠ O.bgMaster → n < 262144 → t.get o n = s.get o n
  infl : ∀ p, (t.queue p).infl = (s.queue p).infl
  routs : t.routs = s.routs
  syncUpds : t.syncUpds = s.syncUpds
  base : t.base = s.base

section SameWork
variable {os : List Nat} {s t u : State}

theorem State.SameWork.refl (s : State) : State.SameWork os s s := ⟨fun _ _ _ => rfl, fun _ => rfl, rfl, rfl, rfl⟩

theorem State.SameWork.trans (h : State.SameWork os s t) (k : State.SameWork os t u) : State.SameWork os s u :=
  ⟨fun ho hb hn => (k.get ho hb hn).trans (h.get ho hb hn), fun p => (k.infl p).trans (h.infl p), k.routs.trans h.routs,
    k.syncUpds.trans h.syncUpds, k.base.trans h.base⟩

theorem State.SameWork.mono {os' : List Nat} (ho : os ⊆ os') (h : State.SameWork os s t) : State.SameWork os' s t :=
  ⟨fun hn => h.get (fun hm => hn (ho hm)), h.infl, h.routs, h.syncUpds, h.base⟩

theorem State.SameWork.ite {p : Prop} [Decidable p] (h : State.SameWork os s t) (k : State.SameWork os s u) :
    State.SameWork os s (if p then t else u) := by
  split
  · exact h
  · exact k

theorem State.SameWork.obj (h : State.SameWork os s t) {o : Nat} (ho : o ∉ os) (hb : o ≠ O.bgMaster) : t.obj o = s.obj o := h.get ho hb (by decide)

theorem State.SameWork.put (h : State.SameWork os s t) {o n : Nat} (ho : o ∈ os) (hn : n < 262144) (v : Nat) : State.SameWork os s (t.put o n v) :=
  h.trans ⟨fun ho' hb hn' => State.get_put_oid t (fun e => ho' (e ▸ ho)) hb hn hn', fun _ => rfl, rfl, rfl, rfl⟩

theorem State.SameWork.setQueue (h : State.SameWork os s t) {q : Nat} {x : QRt} (hx : x.infl = (t.queue q).infl) :
    State.SameWork os s (t.setQueue q x) := by
  refine h.trans ⟨fun _ _ _ => State.get_of_objs rfl rfl .., fun p => ?_, rfl, rfl, rfl⟩
  by_cases hp : p = q
  · rw [hp, State.setQueue_same, hx]
  · rw [State.setQueue_other _ _ hp]

theorem State.SameWork.updQueue (h : State.SameWork os s t) (q : Nat) {f : QRt → QRt} (hf : ∀ x, (f x).infl = x.infl) :
    State.SameWork os s (t.updQueue q f) := h.setQueue (hf _)

theorem State.Counted.sameWork (h : State.Counted os s t) : State.SameWork os s t :=
  ⟨h.get, fun p => congrArg (fun m => (SMap.look {} m p).infl) h.queues, (congrArg State.routs h.frame).trans rfl,
    (congrArg State.syncUpds h.frame).trans rfl, h.base⟩

theorem State.Asked.sameWork (h : s.Asked t) : State.SameWork os s t :=
  ⟨fun _ _ _ => State.get_of_objs ((congrArg State.variant h).trans rfl) ((congrArg State.objs h).trans rfl) ..,
    fun p => congrArg (fun m => (SMap.look {} m p).infl) ((congrArg State.queues h).trans rfl), h.routs,
    (congrArg State.syncUpds h).trans rfl, (congrArg State.base h).trans rfl⟩

end SameWork

/-- The objects that the upkeep of a queue's rings may write: QUEUE_STATE, and those of events. -/
def ringObjects : List Nat := O.queueState :: eventObjects

/-- An event is reported after an update that leaves all but the objects of rings. -/
theorem State.SameWork.report {s t : State} (h : State.SameWork ringObjects s t) {e : Ev} (hc : e.code < 262144) :
    State.SameWork ringObjects s (t.report e) :=
  h.trans ((State.report_counted t hc).sameWork.mono (List.subset_cons_self ..))

section Rings
variable (s : State) {q : Nat} (hq : q < 262144)
include hq

theorem State.putQueueState_sameWork (v : Nat) : State.SameWork ringObjects s (s.put O.queueState q v) := (State.SameWork.refl s).put (by decide) hq v

/-- A ring that can no longer be written puts its queue into ERROR. -/
theorem State.ringWriteFail_sameWork (seq addr : Nat) : State.SameWork ringObjects s (s.ringWriteFail q seq addr) := by
  unfold State.ringWriteFail
  extract_lets t
  have hcode : 0x0703 < 262144 := by decide
  have ht : State.SameWork ringObjects s t := (s.putQueueState_sameWork hq 3).updQueue q (fun _ => rfl)
  exact ht.report hcode

theorem State.ringWriteFail_state (seq addr : Nat) : (s.ringWriteFail q seq addr).get O.queueState q = 3 := by
  unfold State.ringWriteFail
  extract_lets t
  have hcode : 0x0703 < 262144 := by decide
  have ht : t.get O.queueState q = 3 := State.get_put_same s _ _ _ (by decide)
  exact ((State.report_counted t hcode).get (by decide) (by decide) hq).trans ht

theorem State.ringWrite_sameWork (o : ReqOwner) (seq addr : Nat) (data : List Nat) : State.SameWork ringObjects s (s.ringWrite o q seq addr data) :=
  .ite (s.ringWriteFail_sameWork hq seq addr) (State.access_asked ..).sameWork

/-- A ring write leaves the state of its queue, or puts the queue into ERROR. -/
theorem State.ringWrite_state (o : ReqOwner) (seq addr : Nat) (data : List Nat) :
    (s.ringWrite o q seq addr data).get O.queueState q = s.get O.queueState q ∨ (s.ringWrite o q seq addr data).get O.queueState q = 3 := by
  unfold State.ringWrite
  split
  · exact .inr (s.ringWriteFail_state hq seq addr)
  · exact .inl ((State.access_asked ..).sameWork (os := []).get (by decide) (by decide) hq)

theorem State.ringCheck_sameWork : State.SameWork ringObjects s (s.ringCheck q) := by
  unfold State.ringCheck
  have hcode : 0x0702 < 262144 := by decide
  cases (s.queue q).ringBad with
  | none => exact .refl s
  | some n =>
    dsimp only
    refine .ite ?_ (.refl s)
    refine .report ?_ hcode
    exact .updQueue (s.putQueueState_sameWork hq 3) q (fun _ => rfl)

theorem State.ringReadFail_sameWork (seq : Nat) : State.SameWork ringObjects s (s.ringReadFail q seq) := by
  unfold State.ringReadFail
  extract_lets d
  refine .trans ?_ (State.ringCheck_sameWork _ hq)
  exact (State.SameWork.refl s).updQueue q (fun _ => rfl)

theorem State.askRing_sameWork (n : Nat) : State.SameWork ringObjects s (s.askRing q n) := by
  induction n generalizing s with
  | zero => exact .refl s
  | succ n ih =>
    unfold State.askRing
    extract_lets x a t u
    have ht : State.SameWork ringObjects s t := (State.SameWork.refl s).setQueue rfl
    have hu : State.SameWork ringObjects s u := ht.trans (.ite (t.ringReadFail_sameWork hq _) (State.access_asked ..).sameWork)
    exact .ite (.refl s) (hu.trans (ih u))

end Rings

end Sys2Proof.Machine
end

section
/-! Doorbell words (R232, R233, R267). -/

namespace Sys2Proof

theorem bits_eq (x lo w : Nat) : bits x lo w = x / 2 ^ lo % 2 ^ w := by rw [bits, Nat.shiftRight_eq_div_pow]

/-- The fields of a doorbell word of a queue and an index (Table 9.1). -/
theorem dbWord_fields {kind q i : Nat} (hk : kind < 4) (hq : q < 262144) (hi : i < 2 ^ 32) :
    dbKind (dbWord kind q i) = kind ∧ dbRsv (dbWord kind q i) = 0 ∧ dbQueue (dbWord kind q i) = q ∧ dbIndex (dbWord kind q i) = i := by
  simp only [dbKind, dbRsv, dbQueue, dbIndex, dbWord, bits_eq]
  omega

end Sys2Proof

namespace Sys2Proof.Machine

section Doorbell
variable {s : State} {q : Nat} (hl : s.live = true)
include hl

/-- A TAIL that passes the checks of R233 acts. -/
theorem State.doorbell_tail (hq : q < 262144) {i : Nat} (hi : i < 2 ^ 32) (ht : s.tailOk q i = true) : s.doorbell (dbWord 0 q i) = s.tailTo q i := by
  obtain ⟨hkind, hrsv, hqueue, hindex⟩ := dbWord_fields (by decide : 0 < 4) hq hi
  simp [State.doorbell, hl, dbTail, hkind, hrsv, hqueue, hindex, ht]

theorem State.doorbell_irqAck (hq : q < 262144) : s.doorbell (dbWord 1 q 0) = s.put O.irqPending q 0 := by
  obtain ⟨hkind, hrsv, hqueue, hindex⟩ := dbWord_fields (by decide : 1 < 4) hq (by decide : 0 < 2 ^ 32)
  simp [State.doorbell, hl, dbTail, dbAck, hkind, hrsv, hqueue, hindex]

/-- Every word that is neither an IRQ_ACK nor an accepted TAIL is counted and reported. -/
theorem State.doorbell_bad {w : Nat} (ha : dbAck w = false) (ht : (dbTail w && s.tailOk (dbQueue w) (dbIndex w)) = false) :
    s.doorbell w = s.badDoorbell w := by
  simp only [State.doorbell, hl, ha, ht, Bool.not_true, Bool.false_eq_true, if_false]

end Doorbell

/-- An accepted TAIL, as far as the formation that waited for it: TAIL is moved and the reads of the new descriptors are issued. -/
def State.tailAsked (s : State) (q i : Nat) : State := (s.put O.tail q i).askRing q ((i + 2 ^ 32 - s.get O.tail q) % 2 ^ 32)

theorem State.tailAsked_again {s : State} {q i : Nat} (h : s.get O.tail q = i) : s.tailAsked q i = s.put O.tail q i := by
  have hn : (i + 2 ^ 32 - i) % 2 ^ 32 = 0 := by rw [Nat.add_sub_cancel_left, Nat.mod_self]
  rw [State.tailAsked, h, hn]
  rfl

theorem State.tailAsked_sameWork (s : State) {q : Nat} (hq : q < 262144) (i : Nat) : State.SameWork (O.tail :: ringObjects) s (s.tailAsked q i) :=
  ((State.SameWork.refl s).put (by decide) hq i).trans ((State.askRing_sameWork _ hq _).mono (List.subset_cons_self ..))

theorem State.tailAsked_tail (s : State) {q : Nat} (hq : q < 262144) (i : Nat) : (s.tailAsked q i).get O.tail q = i :=
  ((State.askRing_sameWork _ hq _).get (by decide) (by decide) hq).trans (State.get_put_same s _ _ _ (by decide))

/-- Unless POWER_WAKE takes back POWER_REQUEST in DOZE or NAP (R383), a formation that waited then goes on, and that is all. -/
theorem State.tailTo_eq {s : State} {q : Nat} (hq : q < 262144) (i : Nat)
    (hp : (s.obj O.powerState ≠ 1 ∧ s.obj O.powerState ≠ 2) ∨ s.obj O.powerWake ≠ 1) : s.tailTo q i = (s.tailAsked q i).formResume := by
  have hsame := s.tailAsked_sameWork hq i
  have hpower : (s.tailAsked q i).obj O.powerState = s.obj O.powerState := hsame.obj (by decide) (by decide)
  have hwake : (s.tailAsked q i).obj O.powerWake = s.obj O.powerWake := hsame.obj (by decide) (by decide)
  have hno : ¬((s.tailAsked q i).obj O.powerWake = 1 ∧ ((s.tailAsked q i).obj O.powerState = 1 ∨ (s.tailAsked q i).obj O.powerState = 2)) := by
    rw [hpower, hwake]
    omega
  unfold State.tailTo
  extract_lets n t p u
  have hu : u = t := if_neg hno
  rw [hu]
  rfl

/-- Settles O11: each word by the branch of the doorbell port that takes it. -/
theorem doorbellWordsAct : Obligations.DoorbellWordsAct := by
  refine ⟨fun s q i hl hq hi ht => ⟨fun hp => ?_, fun hi' hp => ?_⟩, fun s q hl hq => ?_, fun s w hl _ ha ht => ?_⟩
  · have hexec : exec (.tail q i) s = .next (s.tailAsked q i).formResume :=
      congrArg _ ((State.doorbell_tail hl hq hi ht).trans (State.tailTo_eq hq i hp))
    exact ⟨_, hexec, s.tailAsked_tail hq i, State.byte_of_base (s.tailAsked_sameWork hq i).base⟩
  · have hexec : exec (.tail q i) s = .next (s.tailAsked q i).formResume :=
      congrArg _ ((State.doorbell_tail hl hq hi ht).trans (State.tailTo_eq hq i (hp.imp (by omega) id)))
    rw [hexec, State.tailAsked_again hi']
  · exact congrArg _ (State.doorbell_irqAck hl hq)
  · intro t
    have hbad : s.doorbell w = t := State.doorbell_bad hl ha ht
    refine ⟨congrArg Host.Outcome.next hbad, fun q i hw => ?_⟩
    subst hw
    exact congrArg Host.Outcome.next hbad

end Sys2Proof.Machine
end

section
/-! Control descriptors at their dispatch (R237, R241, R259 to R263). -/

namespace Sys2Proof.Machine

theorem exec_control (q : Nat) (s : State) :
    ∀ p ∈ ([(.nop q, 0x00), (.fence q, 0x30), (.signal q, 0x32), (.waitOp q, 0x33), (.bellWait q, 0x31)] : List (Instr × Nat)),
      exec p.1 s = .next (s.dispatch q (isOp p.2) (State.startCtl q)) := by
  simp only [List.forall_mem_cons, List.not_mem_nil, false_implies, implies_true, and_true]
  exact ⟨rfl, rfl, rfl, rfl, rfl⟩

/-- Each opcode of Table 9.3 has a command, which dispatches the next descriptor of its queue when that is one of the opcode. -/
theorem exec_opcode (q : Nat) (ks : TileChks) (k : Chk) (s : State) :
    ∀ p ∈ ([(.nop q, 0x00), (.convert ⟨q, ks⟩, 0x01), (.quant ⟨q, ks⟩, 0x02), (.dequant ⟨q, ks⟩, 0x03), (.stats ⟨q, ks⟩, 0x04), (.gram q, 0x10),
        (.rootOp q, 0x11), (.solve q, 0x12), (.precond q, 0x13), (.reduce ⟨q, k⟩, 0x20), (.fence q, 0x30), (.signal q, 0x32), (.waitOp q, 0x33),
        (.bellWait q, 0x31)] : List (Instr × Nat)),
      ∃ f, exec p.1 s = .next (s.dispatch q (isOp p.2) f) := by
  simp only [List.forall_mem_cons, List.not_mem_nil, false_implies, implies_true, and_true]
  exact ⟨⟨_, rfl⟩, ⟨_, rfl⟩, ⟨_, rfl⟩, ⟨_, rfl⟩, ⟨_, rfl⟩, ⟨_, rfl⟩, ⟨_, rfl⟩, ⟨_, rfl⟩, ⟨_, rfl⟩, ⟨_, rfl⟩, ⟨_, rfl⟩, ⟨_, rfl⟩, ⟨_, rfl⟩, ⟨_, rfl⟩⟩

theorem isOp_iff {op : Nat} {d : Desc} : isOp op d = true ↔ d.malformed = false ∧ d.opcode = op := by simp [isOp]

section StartCtl
variable {s : State} {q : Nat} {d : DRt}

theorem State.startCtl_refuses (hn : d.noSync = true) : State.startCtl q s d = s.refuseD q d.seq 0x0106 0 := if_pos hn

theorem State.startCtl_completes (hn : d.noSync = false) (hl : waitLate d = false) (hb : bellWaitEnd d = none) :
    State.startCtl q s d = s.doneD q d.seq := by
  simp [State.startCtl, hn, hl, hb]

/-- A BELL_WAIT of a bell or more holds until its close (R222). -/
theorem State.startCtl_holds (hn : d.noSync = false) (hl : waitLate d = false) (hb : bellWaitEnd d ≠ none) :
    State.startCtl q s d = s.dupd q d.seq (fun d => { d with phase := .running }) := by
  simp [State.startCtl, hn, hl, Option.isSome_iff_ne_none.mpr hb]

theorem State.waitTimeout_due (hd : s.nextDisp q = some d) (hl : waitLate d = true) : s.waitTimeout q d.seq = s.refuseD q d.seq 0x010C 0 := by
  simp [State.waitTimeout, hd, hl]

end StartCtl

/-- Settles O34: each command dispatches its own opcode and no other, and then by the cases of `State.startCtl`. -/
theorem controlDescriptorsComplete : Obligations.ControlDescriptorsComplete := by
  intro s q d hp hd
  have hstart : ∀ p ∈ ([(.nop q, 0x00), (.fence q, 0x30), (.signal q, 0x32), (.waitOp q, 0x33), (.bellWait q, 0x31)] : List (Instr × Nat)),
      d.d.malformed = false → d.d.opcode = p.2 → exec p.1 s = .next (State.startCtl q s d) := by
    intro p hmem hm ho
    rw [exec_control q s p hmem, State.dispatch_go hp hd (isOp_iff.mpr ⟨hm, ho⟩)]
  refine ⟨fun p hmem hm ho hn hl => ?_, fun p hmem hm ho hn => ?_, fun ks k p hmem hne => ?_, fun hm => ?_, fun hl => ?_⟩
  · rw [hstart p hmem hm ho]
    exact ⟨fun hb => congrArg _ (State.startCtl_completes hn hl hb), fun hb => congrArg _ (State.startCtl_holds hn hl hb)⟩
  · rw [hstart p hmem hm ho, State.startCtl_refuses hn]
  · obtain ⟨f, hexec⟩ := exec_opcode q ks k s p hmem
    have hother : isOp p.2 d.d = false := by
      rw [Bool.eq_false_iff, Ne, isOp_iff, not_and_or, Bool.not_eq_false]
      exact hne
    rw [hexec, State.dispatch_other hp hd hother]
  · exact congrArg _ (State.dispatch_go hp hd hm)
  · exact congrArg _ (State.waitTimeout_due hd hl)

end Sys2Proof.Machine
end

section
/-! A REDUCE at its dispatch, and its timeout (R241, R293, R337). -/

namespace Sys2Proof.Machine

/-- What a REDUCE comes to once its checks have come out as `x`. -/
def State.afterRedChecks (q : Nat) (d : DRt) (r : RedD) (chk : Chk) (s : State) (x : Except (Nat × Nat) TmEntry) : State :=
  match x with
  | .error (c, t) => s.refuseD q d.seq c t
  | .ok e => s.runRed q d r chk e

section Dispatch
variable {s : State} {q : Nat} {d : DRt} {r : RedD} {chk : Chk}

/-- The next descriptor of a queue, a well-formed REDUCE, is dispatched by REDUCE, which then gives waiting partials their turn. -/
theorem State.exec_reduce (hp : s.phase = 4) (hd : s.nextDisp q = some d) (hm : d.d.malformed = false) (ho : d.d.opcode = 0x20)
    (hb : d.d.body = .reduce r) : exec (.reduce ⟨q, chk⟩) s = .next (s.dispRed q d r chk).redSpace := by
  have hgo := State.dispatch_go (f := fun s r => (State.startRed q chk s r).redSpace) hp hd (isOp_iff.mpr ⟨hm, ho⟩)
  have hstart : State.startRed q chk s d = s.dispRed q d r chk := by rw [State.startRed, hb]
  exact congrArg _ (hgo.trans (congrArg State.redSpace hstart))

theorem State.dispRed_empty (hn : d.noSync = false) (hc : r.count = 0) : s.dispRed q d r chk = s.doneD q d.seq := by
  simp [State.dispRed, hn, hc]

/-- A REDUCE of elements is refused or runs as its checks come out, once they lack no walk. -/
theorem State.dispRed_reads (hn : d.noSync = false) (hc : r.count ≠ 0) :
    s.dispRed q d r chk = s.readThen (.desc q d.seq) (fun s => s.redResolve q d r chk) (State.afterRedChecks q d r chk) := by
  simp only [State.dispRed, hn, hc, Bool.false_eq_true, if_false]
  rfl

theorem State.dispRed_checked {x : Except (Nat × Nat) TmEntry} (hn : d.noSync = false) (hc : r.count ≠ 0)
    (hw : ((s.acting (.desc q d.seq)).redResolve q d r chk).1.reads.want = none) (hx : ((s.acting (.desc q d.seq)).redResolve q d r chk).2 = x) :
    s.dispRed q d r chk = State.afterRedChecks q d r chk (((s.acting (.desc q d.seq)).redResolve q d r chk).1.did s (.desc q d.seq)) x := by
  subst hx
  rw [State.dispRed_reads hn hc]
  exact State.readThen_done rfl hw

/-- One whose group does not hold this block performs nothing (R337). -/
theorem State.runRed_outside {e : TmEntry} (hg : grpRank d.grp s.group.self = none ∨ repeats d.grp.2.1 d.grp.2.2 = true) :
    s.runRed q d r chk e = (s.refuseD q d.seq 0x0803 r.dstTid).dupd q d.seq (fun d =>
      { d with evPay := some (0, 0, belPay d.seq 3 0xFF r.rgroup s.bellNo r.rtag 0) }) := by
  unfold State.runRed
  cases hk : grpRank d.grp s.group.self with
  | none => rfl
  | some k => exact if_pos (hg.resolve_left (by simp [hk]))

section Member
variable {k : Nat} (hk : grpRank d.grp s.group.self = some k) (hr : repeats d.grp.2.1 d.grp.2.2 = false)
include hk hr

theorem State.runRed_held {e : TmEntry} (hh : s.pairHeld r.rgroup r.rtag = true) :
    s.runRed q d r chk e = (s.refuseD q d.seq 0x0803 r.dstTid).dupd q d.seq (fun d =>
      { d with evPay := some (0, 0, belPay d.seq 5 0xFF r.rgroup s.bellNo r.rtag 0) }) := by
  simp [State.runRed, hk, hr, hh]

/-- An accepted one opens its context with the partials that have come, meets its checks, and issues its reads. -/
theorem State.runRed_opens {e : TmEntry} (hh : s.pairHeld r.rgroup r.rtag = false) :
    s.runRed q d r chk e =
      (((((s.setReds (s.reds.filter (fun (c : RedCtx) => !(c.group == r.rgroup && c.tag == r.rtag)) ++
          [{ group := r.rgroup, tag := r.rtag, owner := some (q, d.seq), tenant := d.tenant, rank := k, size := d.grp.2.1, grp := d.grp
             count := r.count, rop := r.rop, pair := r.rop == 1, nodes := ((s.findRed r.rgroup r.rtag).map (·.nodes)).getD []
             src := e.addr + 4 * e.offset }])).dupd q d.seq (fun d => { d with phase := .running, sent := true })).redChecks q d chk).readBeats
        (.red q d.seq) (beatsOf (e.addr + 4 * e.offset) (4 * r.count * (if r.inPair then 2 else 1))) e.attr d.tenant).redReady q d.seq) := by
  simp only [State.runRed, hk, hr, hh, Bool.false_eq_true, if_false]

end Member

/-- What an update makes of a descriptor counts for the sequence number it names alone. -/
theorem State.dupd_congr {seq : Nat} {f g : DRt → DRt} (h : ∀ x, x.seq = seq → f x = g x) : s.dupd q seq f = s.dupd q seq g := by
  have hmap : ∀ l : List DRt, mapIf (fun d => d.seq == seq) f l = mapIf (fun d => d.seq == seq) g l := fun l =>
    List.map_congr_left (fun x _ => ite_congr rfl (fun hx => h x (eq_of_beq hx)) (fun _ => rfl))
  simp only [State.dupd, hmap]

/-- A REDUCE that runs is ended by its timeout. -/
theorem State.redTimeout_ends {seq : Nat} (hl : s.live = true) (hd : s.dfind q seq = some d) (hp : d.phase = .running) (hb : d.d.body = .reduce r) :
    s.redTimeout q seq = (s.failRed q seq r.rgroup r.rtag 1).redSpace := by
  simp [State.redTimeout, State.redOf, hd, hp, hb, hl]

/-- One that fails drops its context, and ends with F_REDUCE and the cause. -/
theorem State.failRed_eq (seq g tag cause : Nat) : s.failRed q seq g tag cause =
    (s.setReds (s.reds.filter (fun x => !(x.group == g && x.tag == tag && x.owner == some (q, seq))))).dupd q seq (fun d =>
      { d with phase := .done, status := 0x0803, committed := false, evPay := some (0, 0, belPay d.seq cause 0xFF g s.bellNo tag 0) }) :=
  State.dupd_congr (fun _ hx => by rw [hx])

end Dispatch

/-- Settles O37: the dispatch by the cases of `State.dispRed` and `State.runRed`, the timeout by its one branch that acts. -/
theorem reducesStartAndExpire : Obligations.ReducesStartAndExpire := by
  refine fun s q d r hb => ⟨fun hp hd hm ho hn chk => ⟨fun hc => ?_, fun hc => ⟨fun w hw hr => ?_, fun code tid hw hx => ?_, fun e hw hx => ?_⟩⟩,
    fun hl hd hp => congrArg Host.Outcome.next ?_⟩
  case refine_5 => rw [State.redTimeout_ends hl hd hp hb, State.failRed_eq]
  all_goals rw [State.exec_reduce hp hd hm ho hb]
  · rw [State.dispRed_empty hn hc]
  · rw [State.dispRed_reads hn hc, State.readThen_asks hw hr]
  · rw [State.dispRed_checked hn hc hw hx, State.afterRedChecks]
  · rw [State.dispRed_checked hn hc hw hx, State.afterRedChecks]
    refine ⟨fun hg => ?_, fun k hk hr => ⟨fun hh => ?_, fun hh => ?_⟩⟩
    · rw [State.runRed_outside hg]
    · rw [State.runRed_held hk hr hh]
    · rw [State.runRed_opens hk hr hh]

end Sys2Proof.Machine
end

section
/-! Commits and releases (R245, R246, R259, R265). -/

namespace Sys2Proof.Machine

theorem State.forget_frame (s : State) (p : Act → Bool) : s.forget p = (s.setReads (s.forget p).reads).setReqs (s.forget p).reqs := by
  unfold State.forget
  extract_lets r s1 mine
  split <;> rfl

theorem State.forget_queue (s : State) (p : Act → Bool) (q : Nat) : (s.forget p).queue q = s.queue q := by
  unfold State.forget
  extract_lets r s1 mine
  split <;> rfl

/-- Where no act that is dropped still waits for a request, the requests stay. -/
theorem State.forget_reqs {s : State} {p : Act → Bool} (h : ∀ r ∈ s.reqs, r.late = false → ∀ a, r.owner = .act a → p a = false) :
    (s.forget p).reqs = s.reqs := by
  unfold State.forget
  extract_lets r s1 mine
  rw [if_neg]
  · rfl
  · simp only [List.any_eq_true, Bool.and_eq_true, Bool.not_eq_true', not_exists, not_and]
    intro x hx hmine
    rw [Bool.not_eq_false]
    by_contra hlate
    rw [Bool.not_eq_true] at hlate
    cases ho : x.owner with
    | act a => simp [mine, ho, h x hx hlate a ho] at hmine
    | _ => simp [mine, ho] at hmine

/-- The acts of a descriptor (R277). -/
def ofDesc (q seq : Nat) (a : Act) : Bool :=
  match a with
  | .desc p n | .tiles p n => p == q && n == seq
  | _ => false

section Release
variable (s : State) (q : Nat) (d : DRt)

/-- The descriptor at the head of a queue goes, and the work of its routine is to be counted. -/
def State.headDropped : State :=
  let s := s.updQueue q (fun x => { x with infl := x.infl.drop 1 })
  match s.rfind q d.seq with
  | some r => s.updQueue q (fun x => { x with macsDue := x.macsDue + r.passes, opsDue := x.opsDue + r.laneOps })
  | none => s

/-- Its routine goes, and what it had read. -/
def State.headGone : State :=
  ((s.headDropped q d).setRouts ((s.headDropped q d).routs.filter (fun r => !(r.q == q && r.seq == d.seq)))).forget (ofDesc q d.seq)

/-- A release writes the record, moves RELEASED, raises the interrupt, and reports and counts the descriptor. -/
def State.recordOut : State :=
  let s := s.writeRec (.release q d.seq) q d true
  let s := s.put O.released q ((d.seq + 1) % 2 ^ 32)
  let s := if d.d.irq || d.status != 0 || d.trapIrq then s.put O.irqPending q 1 else s
  ((s.recEvent q d).acct O.acctDescriptors q 1).acct O.acctErrors q (b2n (d.status != 0))

/-- In RESETTING from ERROR a release writes no record (R269). -/
theorem State.releaseHead_unrecorded (h : ((s.headGone q d).queue q).resetFrom = true) : s.releaseHead q d = (s.headGone q d).endReset q := if_pos h

/-- Outside the sapling service, in a queue that neither halts nor resets, the sync updates of the record wait for the close (R260). -/
theorem State.releaseHead_recorded (h : ((s.headGone q d).queue q).resetFrom = false) (hs : ((s.headGone q d).recordOut q d).sapling = false)
    (hh : d.trapHalt = false ∧ (d.status = 0 ∨ ((s.headGone q d).recordOut q d).get O.errPolicy q ≠ 1))
    (hr : ((s.headGone q d).recordOut q d).get O.queueState q ≠ 2) :
    s.releaseHead q d =
      ((s.headGone q d).recordOut q d).setSyncUpds (((s.headGone q d).recordOut q d).syncUpds ++ d.updates q) := by
  have hlast : s.releaseHead q d =
      let u := (s.headGone q d).recordOut q d
      let u := if u.sapling then (d.updates q).foldl State.syncApply u else u.setSyncUpds (u.syncUpds ++ d.updates q)
      let halt := (d.trapHalt || (d.status != 0 && u.get O.errPolicy q == 1)) && u.get O.queueState q == 1
      (if halt then u.haltQ q else u).endReset q := if_neg (ne_true_of_eq_false h)
  rw [hlast]
  generalize (s.headGone q d).recordOut q d = u at hs hh hr ⊢
  obtain ⟨htrap, hpolicy⟩ := hh
  have hhalt : (d.trapHalt || (d.status != 0 && u.get O.errPolicy q == 1)) = false := by
    simpa [htrap, or_iff_not_imp_left] using hpolicy
  have hend : (u.setSyncUpds (u.syncUpds ++ d.updates q)).endReset q = u.setSyncUpds (u.syncUpds ++ d.updates q) := if_neg (fun h => hr h.1)
  extract_lets w v halt
  have hv : v = u.setSyncUpds (u.syncUpds ++ d.updates q) := if_neg (ne_true_of_eq_false hs)
  have hno : halt = false := by
    simp only [halt, hv, Bool.and_eq_false_iff]
    exact .inl hhalt
  rw [hno, if_neg Bool.false_ne_true, hv, hend]

/-! What goes with the head. -/

theorem State.headDropped_frame : s.headDropped q d = s.setQueues (s.headDropped q d).queues := by
  unfold State.headDropped
  extract_lets t
  split <;> rfl

theorem State.headDropped_queue :
    ((s.headDropped q d).queue q).infl = (s.queue q).infl.drop 1 ∧ ((s.headDropped q d).queue q).resetFrom = (s.queue q).resetFrom := by
  unfold State.headDropped
  extract_lets t
  have ht : t.queue q = { s.queue q with infl := (s.queue q).infl.drop 1 } := State.setQueue_same ..
  split
  · rw [State.updQueue_eq, State.setQueue_same, ht]
    exact ⟨rfl, rfl⟩
  · rw [ht]
    exact ⟨rfl, rfl⟩

theorem State.headGone_queue :
    ((s.headGone q d).queue q).infl = (s.queue q).infl.drop 1 ∧ ((s.headGone q d).queue q).resetFrom = (s.queue q).resetFrom := by
  have hqueue : (s.headGone q d).queue q = (s.headDropped q d).queue q := by rw [State.headGone, State.forget_queue, State.setRouts_queue]
  rw [hqueue]
  exact s.headDropped_queue q d

/-- Queues, reads and requests change with it, and the one routine goes. -/
theorem State.headGone_frame : ∃ x y z, s.headGone q d =
    (((s.setQueues x).setRouts (s.routs.filter (fun r => !(r.q == q && r.seq == d.seq)))).setReads y).setReqs z := by
  have hr : (s.headDropped q d).routs = s.routs := (congrArg State.routs (s.headDropped_frame q d)).trans rfl
  refine ⟨(s.headDropped q d).queues, (s.headGone q d).reads, (s.headGone q d).reqs, ?_⟩
  rw [State.headGone, hr, State.forget_frame, s.headDropped_frame q d]
  rfl

theorem State.headGone_objs : (s.headGone q d).objs = s.objs := by
  obtain ⟨x, y, z, h⟩ := s.headGone_frame q d
  rw [h]; rfl

theorem State.headGone_base : (s.headGone q d).base = s.base := by
  obtain ⟨x, y, z, h⟩ := s.headGone_frame q d
  rw [h, State.setReqs_base, State.setReads_base, State.setRouts_base, State.setQueues_base]

theorem State.headGone_routs : (s.headGone q d).routs = s.routs.filter (fun r => !(r.q == q && r.seq == d.seq)) := by
  obtain ⟨x, y, z, h⟩ := s.headGone_frame q d
  rw [h]; rfl

theorem State.headGone_syncUpds : (s.headGone q d).syncUpds = s.syncUpds := by
  obtain ⟨x, y, z, h⟩ := s.headGone_frame q d
  rw [h]; rfl

theorem State.headGone_get (o n : Nat) : (s.headGone q d).get o n = s.get o n :=
  State.get_of_objs (congrArg Prod.fst (s.headGone_base q d)) (s.headGone_objs q d) o n

theorem State.headGone_reqs (h : ∀ r ∈ s.reqs, r.late = false → r.owner ≠ .act (.desc q d.seq) ∧ r.owner ≠ .act (.tiles q d.seq)) :
    (s.headGone q d).reqs = s.reqs := by
  have hreqs : (s.headDropped q d).reqs = s.reqs := (congrArg State.reqs (s.headDropped_frame q d)).trans rfl
  refine (State.forget_reqs (fun r hr hl a ho => ?_)).trans hreqs
  obtain ⟨hdesc, htiles⟩ := h r (hreqs ▸ hr) hl
  rw [ho] at hdesc htiles
  cases a with
  | desc p n => simpa [ofDesc, imp_iff_not_or] using hdesc
  | tiles p n => simpa [ofDesc, imp_iff_not_or] using htiles
  | _ => rfl

end Release

/-! What a record brings. -/

theorem State.recEvent_counted (s : State) (q : Nat) {d : DRt} (hc : d.status < 262144) : State.Counted eventObjects s (s.recEvent q d) := by
  unfold State.recEvent
  extract_lets pay
  split
  · exact .refl s
  · obtain ⟨k, u, p⟩ := d.evPay.getD (0, 0, pay)
    exact State.report_counted s hc

/-- The objects that the release of a record may write. -/
def recordObjects : List Nat := [O.released, O.irqPending, O.acctDescriptors, O.acctErrors] ++ ringObjects

section Record
variable (s : State) {q : Nat} (hq : q < 262144)
include hq

theorem State.acct_sameWork {os : List Nat} {o : Nat} (ho : o ∈ os) (n : Nat) : State.SameWork os s (s.acct o q n) :=
  .ite (.refl s) (.updQueue (.put (.refl s) ho hq _) q (fun _ => rfl))

omit hq in
/-- The counts of bells, late tolls, descriptors and errors have 32 bits (Table 9.13). -/
theorem State.get_acct_one {o : Nat} (ho : ¬o < O.acctBells) (hb : o ≠ O.bgMaster) : (s.acct o q 1).get o q = (s.get o q + 1) % 2 ^ 32 := by
  rw [State.acct, if_neg one_ne_zero, if_neg ho]
  exact State.get_bump_same s o q 32 1 hb

variable {d : DRt} (hc : d.status < 262144)
include hc

/-- The event and the counts of a record write objects of events and totals alone. -/
theorem State.recordCounted_sameWork : State.SameWork ([O.acctDescriptors, O.acctErrors] ++ eventObjects) s
    (((s.recEvent q d).acct O.acctDescriptors q 1).acct O.acctErrors q (b2n (d.status != 0))) :=
  (((s.recEvent_counted q hc).sameWork.mono (List.subset_append_right ..)).trans (State.acct_sameWork _ hq (by decide) _)).trans
    (State.acct_sameWork _ hq (by decide) _)

theorem State.recordCounted_count :
    (((s.recEvent q d).acct O.acctDescriptors q 1).acct O.acctErrors q (b2n (d.status != 0))).get O.acctDescriptors q =
      (s.get O.acctDescriptors q + 1) % 2 ^ 32 := by
  have hlast := (State.acct_sameWork ((s.recEvent q d).acct O.acctDescriptors q 1) hq (List.mem_singleton_self O.acctErrors) (b2n (d.status != 0))).get
    (o := O.acctDescriptors) (by decide) (by decide) hq
  rw [hlast, State.get_acct_one _ (by decide) (by decide), (s.recEvent_counted q hc).get (by decide) (by decide) hq]

/-- `t` is `s` with the record of descriptor `d` at the head of queue `q` written and counted. -/
structure State.Recorded (s : State) (q : Nat) (d : DRt) (t : State) : Prop where
  same : State.SameWork recordObjects s t
  released : t.get O.released q = (d.seq + 1) % 2 ^ 32
  irq : t.get O.irqPending q = if d.d.irq = true ∨ d.status ≠ 0 ∨ d.trapIrq = true then 1 else s.get O.irqPending q
  count : t.get O.acctDescriptors q = (s.get O.acctDescriptors q + 1) % 2 ^ 32
  state : t.get O.queueState q = s.get O.queueState q ∨ t.get O.queueState q = 3

theorem State.recordOut_recorded : s.Recorded q d (s.recordOut q d) := by
  unfold State.recordOut
  extract_lets t u v
  have ht : State.SameWork ringObjects s t := s.ringWrite_sameWork hq ..
  have hstate : t.get O.queueState q = s.get O.queueState q ∨ t.get O.queueState q = 3 := s.ringWrite_state hq ..
  have hu : State.SameWork [O.released] t u := .put (.refl t) (by decide) hq _
  have hv : State.SameWork [O.irqPending] u v := .ite (.put (.refl u) (by decide) hq _) (.refl u)
  have hw := v.recordCounted_sameWork hq hc
  have hirq : v.get O.irqPending q = if d.d.irq = true ∨ d.status ≠ 0 ∨ d.trapIrq = true then 1 else u.get O.irqPending q := by
    simp only [v, Bool.or_eq_true, bne_iff_ne, or_assoc]
    split
    · exact State.get_put_same u _ _ _ (by decide)
    · rfl
  refine ⟨?_, ?_, ?_, ?_, ?_⟩
  · exact (((ht.mono (by decide)).trans (hu.mono (by decide))).trans (hv.mono (by decide))).trans (hw.mono (by decide))
  · rw [hw.get (by decide) (by decide) hq, hv.get (by decide) (by decide) hq]
    exact State.get_put_same t _ _ _ (by decide)
  · rw [hw.get (by decide) (by decide) hq, hirq, hu.get (by decide) (by decide) hq, ht.get (by decide) (by decide) hq]
  · rw [v.recordCounted_count hq hc, hv.get (by decide) (by decide) hq, hu.get (by decide) (by decide) hq, ht.get (by decide) (by decide) hq]
  · rw [hw.get (by decide) (by decide) hq, hv.get (by decide) (by decide) hq, hu.get (by decide) (by decide) hq]
    exact hstate

end Record

theorem State.commitAt_found {s : State} {q seq : Nat} {d : DRt} (h : s.dfind q seq = some d) :
    s.commitAt q seq = if s.commitReady q d then s.commitD q d else s := by
  simp [State.commitAt, h]

theorem State.releaseNext_some {s : State} {q : Nat} {d : DRt} (h : s.releasable q = some d) : s.releaseNext q = s.releaseHead q d := by
  simp [State.releaseNext, h]

theorem State.releaseNext_none {s : State} {q : Nat} (h : s.releasable q = none) : s.releaseNext q = s := by simp [State.releaseNext, h]

/-- Settles O38: COMMIT by whether its descriptor is ready, RELEASED by whether the record that goes is written. -/
theorem recordsCommitAndRelease : Obligations.RecordsCommitAndRelease := by
  refine fun s q d => ⟨fun seq hd => ⟨fun hready => congrArg Host.Outcome.next ?_, fun hready => congrArg Host.Outcome.next ?_⟩,
    fun hnone => congrArg Host.Outcome.next (State.releaseNext_none hnone), fun hd hreset => ?_,
    fun hd hq hreset hstate htrap hpolicy hsap hc => ?_⟩
  · rw [State.commitAt_found hd, if_pos hready]
  · rw [State.commitAt_found hd, if_neg (ne_true_of_eq_false hready)]
  · obtain ⟨hinfl, hfrom⟩ := s.headGone_queue q d
    have hgone := s.releaseHead_unrecorded q d (hfrom.trans hreset)
    exact ⟨s.headGone q d, congrArg Host.Outcome.next ((State.releaseNext_some hd).trans hgone), hinfl, s.headGone_objs q d,
      State.byte_of_base (s.headGone_base q d), s.headGone_reqs q d⟩
  · obtain ⟨hinfl, hfrom⟩ := s.headGone_queue q d
    have hget := s.headGone_get q d
    have hrec := (s.headGone q d).recordOut_recorded hq hc
    have hphase : ((s.headGone q d).recordOut q d).sapling = false := by
      have hobj : ((s.headGone q d).recordOut q d).phase = s.phase := (hrec.same.obj (by decide) (by decide)).trans (hget _ _)
      rw [State.sapling, hobj]
      exact hsap
    have herr : ((s.headGone q d).recordOut q d).get O.errPolicy q = s.get O.errPolicy q := (hrec.same.get (by decide) (by decide) hq).trans (hget _ _)
    have hgone := s.releaseHead_recorded q d (hfrom.trans hreset) hphase ⟨htrap, herr ▸ hpolicy⟩
      (by have := hrec.state; rw [hget, hstate] at this; omega)
    refine ⟨_, congrArg Host.Outcome.next ((State.releaseNext_some hd).trans hgone), (hrec.same.infl q).trans hinfl, hrec.released, ?_, ?_, ?_, ?_, ?_⟩
    · exact hrec.irq.trans (by rw [hget])
    · exact hrec.count.trans (by rw [hget])
    · intro r hr
      have hmem : r ∈ s.routs.filter (fun r => !(r.q == q && r.seq == d.seq)) := s.headGone_routs q d ▸ hrec.same.routs ▸ hr
      simpa [imp_iff_not_or] using (List.mem_filter.mp hmem).2
    · rw [← s.headGone_syncUpds q d, ← hrec.same.syncUpds]
      rfl
    · exact State.byte_of_base (hrec.same.base.trans (s.headGone_base q d))

end Sys2Proof.Machine
end

section
/-! QUEUE_ENABLE and QUEUE_RESET (R265, R267 to R269). -/

namespace Sys2Proof

/-- A descriptor of a queue that resets: a routine's, one whose record is parked, or one that has ended with F_QUEUE_RESET and did not commit (R269). -/
def DRt.Reset (d : DRt) : Prop := d.isRout = true ∨ d.phase = .parked ∨ (d.phase = .done ∧ d.status = 0x010B ∧ d.committed = false)

/-- The sweep of a reset ends what is neither a routine's nor parked. -/
theorem DRt.reset_of_sweep (d : DRt) : (if d.isRout || d.phase == .parked then d else d.stopWith 0x010B).Reset := by
  split
  · next h => exact (by simpa using h : d.isRout = true ∨ d.phase = .parked).imp_right .inl
  · exact .inr (.inr ⟨rfl, rfl, rfl⟩)

end Sys2Proof

namespace Sys2Proof.Machine

/-- A write that passes its checks is not refused. -/
theorem State.takesWrite_accepted {s : State} {h : FinfaHead} {o : Obj} {v : Nat} (ht : s.takesWrite h o v = true) :
    s.writeRefused o (s.selFor o h 2) v = false := by
  simp only [State.takesWrite, Bool.and_eq_true, Bool.not_eq_true'] at ht
  exact ht.2

/-! The enable of a queue. -/

/-- A queue is enabled only while it is disabled (R268). -/
theorem State.enable_disabled {s : State} {o : Obj} {q v : Nat} (ho : o.oid = O.queueEnable) (hw : s.writeRefused o q v = false) :
    s.get O.queueState q = 0 := by
  simp only [State.writeRefused, ho, if_true, Bool.or_eq_false_iff] at hw
  obtain ⟨-, henable⟩ := hw
  simp only [State.enableRefused, Bool.or_eq_false_iff] at henable
  obtain ⟨⟨⟨⟨⟨⟨⟨hstate, -⟩, -⟩, -⟩, -⟩, -⟩, -⟩, -⟩ := henable
  simpa using hstate

theorem State.get_put {s : State} {o q v x k : Nat} (hq : q < 262144) (hk : k < 262144) (hx : x ≠ O.bgMaster) :
    (s.put o q v).get x k = if x = o ∧ k = q then v else s.get x k := by
  split
  · next h =>
    obtain ⟨rfl, rfl⟩ := h
    exact State.get_put_same s x k v hx
  · next h => exact State.get_put_other s (okey_ne hk hq (by omega)) hx

/-- Objects of one queue set to 0, one after another. -/
def State.zeroes (s : State) (q : Nat) (os : List Nat) : State := os.foldl (fun s o => s.put o q 0) s

theorem State.get_zeroes {q x k : Nat} (hq : q < 262144) (hk : k < 262144) (hx : x ≠ O.bgMaster) (os : List Nat) (s : State) :
    (s.zeroes q os).get x k = if x ∈ os ∧ k = q then 0 else s.get x k := by
  induction os generalizing s with
  | nil => simp [State.zeroes]
  | cons o os ih =>
    have hcons : s.zeroes q (o :: os) = (s.put o q 0).zeroes q os := rfl
    rw [hcons, ih, State.get_put hq hk hx]
    grind

theorem State.zeroes_frame (s : State) (q : Nat) (os : List Nat) : s.zeroes q os = s.setObjs (s.zeroes q os).objs :=
  List.foldlRecOn os _ (motive := fun t => t = s.setObjs t.objs) rfl (fun t ht o _ => by rw [State.put, ht]; rfl)

/-- The objects that an enable sets to 0 (R268). -/
def enableZeroes : List Nat :=
  [O.nextSeq, O.tail, O.released, O.acctElements, O.acctMacs, O.acctLaneOps, O.acctBytes, O.acctEnergy, O.acctBells, O.acctLateTolls,
    O.acctDescriptors, O.acctErrors]

section Enable
variable (s : State) (q : Nat)

theorem State.enableQ_eq : s.enableQ q = ((s.setQueue q { changed := (s.queue q).changed }).zeroes q enableZeroes).put O.queueState q 1 := rfl

theorem State.enableQ_queue (p : Nat) : (s.enableQ q).queue p = if p = q then { changed := (s.queue q).changed } else s.queue p := by
  rw [State.enableQ_eq, State.zeroes_frame]
  exact SMap.look_put ..

theorem State.get_enableQ {x k : Nat} (hq : q < 262144) (hk : k < 262144) (hx : x ≠ O.bgMaster) :
    (s.enableQ q).get x k = if x = O.queueState ∧ k = q then 1 else if x ∈ enableZeroes ∧ k = q then 0 else s.get x k := by
  rw [State.enableQ_eq, State.get_put hq hk hx, State.get_zeroes hq hk hx]
  rfl

end Enable

/-! The reset of a queue. -/

theorem State.put_queue (s : State) (o n v q : Nat) : (s.put o n v).queue q = s.queue q := rfl

/-- Queue `q` resets: no interrupt of it is pending, it is not enabled, and what it has in flight has ended. -/
structure State.Resets (s : State) (q : Nat) : Prop where
  irq : s.get O.irqPending q = 0
  state : s.get O.queueState q ≠ 1
  infl : ∀ d ∈ (s.queue q).infl, d.Reset

section Reset
variable {s t : State} {q : Nat} (hq : q < 262144)
include hq

theorem State.ringCheck_state (s : State) : (s.ringCheck q).get O.queueState q = s.get O.queueState q ∨ (s.ringCheck q).get O.queueState q = 3 := by
  have hcode : 0x0702 < 262144 := by decide
  unfold State.ringCheck
  cases (s.queue q).ringBad with
  | none => exact .inl rfl
  | some n =>
    dsimp only
    split
    · exact .inr (((State.report_counted _ hcode).get (by decide) (by decide) hq).trans (State.get_put_same s _ _ _ (by decide)))
    · exact .inl rfl

theorem State.Resets.ringCheck (h : s.Resets q) : (s.ringCheck q).Resets q := by
  have hsame := s.ringCheck_sameWork hq
  refine ⟨(hsame.get (by decide) (by decide) hq).trans h.irq, ?_, hsame.infl q ▸ h.infl⟩
  obtain hst | hst := s.ringCheck_state hq
  · exact hst ▸ h.state
  · omega

/-- A descriptor taken into flight has ended, when `f` ends it. -/
theorem State.Resets.take (h : s.Resets q) {f : DRt → DRt} (hf : ∀ d, (f d).Reset) : (s.take q f).Resets q := by
  unfold State.take
  extract_lets n
  cases s.head q with
  | none => exact h
  | some d =>
    refine State.Resets.ringCheck hq ⟨?_, ?_, fun e he => ?_⟩
    · exact (State.get_put_oid _ (by decide) (by decide) hq hq).trans h.irq
    · exact ne_of_eq_of_ne (State.get_put_oid _ (by decide) (by decide) hq hq) h.state
    · rw [State.put_queue, State.updQueue_eq, State.setQueue_same] at he
      obtain hold | hnew := List.mem_append.mp he
      · exact h.infl e hold
      · exact List.mem_singleton.mp hnew ▸ hf _

theorem State.Resets.drainFetched (h : s.Resets q) (n : Nat) : (s.drainFetched q n).Resets q := by
  induction n generalizing s with
  | zero => exact h
  | succ n ih =>
    unfold State.drainFetched
    split
    · exact h
    · exact ih (h.take hq (fun d => .inr (.inr ⟨rfl, rfl, rfl⟩)))

omit hq in
theorem State.giveUp_frame (s : State) (p : ReqOwner → Bool) : s.giveUp p = s.setReqs (s.giveUp p).reqs := rfl

/-- A queue that has ended its reset is disabled. -/
theorem State.Resets.endReset (h : s.Resets q) : (s.endReset q).Resets q := by
  unfold State.endReset
  extract_lets x
  split
  · rw [State.giveUp_frame]
    refine ⟨?_, ?_, fun d hd => ?_⟩
    · exact (State.get_put_oid s (by decide) (by decide) hq hq).trans h.irq
    · exact ne_of_eq_of_ne (State.get_put_same s _ _ _ (by decide)) (by decide)
    · rw [State.setReqs_queue, State.setQueue_same] at hd
      exact h.infl d hd
  · exact h

omit hq in
/-- With no routine of the queue running, a sweep ends the other descriptors that have not been parked. -/
theorem State.sweepQ_idle (hr : ∀ r ∈ s.routs, r.q = q → r.ended = true) (code : Nat) (f : Rout → State → State) :
    s.sweepQ q code f = s.updQueue q (fun x => { x with infl := x.infl.map (fun d => if d.isRout || d.phase == .parked then d else d.stopWith code) }) := by
  have hnone : s.routs.filter (fun r => r.q == q && !r.ended) = [] := by
    simpa [List.filter_eq_nil_iff] using hr
  show (s.routs.filter (fun r => r.q == q && !r.ended)).foldl _ _ = _
  rw [hnone]
  rfl

end Reset

/-- What a reset of a queue with no routine of its own running does before a formation that waited goes on. -/
theorem State.resetQ_resets {s : State} {q : Nat} (hq : q < 262144) (hs : s.get O.queueState q ≠ 0) (hr : ∀ r ∈ s.routs, r.q = q → r.ended = true) :
    ∃ u : State, s.resetQ q = u.formResume ∧ u.Resets q ∧ u.base = s.base := by
  unfold State.resetQ
  extract_lets st t u
  rw [if_neg hs]
  have hu : u = t.updQueue q (fun x => { x with infl := x.infl.map (fun d => if d.isRout || d.phase == .parked then d else d.stopWith 0x010B) }) :=
    State.sweepQ_idle (s := t) hr ..
  have hresets : u.Resets q := by
    rw [hu]
    refine ⟨State.get_put_same (s.put O.queueState q 2) O.irqPending q 0 (by decide), ?_, fun d hd => ?_⟩
    · have hstate : t.get O.queueState q = 2 :=
        (State.get_put_oid _ (by decide) (by decide) hq hq).trans (State.get_put_same s _ _ _ (by decide))
      exact ne_of_eq_of_ne hstate (by decide)
    · rw [State.updQueue_eq, State.setQueue_same] at hd
      obtain ⟨e, -, rfl⟩ := List.mem_map.mp hd
      exact e.reset_of_sweep
  refine ⟨_, rfl, (hresets.drainFetched hq _).endReset hq, ?_⟩
  rw [State.endReset_base, State.drainFetched_base, hu]
  rfl

/-- Settles O20: each command by the branch of `State.doWrite` that its object has. -/
theorem queuesEnableAndReset : Obligations.QueuesEnableAndReset := by
  refine ⟨fun s h o v n ht ho hn hlt => ?_, fun s h o v n ht ho hn hlt => ⟨fun hs => ?_, fun hs hr => ?_⟩⟩
  · extract_lets zeroed
    have hdo : s.doWrite o h.role n v = s.enableQ n := by simp [State.doWrite, ho]
    have hdis : s.get O.queueState n = 0 := State.enable_disabled ho (hn ▸ State.takesWrite_accepted ht)
    have hget : ∀ {x k}, k < 262144 → x ≠ O.bgMaster → (s.enableQ n).get x k =
        if x = O.queueState ∧ k = n then 1 else if x ∈ zeroed ∧ k = n then 0 else s.get x k := fun hk hx => s.get_enableQ n hlt hk hx
    refine ⟨s.enableQ n, congrArg Host.Outcome.next (State.serveWrite_does ht ho (hn ▸ hdo)), hdis, ?_, fun x hx => ?_, fun x k hk hb hne => ?_, ?_,
      fun p hp => ?_, State.byte_of_base (State.enableQ_base ..)⟩
    · rw [hget hlt (by decide), if_pos ⟨rfl, rfl⟩]
    · have hmem : ∀ y ∈ zeroed, y ≠ O.bgMaster ∧ y ≠ O.queueState := by decide
      obtain ⟨hb, hst⟩ := hmem x hx
      rw [hget hlt hb, if_neg (fun h => hst h.1), if_pos ⟨hx, rfl⟩]
    · rw [hget hk hb, if_neg (by tauto), if_neg (by tauto)]
    · rw [s.enableQ_queue n n, if_pos rfl]
    · rw [s.enableQ_queue n p, if_neg hp]
  · have hdo : s.doWrite o h.role n v = s := by simp [State.doWrite, ho, State.resetQ, hs]
    exact congrArg Host.Outcome.next (State.serveWrite_does ht ho (hn ▸ hdo))
  · obtain ⟨u, hu, hres, hbase⟩ := State.resetQ_resets hlt hs hr
    have hdo : s.doWrite o h.role n v = u.formResume := by simp [State.doWrite, ho, hu]
    exact ⟨u, congrArg Host.Outcome.next (State.serveWrite_does ht ho (hn ▸ hdo)), hres.irq, hres.state, hres.infl, State.byte_of_base hbase⟩

end Sys2Proof.Machine
end

section
/-! Host memory over a step (R284): the answers of a memory port alone change it, and nothing takes it out of its canonical form. -/

namespace Sys2Proof.Machine

/-- Settles O5: every other command leaves host memory as a whole. -/
theorem onlyPortAnswersChangeMemory : Obligations.OnlyPortAnswersChangeMemory :=
  fun _ _ _ hc h => State.byte_of_base (exec_base hc h)

/-- A cycle with no command, like a command, leaves memory in its canonical form if it was. -/
theorem step_inv {s t : State} (hs : s.Inv) (h : step s = .next t) : t.Inv := by
  unfold step at h
  split at h
  · cases h
    exact (State.kept_of_base s.idle_base).mem hs
  · exact (exec_kept h).mem hs

/-- Settles O6, from what each command keeps. -/
theorem stepKeepsTheInvariant : Obligations.StepKeepsTheInvariant := fun _ _ => step_inv

end Sys2Proof.Machine
end

section
/-! What an answer of a memory port writes (R285, R286), and the requests that it leaves outstanding. -/

namespace Sys2Proof

theorem toBytes_length (n x : Nat) : (toBytes n x).length = n := by
  induction n generalizing x with
  | zero => rfl
  | succ n ih => rw [toBytes, List.length_cons, ih]

theorem nth_toBytes {n i : Nat} (h : i < n) (x : Nat) : nth 0 (toBytes n x) i = x / 256 ^ i % 256 := by
  induction n generalizing x i with
  | zero => omega
  | succ n ih =>
    cases i with
    | zero => simp [toBytes, nth]
    | succ i => rw [toBytes, nth, ih (by omega), Nat.div_div_eq_div_mul, Nat.pow_succ']

end Sys2Proof

namespace Sys2Proof.Machine

theorem onPort_present {s : State} {u : Nat} {t : State} (h : u < s.nPort) : onPort s u t = .next t := onUnit_present h

/-- An answer OK puts its bytes in their place; any other changes none. -/
theorem State.byte_wrBytes_ok (s : State) (resp a : Nat) (bs : List Nat) (p : Bool) (x : Nat) :
    (if resp = 0 then s.wrBytes a bs p else s).byte x =
      if resp = 0 ∧ a ≤ x ∧ x < a + bs.length then nth 0 bs (x - a) % 256 else s.byte x := by
  by_cases hr : resp = 0
  · by_cases hx : a ≤ x ∧ x < a + bs.length
    · obtain ⟨i, rfl⟩ := Nat.exists_eq_add_of_le hx.1
      rw [if_pos hr, if_pos ⟨hr, hx⟩, State.wrBytes_inside (by omega), Nat.add_sub_cancel_left]
    · rw [if_pos hr, if_neg (fun h => hx h.2), State.wrBytes_outside (by omega)]
  · rw [if_neg hr, if_neg (fun h => hr h.1)]

theorem mem_swapReq {r x : MemReq} {f : MemReq → MemReq} {l : List MemReq} (h : x ∈ swapReq r f l) : x ∈ l ∨ x = f r := by
  induction l with
  | nil => exact .inl h
  | cons y l ih =>
    unfold swapReq at h
    split at h
    · next hy =>
      obtain rfl | hx := List.mem_cons.mp h
      · exact .inr (by rw [eq_of_beq hy])
      · exact .inl (List.mem_cons_of_mem _ hx)
    · obtain rfl | hx := List.mem_cons.mp h
      · exact .inl (by simp)
      · exact (ih hx).imp_left (List.mem_cons_of_mem _)

theorem State.byTag_mem {s : State} {port tag : Nat} {wr : Bool} {r : MemReq} (h : s.byTag port tag wr = some r) : r ∈ s.reqs :=
  List.mem_of_find?_eq_some h

theorem State.byTag_at {s : State} {port tag : Nat} {wr : Bool} {r : MemReq} (h : s.byTag port tag wr = some r) : r.port = port ∧ r.wr = wr := by
  have hr := List.find?_some h
  simp only [Bool.and_eq_true, beq_iff_eq] at hr
  exact hr.1

/-- With no request that a device window keeps from being moved, none fails. -/
theorem State.failShut_idle {s : State} (h : ∀ x ∈ s.reqs, x.shut = false) (n : Nat) : s.failShut n = s := by
  have hnone : s.reqs.find? (·.shut) = none := List.find?_eq_none.mpr (fun x hx => ne_true_of_eq_false (h x hx))
  cases n with
  | zero => rfl
  | succ n => rw [State.failShut, hnone]

/-- The outcome of a port's command: what the device windows keep from being moved fails with it (R279). -/
def State.shutFailed (s : State) : State := s.failShut s.reqs.length

theorem State.shutFailed_byte (s : State) (a : Nat) : s.shutFailed.byte a = s.byte a := State.byte_of_base (State.failShut_base ..) a

/-- A request with one beat more. -/
def MemReq.beat (r : MemReq) (resp : Nat) (poison : Bool) : MemReq :=
  { r with got := r.got + 1, err := max r.err (if resp = 3 then 1 else resp), poisoned := r.poisoned || poison }

/-- A beat that its read takes: its bytes are in memory when it was answered OK, and the read has it. -/
def State.beatIn (s : State) (r : MemReq) (port data resp : Nat) (poison : Bool) : State :=
  let t := if poison then s.bump O.memportPoisonBeats port 32 1 else s
  let u := if resp = 0 then t.wrBytes (r.addr + 128 * r.got) (toBytes 128 data) poison else t
  u.setReqs (swapReq r (fun _ => MemReq.beat r resp poison) u.reqs)

theorem State.beatIn_byte (s : State) (r : MemReq) (port data resp : Nat) (poison : Bool) (a : Nat) :
    (s.beatIn r port data resp poison).byte a =
      if resp = 0 ∧ r.addr + 128 * r.got ≤ a ∧ a < r.addr + 128 * r.got + 128 then data / 256 ^ (a - (r.addr + 128 * r.got)) % 256 else s.byte a := by
  unfold State.beatIn
  extract_lets t u
  have ht : t.byte a = s.byte a := State.byte_of_base (State.ite_keep (State.bump_base ..) rfl) a
  rw [State.setReqs_byte, State.byte_wrBytes_ok, ht, toBytes_length]
  refine ite_congr rfl (fun h => ?_) (fun _ => rfl)
  rw [nth_toBytes (by omega), Nat.mod_mod]

theorem State.beatIn_reqs (s : State) (r : MemReq) (port data resp : Nat) (poison : Bool) :
    (s.beatIn r port data resp poison).reqs = swapReq r (fun _ => MemReq.beat r resp poison) s.reqs := by
  unfold State.beatIn
  extract_lets t u
  have ht : t.reqs = s.reqs := by unfold t; split <;> rfl
  have hu : u.reqs = t.reqs := by unfold u; split <;> rfl
  rw [State.setReqs_reqs, hu, ht]

section ReadData
variable {s : State} {port tag data resp : Nat} {last poison : Bool} (ht : s.portTalks port = true)
include ht

theorem State.readData_unnamed (hn : s.byTag port tag false = none) :
    s.readData port tag data last resp poison = (s.fencePort port 7 0 {}).shutFailed := by
  simp [State.readData, State.shutFailed, ht, hn]

variable {r : MemReq} (hr : s.byTag port tag false = some r)
include hr

/-- A beat ends its read early or late. -/
theorem State.readData_misframed (hl : last ≠ (r.got + 1 == r.beats)) :
    s.readData port tag data last resp poison = (s.fencePort port 7 r.addr (s.reqCtx r.owner)).shutFailed := by
  simp [State.readData, State.shutFailed, ht, hr, hl]

theorem State.readData_discarded (hl : last = (r.got + 1 == r.beats)) (hd : r.late = true ∨ s.stopped = true) :
    s.readData port tag data last resp poison =
      (if last then s.dropReq r else s.setReqs (swapReq r (fun _ => MemReq.beat r resp poison) s.reqs)).shutFailed := by
  have hd : (r.late || s.stopped) = true := by simpa using hd
  simp [State.readData, State.shutFailed, MemReq.beat, ht, hr, hd, ← hl]

theorem State.readData_taken (hl : last = (r.got + 1 == r.beats)) (hlate : r.late = false) (hs : s.stopped = false) :
    s.readData port tag data last resp poison =
      (if last then (s.beatIn r port data resp poison).complete (MemReq.beat r resp poison)
          (if (MemReq.beat r resp poison).err != 0 then (MemReq.beat r resp poison).err
           else if (MemReq.beat r resp poison).poisoned && poisonFails r.owner then 3 else 0)
        else s.beatIn r port data resp poison).shutFailed := by
  cases last <;> simp [State.readData, State.shutFailed, State.beatIn, MemReq.beat, ht, hr, hlate, hs, ← hl]

end ReadData

theorem exec_readData {s : State} {port : Nat} (hp : port < s.nPort) (tag data resp : Nat) (last poison : Bool) :
    exec (.readData port tag data last resp poison) s = .next (s.readData port tag data last resp poison) := onPort_present hp

/-- Settles O21: a beat breaks the protocol, is discarded, or is taken by its read. -/
theorem readDataArrives : Obligations.ReadDataArrives := by
  intro s port tag data resp last poison _ hp ht shut
  rw [exec_readData hp]
  refine ⟨fun hn => congrArg _ (State.readData_unnamed ht hn), fun r hr => ?_⟩
  refine ⟨fun hl => congrArg _ (State.readData_misframed ht hr hl), fun hl hlate hs => ⟨_, rfl, fun a => ?_, fun hlast hshut => ?_⟩,
    fun hl hd => ⟨_, rfl, fun a => ?_⟩⟩
  · rw [State.readData_taken ht hr hl hlate hs, State.shutFailed_byte, ← State.beatIn_byte s r port data resp poison a]
    exact State.byte_of_base (State.ite_keep (State.complete_base ..) rfl) a
  · have hkeep : ∀ x ∈ (s.beatIn r port data resp poison).reqs, x.shut = false := fun x hx => by
      rw [State.beatIn_reqs] at hx
      obtain hold | rfl := mem_swapReq hx
      · exact hshut x hold
      · exact hshut r (State.byTag_mem hr)
    rw [State.readData_taken ht hr hl hlate hs, if_neg (ne_true_of_eq_false hlast), State.shutFailed, State.failShut_idle hkeep]
    exact State.beatIn_reqs ..
  · rw [State.readData_discarded ht hr hl hd, State.shutFailed_byte]
    exact State.byte_of_base (State.ite_keep (State.dropReq_base ..) (State.setReqs_base ..)) a

end Sys2Proof.Machine
end

section
/-! The fence of a memory port (R290, R297): the port is fenced, and no other memory port changes state. -/

namespace Sys2Proof.Machine

/-- The objects that the fence of a memory port may write, beside MEMPORT_STATE. -/
def portFenceObjects : List Nat :=
  [O.memportInService, O.fences, O.repairFound, O.testState, O.testResult, O.portCheckFailed, O.portCheckState, O.blockState] ++ eventObjects

section SameWork
variable {os : List Nat} {s t u : State}

/-- What holds none of the objects, queues, routines, sync updates and memory may change as well. -/
theorem State.SameWork.frame (h : State.SameWork os s t) (hobjs : u.objs = t.objs) (hqueues : u.queues = t.queues) (hrouts : u.routs = t.routs)
    (hsync : u.syncUpds = t.syncUpds) (hbase : u.base = t.base) : State.SameWork os s u :=
  h.trans ⟨fun _ _ _ => State.get_of_objs (congrArg Prod.fst hbase) hobjs .., fun p => congrArg (fun m => (SMap.look {} m p).infl) hqueues, hrouts,
    hsync, hbase⟩

theorem State.SameWork.foldl {α : Type} (h : State.SameWork os s t) (l : List α) {f : State → α → State}
    (hf : ∀ (u : State) a, State.SameWork os u (f u a)) : State.SameWork os s (l.foldl f t) :=
  List.foldlRecOn l f (motive := State.SameWork os s) h (fun _ hu a _ => hu.trans (hf _ a))

theorem State.report_sameWork (hos : eventObjects ⊆ os) (s : State) {e : Ev} (hc : e.code < 262144) : State.SameWork os s (s.report e) :=
  (State.report_counted s hc).sameWork.mono hos

end SameWork

/-- A frame sent changes only the ports of the Belfry. -/
theorem State.sendTo_frame (s : State) (f : Frame) : s.sendTo f = (s.setBports (s.sendTo f).bports).setBtx (s.sendTo f).btx := by
  unfold State.sendTo
  split
  · unfold State.sendOn
    extract_lets b
    split <;> rfl
  · rfl

theorem State.sendTo_sameWork {os : List Nat} (s : State) (f : Frame) : State.SameWork os s (s.sendTo f) := by
  rw [State.sendTo_frame]
  exact (State.SameWork.refl s).frame rfl rfl rfl rfl rfl

theorem State.tellLost_sameWork {os : List Nat} (s : State) (cause : Nat) : State.SameWork os s (s.tellLost cause) := by
  unfold State.tellLost
  extract_lets g own live
  refine .ite (.refl s) ?_
  split
  · exact .refl s
  · exact .ite ((State.SameWork.refl s).foldl _ (fun u _ => u.sendTo_sameWork _)) (s.sendTo_sameWork _)

section PortFence
variable (s : State)

theorem State.stop_sameWork {code : Nat} (hc : code < 262144) (kind cause : Nat) : State.SameWork portFenceObjects s (s.stop code kind cause) := by
  have hreport : State.SameWork portFenceObjects s (s.report { code := code, unitKind := kind, payload := genPay 0 cause 0 }) :=
    State.report_sameWork (by decide) s hc
  exact (hreport.put (by decide) (by decide) _).trans (State.tellLost_sameWork ..)

theorem State.logFence_sameWork (kind u cause item : Nat) (c : Ctx) : State.SameWork portFenceObjects s (s.logFence kind u cause item c) :=
  (State.report_sameWork (by decide) s (show 0x0902 < 262144 by decide)).put (by decide) (by decide) _

theorem State.found_sameWork (kind u : Nat) : State.SameWork portFenceObjects s (s.found kind u) := by
  unfold State.found
  extract_lets l
  split
  · exact .refl s
  · exact .ite ((State.SameWork.refl s).put (by decide) (by decide) _) (.refl s)

/-! PORT_CHECK, which the fence of a port may end (R415). -/

theorem State.checkFail_sameWork (n : Nat) : State.SameWork portFenceObjects s (s.checkFail n) := (State.SameWork.refl s).put (by decide) (by decide) _

theorem State.checkLost_sameWork (r : MemReq) : State.SameWork portFenceObjects s (s.checkLost r) := by
  unfold State.checkLost
  split
  · next n _ => exact .ite (s.checkFail_sameWork n) ((s.checkFail_sameWork n).trans (State.checkFail_sameWork ..))
  · exact .refl s

theorem State.checkNext_sameWork : State.SameWork portFenceObjects s s.checkNext := by
  unfold State.checkNext
  split
  · exact .refl s
  · next c _ =>
    have hcheck : ∀ x, State.SameWork portFenceObjects s (s.setCheck x) := fun x => (State.SameWork.refl s).frame rfl rfl rfl rfl rfl
    exact .ite (.refl s) (.ite (.refl s) (.ite ((hcheck _).foldl _ (fun u _ => (State.request_asked u _).sameWork))
      ((hcheck _).put (by decide) (by decide) _)))

theorem State.reissue_sameWork {os : List Nat} (r : MemReq) : State.SameWork os s (s.reissue r) :=
  .ite (.refl s) ((State.SameWork.refl s).frame rfl rfl rfl rfl rfl)

theorem State.movePort_sameWork (p : Nat) : State.SameWork portFenceObjects s (s.movePort p) := by
  unfold State.movePort
  extract_lets mine t u
  have ht : State.SameWork portFenceObjects s t := (State.SameWork.refl s).frame rfl rfl rfl rfl rfl
  have hu : State.SameWork portFenceObjects s u := ht.foldl _ (fun v r => by
    dsimp only
    refine .ite (v.checkLost_sameWork _) ?_
    split
    · exact .refl v
    · exact .ite ((State.SameWork.refl v).frame rfl rfl rfl rfl rfl) (v.reissue_sameWork _))
  clear_value u
  split
  · exact (hu.trans (.ite (u.checkFail_sameWork p) (.refl u))).trans (State.checkNext_sameWork _)
  · exact hu

/-- A memory port's state is set, and the in-service count follows. -/
theorem State.setUnit_port_sameWork (u st : Nat) : State.SameWork portFenceObjects (s.put O.memportState u st) (s.setUnit 6 u st) := by
  unfold State.setUnit
  extract_lets was t
  have hcount : ∀ v, State.SameWork portFenceObjects t (t.setObj O.memportInService v) := fun v => (State.SameWork.refl t).put (by decide) (by decide) v
  exact .ite (hcount _) (.ite (hcount _) (.refl t))

/-- A fence of a memory port writes its state, and what else the fence of a unit brings. -/
theorem State.fence_port_sameWork (u cause item : Nat) (c : Ctx) :
    State.SameWork portFenceObjects (s.put O.memportState u 1) (s.fence 6 u cause item c) := by
  unfold State.fence
  extract_lets users s1 s2 s3 s4 s5 s6
  have h3 : State.SameWork portFenceObjects (s.put O.memportState u 1) s3 := s.setUnit_port_sameWork u 1
  clear_value s3
  have h4 : State.SameWork portFenceObjects (s.put O.memportState u 1) s4 :=
    (h3.trans (s3.logFence_sameWork ..)).trans (State.found_sameWork ..)
  clear_value s4
  have h5 : State.SameWork portFenceObjects (s.put O.memportState u 1) s5 := by
    unfold s5
    split
    · next t _ =>
      have hend : State.SameWork portFenceObjects s4 ((s4.setTest none).setIjtag (if t.net then 4 else s4.ijtag)) :=
        (State.SameWork.refl s4).frame rfl rfl rfl rfl rfl
      exact h4.trans (.ite ((hend.put (by decide) (by decide) _).put (by decide) (by decide) _) (.refl s4))
    · exact h4
  clear_value s5
  have h6 : State.SameWork portFenceObjects (s.put O.memportState u 1) s6 := h5.trans (s5.movePort_sameWork u)
  exact .ite h5 (.ite (h6.trans (s6.stop_sameWork (by decide) ..)) h6)

end PortFence

/-- A serving port that is fenced reads FENCED. -/
theorem State.fencePort_fenced {s : State} {p : Nat} (hp : p < 262144) (hs : s.serves 6 p = true) (cause addr : Nat) (c : Ctx) :
    (s.fencePort p cause addr c).get O.memportState p = 1 := by
  unfold State.fencePort
  rw [if_neg (by simp [hs])]
  exact ((State.fence_port_sameWork ..).get (by decide) (by decide) hp).trans (State.get_put_same _ _ _ _ (by decide))

end Sys2Proof.Machine
end

section
/-! The answers to writes, and timeouts (R279, R286, R289, R290). -/

namespace Sys2Proof.Machine

section WriteResponse
variable {s : State} {port tag resp : Nat} (ht : s.portTalks port = true)
include ht

theorem State.writeResp_unnamed (hn : s.byTag port tag true = none) : s.writeResp port tag resp = (s.fencePort port 7 0 {}).shutFailed := by
  simp [State.writeResp, State.shutFailed, ht, hn]

variable {r : MemReq} (hr : s.byTag port tag true = some r)
include hr

theorem State.writeResp_late (hlate : r.late = true) : s.writeResp port tag resp = (s.dropReq r).shutFailed := by
  simp [State.writeResp, State.shutFailed, ht, hr, hlate]

/-- A write answered OK is in memory; its owner then meets the outcome, unless the block has stopped (R301). -/
theorem State.writeResp_answered (hlate : r.late = false) :
    s.writeResp port tag resp =
      let t := if resp = 0 then s.wrBytes r.addr r.data r.poison else s
      (if t.stopped && !isEvlog r.owner then t.dropReq r else t.complete r (if resp = 0 then 0 else if resp = 2 then 2 else 1)).shutFailed := by
  simp [State.writeResp, State.shutFailed, ht, hr, hlate]

end WriteResponse

theorem exec_writeResponse {s : State} {port : Nat} (hp : port < s.nPort) (tag resp : Nat) :
    exec (.writeResponse port tag resp) s = .next (s.writeResp port tag resp) := onPort_present hp

theorem exec_memTimeout {s : State} {port : Nat} (hp : port < s.nPort) (tag : Nat) (wr : Bool) :
    exec (.memTimeout port tag wr) s = .next (s.memTimedOut port tag wr) := onPort_present hp

/-- The request has timed out on its port: its tag waits for the late response. -/
def State.timedOut (s : State) (port : Nat) (r : MemReq) : State :=
  (s.setReqs (swapReq r (fun x => { x with late := true }) s.reqs)).updRun port (fun x => { x with timeouts := x.timeouts + 1 })

theorem State.updRun_sameWork {os : List Nat} (s : State) (p : Nat) (f : PortRun → PortRun) : State.SameWork os s (s.updRun p f) :=
  (State.SameWork.refl s).frame rfl rfl rfl rfl rfl

theorem State.timedOut_sameWork {os : List Nat} (s : State) (port : Nat) (r : MemReq) : State.SameWork os s (s.timedOut port r) :=
  (State.SameWork.refl s).frame rfl rfl rfl rfl rfl

theorem State.retag_sameWork {os : List Nat} (s : State) : State.SameWork os s s.retag := (State.SameWork.refl s).frame rfl rfl rfl rfl rfl

theorem State.run_updRun_same (s : State) (p : Nat) (f : PortRun → PortRun) : (s.updRun p f).run p = f (s.run p) := SMap.look_put_same ..

/-- Request `r` goes out once more, on port `p`: failure `n` of its own port, counted as a retry (R289). -/
def State.retried (s : State) (r : MemReq) (p n cause : Nat) : State :=
  (((s.bump (if r.wr then O.memportWriteRetries else O.memportReadRetries) r.port 32 1).addRun r.port (if p ≠ r.port then .pend n else .brk)).updRun
    r.port (fun x => { x with next := n + 1 })).reissue
      { r with port := p, tag := none, got := 0, err := 0, poisoned := false, late := false
               retryOf := some (r.port, if p ≠ r.port then some n else none, cause) }

section Timeout
variable {s : State} {r : MemReq}

theorem State.retried_sameWork (hp : r.port < 262144) (p n cause : Nat) :
    State.SameWork [O.memportWriteRetries, O.memportReadRetries] s (s.retried r p n cause) := by
  have hcount : State.SameWork [O.memportWriteRetries, O.memportReadRetries] s
      (s.bump (if r.wr then O.memportWriteRetries else O.memportReadRetries) r.port 32 1) :=
    (State.SameWork.refl s).put (by split <;> simp) hp _
  exact .trans (.trans (.trans hcount (State.updRun_sameWork ..)) (State.updRun_sameWork ..)) (State.reissue_sameWork ..)

theorem State.failOrRetry_reissues {p n : Nat} (hc : isCheck r.owner = false) (hs : s.stopped = false) (hn : r.retryOf = none)
    (hw : s.inWindow r.span.1 r.span.2 = false) (hp : s.nextPort r.port = some p) (hnext : (s.run r.port).next = n) (cause : Nat) :
    s.failOrRetry r 1 cause = s.retried r p n cause := by
  have hrun : ∀ o k w m, ((s.bump o k w m).run r.port).next = n := fun _ _ _ _ => hnext
  simp [State.failOrRetry, State.retried, hc, hs, hn, hw, hp, hrun]

/-- A request that a device window now covers fails with its first failure. -/
theorem State.failOrRetry_covered (hn : r.retryOf = none) (hw : s.inWindow r.span.1 r.span.2 = true) (bad cause : Nat) :
    s.failOrRetry r bad cause = (s.addRun r.port .brk).failed r bad := by
  simp [State.failOrRetry, hn, hw]

variable {port tag : Nat} {wr : Bool} (ht : s.portTalks port = true) (hr : s.byTag port tag wr = some r) (hlate : r.late = false)
  (hc : isCheck r.owner = false)
include ht hr hlate hc

/-- A timeout leaves what a failure of its request leaves; the second in a row fences the port as well. -/
theorem State.memTimedOut_leaves {t : State} (h : (s.timedOut port r).failOrRetry r 1 6 = t) :
    s.memTimedOut port tag wr =
      (if 0 < (s.run port).timeouts then t.retag.fencePort port 6 r.addr (s.reqCtx r.owner) else t.retag).shutFailed := by
  have hrun : ((s.timedOut port r).run port).timeouts = (s.run port).timeouts + 1 := congrArg PortRun.timeouts (State.run_updRun_same ..)
  have htwo : 2 ≤ ((s.timedOut port r).run port).timeouts ↔ 0 < (s.run port).timeouts := by omega
  have hctx : (s.setReqs (swapReq r (fun x => { x with late := true }) s.reqs)).reqCtx r.owner = s.reqCtx r.owner := rfl
  subst h
  unfold State.timedOut at htwo
  simp [State.memTimedOut, State.timedOut, State.shutFailed, ht, hr, hlate, hc, htwo, hctx]

end Timeout

/-- Settles O22: a response names no write, a late one or one that it answers; a first timeout reissues its request or fails it, and a second in a row
fences the port as well. -/
theorem portWritesAndTimeouts : Obligations.PortWritesAndTimeouts := by
  unfold Obligations.PortWritesAndTimeouts
  intro shut
  refine ⟨fun s port tag resp _ hp ht => ?_, fun s port tag p wr r hp hlt ht hs hr hlate hc hn hnext => ?_⟩
  · rw [exec_writeResponse hp]
    refine ⟨fun hnone => congrArg _ (State.writeResp_unnamed ht hnone), fun r hr => ⟨fun hlate => congrArg _ (State.writeResp_late ht hr hlate),
      fun hlate => ⟨_, rfl, fun a => ?_⟩⟩⟩
    rw [State.writeResp_answered ht hr hlate, State.shutFailed_byte, ← State.byte_wrBytes_ok s resp r.addr r.data r.poison a]
    exact State.byte_of_base (State.ite_keep (State.dropReq_base ..) (State.complete_base ..)) a
  · extract_lets s1 n again u v
    obtain ⟨rfl, rfl⟩ := State.byTag_at hr
    have htimes : (s1.run r.port).next = n := (congrArg PortRun.next (State.run_updRun_same ..)).trans rfl
    rw [exec_memTimeout hp]
    refine ⟨fun hw => ?_, fun hw hz => ?_⟩
    · have hout := State.memTimedOut_leaves ht hr hlate hc (State.failOrRetry_reissues hc (s := s1) hs hn hw hnext htimes 6)
      have hkeep : State.SameWork [O.memportWriteRetries, O.memportReadRetries] s u :=
        ((s.timedOut_sameWork r.port r).trans (State.retried_sameWork hlt p n 6)).trans (State.retag_sameWork _)
      refine ⟨fun hz => congrArg _ (hout.trans ?_), fun hz hserves => ⟨congrArg _ (hout.trans ?_), ?_, ?_⟩⟩
      · rw [if_neg (by omega)]
        rfl
      · rw [if_pos hz]
        rfl
      · refine State.fencePort_fenced hlt ?_ ..
        rw [State.serves, hkeep.get (by decide) (by decide) hlt]
        exact hserves
      · exact State.byte_of_base ((State.fencePort_base ..).trans hkeep.base)
    · have hout := State.memTimedOut_leaves ht hr hlate hc (State.failOrRetry_covered (s := s1) hn hw 1 6)
      rw [hout, if_neg (by omega)]
      rfl

end Sys2Proof.Machine
end

section
/-! What a stopped block ignores (R301). -/

namespace Sys2Proof.Machine

theorem State.live_stopped {s : State} (h : s.stopped = true) : s.live = false := by simp [State.live, h]

section Dead
variable {s : State} (h : s.live = false)
include h

/-! An instruction of a routine does nothing in a block that is not live, whatever it would do to its Lantern or array. -/

theorem State.onLan_lanDo_dead (c : Instr) (i : LIss) (ops : Lan → Nat) (f : State → Rout → Image → LCtx → Lan → LEff) :
    s.onLan c i (s.lanDo i ops f) = s := State.onLan_self c i (State.lanDo_dead h i ops f)

theorem State.onLan_lanV_dead (c : Instr) (i : LIss) (f : VF) (g : LCtx → Lan → LRes) : s.onLan c i (s.lanV i f g) = s := by
  unfold State.lanV State.lanPure
  exact State.onLan_lanDo_dead h ..

theorem State.onLan_lanS_dead (c : Instr) (i : LIss) (g : LCtx → Lan → LRes) : s.onLan c i (s.lanS i g) = s := by
  unfold State.lanS State.lanPure
  exact State.onLan_lanDo_dead h ..

theorem State.onLan_lanSqrt_dead (c : Instr) (i : LIss) (ops : Lan → Nat) (ds : Lan → List Nat) (g : LCtx → Lan → LRes) :
    s.onLan c i (s.lanSqrt i ops ds g) = s := State.onLan_lanDo_dead h c i ..

theorem State.onArr_arrDo_dead (c : Instr) (x : AIss) (f : State → Rout → Image → LArr → Nat → AEff) : s.onArr c x (s.arrDo x f) = s :=
  State.onArr_self c x (State.arrDo_dead h x f)

end Dead

/-- Settles O10: by kind of command, what its operation does in a block that is not live, or that has stopped. -/
theorem stoppedBlockIgnoresWork : Obligations.StoppedBlockIgnoresWork := by
  intro c s hs hneeds hunit
  have hl := State.live_stopped hs
  cases c
  case tail | irqAck | doorbellErrors => exact congrArg _ (State.doorbell_dead hl _)
  case streamTile => exact onUnit_self (hunit _ _ rfl) (State.streamTile_dead hl _ _)
  case orphanTile => exact onUnit_self (hunit _ _ rfl) (State.orphanOut_dead hl _)
  case captureTile => exact congrArg _ (State.captureTile_dead hl _ _)
  case formationTimeout => exact congrArg _ (State.formTimeout_dead hl)
  case groupOfOne => exact congrArg _ (State.formAlone_dead hl)
  case bellClose => exact congrArg _ (State.closeBell_dead hl _ _ _ _)
  case paceBreaks => exact congrArg _ (State.paceOver_dead hl)
  case toll => exact congrArg _ (State.toll_dead hl)
  case fBellOverrun => exact congrArg _ (State.overrunNow_dead hl)
  case fStreamTimeout => exact congrArg _ (State.streamTimeout_dead hl _ _)
  case deadline => exact congrArg _ (State.deadlineAt_dead hl _ _)
  case fWaitTimeout => exact congrArg _ (State.waitTimeout_dead hl _ _)
  case bellWaitEnd => exact congrArg _ (State.bellWaitAt_dead hl _ _)
  case nop | convert | quant | dequant | stats | gram | rootOp | solve | precond | reduce | fence | bellWait | signal | waitOp | fDescMalformed =>
    exact congrArg _ (State.dispatch_dead hl _ _ _)
  case commit => exact congrArg _ (State.commitAt_stopped hs _ _)
  case released => exact congrArg _ (State.releaseNext_stopped hs _)
  case iterBound => exact congrArg _ (State.iterBound_dead hl _ _)
  case routineRestart => exact congrArg _ (State.restart_dead hl _ _)
  case fallbackPromotions => exact congrArg _ (State.fallback_dead hl _ _ _ _)
  case reduceTimeout => exact congrArg _ (State.redTimeout_dead hl _ _)
  case arrNop | fset | pass | gopen | gdrain | fSpireOp => exact congrArg _ (State.onArr_arrDo_dead hl _ _ _)
  case vadd | vsub | vmul | vfma | vdiv | vmin | vmax | vabs | vneg | vadds | vmuls | vfmas | vpadd | viadd | visub | vimul | viaddsat | vand | vor |
      vxor | vshl | vsra | vsrl | viota | vmov | vbcast | vcmp | vicmp | vsel | mand | mor | mnot | many | vrsum | vrmax | vrmin | vrcsum | vrisum |
      vcvt =>
    exact congrArg _ (State.onLan_lanV_dead hl ..)
  case vsqrt | sfsqrt => exact congrArg _ (State.onLan_lanSqrt_dead hl ..)
  case sli | slih | saddi | sadd | ssub | smul | sshl | sshr | sfadd | sfsub | sfmul | sfdiv | scmpm | ssel | setvl | setvli | modew | moder | loop |
      endloop | brk | lnNop =>
    exact congrArg _ (State.onLan_lanS_dead hl ..)
  case vld | vst | rdp | boundary | bar | sched | lnRet | pivf | lnEnd | lnStop | astr | aiss | await | aflg | fLanternIllegal =>
    exact congrArg _ (State.onLan_lanDo_dead hl ..)
  all_goals cases hneeds

end Sys2Proof.Machine
end

section
/-! What goes to the ring of the event log (R311, R312). -/

namespace Sys2Proof.Machine

/-- A run of bytes that crosses no boundary of 4,096 bytes is one part. -/
theorem parts_within {a n : Nat} (hn : 0 < n) (h : (a + n - 1) / 4096 = a / 4096) : parts a n = [(a, n)] := by
  have hrange : rangeFrom (a / 4096) 1 = [a / 4096] := rfl
  have hlo : max a (a / 4096 * 4096) = a := by omega
  have hhi : min (a + n) (a / 4096 * 4096 + 4096) - a = n := by omega
  simp [parts, Nat.ne_of_gt hn, h, hrange, hlo, hhi]

/-- An address that a port has, is in a block with a serving port. -/
theorem State.ports_of_portOf {s : State} {a p : Nat} (h : s.portOf a = some p) : s.ports.isEmpty = false := by
  simp_all [State.portOf]

theorem State.request_runs {s : State} {r : MemReq} (h : s.stopped = false) :
    s.request r = (s.setReqs (s.reqs ++ [{ r with tag := s.tagFor s.reqs r }])).spend (1221 * r.span.2) := by
  simp [State.request, h]

/-- The write request of a run of bytes from address `a` on, on port `p`. -/
def writeReq (o : ReqOwner) (p a attr tenant : Nat) (bs : List Nat) (poison : Bool) (tag : Option Nat) : MemReq :=
  { port := p, wr := true, tag := tag, addr := a, beats := (beatsOf a bs.length).length, attr := attr, tenant := tenant, data := bs, poison := poison
    owner := o }

/-- A write that crosses no boundary of 4,096 bytes, and meets no device window, is one request on the port of its address. -/
theorem State.access_write {s : State} {o : ReqOwner} {a attr tenant p : Nat} {bs : List Nat} {poison : Bool} (hs : s.stopped = false)
    (hw : s.inWindow a bs.length = false) (hp : s.portOf a = some p) (hn : 0 < bs.length) (hin : (a + bs.length - 1) / 4096 = a / 4096) :
    ∃ tag, (s.access o a bs.length attr tenant (some bs) poison).reqs = s.reqs ++ [writeReq o p a attr tenant bs poison tag] := by
  refine ⟨s.tagFor s.reqs (writeReq o p a attr tenant bs poison none), ?_⟩
  simp [State.access, hw, parts_within hn hin, hp, State.request_runs hs, writeReq, State.spend]

section Write
variable {s : State} {e : Ev} {l : List Ev}

/-- The address of the entry that EVLOG_TAIL names. -/
def State.entryAddr (s : State) : Nat := s.obj O.evlogBase + 64 * (s.obj O.evlogTail % 2 ^ s.obj O.evlogLog2)

/-- The bytes of the next entry, with the phase of the lap. -/
def State.entryBytes (s : State) (e : Ev) : List Nat := toBytes 64 (evEntry e (1 - s.obj O.evlogTail / 2 ^ s.obj O.evlogLog2 % 2))

/-- The oldest buffered event is taken, and the write of its entry asked for, while the log may write and its ring has room. -/
theorem State.evlogWrite_asks (hb : s.evbuf = e :: l) (ho : s.evOut = none) (hen : s.obj O.evlogEnable = 1) (hr : s.inReset = false)
    (hs : s.stopped = false) (hpow : s.obj O.powerState ≠ 3)
    (hroom : (s.obj O.evlogTail + 2 ^ 32 - s.obj O.evlogHead) % 2 ^ 32 < 2 ^ s.obj O.evlogLog2) (hports : s.ports.isEmpty = false)
    (hw : s.inWindow s.entryAddr 64 = false) :
    s.evlogWrite = ((s.setEvbuf l).setEvOut (some e)).access (.evlog (evSeverity e.code)) s.entryAddr 64 (s.obj O.evlogAttr) 0
      (some (s.entryBytes e)) false := by
  have hbit : bits (s.obj O.evlogTail) (s.obj O.evlogLog2) 1 = s.obj O.evlogTail / 2 ^ s.obj O.evlogLog2 % 2 := by
    rw [bits, Nat.shiftRight_eq_div_pow, Nat.pow_one]
  have hmay : s.evlogMay = true := by simp [State.evlogMay, hs]
  obtain ⟨hcold, hwarm⟩ : s.coldHeld = false ∧ s.warmHeld = false := by simpa [State.inReset] using hr
  have hw' : ((s.setEvbuf l).setEvOut (some e)).inWindow s.entryAddr 64 = false := hw
  unfold State.evlogWrite
  rw [hb, ho]
  dsimp only
  rw [if_pos ⟨hen, decide_eq_true hroom, hmay, by simp [hcold], by simp [hwarm], hpow, by simp [hports]⟩]
  show (if ((s.setEvbuf l).setEvOut (some e)).inWindow s.entryAddr 64 = true then _ else _) = _
  rw [if_neg (by simp [hw']), hbit]
  rfl

end Write

/-- Settles O24: the two writes by their branch of `State.doWrite`, the entry by the one request that its write is. -/
theorem eventsGoToTheRing : Obligations.EventsGoToTheRing := by
  refine fun s => ⟨fun h o ht ho => ?_, fun h o ht ho => ?_, fun e l p hb ho hen hr hs hpow => ?_⟩
  · exact congrArg _ (State.serveWrite_does (t := s.evlogOn) ht ho (by simp [State.doWrite, ho]))
  · exact congrArg _ (State.serveWrite_does ht ho (by simp [State.doWrite, ho]))
  · intro n k a hroom hw hp ha
    have hlen : (s.entryBytes e).length = 64 := toBytes_length ..
    let t := (s.setEvbuf l).setEvOut (some e)
    have hasks : s.evlogWrite = t.access (.evlog (evSeverity e.code)) a 64 (s.obj O.evlogAttr) 0 (some (s.entryBytes e)) false :=
      State.evlogWrite_asks hb ho hen hr hs hpow hroom (State.ports_of_portOf hp) hw
    have hasked := t.access_asked (.evlog (evSeverity e.code)) a 64 (s.obj O.evlogAttr) 0 (some (s.entryBytes e)) false
    obtain ⟨tag, hreqs⟩ := State.access_write (s := t) (o := .evlog (evSeverity e.code)) (attr := s.obj O.evlogAttr) (tenant := 0) (poison := false)
      (bs := s.entryBytes e) hs (by rw [hlen]; exact hw) hp (by omega) (by omega)
    rw [hlen, ← hasks] at hreqs
    rw [← hasks] at hasked
    refine ⟨s.evlogWrite, _, rfl, ?_, ?_, hreqs, rfl, rfl, rfl, rfl, rfl, State.byte_of_base ?_⟩
    · rw [hasked]; rfl
    · rw [hasked]; rfl
    · rw [hasked]; rfl

end Sys2Proof.Machine
end

section
/-! Units that change state (R297, R319), and what the report that follows leaves of it. -/

namespace Sys2Proof.Machine

/-- The state object of each kind of unit. -/
def unitStateObjects : List Nat := [O.segState, O.arrayState, O.domeState, O.lanternState, O.memportState, O.bportState]

/-- The in-service count of each kind of unit that has one. -/
def serviceObjects : List Nat := [O.hedgeInService, O.spireInService, O.lanternsInService, O.memportInService, O.belfryInService]

/-- The objects that a change of a unit's state may write. -/
def unitObjects : List Nat := unitStateObjects ++ serviceObjects

theorem stateOid_mem (kind : Nat) : stateOid kind ∈ unitStateObjects := by
  unfold stateOid
  split <;> decide

theorem serviceOid_mem {kind o : Nat} (h : serviceOid kind = some o) : o ∈ serviceObjects := by
  unfold serviceOid at h
  split at h <;> cases h <;> decide

/-- No state object is BG_MASTER, whose value reads INSTANCE_ID before a group has formed. -/
theorem stateOid_ne_bgMaster (kind : Nat) : stateOid kind ≠ O.bgMaster := fun h => absurd (h ▸ stateOid_mem kind) (by decide)

theorem stateOid_ne_serviceOid {kind o : Nat} (h : serviceOid kind = some o) : stateOid kind ≠ o := by
  have hdisjoint : ∀ x ∈ unitStateObjects, x ∉ serviceObjects := by decide
  exact fun he => hdisjoint _ (stateOid_mem kind) (he ▸ serviceOid_mem h)

section Unit
variable (s : State) (kind : Nat) {u : Nat} (hu : u < 262144) (st : Nat)

/-- A unit that changes state writes its state object, and the in-service count of its kind. -/
theorem State.setUnit_cases : s.setUnit kind u st = s.put (stateOid kind) u st ∨
    ∃ o v, serviceOid kind = some o ∧ s.setUnit kind u st = (s.put (stateOid kind) u st).setObj o v := by
  unfold State.setUnit
  extract_lets was t now
  split
  · exact .inl rfl
  · next o ho =>
    split
    · exact .inr ⟨o, _, ho, rfl⟩
    · split
      · exact .inr ⟨o, _, ho, rfl⟩
      · exact .inl rfl

include hu

theorem State.setUnit_counted : State.Counted unitObjects s (s.setUnit kind u st) := by
  have hput : State.Counted unitObjects s (s.put (stateOid kind) u st) :=
    (State.Counted.refl s).put (List.mem_append_left _ (stateOid_mem kind)) hu st
  obtain h | ⟨o, v, ho, h⟩ := s.setUnit_cases kind (u := u) st
  · exact h ▸ hput
  · exact h ▸ hput.put (List.mem_append_right _ (serviceOid_mem ho)) (by decide) v

theorem State.setUnit_state : (s.setUnit kind u st).get (stateOid kind) u = st := by
  have hput := State.get_put_same s (stateOid kind) u st (stateOid_ne_bgMaster kind)
  obtain h | ⟨o, v, ho, h⟩ := s.setUnit_cases kind (u := u) st
  · rw [h, hput]
  · rw [h, State.setObj, State.get_put_oid _ (stateOid_ne_serviceOid ho) (stateOid_ne_bgMaster kind) (by decide) hu, hput]

end Unit

end Sys2Proof.Machine
end

section
/-! The in-service test and PORT_CHECK (R318 to R320, R413, R415), and the wrapper instruction registers (R410). -/

namespace Sys2Proof.Machine

/-- An object written leaves the others. -/
theorem State.obj_setObj_other (s : State) {o x : Nat} (v : Nat) (h : x ≠ o) (hb : x ≠ O.bgMaster) : (s.setObj o v).obj x = s.obj x :=
  State.get_put_oid s h hb (by decide) (by decide)

/-- A block stops only where BLOCK_STATE is written. -/
theorem State.SameWork.stopped {os : List Nat} {s t : State} (h : State.SameWork os s t) (ho : O.blockState ∉ os) : t.stopped = s.stopped := by
  rw [State.stopped, State.stopped, h.obj ho (by decide)]

section Starts
variable {s : State} {h : FinfaHead} {o : Obj}

/-- A stopped block takes no write but one of its own few objects (R301, R352). -/
theorem State.takesWrite_runs {v : Nat} (ht : s.takesWrite h o v = true) (ho : o.oid / 256 ≠ 0x8020) : s.stopped = false := by
  cases hs : s.stopped with
  | false => rfl
  | true => simp [State.takesWrite, State.hears, hs, ho] at ht

/-- A TEST_COMMAND that is not refused starts the test that the select objects name (R318). -/
theorem State.serveWrite_startTest {cmd : Nat} (ht : s.takesWrite h o cmd = true) (ho : o.oid = O.testCommand) :
    s.serveWrite h O.testCommand cmd = (s.startTest cmd (s.obj O.testKind) (s.obj O.testUnit) false).okTo s h 2 o 0 :=
  State.serveWrite_does ht ho (by simp [State.doWrite, ho])

/-- The self-test instrument of the IEEE 1687 network starts a test that is not refused, while the network has access (R413). -/
theorem State.netTest_starts {kind u : Nat} (hm : s.testMode = false) (hr : s.inReset = false) (hp : s.phase ≠ 0) (ha : s.obj O.ijtagAccess = 1)
    (hl : s.loaded = true) (hpow : s.obj O.powerState ≠ 3) (ht : s.testRefused 1 kind u = false) : s.netTest kind u = s.startTest 1 kind u true := by
  have hheld : (s.coldHeld || s.warmHeld) = false := hr
  simp [State.netTest, hm, hheld, hp, ha, hl, hpow, ht]

theorem State.netTest_refused {kind u : Nat} (hm : s.testMode = false) (hr : s.inReset = false) (hp : s.phase ≠ 0)
    (hno : s.obj O.ijtagAccess ≠ 1 ∨ s.loaded = false ∨ s.obj O.powerState = 3 ∨ s.testRefused 1 kind u = true) : s.netTest kind u = s.setIjtag 3 := by
  have hheld : (s.coldHeld || s.warmHeld) = false := hr
  have hcan : ¬(s.obj O.ijtagAccess = 1 ∧ s.loaded = true ∧ s.obj O.powerState ≠ 3 ∧ (!s.testRefused 1 kind u) = true) := by
    rintro ⟨ha, hl, hpow, ht⟩
    simp_all
  simp only [State.netTest, hm, hheld]
  rw [if_neg (by decide), if_neg (by simpa using hp), if_neg hcan]

/-- The writes of PORT_CHECK, one for each port in order. -/
theorem State.checkReqs_writes (hs : s.stopped = false) (a : Nat) (ns : List Nat) :
    ∃ l, (ns.foldl (fun s n => s.checkReq a n n true) s).reqs = s.reqs ++ l ∧
      l.map (fun r => (r.port, r.addr, r.wr, r.data)) = ns.map (fun n => (n, a + 128 * n, true, checkBytes n)) := by
  induction ns generalizing s with
  | nil => exact ⟨[], by simp⟩
  | cons n ns ih =>
    have hone : ∃ r : MemReq, (s.checkReq a n n true).reqs = s.reqs ++ [r] ∧ r.port = n ∧ r.addr = a + 128 * n ∧ r.wr = true ∧ r.data = checkBytes n := by
      rw [State.checkReq, State.request_runs hs]
      exact ⟨_, rfl, rfl, rfl, rfl, rfl⟩
    obtain ⟨r, hr, hport, haddr, hwr, hdata⟩ := hone
    have hs' : (s.checkReq a n n true).stopped = false := by
      have hwork : State.SameWork [] s (s.checkReq a n n true) := (State.request_asked s _).sameWork
      exact (hwork.stopped (by decide)).trans hs
    obtain ⟨l, hl, hmap⟩ := ih hs'
    refine ⟨r :: l, ?_, ?_⟩
    · rw [List.foldl_cons, hl, hr, List.append_assoc, List.singleton_append]
    · rw [List.map_cons, List.map_cons, hmap, hport, haddr, hwr, hdata]

/-- PORT_CHECK runs, and what it asks for is each serving port's pattern. -/
theorem State.startCheck_runs (hs : s.stopped = false) :
    s.startCheck.obj O.portCheckState = 1 ∧ s.startCheck.obj O.portCheckFailed = 0 ∧
      s.startCheck.check = some { addr := s.obj O.portCheckAddr, ports := s.ports } ∧
      ∃ l, s.startCheck.reqs = s.reqs ++ l ∧
        l.map (fun r => (r.port, r.addr, r.wr, r.data)) = s.ports.map (fun n => (n, s.obj O.portCheckAddr + 128 * n, true, checkBytes n)) := by
  let c := s.setCheck (some { addr := s.obj O.portCheckAddr, ports := s.ports })
  let t := (c.setObj O.portCheckState 1).setObj O.portCheckFailed 0
  have hasked : t.Asked s.startCheck := State.asked_foldl t s.ports _ (fun u n => State.request_asked u _)
  have hwork : State.SameWork [] t s.startCheck := hasked.sameWork
  have hbegun : State.SameWork [O.portCheckState, O.portCheckFailed] s t :=
    (((State.SameWork.refl s).frame rfl rfl rfl rfl rfl : State.SameWork _ s c).put (by decide) (by decide) 1).put (by decide) (by decide) 0
  have hrun : t.stopped = false := (hbegun.stopped (by decide)).trans hs
  refine ⟨?_, ?_, ?_, State.checkReqs_writes hrun (s.obj O.portCheckAddr) s.ports⟩
  · rw [hwork.obj (by decide) (by decide), State.obj_setObj_other _ _ (by decide) (by decide), State.obj_put_same _ _ _ (by decide)]
  · rw [hwork.obj (by decide) (by decide), State.obj_put_same _ _ _ (by decide)]
  · rw [hasked]
    rfl

end Starts

section Drains
variable {s : State} {t : TestRt}

/-- An array, a Dome bank or a Lantern that goes offline changes unit objects alone. -/
theorem State.goOffline_counted (s : State) {kind u : Nat} (hk : kind = 2 ∨ kind = 4 ∨ kind = 5) (hu : u < 262144) :
    State.Counted unitObjects s (s.goOffline kind u) := by
  obtain rfl | rfl | rfl := hk
  · exact s.setUnit_counted 2 hu 2
  · have hdome : State.Counted unitObjects s (s.put O.domeState u 2) := (State.Counted.refl s).put (by decide) hu 2
    exact .ite (hdome.put (by decide) hu 3) hdome
  · exact s.setUnit_counted 5 hu 2

/-- The self-test starts once the unit is idle: the test runs, and counts. -/
theorem State.drainTest_runs (ht : s.test = some t) (hu : t.unit < 262144) (hstate : s.obj O.testState = 1) (hd : s.testDrained t = true) :
    s.drainTest.obj O.testState = 2 ∧ s.drainTest.obj O.testRuns = (s.obj O.testRuns + 1) % 2 ^ 32 ∧ s.drainTest.test = s.test := by
  let u := if t.cmd ≠ 3 ∧ (t.kind = 2 ∨ t.kind = 4 ∨ t.kind = 5) then s.goOffline t.kind t.unit else s
  have hout : s.drainTest = (u.setObj O.testState 2).bump O.testRuns 0 32 1 := by
    simp [State.drainTest, ht, hstate, hd, u]
  have hcounted : State.Counted unitObjects s u := by
    unfold u
    split
    · next h => exact s.goOffline_counted h.2 hu
    · exact .refl s
  clear_value u
  rw [hout]
  refine ⟨?_, ?_, (congrArg State.test hcounted.frame).trans rfl⟩
  · exact (State.obj_setObj_other _ _ (by decide) (by decide)).trans (State.obj_put_same _ _ _ (by decide))
  · have hruns : (u.setObj O.testState 2).obj O.testRuns = s.obj O.testRuns :=
      (State.obj_setObj_other u 2 (by decide) (by decide)).trans (hcounted.get (by decide) (by decide) (by decide))
    rw [← hruns]
    exact State.get_bump_same _ _ _ _ _ (by decide)

end Drains

section Ends
variable {s : State} {t : TestRt}

/-- The test leaves the state as its verdict finds it: no test, and what the IEEE 1687 network reads of its own. -/
def State.testOver (s : State) (t : TestRt) (code : Nat) : State := (s.setTest none).setIjtag (if t.net then code else s.ijtag)

/-- TEST_STATE and TEST_RESULT as a verdict leaves them. -/
def State.withVerdict (s : State) (state result : Nat) : State := (s.setObj O.testState state).setObj O.testResult result

theorem State.withVerdict_state (s : State) (a b : Nat) : (s.withVerdict a b).obj O.testState = a :=
  (State.obj_setObj_other _ _ (by decide) (by decide)).trans (State.obj_put_same s _ _ (by decide))

theorem State.withVerdict_result (s : State) (a b : Nat) : (s.withVerdict a b).obj O.testResult = b := State.obj_put_same _ _ _ (by decide)

theorem State.withVerdict_unit (s : State) (a b kind : Nat) {u : Nat} (hu : u < 262144) :
    (s.withVerdict a b).get (stateOid kind) u = s.get (stateOid kind) u := by
  have hdisjoint : ∀ x ∈ unitStateObjects, x ∉ [O.testState, O.testResult] := by decide
  have hne : ∀ o ∈ [O.testState, O.testResult], stateOid kind ≠ o := fun o ho he => hdisjoint _ (stateOid_mem kind) (he ▸ ho)
  unfold State.withVerdict State.setObj
  rw [State.get_put_oid _ (hne _ (by decide)) (stateOid_ne_bgMaster kind) (by decide) hu,
    State.get_put_oid _ (hne _ (by decide)) (stateOid_ne_bgMaster kind) (by decide) hu]

theorem State.selfTestDone_ends (ht : s.test = some t) (hm : s.testMode = false) (hstate : s.obj O.testState = 2) (failed : List Nat) (whole : Bool) :
    s.selfTestDone t.kind t.unit failed whole = s.endTest t failed whole := by
  simp [State.selfTestDone, ht, hm, hstate]

/-- The unit of a test that it passed is back in service, with an event where the test was a RETURN. -/
def State.returned (s : State) (t : TestRt) : State :=
  if t.cmd = 3 then (s.goOnline t.kind t.unit).report { code := 0x0903, unitKind := t.kind, unit := t.unit, payload := genPay 0 8 0 }
  else s.goOnline t.kind t.unit

/-- A test in which nothing failed passes: its unit returns, but for HOLD. -/
theorem State.endTest_passed (s : State) (t : TestRt) :
    s.endTest t [] false = (if t.cmd = 2 then s.testOver t 2 else (s.testOver t 2).returned t).withVerdict 3 0xFFFF := by
  simp [State.endTest, State.testPasses, testElement, State.testOver, State.returned, State.withVerdict]

/-- A test of a unit without columns fails with any element that failed: its unit is fenced. -/
theorem State.endTest_failed (s : State) {t : TestRt} (hk : t.kind ≠ 2) (e : Nat) :
    s.endTest t [e] false = ((s.testOver t 4).bistFail t.kind t.unit).withVerdict 4 (2 ^ 24 + testElement t.kind [e] false) := by
  simp [State.endTest, State.testPasses, State.testOver, State.withVerdict, hk]

/-- A unit that failed its self-test reads FENCED. -/
theorem State.bistFail_fences (s : State) {kind u : Nat} (hk : kind = 1 ∨ kind = 5 ∨ kind = 6) (hu : u < 262144) :
    (s.bistFail kind u).get (stateOid kind) u = 1 := by
  have hout : stateOid kind ∉ portFenceObjects := by obtain rfl | rfl | rfl := hk <;> decide
  have hwork : State.SameWork portFenceObjects (s.setUnit kind u 1) (s.bistFail kind u) := by
    let v := ((s.setUnit kind u 1).report { code := 0x0904, unitKind := kind, unit := u, payload := genPay 0 8 0 }).found kind u
    have hv : State.SameWork portFenceObjects (s.setUnit kind u 1) v :=
      (State.report_sameWork (by decide) _ (show 0x0904 < 262144 by decide)).trans (State.found_sameWork ..)
    have hend : s.bistFail kind u = if kind = 6 ∧ v.ports.isEmpty then v.stop 0x090A 6 8 else v := by
      obtain rfl | rfl | rfl := hk <;> rfl
    rw [hend]
    exact .ite (hv.trans (v.stop_sameWork (by decide) ..)) hv
  rw [hwork.get hout (stateOid_ne_bgMaster kind) hu, s.setUnit_state kind hu]

/-- A Lantern or a memory port that returns serves, and no test is left. -/
theorem State.returned_serves (s : State) {t : TestRt} (hk : t.kind = 5 ∨ t.kind = 6) (hu : t.unit < 262144) :
    (s.returned t).get (stateOid t.kind) t.unit = 0 ∧ (s.returned t).test = s.test := by
  have hback : (s.goOnline t.kind t.unit).get (stateOid t.kind) t.unit = 0 ∧ (s.goOnline t.kind t.unit).test = s.test := by
    have hstate := s.setUnit_state t.kind hu 0
    have htest : (s.setUnit t.kind t.unit 0).test = s.test := (congrArg State.test (s.setUnit_counted t.kind hu 0).frame).trans rfl
    obtain h | h := hk <;> rw [h] at hstate htest ⊢ <;> exact ⟨hstate, htest⟩
  have hout : stateOid t.kind ∉ eventObjects := by obtain h | h := hk <;> rw [h] <;> decide
  unfold State.returned
  split
  · have hcounted := (s.goOnline t.kind t.unit).report_counted
      (e := { code := 0x0903, unitKind := t.kind, unit := t.unit, payload := genPay 0 8 0 }) (show 0x0903 < 262144 by decide)
    exact ⟨(hcounted.get hout (stateOid_ne_bgMaster _) hu).trans hback.1, ((congrArg State.test hcounted.frame).trans rfl).trans hback.2⟩
  · exact hback

end Ends

/-- Where `q` finds no element that `p` names, before or after its change, `mapIf` leaves what is found by `q`. -/
theorem find?_mapIf_other {α : Type} {p q : α → Bool} {f : α → α} (hp : ∀ x, p x = true → q x = false ∧ q (f x) = false) (l : List α) :
    (mapIf p f l).find? q = l.find? q := by
  induction l with
  | nil => rfl
  | cons x l ih =>
    have hcons : mapIf p f (x :: l) = (if p x then f x else x) :: mapIf p f l := rfl
    cases hx : p x with
    | true => simp [hcons, hx, hp x hx, ih]
    | false => simp [hcons, hx, List.find?_cons, ih]

section Wrappers
variable (s : State) (m : Macro) (code : Nat)

theorem State.wir_wirUpdate_same : (s.wirUpdate m code).wir m = code % 16 := by
  unfold State.wirUpdate
  split
  · next h =>
    obtain ⟨x, hx⟩ : ∃ x, s.wirs.find? (fun e => e.1 == m) = some x := Option.isSome_iff_exists.mp (by simpa using h)
    simp [State.wir, find?_mapIf, hx]
  · next h =>
    have hnone : s.wirs.find? (fun e => e.1 == m) = none := List.find?_eq_none.mpr (fun x hx hxm => h (List.any_eq_true.mpr ⟨x, hx, hxm⟩))
    simp [State.wir, hnone]

theorem State.wir_wirUpdate_other {n : Macro} (h : n ≠ m) : (s.wirUpdate m code).wir n = s.wir n := by
  unfold State.wirUpdate
  split
  · have hother : ∀ x : Macro × Nat, (x.1 == m) = true → (x.1 == n) = false := fun x hx => by simpa [eq_of_beq hx] using h.symm
    have hfind := find?_mapIf_other (q := fun e => e.1 == n) (f := fun e => (e.1, code % 16)) (fun x hx => ⟨hother x hx, hother x hx⟩) s.wirs
    rw [State.wir, State.setWirs_wirs, hfind, State.wir]
  · simp [State.wir, List.find?_append, h.symm]

end Wrappers

/-- Settles O27: the starts by the branch of `State.doWrite` or of the network that acts, the ends by the verdict, each register by its name. -/
theorem testsStartAndEnd : Obligations.TestsStartAndEnd := by
  refine ⟨fun s h o => ?_, fun s => ⟨fun t ht hu hstate hd => ?_, fun t ht hm hstate => ⟨?_, fun hk hu hcmd => ?_, fun hk hu hcmd => ?_, fun hk hu e => ?_⟩,
    fun m code hm => ?_⟩⟩
  · intro begins
    refine ⟨fun ho => ?_, fun kind u hm hr hp => ⟨fun ha hl hpow ht => ?_, fun hno => ?_⟩, fun ht ho => ?_⟩
    · simp only [List.forall_mem_cons, List.not_mem_nil, false_implies, implies_true, and_true]
      refine ⟨fun ht => ?_, fun ht => ?_, fun ht => ?_⟩
      · exact congrArg _ (State.serveWrite_startTest ht ho)
      · exact congrArg _ (State.serveWrite_startTest ht ho)
      · exact congrArg _ (State.serveWrite_startTest ht ho)
    · exact congrArg _ (State.netTest_starts hm hr hp ha hl hpow ht)
    · exact congrArg _ (State.netTest_refused hm hr hp hno)
    · have hs : s.stopped = false := State.takesWrite_runs ht (by rw [ho]; decide)
      exact ⟨s.startCheck, congrArg _ (State.serveWrite_does ht ho (by simp [State.doWrite, ho])), State.startCheck_runs hs⟩
  · exact ⟨s.drainTest, rfl, State.drainTest_runs ht hu hstate hd⟩
  · refine ⟨s.endTest t [] false, congrArg _ (State.selfTestDone_ends ht hm hstate ..), ?_⟩
    rw [State.endTest_passed]
    exact ⟨State.withVerdict_state .., State.withVerdict_result ..⟩
  · refine ⟨s.endTest t [] false, congrArg _ (State.selfTestDone_ends ht hm hstate ..), ?_⟩
    obtain ⟨hserves, htest⟩ := (s.testOver t 2).returned_serves (by simpa using hk) hu
    rw [State.endTest_passed, if_neg hcmd]
    exact ⟨(State.withVerdict_unit _ _ _ _ hu).trans hserves, htest⟩
  · intro u v
    refine ⟨State.setUnit_state _ 1 hu 0, ?_⟩
    have hend := State.selfTestDone_ends ht hm hstate [] false
    rw [State.endTest_passed, if_neg hcmd, hk] at hend
    refine (congrArg Host.Outcome.next hend).trans ?_
    unfold State.returned
    rw [hk]
    rfl
  · have hk' : t.kind = 1 ∨ t.kind = 5 ∨ t.kind = 6 := by simpa using hk
    refine ⟨s.endTest t [e] false, congrArg _ (State.selfTestDone_ends ht hm hstate ..), ?_⟩
    rw [State.endTest_failed s (by omega)]
    refine ⟨State.withVerdict_state .., (State.withVerdict_result ..).trans ?_,
      (State.withVerdict_unit _ _ _ _ hu).trans (State.bistFail_fences _ hk' hu)⟩
    obtain h | h | h := hk' <;> simp [testElement, h]
  · exact ⟨s.wirUpdate m code, if_pos hm, rfl, s.wir_wirUpdate_same m code, fun n hn => s.wir_wirUpdate_other m code hn⟩

end Sys2Proof.Machine
end

section
/-! Binding objects and the epoch stage (R340). -/

namespace Sys2Proof.Machine

section Binding
variable {s : State} {h : FinfaHead} {o : Obj}

/-- A write of an object that starts nothing sets its value, at once or in the stage. -/
theorem State.doWrite_servePut (ho : o.oid ∉ actingObjects) (role sel v : Nat) : s.doWrite o role sel v = s.servePut o sel (storedValue o.oid v) := by
  simp only [actingObjects, List.mem_cons, List.not_mem_nil, or_false, not_or] at ho
  simp [State.doWrite, ho]

/-- Without a stage, a binding object takes its value with what its own rule adds. -/
theorem State.servePut_acts (hs : s.stage = none) (sel v : Nat) : s.servePut o sel v = s.bindPut o.oid sel v := by
  rw [State.servePut, hs]

/-- With a stage, the write of a binding object is one more of the stage. -/
theorem State.servePut_staged {g : Stage} (hs : s.stage = some g) (hb : o.bind = true) (sel v : Nat) :
    s.servePut o sel v = (s.setStage (some { g with writes := g.writes ++ [(o.oid, sel, v)] })).setObj O.epochStaged (g.writes.length + 1) := by
  simp [State.servePut, hs, hb]

/-- An accepted write of a binding object (R340): at once without a stage, and as the stage's last write with one. -/
theorem State.serveWrite_binding {v oid : Nat} (ht : s.takesWrite h o v = true) (hb : o.bind = true) (ho : o.oid = oid) (hout : oid ∉ actingObjects)
    (hv : storedValue oid v = v) {t : State} (hact : s.bindPut oid (s.selFor o h 2) v = t) :
    (s.stage = none → (.next (s.serveWrite h oid v) : Host.Outcome State Fault Refusal) = .next (t.okTo s h 2 o 0)) ∧
    (∀ g, s.stage = some g → (.next (s.serveWrite h oid v) : Host.Outcome State Fault Refusal) = .next
      (((s.setStage (some { g with writes := g.writes ++ [(o.oid, s.selFor o h 2, v)] })).setObj O.epochStaged (g.writes.length + 1)).okTo s h 2 o 0)) := by
  subst ho
  have hw := State.doWrite_servePut (s := s) hout h.role (s.selFor o h 2) v
  rw [hv] at hw
  refine ⟨fun hs => ?_, fun g hs => ?_⟩
  · exact congrArg _ (State.serveWrite_does ht rfl (hw.trans ((State.servePut_acts hs ..).trans hact)))
  · exact congrArg _ (State.serveWrite_does ht rfl (hw.trans (State.servePut_staged hs hb ..)))

end Binding

/-- The objects of the device windows start nothing. -/
theorem devwin_not_acting {oid : Nat} (h : oid / 256 = 0x6410 ∨ oid / 256 = 0x6411) : oid ∉ actingObjects := by
  have hacting : ∀ x ∈ actingObjects, ¬(x / 256 = 0x6410 ∨ x / 256 = 0x6411) := by decide
  exact fun hm => hacting oid hm h

/-- An object of a device window stores what is written, for none of them is a number that may be −0. -/
theorem storedValue_devwin {oid : Nat} (h : oid / 256 = 0x6410 ∨ oid / 256 = 0x6411) (v : Nat) : storedValue oid v = v := by
  have hne : ¬(oid = O.chDecay ∨ oid = O.solvePivotMin) := by
    rintro (rfl | rfl) <;> exact absurd h (by decide)
  simp [storedValue, hne]

/-- A device window that changes drops every cached translation, and keeps what walks under way find from the cache (R279, R282). -/
theorem State.bindPut_devwin (s : State) {oid : Nat} (h : oid / 256 = 0x6410 ∨ oid / 256 = 0x6411) (n v : Nat) :
    s.bindPut oid n v = ((s.put oid n v).staleWalks (fun _ => true)).setTwigs [] := by
  have hne : oid ≠ O.histOwner := by
    rintro rfl
    exact absurd h (by decide)
  rw [State.bindPut, if_neg hne, if_pos h]

/-- Settles O16: each row is a binding object that starts nothing, with what `State.bindPut` adds for it. -/
theorem bindingWritesActOrStage : Obligations.BindingWritesActOrStage := by
  intro s h o v n ht hb hn p hp ho
  subst hn
  simp only [List.mem_append, List.mem_cons, List.mem_map, List.mem_range, List.not_mem_nil, or_false] at hp
  obtain ((rfl | rfl) | ⟨k, hk, rfl⟩) | ⟨k, hk, rfl⟩ := hp
  · exact State.serveWrite_binding (oid := O.histOwner) ht hb ho (by decide) (by simp [storedValue]) rfl
  · exact State.serveWrite_binding (oid := O.nanTrapMode) ht hb ho (by decide) (by simp [storedValue]) rfl
  · have hidx : O.devwinBase k / 256 = 0x6410 ∨ O.devwinBase k / 256 = 0x6411 := .inl (by simp only [O.devwinBase]; omega)
    exact State.serveWrite_binding ht hb ho (devwin_not_acting hidx) (storedValue_devwin hidx v) (s.bindPut_devwin hidx ..)
  · have hidx : O.devwinSize k / 256 = 0x6410 ∨ O.devwinSize k / 256 = 0x6411 := .inr (by simp only [O.devwinSize]; omega)
    exact State.serveWrite_binding ht hb ho (devwin_not_acting hidx) (storedValue_devwin hidx v) (s.bindPut_devwin hidx ..)

section Epoch
variable {s : State} {h : FinfaHead} {o : Obj} {v : Nat}

theorem State.takesWrite_notRefused (ht : s.takesWrite h o v = true) : s.writeRefused o (s.selFor o h 2) v = false := by
  simp only [State.takesWrite, Bool.and_eq_true, Bool.not_eq_true'] at ht
  exact ht.2

/-- EPOCH_CONTROL moves the stage (R340). -/
theorem State.serveWrite_epochControl (ht : s.takesWrite h o v = true) (ho : o.oid = O.epochControl) :
    s.serveWrite h O.epochControl v = (s.epochCtl v).okTo s h 2 o 0 :=
  State.serveWrite_does ht ho (by simp [State.doWrite, ho])

/-- The stage opens only where none exists. -/
theorem State.epochOpen_unstaged (ht : s.takesWrite h o 1 = true) (ho : o.oid = O.epochControl) : s.stage = none := by
  have hr := State.takesWrite_notRefused ht
  cases hs : s.stage with
  | none => rfl
  | some g => simp [State.writeRefused, ho, hs] at hr

/-- Only an open stage that is not yet armed is armed, for a bell that it can still reach and an epoch beyond the current one. -/
theorem State.epochArm_staged (ht : s.takesWrite h o 2 = true) (ho : o.oid = O.epochControl) :
    ∃ g, s.stage = some g ∧ g.armed = none ∧ s.bellNo + 2 ≤ s.obj O.epochBell ∧ s.obj O.epochCurrent < s.obj O.epochNext := by
  have hr := State.takesWrite_notRefused ht
  cases hs : s.stage with
  | none => simp [State.writeRefused, ho, hs] at hr
  | some g =>
    simp [State.writeRefused, ho, hs] at hr
    obtain ⟨-, ⟨harmed, hbell⟩, hnext⟩ := hr
    exact ⟨g, rfl, by simpa using harmed, hbell, hnext⟩

end Epoch

/-- Settles O18: the values of EPOCH_CONTROL by the branches of `State.epochCtl`, and what holds of the stage by the refusals of R340. -/
theorem epochControlMovesTheStage : Obligations.EpochControlMovesTheStage := by
  intro s h o ho
  refine ⟨fun ht => ⟨?_, State.epochOpen_unstaged ht ho⟩, fun ht => ?_, fun ht => ?_⟩
  · exact congrArg _ (State.serveWrite_epochControl ht ho)
  · obtain ⟨g, hs, harmed, hbell, hnext⟩ := State.epochArm_staged ht ho
    have hctl := State.serveWrite_epochControl ht ho
    rw [State.epochCtl, if_neg (by decide), if_pos rfl, hs] at hctl
    exact ⟨g, hs, harmed, hbell, hnext, congrArg _ hctl⟩
  · exact congrArg _ (State.serveWrite_epochControl ht ho)

end Sys2Proof.Machine
end

section
/-! What sending frames leaves of the state: it puts frames out, and no port changes its lock or its training (R328 to R330, R342). -/

namespace Sys2Proof

/-- Port state `b` has the lock and the training of `a`. -/
structure BPort.SameLink (a b : BPort) : Prop where
  lock : b.lock = a.lock
  trained : b.trained = a.trained
  lostLock : b.lostLock = a.lostLock

theorem BPort.SameLink.refl (a : BPort) : a.SameLink a := ⟨rfl, rfl, rfl⟩

theorem BPort.SameLink.trans {a b c : BPort} (h : a.SameLink b) (k : b.SameLink c) : a.SameLink c :=
  ⟨k.lock.trans h.lock, k.trained.trans h.trained, k.lostLock.trans h.lostLock⟩

end Sys2Proof

namespace Sys2Proof.Machine

theorem State.bport_updBport_same (s : State) (p : Nat) (f : BPort → BPort) : (s.updBport p f).bport p = f (s.bport p) := SMap.look_put_same ..

theorem State.bport_updBport_other (s : State) {p r : Nat} (f : BPort → BPort) (h : r ≠ p) : (s.updBport p f).bport r = s.bport r :=
  SMap.look_put_other _ h ..

/-- `t` is `s` but for what the ports of the Belfry send and keep. -/
structure State.Sends (s t : State) : Prop where
  frame : t = (s.setBports t.bports).setBtx t.btx
  link : ∀ p, (s.bport p).SameLink (t.bport p)

section Sends
variable {s t u : State}

theorem State.Sends.refl (s : State) : s.Sends s := ⟨rfl, fun _ => .refl _⟩

theorem State.Sends.trans (h : s.Sends t) (k : t.Sends u) : s.Sends u := by
  refine ⟨?_, fun p => (h.link p).trans (k.link p)⟩
  have hu := k.frame
  rw [h.frame] at hu
  exact hu

theorem State.Sends.ite {c : Prop} [Decidable c] (h : s.Sends t) (k : s.Sends u) : s.Sends (if c then t else u) := by
  split
  · exact h
  · exact k

theorem State.Sends.updBport (h : s.Sends t) {p : Nat} {f : BPort → BPort} (hf : ∀ b : BPort, b.SameLink (f b)) : s.Sends (t.updBport p f) := by
  refine h.trans ⟨rfl, fun r => ?_⟩
  by_cases hr : r = p
  · rw [hr, State.bport_updBport_same]
    exact hf _
  · rw [State.bport_updBport_other _ _ hr]
    exact .refl _

theorem State.Sends.setBtx (h : s.Sends t) (x : List (Nat × Frame)) : s.Sends (t.setBtx x) := h.trans ⟨rfl, fun _ => .refl _⟩

theorem State.Sends.foldl {α : Type} (h : s.Sends t) (l : List α) {f : State → α → State} (hf : ∀ (u : State) a, u.Sends (f u a)) : s.Sends (l.foldl f t) :=
  List.foldlRecOn l f (motive := s.Sends) h (fun _ hu a _ => hu.trans (hf _ a))

theorem State.Sends.get (h : s.Sends t) (o n : Nat) : t.get o n = s.get o n := by
  rw [h.frame]
  rfl

theorem State.Sends.group (h : s.Sends t) : t.group = s.group := (congrArg State.group h.frame).trans rfl
theorem State.Sends.base (h : s.Sends t) : t.base = s.base := (congrArg State.base h.frame).trans rfl

end Sends

section Sending
variable (s : State) (p : Nat) (f : Frame)

theorem State.emit_sends : s.Sends (s.emit p f) := ((State.Sends.refl s).updBport (by intro b; exact ⟨rfl, rfl, rfl⟩)).setBtx _

theorem State.sendOn_sends : s.Sends (s.sendOn p f) := .ite (s.emit_sends p f) ((State.Sends.refl s).updBport (by intro b; exact ⟨rfl, rfl, rfl⟩))

theorem State.sendTo_sends : s.Sends (s.sendTo f) := by
  unfold State.sendTo
  split
  · exact s.sendOn_sends _ f
  · exact .refl s

theorem State.calibrate_sends : s.Sends (s.calibrate p) := ((State.Sends.refl s).updBport (by intro b; exact ⟨rfl, rfl, rfl⟩)).trans (State.sendOn_sends ..)

theorem State.reroute_sends : s.Sends (s.reroute p) :=
  ((State.Sends.refl s).updBport (by intro b; exact ⟨rfl, rfl, rfl⟩)).foldl _ (fun u f => u.sendTo_sends f)

/-- What keeps the time parent adds at most a calibration to the operation. -/
theorem State.keepParent_sends (g : State → State) : (g s).Sends (s.keepParent g) := by
  unfold State.keepParent
  dsimp only
  split
  · exact .ite (.refl _) (State.calibrate_sends ..)
  · exact .refl _

theorem State.flushPort_sends (n : Nat) : s.Sends (s.flushPort p n) := by
  induction n generalizing s with
  | zero => exact .refl s
  | succ n ih =>
    unfold State.flushPort
    dsimp only
    split
    · exact .refl s
    · next g _ =>
      have hemit : s.Sends ((s.updBport p (fun b => { b with waiting := b.waiting.erase g })).emit p g) :=
        ((State.Sends.refl s).updBport (by intro b; exact ⟨rfl, rfl, rfl⟩)).trans (State.emit_sends ..)
      exact .ite (hemit.trans (ih _)) (.refl s)

end Sending

/-- A Belfry port that is fenced reads FENCED, whatever the fence sends (R297, R342). -/
theorem State.fence_link_fenced (s : State) {p : Nat} (hp : p < 262144) (cause item : Nat) (c : Ctx) :
    (s.fence 7 p cause item c).get O.bportState p = 1 := by
  unfold State.fence
  extract_lets users s1 s2 s3 s4 s5
  have h2 : s2.get O.bportState p = 1 := by
    have hunit : (s1.setUnit 7 p 1).get O.bportState p = 1 := s1.setUnit_state 7 hp 1
    have hsends := ((s1.setUnit 7 p 1).reroute_sends p).trans (s1.keepParent_sends (fun s => (s.setUnit 7 p 1).reroute p))
    exact (hsends.get ..).trans hunit
  clear_value s2
  have h4 : State.SameWork portFenceObjects s2 s4 := (State.logFence_sameWork ..).trans (State.found_sameWork ..)
  clear_value s4
  have h5 : s5.get O.bportState p = s4.get O.bportState p := by
    unfold s5
    split
    · split
      · exact (State.get_put_oid _ (by decide) (by decide) (by decide) hp).trans (State.get_put_oid _ (by decide) (by decide) (by decide) hp)
      · rfl
    · rfl
  exact h5.trans ((h4.get (by decide) (by decide) hp).trans h2)

end Sys2Proof.Machine
end

section
/-! Frames that a port takes (R327 to R330), and the events of links (R328, R330, R403). -/

namespace Sys2Proof

/-- An acknowledgement of `x` covers it and the frames before it. -/
theorem ackSplit_at {ack : Nat} {x : SentFrame} {done left : List SentFrame} (hx : x.lseq = ack) (hdone : ∀ y ∈ done, y.lseq ≠ ack) :
    ackSplit ack (done ++ x :: left) = (done ++ [x], left) := by
  have hany : (done ++ x :: left).any (fun y => y.lseq == ack) = true := List.any_eq_true.mpr ⟨x, by simp, by simpa using hx⟩
  have hbefore : (done ++ x :: left).takeWhile (fun y => y.lseq != ack) = done := by
    rw [List.takeWhile_append_of_pos (by simpa using hdone)]
    simp [hx]
  rw [ackSplit, if_pos hany, hbefore]
  simp [List.take_append, List.drop_append]

end Sys2Proof

namespace Sys2Proof.Machine

/-- The Belfry takes frames while the block lives. -/
@[simp] theorem State.belfryOn_eq_live (s : State) : s.belfryOn = s.live := rfl

section Taking
variable {s : State} {p : Nat} {f : Frame}

/-- A frame taken in order acts, or is reported as illegal; what it acknowledges comes first. -/
theorem State.rxFrame_taken (h : Taken s p f) :
    s.rxFrame p f = if f.illegal then (s.linkTake p f).linkEvent 7 p ((s.linkTake p f).peerOf p) else ((s.linkTake p f).onFrame p f).redSpace := by
  obtain ⟨-, hlive, hlock, ⟨hfenced, hoffline⟩, horder⟩ := h
  have hheard : ¬(!s.belfryOn || !(s.bport p).lock || s.get O.bportState p = 1 || s.get O.bportState p = 2) = true := by
    simp [hlive, hlock, hfenced, hoffline]
  have hnext : ¬(f.ftype != 1 && (!(s.bport p).trained || f.lseq != ((s.bport p).lastRx + 1) % 2 ^ 24)) = true := by
    obtain htrain | ⟨htrained, hseq⟩ := horder
    · simp [htrain]
    · simp [htrained, hseq]
  unfold State.rxFrame
  dsimp only
  rw [if_neg hheard, if_neg hnext]

/-- A legal frame taken in order does what its type says, and frees what it frees. -/
theorem onBport_rxFrame (h : Taken s p f) (hl : f.illegal = false) {t : State} (ht : (s.linkTake p f).onFrame p f = t) :
    onBport p (s.rxFrame p f) = .next t.redSpace := by
  rw [State.rxFrame_taken h, hl, ht]
  exact onUnit_present h.port

/-- A frame that acknowledges the last of the frames `done` and `x`, which went out once each, leaves the others, where none waits to go. -/
theorem State.linkTake_acknowledges {x : SentFrame} {done left : List SentFrame} (hsent : (s.bport p).unacked = done ++ x :: left) (hx : x.lseq = f.ack)
    (honce : x.again = false) (hdone : ∀ y ∈ done, y.lseq ≠ f.ack ∧ y.again = false) (hidle : (s.bport p).waiting = []) :
    s.linkTake p f = s.updBport p (fun b => { b with lastRx := f.lseq, unacked := left, credit := f.credit - left.length }) := by
  have hagain : (done ++ [x]).filter (·.again) = [] := by
    simpa [honce] using fun y hy => (hdone y hy).2
  unfold State.linkTake
  dsimp only
  rw [hsent, ackSplit_at hx (fun y hy => (hdone y hy).1), hidle]
  dsimp only
  rw [hagain]
  rfl

end Taking

section Acts
variable (s : State) (p : Nat) {f : Frame}

theorem State.onFrame_train (h : f.ftype = 1) : s.onFrame p f = s.onTrain p f := by simp [State.onFrame, h]

theorem State.onFrame_calReq (h : f.ftype = 2) : s.onFrame p f = s.onCalReq p f := by simp [State.onFrame, h]

theorem State.onFrame_calRsp (h : f.ftype = 3) : s.onFrame p f = s.onCalRsp p f := by simp [State.onFrame, h]

theorem State.onFrame_alive (h : f.ftype = 9) (hd : f.dst = s.group.self) : s.onFrame p f = s := by simp [State.onFrame, h, hd]

/-- A routed frame that is not for this block goes on (R329). -/
theorem State.onFrame_forward (h : 4 ≤ f.ftype) (hd : f.dst ≠ s.group.self) : s.onFrame p f = s.forward f := by
  unfold State.onFrame
  split
  case h_4 => exact if_pos hd
  all_goals omega

theorem State.forward_on {r : Nat} (hh : f.hops < 15) (hr : s.route f.dst = some r) : s.forward f = s.sendOn r { f with hops := f.hops + 1 } := by
  rw [State.forward, if_neg (by omega), hr]

theorem State.forward_lost (h : f.hops = 15 ∨ s.route f.dst = none) : s.forward f = s.linkEvent 6 0xFF f.dst := by
  unfold State.forward
  split
  · rfl
  · next hh => rw [h.resolve_left hh]

end Acts

/-! TRAIN (R327), and locks that fall (R403). -/

theorem State.Counted.bport {os : List Nat} {s t : State} (h : State.Counted os s t) (p : Nat) : t.bport p = s.bport p :=
  (congrArg (fun u : State => u.bport p) h.frame).trans rfl

/-- Port `p` in state `a` changes to state `b`; in another it keeps its state. -/
def State.movePortState (s : State) (p a b : Nat) : State := if s.get O.bportState p = a then s.setUnit 7 p b else s

section Moves
variable (s : State) {p : Nat} (hp : p < 262144) (a b : Nat)

include hp

theorem State.movePortState_counted : State.Counted unitObjects s (s.movePortState p a b) := .ite (s.setUnit_counted 7 hp b) (.refl s)

theorem State.movePortState_state (h : s.get O.bportState p = a) : (s.movePortState p a b).get O.bportState p = b := by
  rw [State.movePortState, if_pos h]
  exact s.setUnit_state 7 hp b

end Moves

/-- The state in which a port that took TRAIN begins its calibration. -/
def State.trained (s : State) (p : Nat) (f : Frame) : State :=
  let t := (s.updBport p (fun b => { b with trained := true, lostLock := false })).put O.bportPeer p (f.src * 65536 + f.arg0 % 64)
  let t := t.keepParent (fun s => s.movePortState p 3 0)
  t.flushPort p (t.bport p).waiting.length

section Train
variable (s : State) {p : Nat} (hp : p < 262144) (f : Frame)

theorem State.onTrain_eq : s.onTrain p f = ((s.trained p f).calibrate p).formArrive := rfl

include hp

/-- The port of a TRAIN is trained, knows its peer, and serves if it was down (R327). -/
theorem State.trained_serves : ((s.trained p f).bport p).trained = true ∧ ((s.trained p f).bport p).lostLock = false ∧
    (s.trained p f).get O.bportPeer p = f.src * 65536 + f.arg0 % 64 ∧
    (s.get O.bportState p = 3 → (s.trained p f).get O.bportState p = 0) ∧ (s.trained p f).base = s.base := by
  unfold State.trained
  extract_lets t v
  have hmoved := t.movePortState_counted hp 3 0
  have hsends : (t.movePortState p 3 0).Sends (v.flushPort p (v.bport p).waiting.length) := (State.keepParent_sends ..).trans (State.flushPort_sends ..)
  have hport : t.bport p = { s.bport p with trained := true, lostLock := false } := (State.setObjs_bport ..).trans (State.bport_updBport_same ..)
  have hlink := hsends.link p
  rw [hmoved.bport, hport] at hlink
  refine ⟨hlink.trained, hlink.lostLock, ?_, fun hdown => ?_, ?_⟩
  · rw [hsends.get, hmoved.get (by decide) (by decide) hp]
    exact State.get_put_same _ _ _ _ (by decide)
  · rw [hsends.get]
    exact t.movePortState_state hp 3 0 ((State.get_put_oid _ (by decide) (by decide) hp hp).trans hdown)
  · rw [hsends.base, hmoved.base]
    exact (State.put_base ..).trans (State.updBport_base ..)

end Train

/-- A port that loses its lock is down until it has trained again (R403). -/
theorem State.lockFell_down {s : State} {p : Nat} (hp : p < 262144) (hlock : (s.bport p).lock = true) :
    (s.lockFell p).base = s.base ∧ ((s.lockFell p).bport p).lock = false ∧ ((s.lockFell p).bport p).trained = false ∧
      ((s.bport p).trained = true → ((s.lockFell p).bport p).lostLock = true) ∧ (s.get O.bportState p = 0 → (s.lockFell p).get O.bportState p = 3) := by
  let t := s.updBport p (fun b => { b with lock := false, trained := false, calT1 := none, lostLock := b.lostLock || b.trained })
  have hmoved := t.movePortState_counted hp 0 3
  have hsends : (t.movePortState p 0 3).Sends (s.lockFell p) := by
    unfold State.lockFell
    dsimp only
    rw [if_neg (by simp [hlock])]
    exact State.keepParent_sends ..
  have hport : t.bport p = { s.bport p with lock := false, trained := false, calT1 := none, lostLock := (s.bport p).lostLock || (s.bport p).trained } :=
    State.bport_updBport_same ..
  have hlink := hsends.link p
  rw [hmoved.bport, hport] at hlink
  refine ⟨?_, hlink.lock, hlink.trained, fun htrained => ?_, fun hserves => ?_⟩
  · rw [hsends.base, hmoved.base]
    exact State.updBport_base ..
  · simpa [htrained] using hlink.lostLock
  · rw [hsends.get]
    exact t.movePortState_state hp 0 3 hserves

/-! CAL_RSP (R330). -/

/-- The difference of two stamps of 64 bits, as a signed number. -/
def stampDiff (a b : Nat) : Int := sext 64 (a + 2 ^ 64 - b)

/-- The offset that a CAL_RSP gives, without the correction of BPORT_ASYM. -/
def State.calOffset (s : State) (f : Frame) (t1 : Nat) : Int := (stampDiff f.arg0 t1 + stampDiff f.arg1 s.stamp) / 2

/-- The exchange is over, and its delay stands in BPORT_DELAY. -/
def State.calDone (s : State) (p : Nat) (f : Frame) (t1 : Nat) : State :=
  (s.updBport p (fun b => { b with calT1 := none })).put O.bportDelay p (trunc2 32 ((stampDiff s.stamp t1 - stampDiff f.arg1 f.arg0) / 2))

/-- The time parent of port `p` has answered with an offset. -/
def State.calOffsetTaken (s : State) (p : Nat) (th : Int) : State :=
  (s.updBport p (fun b => { b with stepped := true })).setObj O.timeOffset (trunc2 32 (sat32 th))

/-- The time base takes an offset: a step at the first calibration, and a slew after it. -/
def State.calTuned (s : State) (p : Nat) (th : Int) (first : Bool) : State :=
  let s := s.calOffsetTaken p th
  if first then (s.setTb (((s.tb : Int) + th * 2 ^ 32).toNat % 2 ^ 112)).setRate 0
  else
    let s := s.setRate (th * 2 ^ 32 / (s.obj O.calPeriod : Int))
    if 98304 < th.natAbs then s.linkEvent 3 p (s.peerOf p) else s

/-- The rate at which the time base makes up for an offset until the next calibration. -/
def State.calSlewed (s : State) (p : Nat) (th : Int) : State :=
  (s.calOffsetTaken p th).setRate (th * 2 ^ 32 / ((s.calOffsetTaken p th).obj O.calPeriod : Int))

section Tuned
variable {s : State} {p : Nat} {th : Int}

theorem State.calTuned_near (h : th.natAbs ≤ 98304) : s.calTuned p th false = s.calSlewed p th := if_neg (Nat.not_lt.mpr h)

theorem State.calTuned_far (h : 98304 < th.natAbs) : s.calTuned p th false = (s.calSlewed p th).linkEvent 3 p ((s.calSlewed p th).peerOf p) := if_pos h

end Tuned

section CalRsp
variable {s : State} {p : Nat} {f : Frame} {t1 : Nat} (hcal : (s.bport p).calT1 = some t1)
include hcal

theorem State.onCalRsp_stray (h : f.payload.head? ≠ some t1) : s.onCalRsp p f = s := by
  unfold State.onCalRsp
  rw [hcal]
  dsimp only
  rw [if_pos (by simpa using h)]

theorem State.onCalRsp_answers (h : f.payload.head? = some t1) : ∃ corr : Int, (s.get O.bportAsym p = 0 → corr = 0) ∧
    s.onCalRsp p f = if (s.calDone p f t1).timePort ≠ some p then s.calDone p f t1
      else (s.calDone p f t1).calTuned p (s.calOffset f t1 + corr) (!s.bports.any (fun x => x.2.stepped)) := by
  refine ⟨if s.get O.bportAsym p = 0 then 0 else (Config.asymCorrection (s.get O.bportAsym p)).toInt, fun h0 => if_pos h0, ?_⟩
  unfold State.onCalRsp
  rw [hcal]
  dsimp only
  rw [if_neg (by simp [h])]
  simp only [bne_iff_ne]
  rfl

end CalRsp

/-- Settles O57: each type of frame by its meaning, once the port has taken it. -/
theorem linkFramesAct : Obligations.LinkFramesAct := by
  intro s p f htaken hlegal s1
  have hp : p < 262144 := htaken.port.trans (by decide)
  have hacts {t : State} (ht : s1.onFrame p f = t) : onBport p (s.rxFrame p f) = .next t.redSpace := onBport_rxFrame htaken hlegal ht
  refine ⟨fun h => ?_, fun h => ?_, fun h t1 hcal => ⟨fun hstray => ?_, fun hhead => ?_⟩, fun h hd => ?_, fun h hd => ⟨fun r hh hr => ?_, fun hlost => ?_⟩,
    fun done x left hsent hx honce hdone hidle => ?_⟩
  · obtain ⟨htrained, hcured, hpeer, hstate, hbase⟩ := s1.trained_serves hp f
    have hmem : (s1.trained p f).mem = s.mem := congrArg (·.2.2) (hbase.trans (State.linkTake_base ..))
    exact ⟨s1.trained p f, hacts (State.onFrame_train _ _ h), htrained, hcured, hpeer, hstate, hmem⟩
  · exact hacts (State.onFrame_calReq _ _ h)
  · exact hacts ((State.onFrame_calRsp _ _ h).trans (State.onCalRsp_stray hcal hstray))
  · obtain ⟨corr, hcorr, hrsp⟩ := State.onCalRsp_answers hcal hhead
    replace hrsp := (State.onFrame_calRsp s1 p h).trans hrsp
    intro sub s2 th
    refine ⟨fun hother => ?_, fun hparent hasym => ?_⟩
    · exact hacts (hrsp.trans (if_pos hother))
    · replace hrsp := hrsp.trans (if_neg (not_not.mpr hparent))
      rw [hcorr hasym, add_zero] at hrsp
      refine ⟨fun hfirst => ?_, fun hlater => ⟨fun hnear => ?_, fun hfar => ?_⟩⟩
      · rw [hfirst] at hrsp
        exact hacts hrsp
      · rw [hlater] at hrsp
        exact hacts (hrsp.trans (State.calTuned_near hnear))
      · rw [hlater] at hrsp
        exact hacts (hrsp.trans (State.calTuned_far hfar))
  · exact hacts (State.onFrame_alive _ _ h hd)
  · exact hacts ((State.onFrame_forward _ _ h hd).trans (State.forward_on _ hh hr))
  · exact hacts ((State.onFrame_forward _ _ h hd).trans (State.forward_lost _ hlost))
  · exact State.linkTake_acknowledges hsent hx honce hdone hidle

end Sys2Proof.Machine
end

section
/-! Bad words, retransmissions, calibration and locks as commands of their own (R327, R328, R330, R403). -/

namespace Sys2Proof.Machine

section Words
variable {s : State} {p : Nat} {ws : List Nat}

theorem State.rxWords_bad {rxErr : Bool} (h : Frame.ofWords ws = none ∨ rxErr = true) : s.rxWords p ws rxErr = s := by
  unfold State.rxWords
  split
  · next f hf => exact if_pos (h.resolve_left (by simp [hf]))
  · rfl

theorem State.rxWords_frame {f : Frame} (h : Frame.ofWords ws = some f) : s.rxWords p ws false = s.rxFrame p f := by
  simp [State.rxWords, h]

end Words

section Links
variable {s : State} {p : Nat} (hlive : s.live = true)
include hlive

/-- A frame that is not acknowledged goes out a second time, and then its port is fenced (R328). -/
theorem State.retransmit_oldest (ht : (s.bport p).trained = true) {x : SentFrame} {l : List SentFrame} (hx : (s.bport p).unacked = x :: l) :
    s.retransmit p = if x.again then (s.fence 7 p 6 0 {}).linkEvent 1 p (s.peerOf p)
      else (s.updBport p (fun b => { b with unacked := { x with again := true } :: l })).setBtx (s.btx ++ [(p, x.frame)]) := by
  simp [State.retransmit, hlive, ht, hx]

theorem State.calNow_calibrates (ht : (s.bport p).trained = true) (hs : s.get O.bportState p = 0) : s.calNow p = s.calibrate p := by
  have hserves : s.serves 7 p = true := by simp [State.serves, stateOid, hs]
  exact if_pos (by simp [hlive, ht, hserves])

theorem State.retrainFailed_fences (hlost : (s.bport p).lostLock = true) (hdown : s.get O.bportState p = 3) :
    s.retrainFailed p = ((s.updBport p (fun b => { b with lostLock := false })).fence 7 p 6 0 {}).linkEvent 1 p (s.peerOf p) := by
  exact if_pos (by simp [hlive, hlost, hdown])

end Links

/-- A port whose lock rises trains, if it is down in a block that has begun phase 3 and lives (R403). -/
theorem State.lockRose_rises {s : State} {p : Nat} (hlock : (s.bport p).lock = false) :
    s.lockRose p = if s.live = true ∧ 3 ≤ s.phase ∧ s.get O.bportState p = 3 then (s.updBport p (fun b => { b with lock := true })).trainPort p
      else s.updBport p (fun b => { b with lock := true }) := by
  unfold State.lockRose
  dsimp only
  rw [if_neg (by simp [hlock])]
  simp only [Bool.and_eq_true, decide_eq_true_eq, beq_iff_eq, and_assoc]
  rfl

/-- Settles O58: each event by the operation of its port, and a fence by the state that it leaves. -/
theorem linkEventsAct : Obligations.LinkEventsAct := by
  intro s p hport
  have hp : p < 262144 := hport.trans (by decide)
  have acts {t u : State} (h : t = u) : onBport p t = .next u := (onUnit_present hport).trans (congrArg _ h)
  refine ⟨fun ws rxErr hbad => ?_, fun ws f hws htaken hill => ?_, fun x l hlive htrained hx => ⟨fun honce => ?_, fun hagain => ?_⟩,
    fun hlive htrained hserves => ?_, fun hlock => ?_, fun hlock => ⟨fun hlive hphase hdown => ?_, fun hno => ?_⟩, fun hlive hlost hdown => ?_⟩
  · exact acts (State.rxWords_bad hbad)
  · exact acts ((State.rxWords_frame hws).trans ((State.rxFrame_taken htaken).trans (if_pos hill)))
  · exact acts ((State.retransmit_oldest hlive htrained hx).trans (if_neg (by simp [honce])))
  · exact ⟨acts ((State.retransmit_oldest hlive htrained hx).trans (if_pos hagain)), s.fence_link_fenced hp ..⟩
  · exact acts (State.calNow_calibrates hlive htrained hserves)
  · obtain ⟨hbase, hfell, huntrained, hlost, hdown⟩ := State.lockFell_down hp hlock
    exact ⟨s.lockFell p, acts rfl, hfell, huntrained, hlost, hdown, congrArg (·.2.2) hbase⟩
  · exact acts ((State.lockRose_rises hlock).trans (if_pos ⟨hlive, hphase, hdown⟩))
  · have hstays : ¬(s.live = true ∧ 3 ≤ s.phase ∧ s.get O.bportState p = 3) := by
      rintro ⟨hlive, hphase, hdown⟩
      simp [hlive, hdown] at hno
      omega
    exact acts ((State.lockRose_rises hlock).trans (if_neg hstays))
  · exact ⟨acts (State.retrainFailed_fences hlive hlost hdown), State.fence_link_fenced _ hp ..⟩

end Sys2Proof.Machine
end

section
/-! The frames of the toll and of losses (R332 to R335). -/

namespace Sys2Proof.Machine

section Routed
variable (s : State) (p : Nat) {f : Frame} (hd : f.dst = s.group.self)
include hd

theorem State.onFrame_arrive (h : f.ftype = 4) : s.onFrame p f = s.onArrive f := by simp [State.onFrame, h, hd]

theorem State.onFrame_release (h : f.ftype = 5) : s.onFrame p f = s.onRelease f := by simp [State.onFrame, h, hd]

theorem State.onFrame_reduceUp (h : f.ftype = 6) : s.onFrame p f = s.redUp p f := by simp [State.onFrame, h, hd]

theorem State.onFrame_reduceDown (h : f.ftype = 7) : s.onFrame p f = s.redDown f := by simp [State.onFrame, h, hd]

theorem State.onFrame_lost (h : f.ftype = 8) : s.onFrame p f = s.learnLost (f.arg0 % 65536) (f.arg1 % 4) false := by simp [State.onFrame, h, hd]

end Routed

/-! ARRIVE and RELEASE (R332 to R334). -/

/-- The state with the ARRIVE of frame `f` kept. -/
def State.withArrival (s : State) (f : Frame) : State :=
  s.updGroup (fun g => { g with arrivals := g.arrivals ++
    [{ rank := f.src - g.base, ready := nearStamp (s.tb / 2 ^ 32) f.arg1, low := bits (f.payload.headD 0) 16 16, count := bits (f.payload.headD 0) 0 16 }] })

section Arrive
variable {s : State} {f : Frame} (hbase : s.group.base ≤ f.src) (hchild : f.src - s.group.base ∈ childrenOf s.group.live s.ownRank)
  (hnew : ∀ a ∈ s.group.arrivals, a.rank ≠ f.src - s.group.base)
include hbase hchild hnew

/-- The first ARRIVE of a child counts for the bell that it names: the formation, or the running one. -/
theorem State.onArrive_kept : s.onArrive f = if f.arg0 = allOnes then
      (if !s.grouping then s else if (s.withArrival f).isMaster && (s.withArrival f).childrenIn then (s.withArrival f).releaseGroup else (s.withArrival f).formArrive)
    else if f.arg0 = s.bellNo ∧ s.bell ≠ .none then (s.withArrival f).tryToll else s := by
  have hkept : ¬(f.src < s.group.base ∨ (!(decide (f.src - s.group.base ∈ childrenOf s.group.live s.ownRank))) = true ∨
      (s.group.arrivals.any (fun a => a.rank == f.src - s.group.base)) = true) := by
    simpa [hchild] using ⟨hbase, hnew⟩
  exact if_neg hkept

theorem State.onArrive_tolls (hbell : f.arg0 = s.bellNo) (hrun : f.arg0 ≠ allOnes) (hopen : s.bell ≠ .none) : s.onArrive f = (s.withArrival f).tryToll := by
  rw [State.onArrive_kept hbase hchild hnew, if_neg hrun, if_pos ⟨hbell, hopen⟩]

theorem State.onArrive_forms (hform : f.arg0 = allOnes) (hg : s.grouping = true)
    (hno : (s.withArrival f).isMaster = false ∨ (s.withArrival f).childrenIn = false) : s.onArrive f = (s.withArrival f).formArrive := by
  rw [State.onArrive_kept hbase hchild hnew, if_pos hform, if_neg (by simp [hg]), if_neg (by obtain h | h := hno <;> simp [h])]

theorem State.onArrive_releases (hform : f.arg0 = allOnes) (hg : s.grouping = true) (hm : (s.withArrival f).isMaster = true)
    (hin : (s.withArrival f).childrenIn = true) : s.onArrive f = (s.withArrival f).releaseGroup := by
  rw [State.onArrive_kept hbase hchild hnew, if_pos hform, if_neg (by simp [hg]), if_pos (by simp [hm, hin])]

end Arrive

/-- A RELEASE of the running bell whose stamp has not passed goes on down the tree, and its stamp is the toll's (R333, R339). -/
theorem State.onRelease_stamps {s : State} {f : Frame} (hm : s.isMaster = false) (hsize : 1 < s.group.size) (hbell : f.arg0 = s.bellNo) (hrun : f.arg0 ≠ allOnes)
    (hformed : s.bell = .formed) (hahead : s.tb / 2 ^ 32 ≤ nearStamp (s.tb / 2 ^ 32) f.arg1) :
    s.onRelease f = (s.toChildren 5 f.arg0 f.arg1 f.payload).updGroup (fun g => { g with
      stamp := some (nearStamp (s.tb / 2 ^ 32) f.arg1), nextDigest := f.payload.headD 0
      sum := (bits (nth 0 f.payload 1) 16 16, bits (nth 0 f.payload 1) 0 16) }) := by
  unfold State.onRelease
  dsimp only
  rw [if_neg (by simp [hm, hsize]), if_neg hrun, if_pos ⟨hbell, hformed⟩, if_neg (by simpa using hahead)]

/-! Losses (R335). -/

/-- LOST of rank `r` goes down the tree, once. -/
def State.tellDown (s : State) (r cause : Nat) : State := (s.updGroup (fun g => { g with told := g.told ++ [r] })).toChildren 8 r cause []

section Lost
variable {s : State} {r : Nat}

theorem State.linkEvent_counted (s : State) (cause port peer : Nat) : State.Counted eventObjects s (s.linkEvent cause port peer) :=
  s.report_counted (show 0x0801 < 262144 by decide)

theorem State.putMaster_get (s : State) {o : Nat} (ho : o ≠ O.bgMaster) : s.putMaster.obj o = s.obj o := by
  unfold State.putMaster
  split
  · exact State.get_put_oid s ho ho (by decide) (by decide)
  · rfl

theorem State.putMaster_group (s : State) : s.putMaster.group = s.group := by
  unfold State.putMaster
  split <;> rfl

theorem State.takeOver_obj (s : State) (was : Bool) (o : Nat) : (s.takeOver was).obj o = s.obj o := by
  unfold State.takeOver
  split <;> rfl

theorem State.takeOver_lostNext (s : State) (was : Bool) : (s.takeOver was).group.lostNext = s.group.lostNext := by
  unfold State.takeOver
  split <;> rfl

section Counts
variable (hr : r < s.group.size) (hlost : r ∉ s.group.lost) (hnext : r ∉ s.group.lostNext) (hown : r ≠ s.ownRank)
include hr hlost hnext hown

/-- A rank that is newly lost is out of the tree of the next bell, and of the count of those that live. -/
theorem State.loseRank_counts : (s.loseRank r).group.lostNext = s.group.lostNext ++ [r] ∧ (s.loseRank r).obj O.bgLive = s.obj O.bgLive - 1 := by
  let t := (s.updGroup (fun g => { g with lostNext := g.lostNext ++ [r] })).setObj O.bgLive (s.obj O.bgLive - 1)
  have hout : s.loseRank r = ((t.keepParent State.putMaster).takeOver s.isMaster).linkEvent 4 0xFF (s.group.base + r) :=
    if_neg (by simp [hlost, hnext, hr, hown])
  have hevent := State.linkEvent_counted ((t.keepParent State.putMaster).takeOver s.isMaster) 4 0xFF (s.group.base + r)
  have hparent := t.keepParent_sends State.putMaster
  rw [hout]
  constructor
  · calc (((t.keepParent State.putMaster).takeOver s.isMaster).linkEvent 4 0xFF (s.group.base + r)).group.lostNext
      _ = ((t.keepParent State.putMaster).takeOver s.isMaster).group.lostNext := congrArg (·.group.lostNext) hevent.frame
      _ = (t.keepParent State.putMaster).group.lostNext := State.takeOver_lostNext ..
      _ = t.group.lostNext := by rw [hparent.group, State.putMaster_group]
  · calc (((t.keepParent State.putMaster).takeOver s.isMaster).linkEvent 4 0xFF (s.group.base + r)).obj O.bgLive
      _ = ((t.keepParent State.putMaster).takeOver s.isMaster).obj O.bgLive := hevent.get (by decide) (by decide) (by decide)
      _ = (t.keepParent State.putMaster).obj O.bgLive := State.takeOver_obj ..
      _ = t.obj O.bgLive := (hparent.get ..).trans (t.putMaster_get (by decide))
      _ = s.obj O.bgLive - 1 := State.obj_put_same _ _ _ (by decide)

end Counts

section Learns
variable (hr : r < s.group.size) (htold : r ∉ s.group.told) (hown : r ≠ s.ownRank)
include hr htold hown

theorem State.learnLost_unknown : ¬(r ∈ s.group.told ∨ s.group.size ≤ r ∨ r = s.ownRank) := by
  rintro (h | h | h)
  · exact htold h
  · omega
  · exact hown h

/-- A LOST that has come goes on down the tree. -/
theorem State.learnLost_hears (cause : Nat) : s.learnLost r cause false = (((s.loseRank r).tellDown r cause).tryToll).redLosses := by
  unfold State.learnLost
  dsimp only
  rw [if_neg (State.learnLost_unknown hr htold hown), if_neg (by simp), if_pos (by simp)]
  rfl

variable (hlost : r ∉ s.group.lost) (hnext : r ∉ s.group.lostNext)
include hlost hnext

/-- The master that finds a member lost tells the tree. -/
theorem State.learnLost_master (cause : Nat) (hm : (s.loseRank r).isMaster = true) :
    s.learnLost r cause true = (((s.loseRank r).tellDown r cause).tryToll).redLosses := by
  unfold State.learnLost
  dsimp only
  rw [if_neg (State.learnLost_unknown hr htold hown), if_neg (by simp [hlost, hnext]), if_pos (by simp [hm])]
  rfl

/-- Another that finds it so tells the master. -/
theorem State.learnLost_member (cause : Nat) {m : Nat} (hm : (s.loseRank r).isMaster = false) (hup : (s.loseRank r).group.up.head? = some m) :
    s.learnLost r cause true = (((s.loseRank r).sendTo ((s.loseRank r).frame 8 (s.group.base + m) r cause [])).tryToll).redLosses := by
  unfold State.learnLost
  dsimp only
  rw [if_neg (State.learnLost_unknown hr htold hown), if_neg (by simp [hlost, hnext]), if_neg (by simp [hm]), hup]

end Learns

/-- A silent member of a formed group is lost, while a bell is open. -/
theorem State.silent_learns (hlive : s.live = true) (hsize : 1 < s.group.size) (hbell : s.bell ≠ .none) : s.silent r = s.learnLost r 2 true := by
  exact if_pos (by simp [hlive, hsize, hbell])

end Lost

section Alive
variable {s : State} (hlive : s.live = true) (hsize : 1 < s.group.size) (hbell : s.bell ≠ .none) (hm : s.isMaster = false)
include hlive hsize hbell hm

theorem State.aliveNow_runs : ¬(!s.belfryOn || decide (s.group.size ≤ 1) || s.isMaster || s.bell == .none) = true := by
  simp [hlive, hsize, hm, hbell]

theorem State.aliveNow_heard (hsent : s.group.heardSent = true) : s.aliveNow = s.updGroup (fun g => { g with heardSent := false }) := by
  unfold State.aliveNow
  dsimp only
  rw [if_neg (State.aliveNow_runs hlive hsize hbell hm), if_pos hsent]

theorem State.aliveNow_sends (hsent : s.group.heardSent = false) {m : Nat} (hp : parentOf s.group.live s.ownRank = some m) :
    s.aliveNow = (s.sendTo (s.frame 9 (s.group.base + m) s.bellNo 0 [])).updGroup (fun g => { g with heardSent := false }) := by
  unfold State.aliveNow
  dsimp only
  rw [if_neg (State.aliveNow_runs hlive hsize hbell hm), if_neg (by simp [hsent]), hp]

end Alive

end Sys2Proof.Machine
end

section
/-! The REDUCE frames (R336, R337). -/

namespace Sys2Proof.Machine

/-- RTAG of a REDUCE frame (Table 12.2). -/
def redTag (f : Frame) : Nat := bits f.arg0 0 32

/-- The elements that a REDUCE frame carries, of a node of `n`: from the first that it names. -/
def redCarried (f : Frame) (pair : Bool) (n : Nat) : List (Nat × Nat × Nat) :=
  (redElems pair (n - bits f.arg1 0 40) f.payload).zipIdx.map (fun (a, i) => (bits f.arg1 0 40 + i, a.1, a.2))

/-- The node that a REDUCE_UP frame of rank `k` carries. -/
def redNode (f : Frame) (k : Nat) : RedNode :=
  { rank := k, count := bits f.arg0 32 32, rop := bits f.arg1 44 4, pair := f.arg1.testBit 43, err := f.arg1.testBit 63
    elems := redCarried f (f.arg1.testBit 43) (bits f.arg0 32 32) }

section Up
variable {s : State} (p : Nat) {f : Frame} {k : Nat}

section New
variable (hnone : s.findRed f.group (redTag f) = none) (hk : grpRank (s.redGroup f.group) f.src = some k)
include hnone hk

/-- A node that no context holds opens one, or waits at its port while every context is in use. -/
theorem State.redUp_new : s.redUp p f = if s.rxCredit = 0 then s.updBport p (fun b => { b with held := b.held ++ [f] })
    else s.setReds (s.reds ++ [{ group := f.group, tag := redTag f, nodes := [redNode f k] }]) := by
  unfold redTag at hnone
  unfold State.redUp
  dsimp only
  rw [hnone]
  dsimp only
  rw [hk]
  simp only [bitAt_eq_testBit]
  rfl

theorem State.redUp_opens (hc : s.rxCredit ≠ 0) : s.redUp p f = s.setReds (s.reds ++ [{ group := f.group, tag := redTag f, nodes := [redNode f k] }]) :=
  (State.redUp_new p hnone hk).trans (if_neg hc)

theorem State.redUp_waits (hc : s.rxCredit = 0) : s.redUp p f = s.updBport p (fun b => { b with held := b.held ++ [f] }) :=
  (State.redUp_new p hnone hk).trans (if_pos hc)

end New

/-- The node of a context that is there joins it, and the context combines what it can. -/
theorem State.redUp_joins {c : RedCtx} (hc : s.findRed f.group (redTag f) = some c)
    (hk : grpRank (if c.owner.isSome then c.grp else s.redGroup f.group) f.src = some k) :
    s.redUp p f = (s.updRed f.group (redTag f) (fun c => { c with nodes := withNode (redNode f k) c.nodes })).climb f.group (redTag f) 40 := by
  unfold redTag at hc
  unfold State.redUp
  dsimp only
  rw [hc]
  dsimp only
  rw [hk]
  simp only [bitAt_eq_testBit, mapIf, beq_iff_eq, withNode]
  rfl

end Up

/-- The members below this one in the tree of a reduction. -/
def redKids (c : RedCtx) : List Nat :=
  (List.range c.level).filterMap (fun l => if c.rank + 2 ^ l < c.size then some (grpInst c.grp (c.rank + 2 ^ l)) else none)

/-- A REDUCE_DOWN frame goes on to the members below. -/
def State.redPassed (s : State) (f : Frame) (c : RedCtx) : State :=
  (redKids c).foldl (fun s k => s.sendTo { s.frame 7 k f.arg0 f.arg1 f.payload with group := f.group }) s

/-- What has come of the result, with this frame. -/
def redGot (f : Frame) (c : RedCtx) : List (Nat × Nat × Nat) := c.down ++ redCarried f c.pair c.count

/-- The elements of the result, once all have come. -/
def redResult (f : Frame) (c : RedCtx) : Option (List (Nat × Nat)) :=
  ({ rank := 0, count := c.count, rop := c.rop, pair := c.pair, err := false, elems := redGot f c } : RedNode).whole c.count

/-- The result goes on to gather, and is written once it is whole. -/
def State.redGathers (s : State) (f : Frame) (c : RedCtx) (q seq : Nat) : State :=
  let s := s.updRed f.group (redTag f) (fun x => { x with down := redGot f c })
  match redResult f c with
  | none => s
  | some l => s.redWhole q seq f.group (redTag f) l

theorem State.redGathers_part (s : State) {f : Frame} {c : RedCtx} (q seq : Nat) (h : redResult f c = none) :
    s.redGathers f c q seq = s.updRed f.group (redTag f) (fun x => { x with down := redGot f c }) := by
  rw [State.redGathers, h]

theorem State.redGathers_whole (s : State) {f : Frame} {c : RedCtx} (q seq : Nat) {l : List (Nat × Nat)} (h : redResult f c = some l) :
    s.redGathers f c q seq = (s.updRed f.group (redTag f) (fun x => { x with down := redGot f c })).redWhole q seq f.group (redTag f) l := by
  rw [State.redGathers, h]

section Down
variable {s : State} {f : Frame} {c : RedCtx} {q seq : Nat} {r : RedD} (hc : s.findRed f.group (redTag f) = some c) (hq : c.owner = some (q, seq))
  (hr : s.redOf c.owner = some r) (hsent : c.sent = true) (hopen : c.result = none)
include hc hq hr hsent hopen

/-- A context that waits for its result passes the frame on; an error, or a member that no route reaches, ends its REDUCE, and what else comes is gathered. -/
theorem State.redDown_passes : s.redDown f = if f.arg1.testBit 63 then (s.redPassed f c).failRed q seq f.group (redTag f) 2
    else if (redKids c).any (fun k => ((s.redPassed f c).route k).isNone) then (s.redPassed f c).failRed q seq f.group (redTag f) 4
    else (s.redPassed f c).redGathers f c q seq := by
  unfold redTag at hc
  unfold State.redDown
  dsimp only
  rw [hc]
  dsimp only
  rw [hr, hq]
  dsimp only
  rw [if_neg (by simp [hsent, hopen])]
  simp only [bitAt_eq_testBit]
  rfl

theorem State.redDown_error (h : f.arg1.testBit 63 = true) : s.redDown f = (s.redPassed f c).failRed q seq f.group (redTag f) 2 :=
  (State.redDown_passes hc hq hr hsent hopen).trans (if_pos h)

variable (hgood : f.arg1.testBit 63 = false)
include hgood

theorem State.redDown_unreached (h : ∃ k ∈ redKids c, (s.redPassed f c).route k = none) : s.redDown f = (s.redPassed f c).failRed q seq f.group (redTag f) 4 := by
  have hany : (redKids c).any (fun k => ((s.redPassed f c).route k).isNone) = true := by simpa using h
  rw [State.redDown_passes hc hq hr hsent hopen, if_neg (by simp [hgood]), if_pos hany]

theorem State.redDown_gathers (h : ∀ k ∈ redKids c, (s.redPassed f c).route k ≠ none) : s.redDown f = (s.redPassed f c).redGathers f c q seq := by
  have hall : ¬(redKids c).any (fun k => ((s.redPassed f c).route k).isNone) = true := by simpa using h
  rw [State.redDown_passes hc hq hr hsent hopen, if_neg (by simp [hgood]), if_neg hall]

end Down

/-- Settles O59: each frame of the group by its meaning once its port has taken it, and each silence by what the member does about it. -/
theorem groupFramesAct : Obligations.GroupFramesAct := by
  refine ⟨?_, fun s hlive hsize hbell => ⟨fun r hr hlost hnext htold hown => ⟨fun hm => ?_, fun m hm hup => ?_⟩,
    fun hm => ⟨fun hsent => ?_, fun m hsent hparent => ?_⟩⟩⟩
  · intro s p f htaken hlegal s1 g now tag n first elems node hd
    have acts {t : State} (ht : s1.onFrame p f = t) : onBport p (s.rxFrame p f) = .next t.redSpace := onBport_rxFrame htaken hlegal ht
    refine ⟨fun h hbase hchild hnew => ?_, fun h hm hsize hbell hrun hformed hahead => ?_, fun h k => ⟨fun hnone hk hc => ?_, fun hnone hk hc => ?_, fun c hc hk => ?_⟩,
      fun h c q seq r hc hq hr hsent hopen => ?_, fun h => ?_⟩
    · have harrive := State.onFrame_arrive s1 p hd h
      exact ⟨fun hbell hrun hopen => acts (harrive.trans (State.onArrive_tolls hbase hchild hnew hbell hrun hopen)),
        fun hform hg hno => acts (harrive.trans (State.onArrive_forms hbase hchild hnew hform hg hno)),
        fun hform hg hm hin => acts (harrive.trans (State.onArrive_releases hbase hchild hnew hform hg hm hin))⟩
    · exact acts ((State.onFrame_release s1 p hd h).trans (State.onRelease_stamps hm hsize hbell hrun hformed hahead))
    · exact acts ((State.onFrame_reduceUp s1 p hd h).trans (State.redUp_opens p hnone hk hc))
    · exact acts ((State.onFrame_reduceUp s1 p hd h).trans (State.redUp_waits p hnone hk hc))
    · exact acts ((State.onFrame_reduceUp s1 p hd h).trans (State.redUp_joins p hc hk))
    · have hdown := State.onFrame_reduceDown s1 p hd h
      refine ⟨fun herr => ?_, fun hgood hno => ?_, fun hgood hall => ⟨fun hpart => ?_, fun l hwhole => ?_⟩⟩
      · exact acts (hdown.trans (State.redDown_error hc hq hr hsent hopen herr))
      · exact acts (hdown.trans (State.redDown_unreached hc hq hr hsent hopen hgood hno))
      · exact acts (hdown.trans ((State.redDown_gathers hc hq hr hsent hopen hgood hall).trans (State.redGathers_part _ q seq hpart)))
      · exact acts (hdown.trans ((State.redDown_gathers hc hq hr hsent hopen hgood hall).trans (State.redGathers_whole _ q seq hwhole)))
    · intro r hr htold hown
      exact ⟨acts ((State.onFrame_lost s1 p hd h).trans (State.learnLost_hears hr htold hown _)),
        fun hlost hnext => State.loseRank_counts hr hlost hnext hown⟩
  · exact congrArg _ ((State.silent_learns hlive hsize hbell).trans (State.learnLost_master hr htold hown hlost hnext 2 hm))
  · exact congrArg _ ((State.silent_learns hlive hsize hbell).trans (State.learnLost_member hr htold hown hlost hnext 2 hm hup))
  · exact congrArg _ (State.aliveNow_heard hlive hsize hbell hm hsent)
  · exact congrArg _ (State.aliveNow_sends hlive hsize hbell hm hsent hparent)

end Sys2Proof.Machine
end


section
/-! The machine as a whole: its step, its reset state, and its dictionary (R367, R373). -/

namespace Sys2Proof.Machine

/-- Settles O1: a step takes the front of a queue that is not empty. -/
theorem stepTakesTheFrontCommand : Obligations.StepTakesTheFrontCommand := fun _ _ _ => rfl

/-- Settles O7: at reset host memory lists nothing, which is its canonical form. -/
theorem resetMeetsTheInvariant : Obligations.ResetMeetsTheInvariant :=
  ⟨Memory.nil_wf, rfl, fun _ => rfl⟩

/-- Settles O8: the keys of two objects, or of one object at two select numbers, differ; BG_MASTER has INSTANCE_ID's key beside. -/
theorem objectWriteChangesOneObject : Obligations.ObjectWriteChangesOneObject := by
  intro s o n v o' n' ho hn hn'
  refine ⟨State.get_put_same s o n v ho, fun hne hbg => ?_, rfl⟩
  have hkey : okey o' n' ≠ okey o n := okey_ne hn' hn (by grind)
  by_cases hmaster : o' = O.bgMaster
  · subst hmaster
    have hinst : O.instanceId ≠ o := fun e => (hbg.resolve_left (· rfl)) e.symm
    exact State.bgMaster_put s hkey (okey_ne (by decide) hn (.inl hinst))
  · exact State.get_put_other s hkey hmaster

end Sys2Proof.Machine
end

section
/-! What a held reset silences (R373, R379, R396). -/

namespace Sys2Proof.Machine

/-- A block that is not live, for a held reset or for another reason, does nothing of what needs a live one; COMMIT and RELEASED are steps of work that a
reset has dropped. -/
theorem exec_dead {c : Instr} {s : State} (hl : s.live = false) (hneeds : c.needsLive = true) (hquiet : c.outlivesReset = false) (hunit : s.hasUnit c) :
    exec c s = .next s := by
  cases c
  case tail | irqAck | doorbellErrors => exact congrArg _ (State.doorbell_dead hl _)
  case streamTile => exact onUnit_self (hunit _ _ rfl) (State.streamTile_dead hl _ _)
  case orphanTile => exact onUnit_self (hunit _ _ rfl) (State.orphanOut_dead hl _)
  case captureTile => exact congrArg _ (State.captureTile_dead hl _ _)
  case formationTimeout => exact congrArg _ (State.formTimeout_dead hl)
  case groupOfOne => exact congrArg _ (State.formAlone_dead hl)
  case bellClose => exact congrArg _ (State.closeBell_dead hl _ _ _ _)
  case paceBreaks => exact congrArg _ (State.paceOver_dead hl)
  case toll => exact congrArg _ (State.toll_dead hl)
  case fBellOverrun => exact congrArg _ (State.overrunNow_dead hl)
  case fStreamTimeout => exact congrArg _ (State.streamTimeout_dead hl _ _)
  case deadline => exact congrArg _ (State.deadlineAt_dead hl _ _)
  case fWaitTimeout => exact congrArg _ (State.waitTimeout_dead hl _ _)
  case bellWaitEnd => exact congrArg _ (State.bellWaitAt_dead hl _ _)
  case nop | convert | quant | dequant | stats | gram | rootOp | solve | precond | reduce | fence | bellWait | signal | waitOp | fDescMalformed =>
    exact congrArg _ (State.dispatch_dead hl _ _ _)
  case iterBound => exact congrArg _ (State.iterBound_dead hl _ _)
  case routineRestart => exact congrArg _ (State.restart_dead hl _ _)
  case fallbackPromotions => exact congrArg _ (State.fallback_dead hl _ _ _ _)
  case reduceTimeout => exact congrArg _ (State.redTimeout_dead hl _ _)
  case arrNop | fset | pass | gopen | gdrain | fSpireOp => exact congrArg _ (State.onArr_arrDo_dead hl _ _ _)
  case vadd | vsub | vmul | vfma | vdiv | vmin | vmax | vabs | vneg | vadds | vmuls | vfmas | vpadd | viadd | visub | vimul | viaddsat | vand | vor |
      vxor | vshl | vsra | vsrl | viota | vmov | vbcast | vcmp | vicmp | vsel | mand | mor | mnot | many | vrsum | vrmax | vrmin | vrcsum | vrisum |
      vcvt =>
    exact congrArg _ (State.onLan_lanV_dead hl ..)
  case vsqrt | sfsqrt => exact congrArg _ (State.onLan_lanSqrt_dead hl ..)
  case sli | slih | saddi | sadd | ssub | smul | sshl | sshr | sfadd | sfsub | sfmul | sfdiv | scmpm | ssel | setvl | setvli | modew | moder | loop |
      endloop | brk | lnNop =>
    exact congrArg _ (State.onLan_lanS_dead hl ..)
  case vld | vst | rdp | boundary | bar | sched | lnRet | pivf | lnEnd | lnStop | astr | aiss | await | aflg | fLanternIllegal =>
    exact congrArg _ (State.onLan_lanDo_dead hl ..)
  case commit | released => cases hquiet
  all_goals cases hneeds

/-- Settles O9: what needs a live block does nothing, and each other command by its own branch for a held reset. -/
theorem heldResetSilencesTheLogic : Obligations.HeldResetSilencesTheLogic := by
  intro c s hr hquiet hunit
  by_cases hneeds : c.needsLive = true
  · exact exec_dead (State.live_held hr) hneeds hquiet hunit
  cases c
  /- Requests on the management port are discarded. -/
  case finfaRead | finfaWrite | segRead | segWrite | abort | finfaNext | archLevelRequest | queueEnable | queueReset | slotReset | histOwner | syncValue |
      tmapInvalidate | tmtDirBase | devwinBase | instanceId | firstFaultClear | evlogEnable | evlogHead | evlogIrqAck | nanTrapMode | epochOpen | epochArm |
      epochAbort | nvStore | restoreDefaults | repairStore | test | testHold | testReturn | bellReset | powerRequest | portCheck | malformed | throttleForce =>
    exact congrArg _ (State.serve_held hr ..)
  case restoreNv r =>
    exact congrArg _ ((congrArg (·.restoreErrs s r.corrected) (State.serve_held hr ..)).trans (State.restoreErrs_self hr ..))
  case finfaPacketDiscard => exact congrArg _ (if_pos (State.deaf_held hr))
  /- The answers of memory ports, and frames of the Belfry. -/
  case readData => exact onUnit_self (hunit _ _ rfl) (State.readData_held hr ..)
  case writeResponse => exact onUnit_self (hunit _ _ rfl) (State.writeResp_held hr ..)
  case memTimeout => exact onUnit_self (hunit _ _ rfl) (State.memTimedOut_held hr ..)
  case train | calReq | calRsp | arrive | release | reduceUp | reduceDown | lost | alive | frameForward =>
    exact onUnit_self (hunit _ _ rfl) (State.rxFrame_held hr ..)
  case belfryFrameDiscard => exact onUnit_self (hunit _ _ rfl) (State.rxWords_held hr ..)
  case bportRetransmits => exact onUnit_self (hunit _ _ rfl) (State.retransmit_held hr _)
  case calPeriod => exact onUnit_self (hunit _ _ rfl) (State.calNow_held hr _)
  case retrainTimeout => exact onUnit_self (hunit _ _ rfl) (State.retrainFailed_held hr _)
  case aliveInterval => exact congrArg _ (State.aliveNow_held hr)
  case tollTimeout => exact congrArg _ (State.silent_held hr _)
  /- Start-up, power, sensors, and the event log. -/
  case restoreDone => exact congrArg _ (State.restoreDone_held hr)
  case nvLoad => exact congrArg _ (State.nvLoad_held hr _)
  case coreTest => exact congrArg _ (State.coreTest_held hr _)
  case powerEntry => exact congrArg _ (State.powerEntry_held hr)
  case powerExitDone => exact congrArg _ (State.powerExit_held hr)
  case tempRead => exact congrArg _ (State.tempRead_held hr _)
  case clockMeasure => exact congrArg _ (State.clocks_held hr _ _)
  case governorWindow => exact congrArg _ (State.governor_held hr)
  case evlogEntryWrite => exact congrArg _ (State.evlogWrite_held hr)
  /- What outlives a reset is not meant, and everything else needs a live block. -/
  case coldReset | coldResetRelease | warmReset | warmResetRelease | powerGoodFall | powerGoodRise | pstateReq | thr | nvStoreDone | repairStoreDone |
      lockFall | lockRise | wirUpdate | ijtagUnitSelfTest | selfTestDone | testDrainDone | tmapInvDone | segTimeout =>
    cases hquiet
  all_goals exact absurd rfl hneeds

end Sys2Proof.Machine
end

section
/-! Requests that pass the first checks of R352, and what READ, WRITE, SEG_READ, SEG_WRITE, ABORT and NEXT then come to (R356 to R360). -/

namespace Sys2Proof.Machine

/-- What a request comes to once checks 1 to 4 of R352 have let it pass: ABORT, NEXT, or the checks on the object that it names. -/
def State.heard (s : State) (h : FinfaHead) (op index sub data : Nat) : State :=
  let src := s.obj O.instanceId
  if op = 5 then
    match s.segOfReq h.req with
    | none => s.respond h src op St.noTransfer 0 0 index sub 0
    | some _ => (s.dropSeg h.req).respond h src op St.ok 0 0 index sub 0
  else if op = 6 then
    match Obj.next h.role (index * 256 + sub) with
    | none => s.respond h src op St.noSuchObject 0 0 index sub 0
    | some o => s.okTo s h op o 0
  else match objFor h (index * 256 + sub) with
    | none => s.respond h src op St.noSuchObject 0 0 index sub 0
    | some o => (s.perform h op o data).1.respond h src op (s.perform h op o data).2.1 o.ty.code o.ty.size index sub (s.perform h op o data).2.2

section Heard
variable {s : State} {h : FinfaHead} {op index sub data : Nat}

/-- The answer to a request is a refusal by one of the first four checks, or what the request comes to behind them. -/
theorem State.answer_cases (s : State) (h : FinfaHead) (op index sub data : Nat) :
    (∃ st, st ≠ 0 ∧ s.answer h op index sub data = s.respond h (s.obj O.instanceId) op st 0 0 index sub 0) ∨
      s.answer h op index sub data = s.heard h op index sub data := by
  unfold State.answer
  extract_lets src no
  split
  · exact .inl ⟨St.malformed, by decide, rfl⟩
  split
  · exact .inl ⟨St.wrongInstance, by decide, rfl⟩
  split
  · exact .inl ⟨St.notReady, by decide, rfl⟩
  split
  · exact .inl ⟨St.blockStopped, by decide, rfl⟩
  · exact .inr rfl

/-- A request that the first four checks let pass is served. -/
theorem State.serve_heard (hh : s.hears h op index sub data = true) : s.serve h op index sub data = s.heard h op index sub data := by
  simp only [State.hears, Bool.and_eq_true, Bool.not_eq_true', beq_iff_eq] at hh
  obtain ⟨⟨⟨⟨⟨hdeaf, hchk⟩, hform⟩, hdst⟩, hready⟩, hstop⟩ := hh
  rw [State.serve_answer hdeaf hchk]
  unfold State.answer
  extract_lets src no
  rw [if_neg (by simp [hform]), if_neg (by simp [src, hdst]), if_neg, if_neg]
  · rfl
  · simp only [Bool.or_eq_true, Bool.not_eq_true', Bool.and_eq_true, beq_iff_eq] at hstop ⊢
    grind
  · simp only [Bool.or_eq_true, Bool.not_eq_true', Bool.and_eq_true, beq_iff_eq, bne_iff_ne] at hready ⊢
    grind

theorem State.heard_abort {c : SegCtx} (hc : s.segOfReq h.req = some c) :
    s.heard h 5 index sub data = (s.dropSeg h.req).respond h (s.obj O.instanceId) 5 St.ok 0 0 index sub 0 := by
  simp [State.heard, hc]

theorem State.heard_abort_none (hc : s.segOfReq h.req = none) :
    s.heard h 5 index sub data = s.respond h (s.obj O.instanceId) 5 St.noTransfer 0 0 index sub 0 := by
  simp [State.heard, hc]

theorem State.heard_next {o : Obj} (ho : Obj.next h.role (index * 256 + sub) = some o) : s.heard h 6 index sub data = s.okTo s h 6 o 0 := by
  simp [State.heard, ho]

theorem State.heard_next_none (ho : Obj.next h.role (index * 256 + sub) = none) :
    s.heard h 6 index sub data = s.respond h (s.obj O.instanceId) 6 St.noSuchObject 0 0 index sub 0 := by
  simp [State.heard, ho]

/-- Any other request is one on an object. -/
theorem State.heard_object {o : Obj} (h5 : op ≠ 5) (h6 : op ≠ 6) (ho : objFor h (index * 256 + sub) = some o) : s.heard h op index sub data =
    (s.perform h op o data).1.respond h (s.obj O.instanceId) op (s.perform h op o data).2.1 o.ty.code o.ty.size index sub (s.perform h op o data).2.2 := by
  simp [State.heard, h5, h6, ho]

theorem State.heard_object_none (h5 : op ≠ 5) (h6 : op ≠ 6) (ho : objFor h (index * 256 + sub) = none) :
    s.heard h op index sub data = s.respond h (s.obj O.instanceId) op St.noSuchObject 0 0 index sub 0 := by
  simp [State.heard, h5, h6, ho]

end Heard

/-! NEXT (R360). -/

/-- The table lists its objects in ascending order. -/
theorem objTable_ascends : objTable.Pairwise (fun x y => x.oid < y.oid) := by
  have hoids : (objTable.map (·.oid)).IsChain (· < ·) := by decide +kernel
  exact List.pairwise_map.mp hoids.pairwise

/-- NEXT names the lowest object above `oid` that the role may see. -/
theorem Obj.next_some {role oid : Nat} {o : Obj} (ho : Obj.next role oid = some o) :
    o ∈ objTable ∧ o.visible role = true ∧ oid < o.oid ∧ ∀ x ∈ objTable, x.visible role = true → oid < x.oid → o.oid ≤ x.oid := by
  obtain ⟨hgood, before, after, hsplit, hbefore⟩ := List.find?_eq_some_iff_append.mp ho
  have hasc := objTable_ascends
  rw [hsplit] at hasc ⊢
  simp only [Bool.and_eq_true, decide_eq_true_eq] at hgood
  refine ⟨by simp, hgood.2, hgood.1, fun x hx hvis hlt => ?_⟩
  rcases List.mem_append.mp hx with hx | hx
  · exact absurd (hbefore x hx) (by simp [hvis, hlt])
  · rcases List.mem_cons.mp hx with rfl | hx
    · exact le_rfl
    · exact ((List.pairwise_cons.mp (List.pairwise_append.mp hasc).2.1).1 x hx).le

theorem Obj.next_none {role oid : Nat} (ho : Obj.next role oid = none) : ∀ x ∈ objTable, x.visible role = true → x.oid ≤ oid := by
  intro x hx hvis
  have hno := List.find?_eq_none.mp ho x hx
  simpa [hvis] using hno

/-- Settles O13: the first object that NEXT's search meets is the lowest, for the table ascends. -/
theorem nextNamesTheFollowingObject : Obligations.NextNamesTheFollowingObject := by
  intro s h index sub hh
  refine ⟨fun o ho => ⟨?_, Obj.next_some ho⟩, fun hnone => ⟨?_, Obj.next_none hnone⟩⟩
  · exact congrArg _ ((State.serve_heard hh).trans (State.heard_next ho))
  · exact congrArg _ ((State.serve_heard hh).trans (State.heard_next_none hnone))

end Sys2Proof.Machine
end

section
/-! Requests that are refused (R352, R357): what is answered with another status than OK changes nothing but the response port and its counters. -/

namespace Sys2Proof.Machine

/-- The answer to a request in state `s` is a refusal, which leaves all else, or one with status OK. -/
inductive State.Answers (s : State) (h : FinfaHead) (op index sub : Nat) : State → Prop
  | refusal (st : Nat) (hst : st ≠ 0) : s.Answers h op index sub (s.respond h (s.obj O.instanceId) op st 0 0 index sub 0)
  | acceptance (u : State) (src ty size i j data : Nat) : s.Answers h op index sub (u.respond h src op St.ok ty size i j data)

section Answers
variable {s : State} {h : FinfaHead} {op index sub v : Nat}

/-- A response is the last of those put out, with its status. -/
theorem State.respond_moOut (s : State) (h : FinfaHead) (src op st ty size index sub data : Nat) :
    ∃ r, (s.respond h src op st ty size index sub data).moOut = s.moOut ++ [r] ∧ r.status = st := by
  unfold State.respond
  extract_lets ok r s1 s2
  refine ⟨r, ?_, rfl⟩
  have h2 : s2.moOut = s.moOut ++ [r] := by unfold s2; split <;> rfl
  split
  · exact h2
  · exact h2

/-- A refusal carries no TYPE, SIZE or DATA. -/
theorem State.respond_refusal {st : Nat} (hst : st ≠ 0) (s : State) (h : FinfaHead) (src op ty size index sub data : Nat) :
    s.respond h src op st ty size index sub data = s.respond h src op st 0 0 index sub 0 := by
  simp [State.respond, hst]

/-- A write that checks 12 to 14 refuse is not performed. -/
theorem State.finWrite_refused {o : Obj} {role sel : Nat} (hst : (s.finWrite o role sel v).2 ≠ 0) : (s.finWrite o role sel v).1 = s := by
  revert hst
  unfold State.finWrite
  extract_lets i nv
  split
  · exact fun _ => rfl
  split
  · exact fun _ => rfl
  split
  · exact fun _ => rfl
  · exact fun hst => absurd rfl hst

/-- A READ or WRITE that is refused is not performed. -/
theorem State.perform_refused {o : Obj} (hop : op = 1 ∨ op = 2) (hst : (s.perform h op o v).2.1 ≠ 0) : (s.perform h op o v).1 = s := by
  revert hst
  unfold State.perform
  extract_lets wr size sel room
  split
  · exact fun _ => rfl
  split
  · exact fun _ => rfl
  split
  · exact fun _ => rfl
  split
  · exact fun _ => rfl
  rcases hop with rfl | rfl
  · exact fun _ => rfl
  · by_cases hoff : (s.finWrite o h.role sel v).2 = St.ok ∧ h.segOff ≠ 0
    · simp only [if_pos hoff, implies_true]
    · simp only [if_neg hoff]
      exact State.finWrite_refused

theorem State.heard_answers (hop : op = 1 ∨ op = 2 ∨ op = 5 ∨ op = 6) : s.Answers h op index sub (s.heard h op index sub v) := by
  by_cases h5 : op = 5
  · subst h5
    cases hc : s.segOfReq h.req with
    | none => rw [State.heard_abort_none hc]; exact .refusal St.noTransfer (by decide)
    | some c => rw [State.heard_abort hc]; exact .acceptance ..
  by_cases h6 : op = 6
  · subst h6
    cases ho : Obj.next h.role (index * 256 + sub) with
    | none => rw [State.heard_next_none ho]; exact .refusal St.noSuchObject (by decide)
    | some o => rw [State.heard_next ho]; exact .acceptance ..
  cases ho : objFor h (index * 256 + sub) with
  | none => rw [State.heard_object_none h5 h6 ho]; exact .refusal St.noSuchObject (by decide)
  | some o =>
    rw [State.heard_object h5 h6 ho]
    by_cases hst : (s.perform h op o v).2.1 = 0
    · rw [hst]; exact .acceptance ..
    · rw [State.perform_refused (by omega) hst, State.respond_refusal hst]
      exact .refusal _ hst

theorem State.answer_answers (hop : op = 1 ∨ op = 2 ∨ op = 5 ∨ op = 6) : s.Answers h op index sub (s.answer h op index sub v) := by
  rcases State.answer_cases s h op index sub v with ⟨st, hst, e⟩ | e
  · rw [e]; exact .refusal st hst
  · rw [e]; exact State.heard_answers hop

/-- A request whose response is not OK has left all but the response port and its counters. -/
theorem State.serve_refused {t : State} {r : FinfaResp} (hchk : h.chk = .ok) (hop : op = 1 ∨ op = 2 ∨ op = 5 ∨ op = 6)
    (ht : s.serve h op index sub v = t) (hr : t.moOut = s.moOut ++ [r]) (hst : r.status ≠ 0) :
    t = s.respond h (s.obj O.instanceId) op r.status 0 0 index sub 0 := by
  by_cases hd : s.deaf = true
  · rw [State.serve, if_pos hd] at ht
    simp [← ht] at hr
  rw [State.serve_answer (by simpa using hd) hchk] at ht
  have hanswer := State.answer_answers (s := s) (h := h) (index := index) (sub := sub) (v := v) hop
  rw [ht] at hanswer
  cases hanswer with
  | refusal st _ =>
    obtain ⟨r', hr', hst'⟩ := State.respond_moOut s h (s.obj O.instanceId) op st 0 0 index sub 0
    rw [hr'] at hr
    obtain rfl : r' = r := by simpa using hr
    rw [hst']
  | acceptance u src ty size i j data =>
    obtain ⟨r', hr', hst'⟩ := State.respond_moOut u h src op St.ok ty size i j data
    rw [hr'] at hr
    obtain ⟨-, hlast⟩ := List.append_inj' hr rfl
    obtain rfl : r' = r := by simpa using hlast
    exact absurd hst' hst

end Answers

/-- Settles O12: the form is the first check, and no refusal of the others performs anything. -/
theorem refusedRequestsChangeNothing : Obligations.RefusedRequestsChangeNothing := by
  refine ⟨?_, fun s t h index sub v r hchk => ?_⟩
  · intro s b0 b1 b2 b3 hd r h hform
    exact congrArg _ ((State.serve_answer hd rfl ..).trans (if_pos hform))
  · simp only [List.forall_mem_cons, List.not_mem_nil, false_implies, implies_true, and_true]
    refine ⟨fun ht => ?_, fun ht => ?_, fun ht => ?_, fun ht => ?_⟩
    · exact State.serve_refused hchk (.inl rfl) (Host.Outcome.next.inj ht)
    · exact State.serve_refused hchk (.inr (.inl rfl)) (Host.Outcome.next.inj ht)
    · exact State.serve_refused hchk (.inr (.inr (.inl rfl))) (Host.Outcome.next.inj ht)
    · exact State.serve_refused hchk (.inr (.inr (.inr rfl))) (Host.Outcome.next.inj ht)

end Sys2Proof.Machine
end

section
/-! READ, segmented transfers and ABORT that pass their checks (R356 to R358, R401), and the plain WRITE (R359). -/

namespace Sys2Proof.Machine

section Transfers
variable {s : State} {h : FinfaHead} {o : Obj} {op v : Nat}

/-- A request on an object that exists for the role is served by `State.perform`. -/
theorem State.serve_object (h5 : op ≠ 5) (h6 : op ≠ 6) (hh : s.hears h op (o.oid / 256) (o.oid % 256) v = true) (ho : objFor h o.oid = some o)
    {t : State} {d : Nat} (hp : s.perform h op o v = (t, St.ok, d)) : s.serve h op (o.oid / 256) (o.oid % 256) v = t.okTo s h op o d := by
  have hoid : o.oid / 256 * 256 + o.oid % 256 = o.oid := Nat.div_add_mod' ..
  rw [State.serve_heard hh, State.heard_object h5 h6 (by rw [hoid]; exact ho), hp]
  rfl

theorem State.perform_read (hsize : o.ty.size ≤ 16) (hal : s.allowed o (s.selFor o h 1) h.role h.tenant false = true) :
    s.perform h 1 o 0 = (s, St.ok, s.rdObj o (s.selFor o h 1)) := by
  simp [State.perform, hal, Nat.not_lt.mpr hsize]

theorem State.perform_segRead (hal : s.allowed o (s.selFor o h 3) h.role h.tenant false = true) :
    s.perform h 3 o 0 = s.segRead o h.req (s.selFor o h 3) h.segOff := by
  simp [State.perform, hal]

/-- A context opens while one is free beside that of the requester, which it replaces. -/
theorem State.openSeg_free {c : SegCtx} (hfree : (s.dropSeg c.req).segs.length < s.obj O.segContexts) :
    s.openSeg c = some ((s.dropSeg c.req).setSegs ((s.dropSeg c.req).segs ++ [c])) := by
  simp [State.openSeg, Nat.not_le.mpr hfree]

/-- A first SEG_READ returns the first 16 bytes, and keeps a context for an object that is larger. -/
theorem State.segRead_first {req sel : Nat} (hfree : (s.dropSeg req).segs.length < s.obj O.segContexts) :
    let opened := (s.dropSeg req).setSegs ((s.dropSeg req).segs ++
      [{ req := req, wr := false, oid := o.oid, sel := sel, data := s.rdObj o sel, last := 0, lastData := 0, status := none }])
    s.segRead o req sel 0 = (if o.ty.size ≤ 16 then opened.dropSeg req else opened, St.ok, s.rdObj o sel % 2 ^ 128) := by
  intro opened
  unfold State.segRead
  extract_lets size snap
  rw [if_pos rfl, State.openSeg_free hfree]

/-- To give up a requester's context that was just opened is to have opened none. -/
theorem State.dropSeg_opened (req : Nat) {c : SegCtx} (hc : c.req = req) :
    ((s.dropSeg req).setSegs ((s.dropSeg req).segs ++ [c])).dropSeg req = s.dropSeg req := by
  simp [State.dropSeg, State.setSegs, hc]

/-- A requester that holds no context has none to give up. -/
theorem State.dropSeg_none {req : Nat} (hn : s.segOfReq req = none) : s.dropSeg req = s := by
  have hall : ∀ c ∈ s.segs, (c.req != req) = true := fun c hc => by simpa using List.find?_eq_none.mp hn c hc
  rw [State.dropSeg, List.filter_eq_self.mpr hall]
  rfl

/-- An element that stands last, and is like no other, replaced by itself. -/
theorem mapIf_last {α : Type} {p : α → Bool} {l : List α} {c : α} (hl : ∀ x ∈ l, p x = false) : mapIf p (fun _ => c) (l ++ [c]) = l ++ [c] := by
  have hsame : l.map (fun x => if p x then c else x) = l := 
    (List.map_congr_left fun x hx => by simp [hl x hx]).trans (List.map_id l)
  simp [mapIf, hsame]

/-- The first segment of the write of a larger object opens a context that keeps its bytes. -/
theorem State.perform_segWrite_first (hsize : 16 < o.ty.size) (hoff : h.segOff = 0) (hro : o.acc.readOnly = false)
    (hal : s.allowed o (s.selFor o h 4) h.role h.tenant true = true) (hv : v < 2 ^ 128) (hn : s.segOfReq h.req = none)
    (hfree : s.segs.length < s.obj O.segContexts) :
    s.perform h 4 o v = (s.setSegs (s.segs ++
      [{ req := h.req, wr := true, oid := o.oid, sel := s.selFor o h 4, data := v, last := 0, lastData := v, status := none }]), St.ok, 0) := by
  let c : SegCtx := { req := h.req, wr := true, oid := o.oid, sel := s.selFor o h 4, data := v, last := 0, lastData := v, status := none }
  have hopen : s.openSeg c = some (s.setSegs (s.segs ++ [c])) := by
    have hdrop : s.dropSeg c.req = s := State.dropSeg_none hn
    rw [State.openSeg_free (by rw [hdrop]; exact hfree), hdrop]
  have hkeep : (s.setSegs (s.segs ++ [c])).segKeep o h.role c = (s.setSegs (s.segs ++ [c]), St.ok) := by
    unfold State.segKeep
    rw [if_neg (by simpa [c] using hsize), State.setSegs_segs, mapIf_last fun x hx => by simpa using List.find?_eq_none.mp hn x hx]
    rfl
  have hwrite : s.segWrite o h.role h.req (s.selFor o h 4) h.segOff v = (s.setSegs (s.segs ++ [c]), St.ok) := by
    simp [State.segWrite, State.segStart, hn, hoff, c, hopen, hkeep]
  have hroom : v < 2 ^ (8 * min 16 (o.ty.size - h.segOff)) := by simpa [hoff, Nat.min_eq_left hsize.le] using hv
  simp [State.perform, hro, hal, hwrite, Nat.not_le.mpr hroom, c]

end Transfers
/-- Settles O14: what `State.perform` comes to for each of the requests, ABORT by its context, and the two commands on the port by their own definitions. -/
theorem readsAndSegmentsAnswer : Obligations.ReadsAndSegmentsAnswer := by
  refine ⟨fun s h o => ⟨?_, ?_, ?_, ?_⟩, fun s h o v => ⟨?_, fun n => rfl, fun hd => ?_⟩⟩
  · intro hh ho hsize hal
    exact congrArg _ (State.serve_object (by decide) (by decide) hh ho (State.perform_read hsize hal))
  · intro hh ho hsize hoff hal hfree x
    refine congrArg _ (State.serve_object (by decide) (by decide) hh ho ((State.perform_segRead hal).trans ?_))
    rw [hoff, State.segRead_first hfree, if_neg (Nat.not_le.mpr hsize)]
  · intro hh ho hsize hoff hal hfree
    refine congrArg _ (State.serve_object (by decide) (by decide) hh ho ((State.perform_segRead hal).trans ?_))
    rw [hoff, State.segRead_first hfree, if_pos hsize, State.dropSeg_opened h.req rfl]
  · intro c hh hc
    exact congrArg _ ((State.serve_heard hh).trans (State.heard_abort hc))
  · intro hh ho hsize hoff hro hal hv hn hfree
    exact congrArg _ (State.serve_object (by decide) (by decide) hh ho (State.perform_segWrite_first hsize hoff hro hal hv hn hfree))
  · exact congrArg _ (if_neg (by simp [hd]))

/-! Plain writes. -/

/-- The objects whose binding write does more than set the value, or may leave it (R67, R282, R316): all of them are binding. -/
theorem bindRules_bind : ∀ o ∈ objTable, o.bind = false → o.oid ≠ O.histOwner ∧ ¬(o.oid / 256 = 0x6410 ∨ o.oid / 256 = 0x6411) ∧ o.oid ≠ O.queueTenant ∧
    o.oid ≠ O.nanTrapMode := by
  decide +kernel

/-- A write of an object that is not binding sets its value, whether a stage exists or not. -/
theorem State.servePut_plain {o : Obj} (hm : o ∈ objTable) (hb : o.bind = false) (s : State) (sel v : Nat) : s.servePut o sel v = s.put o.oid sel v := by
  obtain ⟨howner, hwin, htenant, htrap⟩ := bindRules_bind o hm hb
  unfold State.servePut
  split
  · simp [hb]
  · simp [State.bindPut, howner, hwin, htenant, htrap]

theorem State.takesWrite_mem {s : State} {h : FinfaHead} {o : Obj} {v : Nat} (ht : s.takesWrite h o v = true) : o ∈ objTable :=
  List.mem_of_find?_eq_some (State.takesWrite_find ht)

/-- Settles O15: an object that starts nothing and is not binding takes the value that is stored. -/
theorem acceptedWritesTakeTheValue : Obligations.AcceptedWritesTakeTheValue := by
  intro s h o v ht hb hout t
  have hwrite : s.doWrite o h.role (s.selFor o h 2) v = s.put o.oid (s.selFor o h 2) (storedValue o.oid v) :=
    (State.doWrite_servePut hout ..).trans (State.servePut_plain (State.takesWrite_mem ht) hb ..)
  refine ⟨congrArg _ ((State.serve_write ht).trans (congrArg (·.okTo s h 2 o 0) hwrite)), fun ho => ⟨?_, ?_⟩, fun ho => ⟨?_, ?_⟩⟩
  · exact congrArg _ (State.serveWrite_does ht ho hwrite)
  · simp [storedValue, ho]
  · exact congrArg _ (State.serveWrite_does ht ho hwrite)
  · simp [storedValue, ho]

end Sys2Proof.Machine
end

section
/-! What the stop of the block leaves (R300, R301, R335): it reports, writes BLOCK_STATE, and sends frames. -/

namespace Sys2Proof.Machine

theorem State.tellLost_sends (s : State) (cause : Nat) : s.Sends (s.tellLost cause) := by
  unfold State.tellLost
  extract_lets g own live
  refine .ite (.refl s) ?_
  split
  · exact .refl s
  · exact .ite ((State.Sends.refl s).foldl _ (fun u _ => u.sendTo_sends _)) (s.sendTo_sends _)

/-- What a stop writes, before the block tells its group. -/
theorem State.stop_counted (s : State) {code : Nat} (hc : code < 262144) (kind cause : Nat) :
    ∃ t : State, State.Counted (O.blockState :: eventObjects) s t ∧ t.obj O.blockState = 1 ∧ t.Sends (s.stop code kind cause) := by
  refine ⟨(s.report { code := code, unitKind := kind, payload := genPay 0 cause 0 }).setObj O.blockState 1, ?_, State.obj_put_same _ _ _ (by decide),
    State.tellLost_sends ..⟩
  exact ((State.report_counted s hc).mono (List.subset_cons_self ..)).put List.mem_cons_self (by decide) 1

section Stop
variable (s : State) {code : Nat} (hc : code < 262144) (kind cause : Nat)
include hc

theorem State.stop_blockState : (s.stop code kind cause).obj O.blockState = 1 := by
  obtain ⟨t, -, hstop, hsends⟩ := s.stop_counted hc kind cause
  exact (hsends.get ..).trans hstop

theorem State.stop_nv : (s.stop code kind cause).nv = s.nv := by
  obtain ⟨t, ht, -, hsends⟩ := s.stop_counted hc kind cause
  exact ((congrArg State.nv hsends.frame).trans rfl).trans ((congrArg State.nv ht.frame).trans rfl)

theorem State.stop_riseDue : (s.stop code kind cause).riseDue = s.riseDue := by
  obtain ⟨t, ht, -, hsends⟩ := s.stop_counted hc kind cause
  exact ((congrArg State.riseDue hsends.frame).trans rfl).trans ((congrArg State.riseDue ht.frame).trans rfl)

end Stop
end Sys2Proof.Machine
end

section
/-! Stores into the NV memory (R362, R388), and the restores of persistent objects (R363, R364). -/

namespace Sys2Proof.Machine

/-! Stores. -/

/-- A reset that nothing waits to release stays as it is. -/
theorem State.riseNow_undue {s : State} (h : s.riseDue = false) : s.riseNow = s := by simp [State.riseNow, h]

theorem State.riseNow_setNv {s : State} (h : s.riseDue = false) (x : Nv) : (s.setNv x).riseNow = s.setNv x := State.riseNow_undue h

theorem State.storeDone_passes {s : State} {snap : SMap Nat} {i : Nat} (hop : s.nv.op = some (.store snap i)) (hrise : s.riseDue = false) :
    s.storeDone true = s.setNv { s.nv with copies := storeInto s.nv.copies i snap, storeCount := s.nv.storeCount + 1, op := none } := by
  simp [State.storeDone, hop, State.riseNow_setNv hrise]

theorem State.repairDone_passes {s : State} {m i : Nat} (hop : s.nv.op = some (.repair m i)) (hrise : s.riseDue = false) :
    s.repairDone true = s.setNv { s.nv with
      repair := storeInto s.nv.repair i (SMap.put 0 0 m []), repairCount := s.nv.repairCount + 1, op := none } := by
  simp [State.repairDone, hop, State.riseNow_setNv hrise]

/-- A store that fails stops the block, and leaves a copy with a bad CRC. -/
def State.storeFailed (s : State) : State := (s.setNv s.nv.cut).stop 0x0909 12 3

theorem State.storeDone_fails {s : State} {snap : SMap Nat} {i : Nat} (hop : s.nv.op = some (.store snap i)) :
    s.storeDone false = s.storeFailed.riseNow := by
  simp [State.storeDone, hop, State.storeFailed]

theorem State.repairDone_fails {s : State} {m i : Nat} (hop : s.nv.op = some (.repair m i)) : s.repairDone false = s.storeFailed.riseNow := by
  simp [State.repairDone, hop, State.storeFailed]

theorem State.storeFailed_stops {s : State} (h : s.riseDue = false) : s.storeFailed.riseNow.obj O.blockState = 1 ∧ s.storeFailed.riseNow.nv = s.nv.cut := by
  have hrise : s.storeFailed.riseDue = false := (State.stop_riseDue _ (by decide) 12 3).trans h
  rw [State.riseNow_undue hrise]
  exact ⟨State.stop_blockState _ (by decide) 12 3, State.stop_nv _ (by decide) 12 3⟩

/-! The objects that a restore writes. -/

theorem SMap.look_absent {α : Type} (d : α) {m : SMap α} {k : Nat} (h : ∀ p ∈ m, p.1 ≠ k) : SMap.look d m k = d := by
  induction m with
  | nil => rfl
  | cons p m ih =>
    rw [SMap.look, if_neg (h p (by simp)).symm]
    exact ih fun q hq => h q (List.mem_cons_of_mem _ hq)

/-- An object of the table is the one of its number. -/
theorem Obj.find_of_mem {x : Obj} (hx : x ∈ objTable) : Obj.find x.oid = some x := by
  obtain ⟨before, after, hsplit⟩ := List.append_of_mem hx
  have hasc := objTable_ascends
  rw [hsplit] at hasc
  refine List.find?_eq_some_iff_append.mpr ⟨beq_self_eq_true _, before, after, hsplit, fun y hy => ?_⟩
  have hlt := (List.pairwise_append.mp hasc).2.2 y hy x List.mem_cons_self
  simp [hlt.ne]

theorem persOf_of_mem {x : Obj} (hx : x ∈ objTable) : persOf x.oid = x.pers := by simp [persOf, Obj.find_of_mem hx]

theorem okey_oid {o n : Nat} (hn : n < 262144) : okey o n / 262144 = o := by unfold okey; omega
theorem okey_sel {o n : Nat} (hn : n < 262144) : okey o n % 262144 = n := by unfold okey; omega

/-- No persistent object has a binding rule beside the device windows (R67, R316), and none is BG_MASTER. -/
theorem persistent_rules : ∀ o ∈ objTable, o.pers = .nv →
    o.oid ≠ O.histOwner ∧ o.oid ≠ O.queueTenant ∧ o.oid ≠ O.nanTrapMode ∧ o.oid ≠ O.bgMaster := by
  decide +kernel

theorem restorable_pers {role : Nat} {o : Obj} (h : restorable role o = true) : o.pers = .nv := by
  simp only [restorable, Bool.and_eq_true, beq_iff_eq] at h
  exact h.1

section Restore
variable {s t u : State} {role : Nat} {vals : SMap Nat}

/-- The entries of a restore's list are objects that it may write. -/
theorem State.restoreKeys_restorable {p : Obj × Nat} (hp : p ∈ s.restoreKeys role vals) : p.1 ∈ objTable ∧ restorable role p.1 = true ∧ p.2 < 262144 := by
  simp only [State.restoreKeys, List.mem_filterMap] at hp
  obtain ⟨k, -, hk⟩ := hp
  cases ho : Obj.find (k / 262144) with
  | none => simp [ho] at hk
  | some o =>
    rw [ho] at hk
    replace hk : (if restorable role o = true then some (o, k % 262144) else none) = some p := hk
    obtain ⟨hmay, rfl⟩ : restorable role o = true ∧ (o, k % 262144) = p := by simpa using hk
    exact ⟨List.mem_of_find?_eq_some ho, hmay, Nat.mod_lt _ (by decide)⟩

/-- An object that a restore may write is in its list, where it has left its default or the copy gives it a value. -/
theorem State.mem_restoreKeys {x : Obj} {n : Nat} (hx : x ∈ objTable) (hr : restorable role x = true) (hn : n < 262144)
    (hk : okey x.oid n ∈ s.snapshot.map (·.1) ++ vals.map (·.1)) : (x, n) ∈ s.restoreKeys role vals := by
  simp only [State.restoreKeys, List.mem_filterMap]
  refine ⟨okey x.oid n, List.mem_eraseDups.mpr hk, ?_⟩
  rw [okey_oid hn, okey_sel hn, Obj.find_of_mem hx]
  exact if_pos hr

/-- `t` is `s` but for values of the dictionary and what the device windows make stale (R282). -/
structure State.Restored (s t : State) : Prop where
  frame : t = { s with objs := t.objs, reads := t.reads, twigs := t.twigs }

theorem State.Restored.trans (h : s.Restored t) (k : t.Restored u) : s.Restored u := by
  have hu := k.frame
  rw [h.frame] at hu
  exact ⟨hu⟩

theorem State.Restored.variant (h : s.Restored t) : t.variant = s.variant := (congrArg State.variant h.frame).trans rfl
theorem State.Restored.stage (h : s.Restored t) : t.stage = s.stage := (congrArg State.stage h.frame).trans rfl
theorem State.Restored.nv (h : s.Restored t) : t.nv = s.nv := (congrArg State.nv h.frame).trans rfl

/-- The write of a persistent object without a stage sets its value. -/
theorem State.servePut_persistent {o : Obj} (ho : o ∈ objTable) (hp : o.pers = .nv) (hs : s.stage = none) (m v : Nat) :
    s.Restored (s.servePut o m v) ∧ (s.servePut o m v).objs = (s.put o.oid m v).objs := by
  obtain ⟨howner, htenant, htrap, -⟩ := persistent_rules o ho hp
  rw [State.servePut_acts hs]
  by_cases hwin : o.oid / 256 = 0x6410 ∨ o.oid / 256 = 0x6411
  · rw [State.bindPut_devwin s hwin]
    exact ⟨⟨rfl⟩, rfl⟩
  · rw [State.bindPut, if_neg howner, if_neg hwin, if_neg (fun h => htenant h.1), if_neg htrap]
    exact ⟨⟨rfl⟩, rfl⟩

/-- The values that a restore of the objects `l` leaves: those of `w` for `l`, and the old ones for all others. -/
theorem State.restored_get {w : Obj × Nat → Nat} {x : Obj} {n : Nat} (hx : x ∈ objTable) (hb : x.oid ≠ O.bgMaster) (hn : n < 262144) (l : List (Obj × Nat))
    (hl : ∀ p ∈ l, p.1 ∈ objTable ∧ p.1.pers = .nv ∧ p.2 < 262144) (s : State) (hs : s.stage = none) :
    let t := l.foldl (fun t p => t.servePut p.1 p.2 (w p)) s
    s.Restored t ∧ t.get x.oid n = if (x, n) ∈ l then w (x, n) else s.get x.oid n := by
  induction l generalizing s with
  | nil => exact ⟨⟨rfl⟩, by simp⟩
  | cons p l ih =>
    obtain ⟨hmem, hpers, hsel⟩ := hl p (by simp)
    obtain ⟨hput, hobjs⟩ := State.servePut_persistent hmem hpers hs p.2 (w p)
    obtain ⟨hrest, hget⟩ := ih (fun q hq => hl q (List.mem_cons_of_mem _ hq)) _ (hput.stage.trans hs)
    refine ⟨hput.trans hrest, hget.trans ?_⟩
    have hone : (s.servePut p.1 p.2 (w p)).get x.oid n = if (x, n) = p then w p else s.get x.oid n := by
      rw [State.get_of_objs (s := s.put p.1.oid p.2 (w p)) hput.variant hobjs]
      split
      · next e => subst e; exact State.get_put_same _ _ _ _ hb
      · next e =>
        refine State.get_put_other _ (okey_ne hn hsel ?_) hb
        by_contra hsame
        obtain ⟨hoid, hn'⟩ : x.oid = p.1.oid ∧ n = p.2 := by omega
        have hobj : some x = some p.1 := by rw [← Obj.find_of_mem hx, ← Obj.find_of_mem hmem, hoid]
        exact e (Prod.ext (Option.some.inj hobj) hn')
    rw [hone]
    grind

/-- A restore gives each object that the role may write its value in `vals`, or its default, and leaves every other object. -/
theorem State.restoreTo_get {x : Obj} {n : Nat} (hx : x ∈ objTable) (hb : x.oid ≠ O.bgMaster) (hn : n < 262144) (hs : s.stage = none) (vals : SMap Nat) :
    s.Restored (s.restoreTo role vals) ∧ (s.restoreTo role vals).get x.oid n =
      if restorable role x = true then SMap.look (odfl s.variant x.oid n) vals (okey x.oid n) else s.get x.oid n := by
  have hl : ∀ p ∈ s.restoreKeys role vals, p.1 ∈ objTable ∧ p.1.pers = .nv ∧ p.2 < 262144 := fun p hp =>
    have ⟨hmem, hmay, hsel⟩ := State.restoreKeys_restorable hp
    ⟨hmem, restorable_pers hmay, hsel⟩
  obtain ⟨hrest, hget⟩ := State.restored_get (w := fun p => SMap.look (odfl s.variant p.1.oid p.2) vals (okey p.1.oid p.2)) hx hb hn _ hl s hs
  refine ⟨hrest, hget.trans ?_⟩
  by_cases hin : (x, n) ∈ s.restoreKeys role vals
  · rw [if_pos hin, if_pos (State.restoreKeys_restorable hin).2.1]
  rw [if_neg hin]
  split
  · next hr =>
    have hkey : okey x.oid n ∉ s.snapshot.map (·.1) ++ vals.map (·.1) := fun hk => hin (State.mem_restoreKeys hx hr hn hk)
    rw [List.mem_append, not_or] at hkey
    have hvals : ∀ p ∈ vals, p.1 ≠ okey x.oid n := fun p hp e => hkey.2 (e ▸ List.mem_map_of_mem hp)
    have hobjs : ∀ p ∈ s.objs, p.1 ≠ okey x.oid n := fun p hp e =>
      hkey.1 (e ▸ List.mem_map_of_mem (List.mem_filter.mpr ⟨hp, by simp [e, okey_oid hn, persOf_of_mem hx, restorable_pers hr]⟩))
    simp [State.get, hb, SMap.look_absent _ hvals, SMap.look_absent _ hobjs]
  · rfl

end Restore

/-! The writes that begin them. -/

section Begin
variable {s : State} {h : FinfaHead} {o : Obj} {v : Nat}

/-- RESTORE is refused while a stage exists (R363), and while an operation on the NV memory is under way. -/
theorem State.nvRestore_idle (ht : s.takesWrite h o v = true) (ho : o.oid = O.nvRestore) : s.stage = none ∧ s.nv.op = none := by
  have hw := State.takesWrite_notRefused ht
  constructor
  · simp only [State.writeRefused, ho, Bool.or_eq_false_iff] at hw
    simpa using hw.2
  · simp only [State.takesWrite, Bool.and_eq_true] at ht
    have hop := ht.1.1.1.2
    simpa [ho] using hop

end Begin

theorem State.restoreDone_runs {s : State} {role k : Nat} (hop : s.nv.op = some (.restore role k)) (hr : s.inReset = false) :
    s.restoreDone = ((s.setNv { s.nv with op := none }).bump O.nvCorrected 0 32 k).restoreTo role (copyVals s.nv.copies) := by
  have hheld : (s.coldHeld || s.warmHeld) = false := hr
  simp [State.restoreDone, hop, hheld]

/-- No restore writes the count of corrected errors. -/
theorem nvCorrected_readOnly (role : Nat) : ∃ c ∈ objTable, c.oid = O.nvCorrected ∧ restorable role c = false :=
  have hfind : Obj.find O.nvCorrected = some (ob O.nvCorrected .u32 .ro 0 .none) := by decide +kernel
  ⟨_, List.mem_of_find?_eq_some hfind, rfl, rfl⟩

/-- Settles O19: the writes by their branch of `State.doWrite`, the ends of the stores by what the store comes to, and the restores by the value that each object of their list takes. -/
theorem nvStoresAndRestores : Obligations.NvStoresAndRestores := by
  refine ⟨fun s h o v => ⟨fun ht ho => ?_, fun ht ho => ?_, fun snap i hop hrise => ⟨?_, s.storeFailed.riseNow, ?_⟩,
      fun m i hop hrise => ⟨?_, s.storeFailed.riseNow, ?_⟩⟩,
    fun s h o ho => ⟨fun ht => ?_, fun k ht => ?_, fun role k hop hreset hs => ?_⟩⟩
  · exact congrArg _ (State.serveWrite_does ht ho (by simp [State.doWrite, ho]))
  · exact congrArg _ (State.serveWrite_does ht ho (by simp [State.doWrite, ho]))
  · exact congrArg _ (State.storeDone_passes hop hrise)
  · exact ⟨congrArg Host.Outcome.next (State.storeDone_fails hop), State.storeFailed_stops hrise⟩
  · exact congrArg _ (State.repairDone_passes hop hrise)
  · exact ⟨congrArg Host.Outcome.next (State.repairDone_fails hop), State.storeFailed_stops hrise⟩
  · refine ⟨s.restoreTo h.role [], congrArg _ (State.serveWrite_does ht ho (by simp [State.doWrite, ho])),
      State.byte_of_base (State.restoreTo_base ..), fun x hx n hn hr => ?_⟩
    obtain ⟨-, hget⟩ := State.restoreTo_get (role := h.role) hx (persistent_rules x hx (restorable_pers hr)).2.2.2 hn (State.nvRestore_idle ht ho).1 []
    rw [hget, if_pos hr]
    rfl
  · have hdone := State.serveWrite_does ht ho (t := s.setNv { s.nv with op := some (.restore h.role 0) }) (by simp [State.doWrite, ho])
    refine congrArg _ ((congrArg (·.restoreErrs s k) hdone).trans ?_)
    rw [State.restoreErrs, (State.nvRestore_idle ht ho).2]
    rfl
  · let u := (s.setNv { s.nv with op := none }).bump O.nvCorrected 0 32 k
    have hdone : s.restoreDone = u.restoreTo role (copyVals s.nv.copies) := State.restoreDone_runs hop hreset
    obtain ⟨c, hc, hoid, hcount⟩ := nvCorrected_readOnly role
    obtain ⟨hrest, hget⟩ := State.restoreTo_get (s := u) (role := role) (n := 0) hc (by rw [hoid]; decide) (by decide) hs (copyVals s.nv.copies)
    rw [hcount, if_neg Bool.false_ne_true, hoid] at hget
    refine ⟨_, congrArg Host.Outcome.next hdone, hrest.nv ▸ rfl, State.byte_of_base (State.restoreTo_base ..),
      hget.trans (State.get_bump_same _ O.nvCorrected 0 32 k (by decide)), fun x hx n hn hr => ?_⟩
    obtain ⟨-, hx'⟩ := State.restoreTo_get (s := u) (role := role) hx (persistent_rules x hx (restorable_pers hr)).2.2.2 hn hs (copyVals s.nv.copies)
    exact hx'.trans (if_pos hr)

end Sys2Proof.Machine
end

section
/-! The throttle level (R384), temperature (R385, R386), the clock monitor (R393, R414) and the governor (R17, R18). -/

namespace Sys2Proof.Machine

/-- The highest of the three sources becomes the level, and what the level before it froze goes on as far as the new one does not. -/
theorem State.throttle_to {s x : State} {n : Nat} (hlevel : x.obj O.throttleLevel = s.obj O.throttleLevel)
    (hn : max (x.obj O.thrInput) (max (x.obj O.thermalLevel) (x.obj O.throttleForce)) = n) :
    let t := x.setObj O.throttleLevel n
    x.throttle = t.thaw (s.segFrozen && !t.segFrozen) (s.lanFrozen && !t.lanFrozen) := by
  subst hn
  unfold State.throttle State.segFrozen State.lanFrozen
  rw [hlevel]

theorem State.thr_drives {s : State} (hr : s.inReset = false) (hpow : s.obj O.powerState ≠ 3) (v : Nat) :
    s.thr v = ((s.setThrPin (v % 8)).setObj O.thrInput (v % 8)).throttle := by
  have hheld : s.coldHeld = false ∧ s.warmHeld = false := by simpa [State.inReset] using hr
  exact if_neg (by simp [hheld, hpow])

/-! Temperature. -/

theorem hottest_mem {l : List Int} {k j : Nat} {u : Int} (h : hottest l k = some (j, u)) : u ∈ l := by
  induction l generalizing k j u with
  | nil => cases h
  | cons x l ih =>
    rw [hottest] at h
    split at h
    · obtain ⟨-, rfl⟩ := by simpa using h
      exact List.mem_cons_self
    · next j' u' hl =>
      split at h
      · obtain ⟨-, rfl⟩ := by simpa using h
        exact List.mem_cons_self
      · obtain ⟨-, rfl⟩ := by simpa using h
        exact List.mem_cons_of_mem _ (ih hl)

/-- The first of the highest readings, counted from `k` on. -/
theorem hottest_eq {l : List Int} {i : Nat} {t : Int} (hi : l[i]? = some t) (hmax : ∀ x ∈ l, x ≤ t) (hfirst : ∀ j < i, l[j]? ≠ some t) (k : Nat) :
    hottest l k = some (k + i, t) := by
  induction l generalizing i k with
  | nil => simp at hi
  | cons x l ih =>
    have hmax' : ∀ y ∈ l, y ≤ t := fun y hy => hmax y (List.mem_cons_of_mem _ hy)
    cases i with
    | zero =>
      obtain rfl : x = t := by simpa using hi
      cases hl : hottest l (k + 1) with
      | none => simp [hottest, hl]
      | some p => simp [hottest, hl, hmax' p.2 (hottest_mem hl)]
    | succ i =>
      have hrest := ih (k := k + 1) (by simpa using hi) hmax' (fun j hj => by simpa using hfirst (j + 1) (by omega))
      have hx : x ≠ t := by simpa using hfirst 0 (by omega)
      have hlow : ¬t ≤ x := fun hle => hx (le_antisymm (hmax x List.mem_cons_self) hle)
      simp only [hottest, hrest, if_neg hlow, Nat.add_right_comm, Nat.add_assoc]

/-- The readings, the highest and the peak kept (R386). -/
def State.tempKept (s : State) (l : List Nat) (t : Int) : State :=
  let s1 := (s.setObj O.tempTable (ofBytes (l.flatMap (toBytes 2)))).setObj O.tempMax (trunc2 16 t)
  if sext 16 (s.obj O.tempPeak) < t then s1.setObj O.tempPeak (trunc2 16 t) else s1

theorem State.tempKept_counted (s : State) (l : List Nat) (t : Int) : State.Counted [O.tempTable, O.tempMax, O.tempPeak] s (s.tempKept l t) := by
  have h1 : State.Counted [O.tempTable, O.tempMax, O.tempPeak] s ((s.setObj O.tempTable (ofBytes (l.flatMap (toBytes 2)))).setObj O.tempMax (trunc2 16 t)) :=
    ((State.Counted.refl s).put (by decide) (by decide) _).put (by decide) (by decide) _
  exact .ite (h1.put (by decide) (by decide) _) h1

/-- What a change of the thermal level comes to, where the readings' highest is `t`, of sensor `i` (R385). -/
def State.heated (s : State) (i : Nat) (t : Int) : State :=
  let cur := s.obj O.thermalLevel
  let new := thermalOf (s.obj O.tempWarn) (s.obj O.tempHot) (s.obj O.tempCrit) t
  let fell := (s.setObj O.thermalLevel new).throttle
  if cur < new then
    fell.report { code := 0x0A01, payload := genPay 0 ((if new = 7 then 3 else if new = 5 then 2 else 1) * 2 ^ 24 + i) (trunc2 16 t) }
  else if new < cur ∧ t + (s.obj O.tempHyst : Int) < (s.threshold cur : Int) then fell else s

/-- TEMP_READ of a block that runs keeps the readings and moves the level by the highest. -/
theorem State.tempRead_heats {s : State} (hr : s.inReset = false) (hp : s.phase ≠ 0) (hpow : s.obj O.powerState ≠ 3) {readings : List Nat} {i : Nat} {t : Int}
    (hhot : hottest (((readings.take (s.obj O.tempSensors)).map (fun x => x % 65536)).map (sext 16)) 0 = some (i, t)) :
    s.tempRead readings = (s.tempKept ((readings.take (s.obj O.tempSensors)).map (fun x => x % 65536)) t).heated i t := by
  have hheld : (s.coldHeld || s.warmHeld) = false := hr
  have hpeak : ∀ a b, ((s.setObj O.tempTable a).setObj O.tempMax b).obj O.tempPeak = s.obj O.tempPeak := fun a b =>
    (State.obj_setObj_other _ _ (by decide) (by decide)).trans (State.obj_setObj_other _ _ (by decide) (by decide))
  simp only [State.tempRead, hhot, hheld, hp, hpow, hpeak, decide_false, Bool.or_false, Bool.false_eq_true, if_false]
  rfl

/-! The clock monitor and the governor. -/

theorem b2n_or (p q : Prop) [Decidable p] [Decidable q] : b2n (decide p || decide q) = if p ∨ q then 1 else 0 := by
  simp [b2n]

/-- Both clocks are kept, and each that is outside its range is counted (R414). -/
theorem State.clocks_measured {s : State} (hr : s.inReset = false) (hpow : s.obj O.powerState ≠ 3) (l m : Nat) :
    s.clocks l m = ((s.setObj O.lclkKhz (l % 2 ^ 32)).setObj O.mclkKhz (m % 2 ^ 32)).bump O.clockOutOfRange 0 32
      ((if l < 1000000 ∨ 1400000 < l then 1 else 0) + (if m < 100000 ∨ 400000 < m then 1 else 0)) := by
  have hheld : s.coldHeld = false ∧ s.warmHeld = false := by simpa [State.inReset] using hr
  rw [← b2n_or, ← b2n_or]
  exact if_neg (by simp [hheld, hpow])

/-- GOVERNOR_WINDOW in a block that is live (R17, R18). -/
theorem State.governor_runs {s : State} (hl : s.live = true) : s.governor =
    (List.range s.nArr).foldl (fun t a => t.bump O.freezeCycles a 32 ((List.range s.governed).filter (fun i => (s.gov.next + i) % s.nArr == a)).length)
      (((if s.governs then s.tickFree else s).setGov { fJ := 0, next := (s.gov.next + s.governed) % s.nArr }).bump O.governorFrozen 0 32 s.governed) := by
  simp [State.governor, hl]

/-- Settles O26: the throttle by its level, the sensors by the highest reading, the monitor and the governor by their one branch that acts. -/
theorem throttleAndSensors : Obligations.ThrottleAndSensors := by
  refine ⟨?_, ?_, fun s => ⟨fun l m hr hpow => ?_, fun hl acts hacts => ?_⟩⟩
  · intro s hr hpow at'
    refine ⟨fun h o v ht ho => ?_, fun v => ?_, fun x => rfl⟩
    · have hforce : s.force v = at' (s.setObj O.throttleForce v) (max (s.obj O.thrInput) (max (s.obj O.thermalLevel) v)) := by
        refine State.throttle_to (State.obj_setObj_other _ _ (by decide) (by decide)) ?_
        rw [State.obj_setObj_other s v (by decide) (by decide), State.obj_setObj_other s v (by decide) (by decide), State.obj_put_same _ _ _ (by decide)]
      have hwrite : s.doWrite o h.role (s.selFor o h 2) v = s.force v := by simp [State.doWrite, ho]
      exact congrArg _ (State.serveWrite_does ht ho (hwrite.trans hforce))
    · have hlevel : ((s.setThrPin (v % 8)).setObj O.thrInput (v % 8)).obj O.throttleLevel = s.obj O.throttleLevel :=
        State.obj_setObj_other _ _ (by decide) (by decide)
      refine congrArg _ ((State.thr_drives hr hpow v).trans (State.throttle_to hlevel ?_))
      rw [State.obj_put_same _ _ _ (by decide), State.obj_setObj_other _ _ (by decide) (by decide), State.obj_setObj_other _ _ (by decide) (by decide)]
      rfl
  · intro s readings i t hr hp hpow l at' hi hmax hfirst s1 s2 cur new limit fell
    have hhot : hottest at' 0 = some (i, t) := by simpa using hottest_eq hi hmax hfirst 0
    have hkept : ∀ {o : Nat}, o ∉ [O.tempTable, O.tempMax, O.tempPeak] → o ≠ O.bgMaster → s2.obj o = s.obj o := fun ho hb =>
      (s.tempKept_counted l t).get ho hb (by decide)
    refine congrArg _ ((State.tempRead_heats hr hp hpow hhot).trans ?_)
    show s2.heated i t = _
    unfold State.heated State.threshold thermalOf
    rw [hkept (by decide) (by decide), hkept (by decide) (by decide), hkept (by decide) (by decide), hkept (by decide) (by decide), hkept (by decide) (by decide)]
  · exact congrArg _ (State.clocks_measured hr hpow l m)
  · have hgov : acts = s.governs := by
      rw [Bool.eq_iff_iff, hacts]
      simp [State.governs, imp_iff_not_or]
    subst hgov
    exact congrArg _ (State.governor_runs hl)

end Sys2Proof.Machine
end

section
/-! What events and frames sent together leave of the state (R306 to R315, R328). -/

namespace Sys2Proof.Machine

/-- `t` is `s` but for events, for the objects of the numbers `os`, and for what the ports of the Belfry send. -/
structure State.Tells (os : List Nat) (s t : State) : Prop where
  frame : t = { s with objs := t.objs, evbuf := t.evbuf, evSeq := t.evSeq, fatalRaised := t.fatalRaised, bports := t.bports, btx := t.btx }
  get : ∀ {o n : Nat}, o ∉ os → o ≠ O.bgMaster → n < 262144 → t.get o n = s.get o n

section Tells
variable {os : List Nat} {s t u : State}

theorem State.Tells.refl (s : State) : State.Tells os s s := ⟨rfl, fun _ _ _ => rfl⟩

theorem State.Tells.trans (h : State.Tells os s t) (k : State.Tells os t u) : State.Tells os s u := by
  refine ⟨?_, fun ho hb hn => (k.get ho hb hn).trans (h.get ho hb hn)⟩
  have hu := k.frame
  rw [h.frame] at hu
  exact hu

theorem State.Counted.tells (h : State.Counted os s t) : State.Tells os s t :=
  ⟨h.frame.trans (by rw [h.frame]), h.get⟩

theorem State.Sends.tells (h : s.Sends t) : State.Tells os s t :=
  ⟨h.frame.trans (by rw [h.frame]; rfl), fun _ _ _ => h.get ..⟩

theorem State.Tells.mono {os' : List Nat} (ho : os ⊆ os') (h : State.Tells os s t) : State.Tells os' s t := ⟨h.frame, fun hn => h.get (fun hm => hn (ho hm))⟩

theorem State.Tells.foldl {α : Type} (h : State.Tells os s t) (l : List α) {f : State → α → State} (hf : ∀ (u : State) a, State.Tells os u (f u a)) :
    State.Tells os s (l.foldl f t) :=
  List.foldlRecOn l f (motive := State.Tells os s) h (fun _ hu a _ => hu.trans (hf _ a))

theorem State.Tells.obj (h : State.Tells os s t) {o : Nat} (ho : o ∉ os) (hb : o ≠ O.bgMaster) : t.obj o = s.obj o := h.get ho hb (by decide)
theorem State.Tells.group (h : State.Tells os s t) : t.group = s.group := (congrArg State.group h.frame).trans rfl
theorem State.Tells.cycle (h : State.Tells os s t) : t.cycle = s.cycle := (congrArg State.cycle h.frame).trans rfl
theorem State.Tells.tb (h : State.Tells os s t) : t.tb = s.tb := (congrArg State.tb h.frame).trans rfl
theorem State.Tells.rate (h : State.Tells os s t) : t.rate = s.rate := (congrArg State.rate h.frame).trans rfl
theorem State.Tells.stage (h : State.Tells os s t) : t.stage = s.stage := (congrArg State.stage h.frame).trans rfl
theorem State.Tells.draining (h : State.Tells os s t) : t.draining = s.draining := (congrArg State.draining h.frame).trans rfl
theorem State.Tells.base (h : State.Tells os s t) : t.base = s.base := (congrArg State.base h.frame).trans rfl

end Tells

theorem State.toChildren_sends (s : State) (ftype a0 a1 : Nat) (p : List Nat) : s.Sends (s.toChildren ftype a0 a1 p) :=
  (State.Sends.refl s).foldl _ (fun u _ => u.sendTo_sends _)

end Sys2Proof.Machine
end

section
/-! Bell 0 (R376, R380), and the formation of a group without the absent (R375). -/

namespace Sys2Proof.Machine

/-! What opens with bell 0, before it forms. -/

/-- At start-up phase 4 begins, and streams that the sapling service left are taken as admitted into bell 0 (R378). -/
def State.bell0Begun (s : State) : State :=
  let boot := s.phase == 3
  let s := if boot then (s.tickFree.setObj O.startupTime (Config.startupTime s.freeCtr).toNat).setObj O.startupPhase 4 else s
  if boot then (s.setQueues (s.queues.map (fun (q, (x : QRt)) =>
    (q, { x with infl := x.infl.map adopted, inBell := x.infl.any (fun d => d.sap && !(adopted d).sap) })))) else s

/-- The bell is open, with the binding objects as they stand. -/
def State.bell0Opened (s : State) : State :=
  ((((((s.setObj O.bellResetState 0).setObj O.bellNumber 0).setBell .open).setOpenedAt s.cycle).setOverrun false).takeBinding 0)

/-- Bell 0 as its formation begins: at start-up the requests for a power state are acted on from here on (R381). -/
def State.bell0Ready (s : State) : State :=
  if s.phase == 3 then (s.bell0Begun.bell0Opened.setPstateAck 0).powerAsk else s.bell0Begun.bell0Opened

theorem State.openBell0_eq (s : State) : s.openBell0 =
    ((s.bell0Ready.beginForm 0).setDue ((s.bell0Ready.beginForm 0).openedAt + (s.bell0Ready.beginForm 0).form.period)).formed := rfl

/-- A request for a power state asks for no pre-emption while no drain runs. -/
theorem State.powerAsk_frame {s : State} (hd : s.draining = false) :
    s.powerAsk = { s with exiting := s.powerAsk.exiting, moving := s.powerAsk.moving, draining := s.powerAsk.draining } := by
  unfold State.powerAsk
  extract_lets want cur at' c t
  split
  · rfl
  split
  · split
    · rfl
    · split <;> rfl
  split
  · rfl
  split
  · rfl
  split
  · rfl
  · have ht : t.draining = false := hd
    rw [if_neg (by simp [ht])]
    rfl

/-- The binding objects are taken as they stand where no stage exists (R340). -/
theorem State.takeBinding_unstaged {s : State} (hs : s.stage = none) (b : Nat) : s.takeBinding b = (s.setDigest (some s.objs)).setObj O.digestBell b := by
  simp [State.takeBinding, State.applyEpoch, hs]

def bell0Objects : List Nat := [O.startupTime, O.startupPhase, O.bellResetState, O.bellNumber, O.digestBell]

/-- `t` is `s` as the passing to bell 0 may change it. -/
structure State.Begun (s t : State) : Prop where
  frame : t = { s with objs := t.objs, freeCtr := t.freeCtr, queues := t.queues, bell := t.bell, openedAt := t.openedAt, overrun := t.overrun
                       digest := t.digest }
  get : ∀ {o n : Nat}, o ∉ bell0Objects → o ≠ O.bgMaster → n < 262144 → t.get o n = s.get o n

/-- What is open as bell 0 begins to form. -/
structure State.OpensBell0 (s u : State) : Prop where
  base : u.base = s.base
  group : u.group = s.group
  get : ∀ {o n : Nat}, o ∉ bell0Objects → o ≠ O.bgMaster → n < 262144 → u.get o n = s.get o n
  bell : u.bell = .open
  bellNo : u.bellNo = 0
  openedAt : u.openedAt = s.cycle
  resetState : u.obj O.bellResetState = 0

section Bell0
variable {s t u : State}

theorem State.Begun.refl (s : State) : s.Begun s := ⟨rfl, fun _ _ _ => rfl⟩

theorem State.Begun.trans (h : s.Begun t) (k : t.Begun u) : s.Begun u := by
  refine ⟨?_, fun ho hb hn => (k.get ho hb hn).trans (h.get ho hb hn)⟩
  have hu := k.frame
  rw [h.frame] at hu
  exact hu

theorem State.Begun.base (h : s.Begun t) : t.base = s.base := (congrArg State.base h.frame).trans rfl
theorem State.Begun.group (h : s.Begun t) : t.group = s.group := (congrArg State.group h.frame).trans rfl
theorem State.Begun.cycle (h : s.Begun t) : t.cycle = s.cycle := (congrArg State.cycle h.frame).trans rfl
theorem State.Begun.stage (h : s.Begun t) : t.stage = s.stage := (congrArg State.stage h.frame).trans rfl
theorem State.Begun.draining (h : s.Begun t) : t.draining = s.draining := (congrArg State.draining h.frame).trans rfl

theorem State.Begun.setObj (h : s.Begun t) {o : Nat} (ho : o ∈ bell0Objects) (v : Nat) : s.Begun (t.setObj o v) :=
  h.trans ⟨rfl, fun ho' hb hn => State.get_put_oid t (fun e => ho' (e ▸ ho)) hb (by decide) hn⟩

theorem State.bell0Begun_begun (s : State) : s.Begun s.bell0Begun := by
  have htick : s.Begun s.tickFree := ⟨rfl, fun _ _ _ => rfl⟩
  unfold State.bell0Begun
  extract_lets boot s1
  have h1 : s.Begun s1 := by
    unfold s1
    split
    · exact (htick.setObj (by decide) _).setObj (by decide) _
    · exact .refl s
  split
  · exact h1.trans ⟨rfl, fun _ _ _ => rfl⟩
  · exact h1

theorem State.bell0Begun_phase (h : s.phase = 3) : s.bell0Begun.phase = 4 := by
  have hboot : (s.phase == 3) = true := by simp [h]
  simp only [State.bell0Begun, hboot, if_true]
  exact State.obj_put_same (s.tickFree.setObj O.startupTime (Config.startupTime s.freeCtr).toNat) O.startupPhase 4 (by decide)

theorem State.bell0Opened_opens (hs : s.stage = none) : s.Begun s.bell0Opened ∧ s.OpensBell0 s.bell0Opened ∧ s.bell0Opened.phase = s.phase := by
  let x := (s.setObj O.bellResetState 0).setObj O.bellNumber 0
  let y := ((x.setBell .open).setOpenedAt s.cycle).setOverrun false
  have hx : s.Begun x := ((State.Begun.refl s).setObj (by decide) 0).setObj (by decide) 0
  have hxy : x.Begun y := ⟨rfl, fun _ _ _ => rfl⟩
  have hreset : x.obj O.bellResetState = 0 := (State.obj_setObj_other _ _ (by decide) (by decide)).trans (State.obj_put_same _ _ _ (by decide))
  have hphase : x.phase = s.phase := (State.obj_setObj_other _ _ (by decide) (by decide)).trans (State.obj_setObj_other _ _ (by decide) (by decide))
  have hy : s.bell0Opened = (y.setDigest (some y.objs)).setObj O.digestBell 0 := State.takeBinding_unstaged (s := y) hs 0
  have hz : y.Begun (y.setDigest (some y.objs)) := ⟨rfl, fun _ _ _ => rfl⟩
  have hobj : ∀ {o : Nat}, o ≠ O.digestBell → o ≠ O.bgMaster → s.bell0Opened.obj o = x.obj o := fun ho hb => by
    rw [hy]; exact State.obj_setObj_other _ _ ho hb
  have hbegun : s.Begun s.bell0Opened := by
    rw [hy]
    exact ((hx.trans hxy).trans hz).setObj (o := O.digestBell) (by decide) 0
  exact ⟨hbegun, ⟨hbegun.base, hbegun.group, hbegun.get, hy ▸ rfl, (hobj (by decide) (by decide)).trans (State.obj_put_same _ _ _ (by decide)),
    hy ▸ rfl, (hobj (by decide) (by decide)).trans hreset⟩, (hobj (by decide) (by decide)).trans hphase⟩

/-- The requests for a power state leave what is open. -/
theorem State.OpensBell0.powerAsk (h : s.OpensBell0 t) (hd : t.draining = false) : s.OpensBell0 t.powerAsk ∧ t.powerAsk.phase = t.phase := by
  have hask := State.powerAsk_frame hd
  generalize t.powerAsk = u at hask ⊢
  have hget : ∀ o n, u.get o n = t.get o n := State.get_of_objs ((congrArg State.variant hask).trans rfl) ((congrArg State.objs hask).trans rfl)
  exact ⟨⟨((congrArg State.base hask).trans rfl).trans h.base, ((congrArg State.group hask).trans rfl).trans h.group, fun ho hb hn => (hget ..).trans (h.get ho hb hn),
    ((congrArg State.bell hask).trans rfl).trans h.bell, (hget O.bellNumber 0).trans h.bellNo, ((congrArg State.openedAt hask).trans rfl).trans h.openedAt,
    (hget O.bellResetState 0).trans h.resetState⟩, hget O.startupPhase 0⟩

theorem State.OpensBell0.setPstateAck (h : s.OpensBell0 t) (x : Nat) : s.OpensBell0 (t.setPstateAck x) :=
  have hget : ∀ o n, (t.setPstateAck x).get o n = t.get o n := State.get_of_objs rfl rfl
  ⟨h.base, h.group, fun ho hb hn => (hget ..).trans (h.get ho hb hn), h.bell, (hget O.bellNumber 0).trans h.bellNo, h.openedAt, (hget ..).trans h.resetState⟩

theorem State.OpensBell0.of_begun (h : s.Begun t) (k : t.OpensBell0 u) : s.OpensBell0 u :=
  ⟨k.base.trans h.base, k.group.trans h.group, fun ho hb hn => (k.get ho hb hn).trans (h.get ho hb hn), k.bell, k.bellNo,
    k.openedAt.trans h.cycle, k.resetState⟩

theorem State.bell0Ready_opens (hs : s.stage = none) (hd : s.draining = false) : s.OpensBell0 s.bell0Ready ∧ (s.phase = 3 → s.bell0Ready.phase = 4) := by
  have hbegun := s.bell0Begun_begun
  obtain ⟨hthen, hopen, hphase⟩ := State.bell0Opened_opens (hbegun.stage.trans hs)
  have h : s.OpensBell0 s.bell0Begun.bell0Opened := .of_begun hbegun hopen
  have hdrain : s.bell0Begun.bell0Opened.draining = false := (hbegun.trans hthen).draining.trans hd
  unfold State.bell0Ready
  split
  · obtain ⟨hask, hkept⟩ := (h.setPstateAck 0).powerAsk hdrain
    exact ⟨hask, fun hp => hkept.trans (hphase.trans (State.bell0Begun_phase hp))⟩
  · next hboot => exact ⟨h, fun hp => absurd (by simp [hp]) hboot⟩

end Bell0

/-! A member alone (R375). -/

/-- What becoming a group of one leaves, and what it sets. -/
structure State.Alone (s t : State) : Prop where
  group : t.group = { self := s.obj O.instanceId, base := s.obj O.instanceId, size := 1 }
  bgLive : t.obj O.bgLive = 1
  phase : t.phase = s.phase
  cycle : t.cycle = s.cycle
  stage : t.stage = s.stage
  draining : t.draining = s.draining

theorem State.aloneGroup_alone (s : State) : s.Alone s.aloneGroup := by
  let x : State := { s with group := { self := s.obj O.instanceId, base := s.obj O.instanceId, size := 1 }, masterDig := none }
  let y := ((x.setObj O.bgRank 0).setObj O.bgLive 1).setObj O.bgMaster (s.obj O.instanceId + 1)
  have hy : State.Counted [O.bgRank, O.bgLive, O.bgMaster] x y :=
    (((State.Counted.refl x).put (by decide) (by decide) _).put (by decide) (by decide) _).put (by decide) (by decide) _
  have hevent : State.Counted eventObjects y s.aloneGroup := State.linkEvent_counted ..
  have hlive : y.obj O.bgLive = 1 := (State.obj_setObj_other _ _ (by decide) (by decide)).trans (State.obj_put_same _ _ _ (by decide))
  have h : State.Counted ([O.bgRank, O.bgLive, O.bgMaster] ++ eventObjects) x s.aloneGroup :=
    (hy.mono (List.subset_append_left ..)).trans (hevent.mono (List.subset_append_right ..))
  have hphase : s.aloneGroup.obj O.startupPhase = x.obj O.startupPhase := h.get (by decide) (by decide) (by decide)
  have hx : x.obj O.startupPhase = s.obj O.startupPhase := State.get_of_objs rfl rfl ..
  exact
    { group := h.tells.group
      bgLive := (hevent.get (by decide) (by decide) (by decide)).trans hlive
      phase := hphase.trans hx
      cycle := h.cycle
      stage := h.tells.stage
      draining := h.tells.draining }

/-! The master that no longer waits (R375). -/

section Release
variable {s : State}

theorem State.releaseGroup_small (h : s.group.size ≤ 1) : s.releaseGroup = s.openBell0 := if_pos h

/-- The ranks that have not come, for themselves or for ranks below them. -/
def State.absentRanks (s : State) : List Nat := (List.range s.group.size).filter (fun r => !(r ∈ s.presentRanks))

/-- The stamp of bell 0 for the ranks that have come. -/
def State.formStamp (s : State) : Nat := (s.arrived (s.tb / 2 ^ 32)).1 + s.obj O.tollMargin * 65536

/-- The group without the absent ranks. -/
def State.withoutAbsent (s : State) : State :=
  s.updGroup (fun g => { g with lost := s.absentRanks, told := s.absentRanks, arrivals := [], sentUp := false })

/-- The group has been told of its release and of its losses, before time passes to the stamp. -/
def State.releasedGroup (s : State) : State :=
  s.absentRanks.foldl (fun t r => (t.toChildren 8 r 2 []).linkEvent 4 0xFF (s.group.base + r))
    ((s.withoutAbsent.setObj O.bgLive (s.group.size - s.absentRanks.length)).sendRelease allOnes s.formStamp (crc64 (digestBytes s.get)) (0xFFFF, 0))

theorem State.releaseGroup_large (h : 1 < s.group.size) : s.releaseGroup =
    (s.releasedGroup.until (s.releasedGroup.cycleOf s.formStamp)).openBell0.updGroup (fun g => { g with ownDigest := crc64 (digestBytes s.get) }) :=
  if_neg (Nat.not_le.mpr h)

theorem State.releasedGroup_tells (s : State) :
    State.Tells eventObjects (s.withoutAbsent.setObj O.bgLive (s.group.size - s.absentRanks.length)) s.releasedGroup :=
  (State.toChildren_sends ..).tells.foldl _ (fun t _ => (t.toChildren_sends ..).tells.trans (State.linkEvent_counted ..).tells)

/-- The frames and events of the release take no time. -/
theorem State.releasedGroup_cycleOf (s : State) (stamp : Nat) : s.releasedGroup.cycleOf stamp = s.cycleOf stamp := by
  have h := s.releasedGroup_tells
  have htb : s.releasedGroup.tb = s.tb := h.tb
  have hcycle : s.releasedGroup.cycle = s.cycle := h.cycle
  have hrate : s.releasedGroup.rate = s.rate := h.rate
  unfold State.cycleOf
  rw [htb, hcycle, hrate]

/-- The time that passes leaves the group. -/
theorem State.until_group (s : State) (c : Nat) : (s.until c).group = s.group := by
  obtain ⟨t, tb, ht, h⟩ := s.until_counted c
  rw [h]
  exact ht.tells.group

end Release

/-- Settles O32: the member alone by the state that its bell 0 opens in, the master by the two cases of `State.releaseGroup`. -/
theorem groupsFormWithoutTheAbsent : Obligations.GroupsFormWithoutTheAbsent := by
  intro s hg
  refine ⟨fun hd hs => ?_, fun hm hsize => ?_, ?_, fun hm => ?_⟩
  · have halone := s.aloneGroup_alone
    obtain ⟨hopen, hphase⟩ := State.bell0Ready_opens (halone.stage.trans hs) (halone.draining.trans hd)
    have hexec : s.formAlone = s.aloneGroup.openBell0 := if_pos hg
    refine ⟨s.aloneGroup.bell0Ready, congrArg Host.Outcome.next (hexec.trans (State.openBell0_eq _)), hopen.bell, hopen.bellNo, hopen.openedAt.trans halone.cycle, ?_, ?_,
      (hopen.get (by decide) (by decide) (by decide)).trans halone.bgLive, hopen.resetState, fun hp => hphase (halone.phase.trans hp), ?_⟩
    · rw [hopen.group, halone.group]
    · rw [hopen.group, halone.group]
    · exact State.byte_of_base (hopen.base.trans (State.aloneGroup_base s))
  · exact congrArg Host.Outcome.next ((if_pos (by simp [hg, hm])).trans (State.releaseGroup_small hsize))
  · intro hm hsize gone stamp
    refine ⟨s.releasedGroup.until (s.releasedGroup.cycleOf s.formStamp), congrArg Host.Outcome.next ((if_pos (by simp [hg, hm])).trans (State.releaseGroup_large hsize)), ?_⟩
    have h := s.releasedGroup_tells
    have hgroup : (s.releasedGroup.until (s.releasedGroup.cycleOf s.formStamp)).group = s.withoutAbsent.group := (State.until_group ..).trans h.group
    refine ⟨congrArg Group.lost hgroup, congrArg Group.arrivals hgroup, ?_, ?_⟩
    · exact (State.until_obj _ _ (by decide) (by decide)).trans ((h.obj (by decide) (by decide)).trans (State.obj_put_same _ _ _ (by decide)))
    · rw [State.until_cycle, State.releasedGroup_cycleOf]
      exact le_max_right _ _
  · exact congrArg _ (if_neg (by simp [hm]))

end Sys2Proof.Machine
end

section
/-! Requests for power states, entries and exits (R381, R382, R389). -/

namespace Sys2Proof.Machine

/-! Requests. -/

/-- The bell at whose close a move may begin: that of a move which waits, or else by POWER_AT_BELL. -/
def State.moveBell (s : State) : Nat :=
  match s.moving with
  | some (_, c) => c
  | none => if s.obj O.powerAtBell ≤ s.bellNo then 0 else s.obj O.powerAtBell - 1

/-- What a request comes to in a block that runs and does not drain, in or out of a power state: it ends a move, begins the exit, or names the move's target. -/
def State.asked (s : State) (cur bell : Nat) : State :=
  if s.powerWanted = cur then ((s.setExiting false).setMoving none).setDraining false
  else if s.powerWanted < cur then ((s.setExiting true).setMoving none).setDraining false
  else (s.setExiting false).setMoving (some (s.powerWanted, bell))

/-- The block runs, out of SLEEP, and drains for no move. -/
structure State.Steady (s : State) : Prop where
  reset : s.inReset = false
  stopped : s.stopped = false
  phase : s.phase = 4
  power : s.obj O.powerState ≠ 3
  draining : s.draining = false

theorem State.Steady.powerAsk {s : State} (h : s.Steady) : s.powerAsk = s.asked (s.obj O.powerState) s.moveBell := by
  have hheld : (s.coldHeld || s.warmHeld) = false := h.reset
  have hbell : (if s.obj O.powerAtBell = 0 ∨ s.obj O.powerAtBell ≤ s.bellNo then 0 else s.obj O.powerAtBell - 1) =
      if s.obj O.powerAtBell ≤ s.bellNo then 0 else s.obj O.powerAtBell - 1 := if_congr (by omega) rfl rfl
  unfold State.powerAsk State.asked State.moveBell
  extract_lets want cur at' c t
  have hdrain : t.draining = false := h.draining
  rw [if_neg (by simp [hheld]), if_neg (by simp [h.stopped]), if_neg (by simp [h.phase]), if_neg (ne_true_of_eq_false hdrain)]
  unfold t c at'
  rw [hbell] <;> rfl

/-- The state that a request comes to keeps the dictionary. -/
theorem State.asked_obj (s : State) (cur bell o : Nat) : (s.asked cur bell).obj o = s.obj o := by
  unfold State.asked
  split
  · rfl
  · split <;> rfl

/-- A request written to an object that names no power state, or put on the pins, moves as one that is made of the state before it. -/
theorem State.Steady.asks {s s1 : State} (hr : s.Steady) (hu : s1.inReset = s.inReset) (hd : s1.draining = s.draining) (hm : s1.moving = s.moving)
    (ho : ∀ o ∈ [O.blockState, O.startupPhase, O.powerState, O.powerAtBell, O.bellNumber], s1.obj o = s.obj o) :
    s1.powerAsk = s1.asked (s.obj O.powerState) s.moveBell := by
  simp only [List.forall_mem_cons, List.not_mem_nil, false_implies, implies_true, and_true] at ho
  obtain ⟨hstop, hphase, hpower, hat, hbell⟩ := ho
  have hs1 : s1.Steady := ⟨hu.trans hr.reset, (congrArg (· == 1) hstop).trans hr.stopped, hphase.trans hr.phase, hpower.trans_ne hr.power,
    hd.trans hr.draining⟩
  have hno : s1.bellNo = s.bellNo := hbell
  rw [hs1.powerAsk, hpower, State.moveBell, State.moveBell, hm, hat, hno]

/-- Out of SLEEP nothing begins a cold start. -/
theorem State.wakeNow_awake {s : State} (h : s.obj O.powerState ≠ 3) : s.wakeNow = s := if_neg (fun hw => h hw.1)

section Requests
variable {s : State} (hr : s.Steady)
include hr

theorem State.Steady.writeRequest {h : FinfaHead} {o : Obj} {v : Nat} (ht : s.takesWrite h o v = true) (ho : o.oid = O.powerRequest) :
    exec (.powerRequest h v) s = .next (((s.setObj O.powerRequest v).asked (s.obj O.powerState) s.moveBell).okTo s h 2 o 0) := by
  refine congrArg Host.Outcome.next (State.serveWrite_does ht ho ?_)
  rw [← hr.asks (s1 := s.setObj O.powerRequest v) rfl rfl rfl]
  · simp [State.doWrite, ho]
  · simp only [List.forall_mem_cons, List.not_mem_nil, false_implies, implies_true, and_true]
    exact ⟨s.obj_setObj_other _ (by decide) (by decide), s.obj_setObj_other _ (by decide) (by decide), s.obj_setObj_other _ (by decide) (by decide),
      s.obj_setObj_other _ (by decide) (by decide), s.obj_setObj_other _ (by decide) (by decide)⟩

theorem State.Steady.pinRequest (v : Nat) :
    exec (.pstateReq v) s = .next ((s.setPstateReq (v % 4)).asked (s.obj O.powerState) s.moveBell) := by
  have hask := hr.asks (s1 := s.setPstateReq (v % 4)) rfl rfl rfl (fun _ _ => rfl)
  have hwake : ((s.setPstateReq (v % 4)).powerAsk).wakeNow = (s.setPstateReq (v % 4)).powerAsk := by
    refine State.wakeNow_awake ?_
    rw [hask, State.asked_obj]
    exact hr.power
  exact congrArg Host.Outcome.next (hwake.trans hask)

end Requests

/-! Entries and exits. -/

/-- The block is in power state `t`, and PSTATE_ACK says so. -/
def State.reached (s : State) (t : Nat) : State := (((s.setObj O.powerState t).setPstateAck t).setMoving none).setDraining false

/-- What power state `t` loses and counts. -/
def State.loses (s : State) : Nat → State
  | 1 => s.bump O.dozeEntries 0 32 1
  | 2 => s.napLoss.bump O.napEntries 0 32 1
  | _ => s.setSegs []

/-- A move whose drain is complete reaches its target, and to SLEEP the group is told first. -/
theorem State.powerEntry_reaches {s : State} {t c : Nat} (hr : s.inReset = false) (hm : s.moving = some (t, c)) (hd : s.draining = true)
    (hdr : s.powerDrained t = true) (hn : t = 3 → s.nv.op = none) : ∃ u, s.Sends u ∧ s.powerEntry = (u.reached t).loses t := by
  have hheld : (s.coldHeld || s.warmHeld) = false := hr
  have hop : (t == 3 && s.nv.op.isSome) = false := by
    by_cases ht : t = 3
    · simp [hn ht]
    · simp [ht]
  have hgo : ¬(!s.draining || s.coldHeld || s.warmHeld || !s.powerDrained t || (t == 3 && s.nv.op.isSome)) = true := by
    simpa [hd, hdr, hop] using hheld
  refine ⟨_, .ite (c := t = 3 ∧ (!s.stopped) = true) (s.tellLost_sends 3) (.refl s), ?_⟩
  simp only [State.powerEntry, hm]
  exact if_neg hgo

/-- The objects, PSTATE_ACK and the move stay. -/
structure State.KeepsMove (s t : State) : Prop where
  obj : ∀ o, t.obj o = s.obj o
  ack : t.pstateAck = s.pstateAck
  moving : t.moving = s.moving
  draining : t.draining = s.draining

section Nap
variable {s t : State} (h : s.KeepsMove t)

theorem State.KeepsMove.refl (s : State) : s.KeepsMove s := ⟨fun _ => rfl, rfl, rfl, rfl⟩

include h

theorem State.KeepsMove.trans {u : State} (k : t.KeepsMove u) : s.KeepsMove u :=
  ⟨fun o => (k.obj o).trans (h.obj o), k.ack.trans h.ack, k.moving.trans h.moving, k.draining.trans h.draining⟩

theorem State.KeepsMove.setReads (r : Reads) : s.KeepsMove (t.setReads r) := h.trans ⟨fun _ => rfl, rfl, rfl, rfl⟩
theorem State.KeepsMove.setReqs (l : List MemReq) : s.KeepsMove (t.setReqs l) := h.trans ⟨fun _ => rfl, rfl, rfl, rfl⟩
theorem State.KeepsMove.setTwigs (l : List TwigEntry) : s.KeepsMove (t.setTwigs l) := h.trans ⟨fun _ => rfl, rfl, rfl, rfl⟩
theorem State.KeepsMove.setStore (l : List StoreEnt) : s.KeepsMove (t.setStore l) := h.trans ⟨fun _ => rfl, rfl, rfl, rfl⟩
theorem State.KeepsMove.setHolds (m : SMap (Option (Nat × Nat × Nat))) : s.KeepsMove (t.setHolds m) := h.trans ⟨fun _ => rfl, rfl, rfl, rfl⟩
theorem State.KeepsMove.setRing (l : List Captured) : s.KeepsMove (t.setRing l) := h.trans ⟨fun _ => rfl, rfl, rfl, rfl⟩
theorem State.KeepsMove.setChans (m : SMap Chan) : s.KeepsMove (t.setChans m) := h.trans ⟨fun _ => rfl, rfl, rfl, rfl⟩

end Nap

/-- NAP gives up requests, drops what it caches and marks its channels' tiles. -/
theorem State.napLoss_eq (s : State) : ∃ l m,
    s.napLoss = (((((((s.setReads {}).setReqs l).setTwigs []).setStore []).setHolds []).setRing []).setChans m) := ⟨_, _, rfl⟩

theorem State.napLoss_keepsMove (s : State) : s.KeepsMove s.napLoss := by
  obtain ⟨l, m, h⟩ := s.napLoss_eq
  rw [h]
  exact (((((((State.KeepsMove.refl s).setReads _).setReqs l).setTwigs _).setStore _).setHolds _).setRing _).setChans m

/-- What an entry loses and counts leaves POWER_STATE, PSTATE_ACK and the move. -/
theorem State.loses_frame (s : State) {t : Nat} (h1 : 1 ≤ t) (h3 : t ≤ 3) :
    (s.loses t).obj O.powerState = s.obj O.powerState ∧ (s.loses t).pstateAck = s.pstateAck ∧ (s.loses t).moving = s.moving ∧
      (s.loses t).draining = s.draining := by
  obtain rfl | rfl | rfl : t = 1 ∨ t = 2 ∨ t = 3 := by omega
  · exact ⟨s.obj_setObj_other _ (by decide) (by decide), rfl, rfl, rfl⟩
  · have hk := s.napLoss_keepsMove
    exact ⟨(s.napLoss.obj_setObj_other _ (by decide) (by decide)).trans (hk.obj _), hk.ack, hk.moving, hk.draining⟩
  · exact ⟨rfl, rfl, rfl, rfl⟩

theorem State.reached_obj (s : State) {t o : Nat} (ho : o ≠ O.powerState) (hb : o ≠ O.bgMaster) : (s.reached t).obj o = s.obj o :=
  s.obj_setObj_other _ ho hb

/-- Settles O25: a steady block's request is `State.asked`, an entry is `State.reached` and what its state loses, and an exit sets the state asked for. -/
theorem powerStatesMove : Obligations.PowerStatesMove := by
  refine ⟨fun s s1 hreset hstop hphase hpower hdrain => ?_, fun s hreset => ⟨fun t c hm ht1 ht3 hd hdr hn => ?_, fun hx hfrom => ?_⟩⟩
  · have hr : s.Steady := ⟨hreset, hstop, hphase, hpower, hdrain⟩
    intro moved
    constructor
    · rintro h o v ht ho rfl
      exact hr.writeRequest ht ho
    · rintro v rfl
      exact hr.pinRequest v
  · obtain ⟨u, hu, hentry⟩ := State.powerEntry_reaches hreset hm hd hdr hn
    have hx : s.powerEntry.base = s.base := s.powerEntry_base
    obtain ⟨hps, hack, hmov, hdra⟩ := (u.reached t).loses_frame ht1 ht3
    rw [hentry] at hx
    have hcount : ∀ o, o ≠ O.powerState → o ≠ O.bgMaster → (u.reached t).obj o = s.obj o := fun o ho hb => (u.reached_obj ho hb).trans (hu.get ..)
    refine ⟨_, congrArg Host.Outcome.next hentry, hps.trans (u.obj_put_same _ _ (by decide)), hack, hmov, hdra, ?_, ?_, ?_, State.byte_of_base hx⟩
    · rintro rfl
      have hc : (u.reached 1).get O.dozeEntries 0 = s.obj O.dozeEntries := hcount _ (by decide) (by decide)
      exact ((u.reached 1).get_bump_same _ _ _ _ (by decide)).trans (by rw [hc])
    · rintro rfl
      have hc : (u.reached 2).napLoss.get O.napEntries 0 = s.obj O.napEntries :=
        ((u.reached 2).napLoss_keepsMove.obj _).trans (hcount _ (by decide) (by decide))
      exact ⟨rfl, rfl, ((u.reached 2).napLoss.get_bump_same _ _ _ _ (by decide)).trans (by rw [hc])⟩
    · rintro rfl
      rfl
  · have hheld : (s.coldHeld || s.warmHeld) = false := hreset
    refine ⟨_, congrArg Host.Outcome.next (if_neg ?_), rfl⟩
    rcases hfrom with h | ⟨h, hl, hsp⟩
    · simpa [hx, h] using hheld
    · simpa [hx, h, hl, hsp] using hheld

end Sys2Proof.Machine
end

section
/-! What the resets lose and keep (R373, R379, R389, R397). -/

namespace Sys2Proof

/-- A map filtered by its keys reads the default at the keys that it loses. -/
theorem SMap.look_filter {α : Type} (d : α) (p : Nat → Bool) (m : SMap α) (k : Nat) :
    SMap.look d (m.filter (fun e => p e.1)) k = if p k = true then SMap.look d m k else d := by
  induction m with
  | nil => simp [SMap.look]
  | cons e m ih =>
    rw [List.filter_cons]
    by_cases hk : k = e.1
    · by_cases hp : p e.1 = true
      · simp [hp, hk, SMap.look]
      · simp only [hp, hk, if_false, Bool.false_eq_true]
        refine Machine.SMap.look_absent d (fun x hx hxe => hp ?_)
        rw [← hxe]
        exact (List.mem_filter.1 hx).2
    · by_cases hp : p e.1 = true
      · simp only [hp, if_true, SMap.look, hk, if_false]
        exact ih
      · simp only [hp, SMap.look, hk, if_false, Bool.false_eq_true]
        exact ih

namespace Machine

/-- What runs has ended; host memory and the waiting commands stay. -/
structure State.Ended (s t : State) : Prop where
  queues : t.queues = []
  routs : t.routs = []
  reqs : t.reqs = []
  evbuf : t.evbuf = []
  bell : t.bell = .none
  mem : t.mem = s.mem
  pending : t.pending = s.pending

/-- What a cold reset leaves (R373). -/
structure State.Cold (s t : State) : Prop extends State.Ended s t where
  coldHeld : t.coldHeld = true
  warmHeld : t.warmHeld = false
  objs : t.objs = []
  nv : t.nv = s.nv.cut

/-- An object that a warm reset keeps (R379). -/
def warmKeeps (o : Nat) : Bool := persOf o == .nv || persOf o == .always || o == O.testModeState

/-- What a warm reset leaves (R379). -/
structure State.Warm (s t : State) : Prop extends State.Ended s t where
  coldHeld : t.coldHeld = false
  warmHeld : t.warmHeld = true
  evSeq : t.evSeq = s.evSeq
  tb : t.tb = s.tb
  pstateAck : t.pstateAck = s.pstateAck
  variant : t.variant = s.variant
  objs : t.objs = s.objs.filter (fun e => warmKeeps (e.1 / 262144))

theorem State.coldReset_cold (s : State) : s.Cold s.coldReset := by
  refine ⟨⟨?_, ?_, ?_, ?_, ?_, ?_, ?_⟩, ?_, ?_, ?_, ?_⟩
  all_goals simp only [State.coldReset, State.outside, State.resetOf]

theorem State.warmReset_warm (s : State) : s.Warm s.warmReset := by
  refine ⟨⟨?_, ?_, ?_, ?_, ?_, ?_, ?_⟩, ?_, ?_, ?_, ?_, ?_, ?_, ?_⟩
  all_goals simp only [State.warmReset, State.outside, State.resetOf, State.setObjs, State.setEvSeq, State.setTb, State.setRate, State.setTestMode,
    State.setBports, State.setColdHeld, State.setWarmHeld, State.setWarmStart, State.setPstateAck]
  rfl

theorem State.Warm.get {s t : State} (h : s.Warm t) {x n : Nat} (hx : x ≠ O.bgMaster) (hn : n < 262144) :
    t.get x n = if persOf x = .nv ∨ persOf x = .always ∨ x = O.testModeState then s.get x n else odfl s.variant x n := by
  simp only [State.get, h.objs, h.variant, SMap.look_filter _ (fun k => warmKeeps (k / 262144)), okey_oid hn, ne_eq, hx, not_false_eq_true, if_true]
  exact if_congr (by simp [warmKeeps, or_assoc]) rfl rfl

/-! A reset held with its rise due. -/

theorem State.Ended.setRiseDue {s t : State} (h : s.Ended t) (b : Bool) : s.Ended (t.setRiseDue b) :=
  ⟨h.queues, h.routs, h.reqs, h.evbuf, h.bell, h.mem, h.pending⟩

theorem State.Ended.setTestMode {s t : State} (h : s.Ended t) (b : Bool) : s.Ended (t.setTestMode b) :=
  ⟨h.queues, h.routs, h.reqs, h.evbuf, h.bell, h.mem, h.pending⟩

theorem State.Ended.setWirs {s t : State} (h : s.Ended t) (l : List (Macro × Nat)) : s.Ended (t.setWirs l) :=
  ⟨h.queues, h.routs, h.reqs, h.evbuf, h.bell, h.mem, h.pending⟩

theorem State.Cold.setRiseDue {s t : State} (h : s.Cold t) (b : Bool) : s.Cold (t.setRiseDue b) :=
  ⟨h.toEnded.setRiseDue b, h.coldHeld, h.warmHeld, h.objs, h.nv⟩

theorem State.Cold.setTestMode {s t : State} (h : s.Cold t) (b : Bool) : s.Cold (t.setTestMode b) :=
  ⟨h.toEnded.setTestMode b, h.coldHeld, h.warmHeld, h.objs, h.nv⟩

theorem State.Cold.setWirs {s t : State} (h : s.Cold t) (l : List (Macro × Nat)) : s.Cold (t.setWirs l) :=
  ⟨h.toEnded.setWirs l, h.coldHeld, h.warmHeld, h.objs, h.nv⟩

theorem State.Warm.setRiseDue {s t : State} (h : s.Warm t) (b : Bool) : s.Warm (t.setRiseDue b) :=
  ⟨h.toEnded.setRiseDue b, h.coldHeld, h.warmHeld, h.evSeq, h.tb, h.pstateAck, h.variant, h.objs⟩

/-! The commands. -/

section Commands
variable {s : State}

theorem State.warmReset_acts (hr : s.inReset = false) (ha : s.warmAsk = false) (hp : s.obj O.powerState ≠ 3)
    (hs : ¬(2 ≤ s.obj O.powerState ∧ s.supplied = false)) : s.warmStart' = s.warmReset := by
  obtain ⟨hc, hw⟩ := Bool.or_eq_false_iff.1 hr
  simp [State.warmStart', hc, hw, ha, hs, State.warmAct, hp]

theorem State.warmReset_waits (hr : s.inReset = false) (ha : s.warmAsk = false) (hp : 2 ≤ s.obj O.powerState) (hs : s.supplied = false) :
    s.warmStart' = s.setWarmAsk true := by
  obtain ⟨hc, hw⟩ := Bool.or_eq_false_iff.1 hr
  simp [State.warmStart', hc, hw, ha, hp, hs]

end Commands

section Supplies
variable {s : State} (hr : s.inReset = false) (hp : s.obj O.powerState < 2)
include hr hp

/-- A fall of the Lantern supply, or of the Spire's, is a warm reset. -/
theorem State.pgFall_warm {d : Domain} (hd : d = .lane ∨ d = .spire) :
    ∃ t, s.pgFall d = t.setRiseDue true ∧ s.Warm t ∧ (d = .lane → t.pgLane = false) ∧ (d = .spire → t.pgSpire = false) := by
  have hheld : (s.coldHeld || s.warmHeld) = false := hr
  have hawake : ¬(s.coldHeld || s.warmHeld || decide (2 ≤ s.obj O.powerState)) = true := by simp [hheld]; omega
  rcases hd with rfl | rfl
  · have hw := (s.setPgLane false).warmReset_warm
    refine ⟨_, if_neg hawake, ⟨⟨hw.queues, hw.routs, hw.reqs, hw.evbuf, hw.bell, hw.mem, hw.pending⟩, hw.coldHeld, hw.warmHeld, hw.evSeq, hw.tb,
      hw.pstateAck, hw.variant, hw.objs⟩, fun _ => rfl, nofun⟩
  · have hw := (s.setPgSpire false).warmReset_warm
    refine ⟨_, if_neg hawake, ⟨⟨hw.queues, hw.routs, hw.reqs, hw.evbuf, hw.bell, hw.mem, hw.pending⟩, hw.coldHeld, hw.warmHeld, hw.evSeq, hw.tb,
      hw.pstateAck, hw.variant, hw.objs⟩, nofun, fun _ => rfl⟩

/-- A fall of the always-on supply, or of the NV store's, is a cold reset. -/
theorem State.pgFall_cold {d : Domain} (hd : d = .aon ∨ d = .nv) :
    ∃ t b, s.pgFall d = (t.setRiseDue true).setTestMode b ∧ s.Cold t ∧ (d = .aon → t.pgAon = false) ∧ (d = .nv → t.pgNv = false) := by
  obtain ⟨hc, -⟩ := Bool.or_eq_false_iff.1 hr
  rcases hd with rfl | rfl
  · have hcold := (s.setPgAon false).coldReset_cold
    refine ⟨_, _, if_neg (by simp [hc]; omega), ⟨⟨hcold.queues, hcold.routs, hcold.reqs, hcold.evbuf, hcold.bell, hcold.mem, hcold.pending⟩, hcold.coldHeld,
      hcold.warmHeld, hcold.objs, hcold.nv⟩, fun _ => rfl, nofun⟩
  · have hcold := (s.setPgNv false).coldReset_cold
    refine ⟨_, _, if_neg (by simp [hc]), ⟨⟨hcold.queues, hcold.routs, hcold.reqs, hcold.evbuf, hcold.bell, hcold.mem, hcold.pending⟩, hcold.coldHeld,
      hcold.warmHeld, hcold.objs, hcold.nv⟩, nofun, fun _ => rfl⟩

end Supplies

/-- Settles O28: each fall and reset is a `State.coldReset` or a `State.warmReset`, whose dictionary is the old one filtered by its keys. -/
theorem resetsKeepWhatLiesOutside : Obligations.ResetsKeepWhatLiesOutside := by
  intro s empty cold warm
  have hempty : ∀ {t : State}, s.Ended t → empty t := fun h => ⟨h.queues, h.routs, h.reqs, h.evbuf, h.bell, h.mem, h.pending⟩
  have hcold : ∀ {t : State}, s.Cold t → cold t := fun h => ⟨hempty h.toEnded, h.coldHeld, h.warmHeld, h.objs, h.nv⟩
  have hwarm : ∀ {t : State}, s.Warm t → warm t := fun h =>
    ⟨hempty h.toEnded, h.coldHeld, h.warmHeld, h.evSeq, h.tb, h.pstateAck, fun _ _ hx hn => h.get hx hn⟩
  refine ⟨fun p => ?_, fun hr ha hp hs => ⟨_, congrArg Host.Outcome.next (State.warmReset_acts hr ha hp hs), hwarm s.warmReset_warm⟩,
    fun hr ha hp hs => congrArg Host.Outcome.next (State.warmReset_waits hr ha hp hs), fun d hr hp => ?_⟩
  · cases p with
    | false => exact ⟨_, rfl, hcold s.coldReset_cold, rfl⟩
    | true => exact ⟨_, rfl, hcold (s.coldReset_cold.setWirs []), rfl⟩
  · by_cases hd : d = .lane ∨ d = .spire
    · obtain ⟨t, hfall, ht, hlane, hspire⟩ := State.pgFall_warm hr hp hd
      have hw := hwarm (ht.setRiseDue true)
      refine ⟨_, congrArg Host.Outcome.next hfall, rfl, fun h => ⟨hlane h, hw⟩, fun h => ⟨hspire h, hw⟩, ?_, ?_⟩
      · rintro rfl; simp at hd
      · rintro rfl; simp at hd
    · have hd' : d = .aon ∨ d = .nv := by cases d <;> simp at hd ⊢
      obtain ⟨t, b, hfall, ht, haon, hnv⟩ := State.pgFall_cold hr hp hd'
      have hc := hcold ((ht.setRiseDue true).setTestMode b)
      exact ⟨_, congrArg Host.Outcome.next hfall, rfl, fun h => absurd (.inl h) hd, fun h => absurd (.inr h) hd, fun h => ⟨haon h, hc⟩,
        fun h => ⟨hnv h, hc⟩⟩

end Machine
end Sys2Proof
end

section
/-! Start-up (R373, R374, R364, R379, R387, R390, R409). -/

namespace Sys2Proof.Machine

/-! Nothing that the throttle froze goes on where no queue holds work and the block is not live. -/

section Idle
variable {s : State} (hq : s.queues = [])
include hq

theorem State.dfind_idle (q n : Nat) : s.dfind q n = none := by simp [State.dfind, State.queue, hq, SMap.look, qfind]

theorem State.redOf_idle (o : Option (Nat × Nat)) : s.redOf o = none := by
  cases o with
  | none => rfl
  | some o => simp [State.redOf, State.dfind_idle hq]

theorem State.climb_idle (g tag n : Nat) : s.climb g tag n = s := by
  cases n with
  | zero => rfl
  | succ n =>
    rw [State.climb]
    cases s.findRed g tag with
    | none => rfl
    | some c => simp [State.redOf_idle hq]

theorem State.joinAll_idle : s.joinAll = s := by
  refine List.foldlRecOn s.waitTiles _ (motive := fun t => t = s) rfl (fun t ht e _ => ?_)
  subst ht
  obtain ⟨seg, o⟩ := e
  cases o with
  | none => rfl
  | some o => simp [State.tagged, State.tagHolder, hq]

theorem State.redResume_idle (hl : s.live = false) : s.redResume = s := by
  unfold State.redResume
  refine (congrArg State.redSpace (List.foldlRecOn s.reds _ (motive := fun t => t = s) rfl (fun t ht c _ => ?_))).trans ?_
  · subst ht
    cases c.owner with
    | none => rfl
    | some o => simp [State.redReady, State.redWrite, State.redOf_idle hq, State.climb_idle hq]
  · simp [State.redSpace, hl]

theorem State.thaw_idle (hl : s.live = false) (segs lans : Bool) : s.thaw segs lans = s := by
  have hconv : s.convResume = s := by simp [State.convResume, hq]
  cases segs <;> cases lans <;> simp [State.thaw, hconv, State.joinAll_idle hq, State.redResume_idle hq hl]

end Idle

/-! A reset rises. -/

/-- The objects that a start sets. -/
def riseObjects : List Nat := [O.blockState, O.startupPhase, O.resetCause, O.thrInput, O.throttleLevel]

/-- `t` is `s` started for `cause`: it is in phase 1 at cycle 0, out of reset and without its dictionary. -/
structure State.Started (cause : Nat) (s t : State) : Prop where
  phase : t.phase = 1
  resetCause : t.obj O.resetCause = cause
  cycle : t.cycle = 0
  inReset : t.inReset = false
  loaded : t.loaded = false
  riseDue : t.riseDue = false
  mem : t.mem = s.mem
  get : ∀ {o : Nat}, o ∉ riseObjects → o ≠ O.bgMaster → t.obj o = s.obj o

/-- The logic out of reset at cycle 0, before its objects are set. -/
def State.released (s : State) : State := ((((s.setColdHeld false).setWarmHeld false).setRiseDue false).setCycle 0).setLoaded false

theorem State.released_eq (s : State) : s.released = { s with coldHeld := false, warmHeld := false, riseDue := false, cycle := 0, loaded := false } := by
  simp only [State.released, State.setColdHeld, State.setWarmHeld, State.setRiseDue, State.setCycle, State.setLoaded]

/-- The objects of a start, but for the throttle level. -/
def State.starting (s : State) (cause : Nat) : State :=
  (((s.setObj O.blockState 0).setObj O.startupPhase 1).setObj O.resetCause cause).setObj O.thrInput s.thrPin

theorem State.starting_counted (s : State) (cause : Nat) : State.Counted riseObjects s (s.starting cause) :=
  ((((State.Counted.refl s).put (by decide) (by decide) _).put (by decide) (by decide) _).put (by decide) (by decide) _).put (by decide) (by decide) _

theorem State.starting_phase (s : State) (cause : Nat) : (s.starting cause).obj O.startupPhase = 1 :=
  ((State.obj_setObj_other _ _ (by decide) (by decide)).trans (State.obj_setObj_other _ _ (by decide) (by decide))).trans (State.obj_put_same _ _ _ (by decide))

theorem State.starting_cause (s : State) (cause : Nat) : (s.starting cause).obj O.resetCause = cause :=
  (State.obj_setObj_other _ _ (by decide) (by decide)).trans (State.obj_put_same _ _ _ (by decide))

theorem State.rise_eq (s : State) (cause : Nat) : s.rise cause = (s.released.starting cause).throttle := rfl

theorem State.rise_started {s : State} (hq : s.queues = []) (cause : Nat) : State.Started cause s (s.rise cause) := by
  have hout := s.released_eq
  rw [State.rise_eq]
  generalize s.released = v at hout
  have hcount := v.starting_counted cause
  have hphase := v.starting_phase cause
  have hcause := v.starting_cause cause
  generalize v.starting cause = u at hcount hphase hcause
  unfold State.throttle
  extract_lets t
  have ht : State.Counted riseObjects v t := hcount.put (by decide) (by decide) _
  have htp : t.obj O.startupPhase = 1 := (u.obj_setObj_other _ (by decide) (by decide)).trans hphase
  have hlive : t.live = false := by simp [State.live, State.phase, htp]
  have hobjs : ∀ o, v.obj o = s.obj o := fun o =>
    State.get_of_objs (congrArg State.variant hout) (congrArg State.objs hout) o 0
  rw [State.thaw_idle (ht.queues.trans ((congrArg State.queues hout).trans hq)) hlive]
  exact ⟨htp, (u.obj_setObj_other _ (by decide) (by decide)).trans hcause, ht.cycle.trans (congrArg State.cycle hout),
    ((congrArg State.inReset ht.frame).trans rfl).trans (congrArg State.inReset hout),
    ((congrArg State.loaded ht.frame).trans rfl).trans (congrArg State.loaded hout),
    ((congrArg State.riseDue ht.frame).trans rfl).trans (congrArg State.riseDue hout), (congrArg (fun b => b.2.2) ht.base).trans (congrArg State.mem hout),
    fun ho hb => (ht.get ho hb (by decide)).trans (hobjs _)⟩

/-! A reset that is released rises once nothing holds it. -/

/-- The reset that is held ends: its release is due, every supply is good, and no store is under way. -/
structure State.Due (s : State) : Prop where
  queues : s.queues = []
  due : s.riseDue = true
  supplied : s.supplied = true
  storing : s.nv.storing = false
  warmAsk : s.warmAsk = false
  awake : s.obj O.powerState ≠ 3

section Due
variable {s : State} (h : s.Due)
include h

theorem State.Due.rises (ht : s.testMode = false) {cause : Nat} (hc : (if s.coldHeld = true then 1 else 2) = cause) : s.riseNow = s.rise cause := by
  subst hc
  unfold State.riseNow
  rw [if_neg (by simp [h.due, h.supplied, h.storing, h.warmAsk]), if_neg (by simp [ht])]
  exact (apply_ite s.rise _ 1 2).symm

theorem State.Due.started (ht : s.testMode = false) {cause : Nat} (hc : (if s.coldHeld = true then 1 else 2) = cause) : State.Started cause s s.riseNow :=
  h.rises ht hc ▸ State.rise_started h.queues cause

/-- In test mode the reset ends and the block does not start (R409). -/
theorem State.Due.tested (ht : s.testMode = true) : s.riseNow = ((s.setColdHeld false).setWarmHeld false).setRiseDue false := by
  unfold State.riseNow
  rw [if_neg (by simp [h.due, h.supplied, h.storing, h.warmAsk]), if_pos ht]

/-- What starts is awake. -/
theorem State.Due.wakes (ht : s.testMode = false) : s.riseNow.wakeNow = s.riseNow := by
  refine State.wakeNow_awake ?_
  rw [(h.started ht rfl).get (by decide) (by decide)]
  exact h.awake

end Due

/-- A reset that waits for nothing but its release and its supplies. -/
structure State.Waits (s : State) : Prop where
  queues : s.queues = []
  storing : s.nv.storing = false
  awake : s.obj O.powerState ≠ 3
  warmAsk : s.warmAsk = false

section Release
variable {s : State} (h : s.Waits)

/-- COLD_RST_N is released, and TEST_MODE is sampled. -/
def State.uncold (s : State) (b : Bool) : State := ((s.setRiseDue true).setTestMode b).setObj O.testModeState (b2n b)

theorem State.uncold_obj (s : State) (b : Bool) {o : Nat} (ho : o ≠ O.testModeState) (hb : o ≠ O.bgMaster) : (s.uncold b).obj o = s.obj o :=
  State.obj_setObj_other _ _ ho hb

theorem State.coldRelease_eq (hc : s.coldHeld = true) (b : Bool) : s.coldRelease b = (s.uncold b).riseNow := if_neg (by simp [hc])

theorem State.warmRelease_eq (hw : s.warmHeld = true) : s.warmRelease = (s.setRiseDue true).riseNow := if_pos (by simp [hw])

theorem State.uncold_mem (s : State) (b : Bool) : (s.uncold b).mem = s.mem := by
  simp only [State.uncold, State.setRiseDue, State.setTestMode, State.setObj, State.put, State.setObjs]

/-- A reset that ends keeps the objects. -/
theorem State.ended_obj (s : State) (o : Nat) : (((s.setColdHeld false).setWarmHeld false).setRiseDue false).obj o = s.obj o := by
  simp only [State.obj, State.get, State.setColdHeld, State.setWarmHeld, State.setRiseDue]
  rfl

include h

theorem State.Waits.uncold (hs : s.supplied = true) (b : Bool) : (s.uncold b).Due :=
  ⟨h.queues, rfl, hs, h.storing, h.warmAsk, (s.uncold_obj b (by decide) (by decide)).trans_ne h.awake⟩

theorem State.Waits.due (hs : s.supplied = true) : (s.setRiseDue true).Due := ⟨h.queues, rfl, hs, h.storing, h.warmAsk, h.awake⟩

theorem State.Waits.coldStarts (hc : s.coldHeld = true) (hs : s.supplied = true) : State.Started 1 (s.uncold false) (s.coldRelease false) := by
  rw [State.coldRelease_eq hc]
  exact (h.uncold hs false).started rfl (if_pos hc)

theorem State.Waits.coldTests (hc : s.coldHeld = true) (hs : s.supplied = true) :
    s.coldRelease true = (((s.uncold true).setColdHeld false).setWarmHeld false).setRiseDue false := by
  rw [State.coldRelease_eq hc]
  exact (h.uncold hs true).tested rfl

theorem State.Waits.warmStarts (hc : s.coldHeld = false) (hw : s.warmHeld = true) (hs : s.supplied = true) (ht : s.testMode = false) :
    State.Started 2 (s.setRiseDue true) s.warmRelease := by
  rw [State.warmRelease_eq hw]
  exact (h.due hs).started ht (if_neg (ne_true_of_eq_false hc))

theorem State.Waits.warmTests (hw : s.warmHeld = true) (hs : s.supplied = true) (ht : s.testMode = true) :
    s.warmRelease = ((s.setColdHeld false).setWarmHeld false).setRiseDue false := by
  rw [State.warmRelease_eq hw]
  exact (h.due hs).tested ht

omit h in
theorem State.warmRelease_unsupplied (hw : s.warmHeld = true) (hs : s.supplied = false) : s.warmRelease = s.setRiseDue true := by
  rw [State.warmRelease_eq hw]
  exact if_pos (by simp [show (s.setRiseDue true).supplied = false from hs])

end Release

/-! A supply that comes back. -/

/-- The supply of domain `d` is within tolerance. -/
def State.powered (s : State) : Domain → State
  | .lane => s.setPgLane true
  | .spire => s.setPgSpire true
  | .aon => s.setPgAon true
  | .nv => s.setPgNv true

/-- A state that differs in its supplies alone, as far as a start reads it. -/
structure State.SameReset (s t : State) : Prop where
  queues : t.queues = s.queues
  nv : t.nv = s.nv
  riseDue : t.riseDue = s.riseDue
  warmAsk : t.warmAsk = s.warmAsk
  coldHeld : t.coldHeld = s.coldHeld
  testMode : t.testMode = s.testMode
  mem : t.mem = s.mem
  power : t.obj O.powerState = s.obj O.powerState

theorem State.powered_same (s : State) (d : Domain) : s.SameReset (s.powered d) := by
  cases d <;> exact ⟨rfl, rfl, rfl, rfl, rfl, rfl, rfl, rfl⟩

section Powered
variable {s : State} (h : s.Waits) (d : Domain)
include h

theorem State.Waits.powered : (s.powered d).Waits :=
  have hp := s.powered_same d
  ⟨hp.queues.trans h.queues, (congrArg Nv.storing hp.nv).trans h.storing, hp.power.trans_ne h.awake, hp.warmAsk.trans h.warmAsk⟩

theorem State.Waits.pgRise : s.pgRise d = (s.powered d).riseNow.wakeNow := by
  have hask : (s.powered d).askedNow = s.powered d := if_neg (by simp [(h.powered d).warmAsk])
  have heq : s.pgRise d = (s.powered d).askedNow.riseNow.wakeNow := by cases d <;> rfl
  rw [heq, hask]

theorem State.Waits.pgRise_undue (hr : s.riseDue = false) : s.pgRise d = s.powered d := by
  rw [h.pgRise, State.riseNow_undue ((s.powered_same d).riseDue.trans hr)]
  exact State.wakeNow_awake (h.powered d).awake

theorem State.Waits.poweredDue (hr : s.riseDue = true) (hs : (s.powered d).supplied = true) : (s.powered d).Due :=
  have hp := h.powered d
  ⟨hp.queues, (s.powered_same d).riseDue.trans hr, hs, hp.storing, hp.warmAsk, hp.awake⟩

theorem State.Waits.pgRise_starts (hr : s.riseDue = true) (hs : (s.powered d).supplied = true) (ht : s.testMode = false) {cause : Nat}
    (hc : (if s.coldHeld = true then 1 else 2) = cause) : State.Started cause (s.powered d) (s.pgRise d) := by
  have hsame := s.powered_same d
  have hdue := h.poweredDue d hr hs
  rw [h.pgRise, hdue.wakes (hsame.testMode.trans ht)]
  exact hdue.started (hsame.testMode.trans ht) (by rw [hsame.coldHeld]; exact hc)

theorem State.Waits.pgRise_tests (hr : s.riseDue = true) (hs : (s.powered d).supplied = true) (ht : s.testMode = true) :
    s.pgRise d = (((s.powered d).setColdHeld false).setWarmHeld false).setRiseDue false := by
  have hdue := h.poweredDue d hr hs
  rw [h.pgRise, hdue.tested ((s.powered_same d).testMode.trans ht)]
  refine State.wakeNow_awake ?_
  rw [State.ended_obj]
  exact hdue.awake

end Powered

/-! What start-up does keeps its phase. -/

/-- The start-up phase stays, and whether the dictionary is loaded. -/
structure State.SamePhase (s t : State) : Prop where
  phase : t.phase = s.phase
  loaded : t.loaded = s.loaded

section SamePhase
variable {s t u : State}

theorem State.SamePhase.refl (s : State) : s.SamePhase s := ⟨rfl, rfl⟩

theorem State.SamePhase.trans (h : s.SamePhase t) (k : t.SamePhase u) : s.SamePhase u := ⟨k.phase.trans h.phase, k.loaded.trans h.loaded⟩

theorem State.SamePhase.foldl {α : Type} (l : List α) {f : State → α → State} (hf : ∀ (u : State), ∀ a ∈ l, u.SamePhase (f u a)) (s : State) :
    s.SamePhase (l.foldl f s) :=
  List.foldlRecOn l f (motive := s.SamePhase) (.refl s) (fun _ hu a ha => hu.trans (hf _ a ha))

theorem State.SamePhase.ite {p : Prop} [Decidable p] (h : s.SamePhase t) (k : s.SamePhase u) : s.SamePhase (if p then t else u) := by
  split
  · exact h
  · exact k

theorem State.Counted.samePhase {os : List Nat} (h : State.Counted os s t) (ho : O.startupPhase ∉ os) : s.SamePhase t :=
  ⟨h.get ho (by decide) (by decide), (congrArg State.loaded h.frame).trans rfl⟩

theorem State.Sends.samePhase (h : s.Sends t) : s.SamePhase t := ⟨h.get O.startupPhase 0, (congrArg State.loaded h.frame).trans rfl⟩

theorem State.put_samePhase (s : State) {o n : Nat} (v : Nat) (ho : O.startupPhase ≠ o) (hn : n < 262144) : s.SamePhase (s.put o n v) :=
  ⟨State.get_put_oid s ho (by decide) hn (by decide), rfl⟩

theorem State.setUnit_samePhase (s : State) (kind : Nat) {u : Nat} (hu : u < 262144) (st : Nat) : s.SamePhase (s.setUnit kind u st) :=
  (s.setUnit_counted kind hu st).samePhase (by decide)

theorem State.stop_samePhase (s : State) {code : Nat} (hc : code < 262144) (kind cause : Nat) : s.SamePhase (s.stop code kind cause) := by
  obtain ⟨t, ht, -, hs⟩ := s.stop_counted hc kind cause
  exact (ht.samePhase (by decide)).trans hs.samePhase

theorem State.bypass_samePhase (s : State) {a : Nat} (c : Nat) (ha : a < 262144) : s.SamePhase (s.bypass a c) :=
  (s.put_samePhase c (by decide) ha).trans (State.put_samePhase _ 7 (by decide) ha)

end SamePhase

/-! The repair map. -/

theorem repairUnit_small {w : Nat} {r : UnitRef} (h : repairUnit w = some r) : r.unit < 262144 := by
  unfold repairUnit at h
  split at h
  · obtain rfl := Option.some.inj h
    exact (Nat.mod_lt _ (by decide)).trans (by decide)
  · cases h

theorem State.mapUnit_samePhase (s : State) {r : UnitRef} (hr : r.unit < 262144) : s.SamePhase (s.mapUnit r) := by
  unfold State.mapUnit
  extract_lets v a b w
  have hv : s.SamePhase v := ⟨rfl, rfl⟩
  split
  · have ha : a < 262144 := (Nat.div_le_self _ _).trans_lt hr
    exact .ite (hv.trans (v.bypass_samePhase _ ha)) (.ite hv (hv.trans (v.setUnit_samePhase 2 ha 1)))
  · have hw : s.SamePhase w := hv.trans (v.put_samePhase 1 (by decide) hr)
    exact .ite (hw.trans (w.put_samePhase 3 (by decide) hr)) hw
  · exact hv.trans (v.setUnit_samePhase _ hr 1)

theorem State.applyMap_samePhase (s : State) (m : Nat) : s.SamePhase (s.applyMap m) := by
  unfold State.applyMap
  extract_lets l t
  have ht : s.SamePhase t := State.SamePhase.foldl l (fun u w _ => .ite (by
    split
    · next r hr => exact u.mapUnit_samePhase (repairUnit_small hr)
    · exact .refl u) (.refl u)) s
  exact .ite (ht.trans (t.stop_samePhase (by decide) 6 8)) ht

/-- An empty repair map fences nothing. -/
theorem State.applyMap_zero {s : State} (h : s.ports ≠ []) : s.applyMap 0 = s := by
  unfold State.applyMap
  extract_lets l t
  have ht : t = s := List.foldlRecOn l _ (motive := fun t => t = s) rfl (fun u hu w hw => by
    obtain ⟨i, -, rfl⟩ := List.mem_map.1 hw
    have hword : bits 0 (32 * i) 32 = 0 := by simp [bits]
    rw [hword]
    exact hu)
  rw [ht]
  exact if_neg (by simpa using h)

/-! NV_LOAD. -/

/-- A memory port's state alone says whether it serves. -/
theorem State.ports_put (s : State) {o n : Nat} (v : Nat) (ho : O.memportState ≠ o) (hn : n < 262144) : (s.put o n v).ports = s.ports := by
  have hfew : s.nPort ≤ 262144 := by unfold State.nPort; cases s.variant <;> decide
  refine List.filter_congr (fun u hu => ?_)
  have hget : (s.put o n v).get (stateOid 6) u = s.get (stateOid 6) u :=
    State.get_put_oid s ho (by decide) hn ((List.mem_range.1 hu).trans_le hfew)
  rw [State.serves, State.serves, hget]

/-- The dictionary's values are in force, but for the repair map. -/
def State.tookNv (s : State) (corrected : Nat) : State :=
  ((((if s.warmStart then s else s.loadVals.setObj O.nvLoadStatus (loadStatus s.nv.copies)).setWarmStart false).setSleepStart false).setLoaded true).bump
    O.nvCorrected 0 32 corrected

/-- The repair map is in force, and phase 2 begins. -/
def State.tookMap (s : State) (m : Nat) : State :=
  ((s.setObj O.repairMap m).setObj O.repairLoadStatus (loadStatus s.nv.repair)).setObj O.startupPhase 2

section NvLoad
variable {s : State} (hr : s.inReset = false) (hp : s.phase = 1) (n : Nat)

theorem State.tookMap_phase (s : State) (m : Nat) : (s.tookMap m).phase = 2 := State.obj_put_same _ _ _ (by decide)

theorem State.tookMap_loaded (s : State) (m : Nat) : (s.tookMap m).loaded = s.loaded := by
  simp only [State.tookMap, State.setObj, State.put, State.setObjs]

theorem State.tookMap_ports (s : State) (m : Nat) : (s.tookMap m).ports = s.ports :=
  ((State.ports_put _ _ (by decide) (by decide)).trans (State.ports_put _ _ (by decide) (by decide))).trans (State.ports_put _ _ (by decide) (by decide))

include hr hp

theorem State.nvLoad_eq : s.nvLoad n = ((s.tookNv n).tookMap (SMap.look 0 (copyVals (s.tookNv n).nv.repair) 0)).applyMap
    (SMap.look 0 (copyVals (s.tookNv n).nv.repair) 0) := by
  obtain ⟨hc, hw⟩ := Bool.or_eq_false_iff.1 hr
  exact if_neg (by simp [hp, hc, hw])

theorem State.nvLoad_begins : (s.nvLoad n).phase = 2 ∧ (s.nvLoad n).loaded = true := by
  have hsame := ((s.tookNv n).tookMap (SMap.look 0 (copyVals (s.tookNv n).nv.repair) 0)).applyMap_samePhase
    (SMap.look 0 (copyVals (s.tookNv n).nv.repair) 0)
  rw [State.nvLoad_eq hr hp]
  exact ⟨hsame.phase.trans (State.tookMap_phase _ _), (hsame.loaded.trans (State.tookMap_loaded _ _)).trans rfl⟩

omit hr hp in
/-- Empty copies leave the defaults. -/
theorem State.tookNv_empty (hv : copyVals s.nv.copies = []) (hs : s.warmStart = false) :
    s.tookNv n = ((((s.setObj O.nvLoadStatus (loadStatus s.nv.copies)).setWarmStart false).setSleepStart false).setLoaded true).bump O.nvCorrected 0 32 n := by
  have hload : s.loadVals = s := by simp [State.loadVals, hv]
  simp [State.tookNv, hs, hload]

theorem State.nvLoad_empty (hv : copyVals s.nv.copies = []) (hm : copyVals s.nv.repair = []) (hs : s.warmStart = false) (hports : s.ports ≠ []) :
    s.nvLoad n = (((((((s.setObj O.nvLoadStatus (loadStatus s.nv.copies)).setWarmStart false).setSleepStart false).setLoaded true).bump O.nvCorrected 0 32 n).setObj
      O.repairMap 0).setObj O.repairLoadStatus (loadStatus s.nv.repair)).setObj O.startupPhase 2 := by
  have hempty := State.tookNv_empty n hv hs
  have hnv : (s.tookNv n).nv = s.nv := by
    simp only [hempty, State.bump, State.setObj, State.put, State.setObjs, State.setWarmStart, State.setSleepStart, State.setLoaded]
  have hkeep : (s.tookNv n).ports = s.ports := by
    rw [hempty]
    exact (State.ports_put _ _ (by decide) (by decide)).trans (s.ports_put _ (by decide) (by decide))
  have hzero : SMap.look 0 (copyVals (s.tookNv n).nv.repair) 0 = 0 := by rw [hnv, hm]; rfl
  rw [State.nvLoad_eq hr hp, hzero, State.applyMap_zero (by rw [State.tookMap_ports, hkeep]; exact hports), State.tookMap, hnv, hempty]

end NvLoad

/-! CORE_TEST. -/

theorem State.putMaster_samePhase (s : State) : s.SamePhase s.putMaster := by
  refine ⟨s.putMaster_get (by decide), ?_⟩
  unfold State.putMaster
  split <;> rfl

theorem State.linkEvent_samePhase (s : State) (cause port peer : Nat) : s.SamePhase (s.linkEvent cause port peer) :=
  (s.linkEvent_counted cause port peer).samePhase (by decide)

theorem State.beginGroup_samePhase (s : State) : s.SamePhase s.beginGroup := by
  unfold State.beginGroup
  extract_lets own b n inside g v w
  have hv : s.SamePhase v := .trans (t := s.setGroup g) ⟨rfl, rfl⟩ ⟨rfl, rfl⟩
  have hw : v.SamePhase w :=
    ((v.put_samePhase _ (by decide) (by decide)).trans (State.put_samePhase _ _ (by decide) (by decide))).trans (State.putMaster_samePhase _)
  exact .ite (hv.trans hw) ((hv.trans hw).trans (w.linkEvent_samePhase 2 0xFF 0))

theorem State.trainPort_samePhase (s : State) (p : Nat) : s.SamePhase (s.trainPort p) :=
  .trans (t := s.updBport p _) ⟨rfl, rfl⟩ (State.emit_sends ..).samePhase

/-- The links that have lock train, or are up where they kept it. -/
def State.trainLinks (s : State) : State :=
  (List.range 48).foldl (fun s p =>
    let b := s.bport p
    if !b.lock || s.get O.bportState p != 3 then s else if b.trained then s.setUnit 7 p 0 else s.trainPort p) s

theorem State.trainLinks_samePhase (s : State) : s.SamePhase s.trainLinks := by
  refine State.SamePhase.foldl _ (fun u p hp => ?_) s
  have hfew : p < 262144 := (List.mem_range.1 hp).trans (by decide)
  exact .ite (.refl u) (.ite (u.setUnit_samePhase 7 hfew 0) (u.trainPort_samePhase p))

theorem State.trainLinks_base (s : State) : s.trainLinks.base = s.base :=
  State.foldl_keep (fun _ _ => State.ite_keep rfl (State.ite_keep (State.setUnit_base ..) (State.trainPort_base ..))) rfl

/-- The units that failed are reported, until one stops the block. -/
def State.unitsFailed (s : State) (failed : List UnitRef) : State :=
  (sortBy (fun (r : UnitRef) => r.kind * 2 ^ 32 + r.unit) failed).foldl (fun s r => if s.stopped then s else match singularCode r.kind with
    | some c => s.stop c r.kind 8
    | none => s.bootTest r.kind r.unit [] true) s

/-- Phase 3 begins and the group begins to form. -/
def State.forms (s : State) : State := (s.setObj O.startupPhase 3).beginGroup.trainLinks

theorem State.forms_phase (s : State) : s.forms.phase = 3 :=
  ((State.beginGroup_samePhase _).trans (State.trainLinks_samePhase _)).phase.trans (State.obj_put_same _ _ _ (by decide))

theorem State.mem_of_base {s t : State} (h : t.base = s.base) : t.mem = s.mem := congrArg (·.2.2) h

theorem State.forms_mem (s : State) : s.forms.mem = s.mem :=
  State.mem_of_base (by rw [State.forms, State.trainLinks_base, State.beginGroup_base, State.setObj_base])

/-- Every singular unit has its code. -/
theorem singularCode_some {kind : Nat} (h : kind = 8 ∨ (10 ≤ kind ∧ kind ≤ 13)) : ∃ code, singularCode kind = some code ∧ code < 262144 := by
  obtain rfl | rfl | rfl | rfl | rfl : kind = 8 ∨ kind = 10 ∨ kind = 11 ∨ kind = 12 ∨ kind = 13 := by omega
  all_goals exact ⟨_, rfl, by decide⟩

section CoreTest
variable {s : State} (hr : s.inReset = false) (hp : s.phase = 2) (hs : s.stopped = false)
include hr hp hs

omit hr hp in
/-- The failed test of a singular unit stops the block at once. -/
theorem State.unitsFailed_singular {r : UnitRef} {code : Nat} (hcode : singularCode r.kind = some code) : s.unitsFailed [r] = s.stop code r.kind 8 := by
  simp [State.unitsFailed, sortBy, hs, hcode]

theorem State.coreTest_eq (failed : List UnitRef) :
    s.coreTest failed = if (s.unitsFailed failed).stopped then s.unitsFailed failed else (s.unitsFailed failed).forms.formArrive := by
  obtain ⟨hc, hw⟩ := Bool.or_eq_false_iff.1 hr
  exact if_neg (by simp [hp, hs, hc, hw])

theorem State.coreTest_passes : s.coreTest [] = s.forms.formArrive := by
  rw [State.coreTest_eq hr hp hs]
  exact if_neg (ne_true_of_eq_false hs)

theorem State.coreTest_stops {r : UnitRef} (hk : r.kind = 8 ∨ (10 ≤ r.kind ∧ r.kind ≤ 13)) :
    (s.coreTest [r]).obj O.blockState = 1 ∧ (s.coreTest [r]).phase = 2 := by
  obtain ⟨code, hcode, hsmall⟩ := singularCode_some hk
  have hblock : (s.stop code r.kind 8).obj O.blockState = 1 := State.stop_blockState s hsmall r.kind 8
  have hstop : (s.stop code r.kind 8).stopped = true := beq_iff_eq.2 hblock
  rw [State.coreTest_eq hr hp hs, State.unitsFailed_singular hs hcode, if_pos hstop]
  exact ⟨hblock, (s.stop_samePhase hsmall r.kind 8).phase.trans hp⟩

end CoreTest

/-- Settles O29: what ends a reset comes to `State.riseNow`, which throttles nothing back to work; NV_LOAD and CORE_TEST keep the phase they set. -/
theorem startUpRuns : Obligations.StartUpRuns := by
  refine ⟨fun s hq hn hp ha => ?_, fun s hr => ?_⟩
  · have h : s.Waits := ⟨hq, hn, hp, ha⟩
    intro starts
    have hstart : ∀ {c : Instr} {cause : Nat} {u t : State}, State.Started cause u t → u.mem = s.mem → exec c s = .next t → starts c cause :=
      fun ht hm hx => ⟨_, hx, ht.phase, ht.resetCause, ht.cycle, ht.inReset, ht.loaded, ht.riseDue, ht.mem.trans hm⟩
    refine ⟨fun hc hs => ⟨hstart (h.coldStarts hc hs) (s.uncold_mem _) rfl, _, congrArg Host.Outcome.next (h.coldTests hc hs), rfl, rfl,
        (State.ended_obj _ _).trans (s.uncold_obj true (by decide) (by decide))⟩,
      fun hc hw hs ht => hstart (h.warmStarts hc hw hs ht) rfl rfl, fun _ hw hs ht => congrArg Host.Outcome.next (h.warmTests hw hs ht),
      fun _ hw hs => congrArg Host.Outcome.next (State.warmRelease_unsupplied hw hs), fun d => ?_⟩
    intro t
    have ht : t = s.powered d := by cases d <;> rfl
    rw [ht]
    have hmem := (s.powered_same d).mem
    exact ⟨fun hr => congrArg Host.Outcome.next (h.pgRise_undue d hr),
      fun hr hs hc htm => hstart (h.pgRise_starts d hr hs htm (if_pos hc)) hmem rfl,
      fun hr hs hc htm => hstart (h.pgRise_starts d hr hs htm (if_neg (ne_true_of_eq_false hc))) hmem rfl,
      fun hr hs htm => congrArg Host.Outcome.next (h.pgRise_tests d hr hs htm)⟩
  · refine ⟨fun n hp => ?_, fun hp hs => ?_⟩
    · obtain ⟨hphase, hloaded⟩ := State.nvLoad_begins hr hp n
      exact ⟨⟨_, rfl, hphase, hloaded, State.mem_of_base (s.nvLoad_base n)⟩,
        fun hv hm hws hports => congrArg Host.Outcome.next (State.nvLoad_empty hr hp n hv hm hws hports)⟩
    · exact ⟨⟨_, congrArg Host.Outcome.next (State.coreTest_passes hr hp hs), s.forms_phase, s.forms_mem⟩,
        fun r hk => ⟨_, rfl, State.coreTest_stops hr hp hs hk⟩⟩

end Sys2Proof.Machine
end
